-- ==== Sys2Proof/Word.lean ====
section
/-! DEFINITION. The plain data of the device's words: bytes, lanes, 64-bit scalars, the names of fragments and of the
words a fragment may watch, and what the outside world sends. -/

namespace Sys2Proof

/-- A byte of memory. -/
abbrev Byte := BitVec 8

/-- A 64-bit scalar, special register or memory word (R79). -/
abbrev Word := BitVec 64

/-- One 32-bit slot of a vector or predicate register (R79). -/
abbrev Lane := BitVec 32

/-- A fragment of a resident wave of a core (R126, R127). -/
structure FragId where
  core : Nat
  wave : Nat
  frag : Nat
  deriving DecidableEq, Repr

/-- The fragment's numbers lie in the ranges of R12, R15 and R127. -/
def FragId.valid (f : FragId) : Bool := decide (f.core < 256 ∧ f.wave < 64 ∧ f.frag < 8)

/-- The row number of a wave in the tables of State. -/
def FragId.waveKey (f : FragId) : Nat := f.core * 64 + f.wave

/-- The row number of a fragment in the tables of State. -/
def FragId.key (f : FragId) : Nat := f.waveKey * 8 + f.frag

/-- What a read set can hold: a sector of memory or a hardware state word (R214, R226). Tile, counter, free-block and
bank words belong to one core. -/
inductive Watch where
  | sector (key : Nat)
  | tile (core entry : Nat)
  | counter (core slot index : Nat)
  | freeBlocks (core : Nat)
  | bankState (core : Nat)
  | queueCount (queue : Nat)
  | allowance (stream : Nat)
  deriving DecidableEq, Repr

/-- The operations of the atomics (R184). -/
inductive AtomicOp where
  | add | sub | min | max | minu | maxu | and | or | xor | xchg | cas | fadd | fmin | fmax
  deriving DecidableEq, Repr

/-- What a remote request asks for (R112): bytes, a write of the bytes that are given, or an atomic on 4 or 8 bytes. -/
inductive RemoteOp where
  | read (bytes : Nat)
  | write (data : List (Option Byte)) (poisoned : Bool)
  | atomic (op : AtomicOp) (bytes : Nat) (x y : Word) (returning : Bool)
  deriving DecidableEq, Repr

/-- A request of another chip: who sent it, its sequence number for the pair of source die and this chip (none for a
read), the address in this chip's local map, and the key id of the page it was made through (R93, R97, R112, R379).
Log entry 61 (DESIGN CHOICE, safe). -/
structure RemoteRequest where
  chip : Nat
  die : Nat
  seq : Option Nat
  pa : Nat
  keyId : Nat
  op : RemoteOp
  deriving DecidableEq, Repr

/-- A place whose corrected errors are counted (R426). -/
inductive RasLocation where
  | hbmRow (pa : Nat)
  | vaultRow (pa : Nat)
  | l2Way (die slice way : Nat)
  | l1Way (core way : Nat)
  | registerBlock (core block : Nat)
  | cimColumn (core unit col : Nat)
  | dieBridge (die bridge : Nat)
  deriving DecidableEq, Repr

/-- Bits lost beyond correction (R202, R426): where, and the sector that a way of an L1 or an L2 held, if any. -/
structure BitLoss where
  loc : RasLocation
  sector : Option Nat
  deriving DecidableEq, Repr

/-- What a health test finds (R423, R425): whether all but the locations listed passes, and those. -/
structure HealthTest where
  ok : Bool
  bad : List RasLocation
  deriving DecidableEq, Repr

/-- What bring-up sets beside CHIP (R366, R383, R425): the epoch of the tick, the route table, and the root chip of the tick. -/
structure BringUp where
  epoch : Word
  routes : List (Nat × List Nat)
  root : Nat
  deriving DecidableEq, Repr

/-- A token packet as its receiver sees it (R372): the header's fields, whether its row came coded, the record and the decoded
row. -/
structure Packet where
  queue : Nat
  ctx : Nat
  coded : Bool
  rowBytes : List Byte
  rowAddr : Word
  record : List Word
  deriving DecidableEq, Repr

/-- A packet that arrives: one in flight on this chip by its number, or one of another chip with its sequence number
(R377 to R379). -/
inductive PacketSource where
  | onChip (n : Nat)
  | offChip (chip die seq : Nat) (p : Packet)
  deriving DecidableEq, Repr

/-- A host access through BAR2 (R392): a read, a write or a PCIe AtomicOp (R115). -/
inductive HostAccess where
  | read (bytes : Nat)
  | write (data : List Byte)
  | atomic (op : AtomicOp) (bytes : Nat) (x y : Word)
  deriving DecidableEq, Repr

/-- A management request over MCTP (R429, R430). -/
inductive PldmRequest where
  | sensors
  | setPowerCap (watts : Nat)
  | setReplanPeriod (minutes : Nat)
  deriving DecidableEq, Repr

/-- An SPDM request (R388, R424): measurements, over PCIe DOE or over MCTP; the keys of a selective IDE stream put into use, or
taken out of it, by IDE_KM. -/
inductive SpdmRequest where
  | measurements (overMctp : Bool)
  | ideGo (stream : Nat)
  | ideStop (stream : Nat)
  deriving DecidableEq, Repr

end Sys2Proof
end

