-- ==== Sys2Proof/Machine/Bits.lean ====
section
/-! DEFINITION. Bit-field, sign-extension, byte-order and list helpers that the meanings share (R2, R3, R40). -/

namespace Sys2Proof.Machine

/-- Bits [hi:lo] of a number. -/
def bitsOf (x hi lo : Nat) : Nat := (x >>> lo) % 2 ^ (hi + 1 - lo)

/-- Bits [hi:lo] of a 64-bit value, as a number. -/
def fieldOf (x : Word) (hi lo : Nat) : Nat := bitsOf x.toNat hi lo

/-- A number below `2 ^ w` read in two's complement. -/
def signedOf (w x : Nat) : Int := if x < 2 ^ (w - 1) then x else (x : Int) - 2 ^ w

/-- The low `w` bits of an integer. -/
def wrapTo (w : Nat) (x : Int) : Nat := (x % (2 ^ w : Int)).toNat

/-- The number that a list of bytes holds in little-endian order (R3). -/
def ofBytes : List Byte → Nat
  | [] => 0
  | b :: bs => b.toNat + 256 * ofBytes bs

/-- The `n` bytes of a number in little-endian order (R3). -/
def toBytes : Nat → Nat → List Byte
  | 0, _ => []
  | n + 1, x => BitVec.ofNat 8 x :: toBytes n (x / 256)

/-- The numbers from `lo`, `n` of them, ascending. -/
def upFrom (lo n : Nat) : List Nat := (List.range n).map (lo + ·)

/-- Element `e` of width `w` of a lane (R40). -/
def elemOf (w : Nat) (x : Lane) (e : Nat) : Nat := (x.toNat >>> (w * e)) % 2 ^ w

/-- A lane made of elements of width `w`, element `e` being `f e` (R40). -/
def packLane (w : Nat) (f : Nat → Nat) : Lane :=
  BitVec.ofNat 32 ((List.range (32 / w)).foldl (fun acc e => acc + ((f e % 2 ^ w) <<< (w * e))) 0)

/-- A lane with element `e` of width `w` replaced. -/
def setElem (w : Nat) (x : Lane) (e v : Nat) : Lane :=
  packLane w (fun k => if k = e then v else elemOf w x k)

/-- The count of set bits among the low `n` bits. -/
def countBits : Nat → Nat → Nat
  | 0, _ => 0
  | n + 1, x => x % 2 + countBits n (x / 2)

/-- Leading zeros of a `w`-bit number, `w` for zero. -/
def leadingZeros (w x : Nat) : Nat := if x = 0 then w else w - 1 - Nat.log2 x

/-- The low `w` bits in reversed order. -/
def reverseBits : Nat → Nat → Nat
  | 0, _ => 0
  | n + 1, x => (x % 2) * 2 ^ n + reverseBits n (x / 2)

/-- The lanes whose bit is set in a mask, ascending. -/
def lanesOf (m : Lane) : List Nat := (List.range 32).filter (fun l => m.getLsbD l)

/-- The mask of a list of lanes. -/
def maskOf (ls : List Nat) : Lane :=
  ls.foldl (fun m l => m ||| BitVec.ofNat 32 (2 ^ l)) 0

/-- The position of the first element that satisfies a test. -/
def findIndexOf {α : Type} (p : α → Bool) (l : List α) : Option Nat :=
  (l.zipIdx.find? (fun x => p x.1)).map (·.2)

/-- The first free number below `n` that a list does not hold. -/
def firstFree (n : Nat) (used : List Nat) : Option Nat := (List.range n).find? (fun k => !used.contains k)

/-- The list without repeats, each value at its first place. -/
def distinct : List Nat → List Nat
  | [] => []
  | x :: xs => x :: (distinct xs).filter (· ≠ x)

/-- Addition modulo `2 ^ 64` of a signed offset. -/
def addOffset (x : Word) (o : Int) : Word := x + BitVec.ofInt 64 o

/-- A table from numbers to rows: a list of pairs, keys rising where it was made by `putAt`. -/
abbrev Tab (α : Type) := List (Nat × α)

/-- The row of a key. -/
def findAt {α : Type} (t : Tab α) (k : Nat) : Option α :=
  match t with
  | [] => none
  | (j, v) :: r => if j = k then some v else findAt r k

/-- The row of a key, or the value a key without a row stands for. -/
def getAt {α : Type} (d : α) (t : Tab α) (k : Nat) : α := (findAt t k).getD d

/-- The table with the row of a key set. -/
def putAt {α : Type} (t : Tab α) (k : Nat) (v : α) : Tab α :=
  match t with
  | [] => [(k, v)]
  | (j, w) :: r => if k < j then (k, v) :: (j, w) :: r else if j = k then (k, v) :: r else (j, w) :: putAt r k v

/-- The table without the row of a key. -/
def dropAt {α : Type} (t : Tab α) (k : Nat) : Tab α := t.filter (fun x => decide (x.1 ≠ k))

/-- The table with a function applied to the row of a key. -/
def modAt {α : Type} (d : α) (t : Tab α) (k : Nat) (f : α → α) : Tab α := putAt t k (f (getAt d t k))

/-- The table with a function applied to every row. -/
def mapTab {α : Type} (f : Nat → α → α) (t : Tab α) : Tab α := t.map (fun x => (x.1, f x.1 x.2))

/-- The rows that satisfy a test. -/
def rowsOf {α : Type} (p : Nat → α → Bool) (t : Tab α) : List (Nat × α) := t.filter (fun x => p x.1 x.2)

/-- The least number above every key. -/
def freshKey {α : Type} (t : Tab α) : Nat := t.foldl (fun m x => max m (x.1 + 1)) 1

end Sys2Proof.Machine
end

