-- ==== Sys2Proof/Machine/Float.lean ====
section
/-! DEFINITION. The element types, the rounding modes and the arithmetic of fp32 and bf16 (R40, R45 to R53):
every operation forms its exact result and rounds it once. -/

namespace Sys2Proof.Machine

/-- The element types of MR.etype (R40). -/
inductive EType where
  | i32 | n32 | i16 | n16 | i8 | n8 | fp32 | bf16 | cm8 | cm4 | b1
  deriving DecidableEq, Repr

/-- The type of a code of R40; codes 11 to 15 are reserved. -/
def etypeOf (code : Nat) : Option EType :=
  match code with
  | 0 => some .i32 | 1 => some .n32 | 2 => some .i16 | 3 => some .n16 | 4 => some .i8 | 5 => some .n8
  | 6 => some .fp32 | 7 => some .bf16 | 8 => some .cm8 | 9 => some .cm4 | 10 => some .b1 | _ => none

/-- The code of a type (R40). -/
def EType.code (t : EType) : Nat :=
  match t with
  | .i32 => 0 | .n32 => 1 | .i16 => 2 | .n16 => 3 | .i8 => 4 | .n8 => 5
  | .fp32 => 6 | .bf16 => 7 | .cm8 => 8 | .cm4 => 9 | .b1 => 10

/-- The width of an element in bits (R40). -/
def EType.width (t : EType) : Nat :=
  match t with
  | .i32 | .n32 | .fp32 => 32
  | .i16 | .n16 | .bf16 => 16
  | .i8 | .n8 | .cm8 => 8
  | .cm4 => 4
  | .b1 => 1

/-- The type is one of the integer types, codes 0 to 5. -/
def EType.isInt (t : EType) : Bool := decide (t.code ≤ 5)

/-- The type is a two's-complement integer type. -/
def EType.isSigned (t : EType) : Bool := t == .i32 || t == .i16 || t == .i8

/-- The type is fp32 or bf16. -/
def EType.isFloat (t : EType) : Bool := t == .fp32 || t == .bf16

/-- The type is cm8 or cm4. -/
def EType.isMarker (t : EType) : Bool := t == .cm8 || t == .cm4

/-- Fraction bits of a float type: 23 of fp32 and 7 of bf16 (R45). -/
def EType.fracBits (t : EType) : Nat := if t == .bf16 then 7 else 23

/-- The rounding modes of MR.round (R46). -/
inductive Rounding where
  | rne | rz | rup | rdn
  deriving DecidableEq, Repr

/-- The mode of a code of MR.round (R46). -/
def roundingOf (code : Nat) : Rounding :=
  match code with
  | 0 => .rne | 1 => .rz | 2 => .rup | _ => .rdn

/-- The five flags of FSTAT, NV in bit 0 up to NX in bit 4 (R52). -/
abbrev Flags := BitVec 5

/-- Invalid (R52). -/
def flagNV : Flags := 1
/-- Divide by zero (R52). -/
def flagDZ : Flags := 2
/-- Overflow (R52). -/
def flagOF : Flags := 4
/-- Underflow (R52). -/
def flagUF : Flags := 8
/-- Inexact (R52). -/
def flagNX : Flags := 16

/-- The exact value of a float or marker: a NaN or NaV, an infinity, or ± `m` × 2 ^ `e` (R45, R54). -/
inductive Exact where
  | nan (signalling : Bool)
  | inf (neg : Bool)
  | fin (neg : Bool) (m : Nat) (e : Int)
  deriving DecidableEq, Repr

/-- The value of a float of `fb` fraction bits (R45). -/
def unpackFloat (fb x : Nat) : Exact :=
  let neg := x.testBit (fb + 8)
  let ex := (x >>> fb) % 256
  let fr := x % 2 ^ fb
  if ex = 255 then
    if fr = 0 then .inf neg else .nan (!fr.testBit (fb - 1))
  else if ex = 0 then .fin neg fr (-126 - (fb : Int))
  else .fin neg (fr + 2 ^ fb) ((ex : Int) - 127 - (fb : Int))

/-- The sign bit at its place in a float of `fb` fraction bits. -/
def signBit (fb : Nat) (neg : Bool) : Nat := if neg then 2 ^ (fb + 8) else 0

/-- The default NaN: 0x7FC0_0000 or 0x7FC0 (R48). -/
def defaultNaN (fb : Nat) : Nat := 255 * 2 ^ fb + 2 ^ (fb - 1)

/-- An infinity. -/
def infFloat (fb : Nat) (neg : Bool) : Nat := signBit fb neg + 255 * 2 ^ fb

/-- Whether a rounding step goes up: `rem` of `2 * half` parts was cut from an even or odd value, and `more` says that
the exact value lies above that. -/
def roundsUp (mode : Rounding) (neg odd : Bool) (rem half : Nat) (more : Bool) : Bool :=
  let inexact := decide (rem ≠ 0) || more
  match mode with
  | .rne => decide (rem > half) || (decide (rem = half) && decide (half ≠ 0) && (more || odd))
  | .rz => false
  | .rup => inexact && !neg
  | .rdn => inexact && neg

/-- `m` × 2 ^ `e`, and a little more when `more`, cut to a multiple of 2 ^ `q` and rounded: the multiple and whether the
step was inexact. With `more`, `q` must be above `e`. -/
def cutTo (mode : Rounding) (neg : Bool) (m : Nat) (e : Int) (more : Bool) (q : Int) : Nat × Bool :=
  if e < q then
    let sh := (q - e).toNat
    let kept := m >>> sh
    let rem := m % 2 ^ sh
    let up := roundsUp mode neg (decide (kept % 2 = 1)) rem (2 ^ (sh - 1)) more
    (kept + (if up then 1 else 0), decide (rem ≠ 0) || more)
  else (m <<< (e - q).toNat, more)

/-- ± (`m` and a little more when `more`) × 2 ^ `e`, `m` not 0, rounded once to a float of `fb` fraction bits, with the
flags of R49: tininess is detected after rounding. -/
def roundFloat (fb : Nat) (mode : Rounding) (neg : Bool) (m : Nat) (e : Int) (more : Bool) : Nat × Flags :=
  let top := e + (Nat.log2 m : Int)
  let qmin := (-126 : Int) - (fb : Int)
  let q := max (top - (fb : Int)) qmin
  let (kept, inexact) := cutTo mode neg m e more q
  let code := (q - qmin).toNat * 2 ^ fb + kept
  let nx := if inexact then flagNX else 0
  if code ≥ 255 * 2 ^ fb then
    let away := match mode with
      | .rne => true
      | .rz => false
      | .rup => !neg
      | .rdn => neg
    (signBit fb neg + (if away then 255 * 2 ^ fb else 255 * 2 ^ fb - 1), flagOF ||| flagNX)
  else
    let free := (cutTo mode neg m e more (top - (fb : Int))).1
    let tiny := decide (top < -127) || (decide (top = -127) && decide (free < 2 ^ (fb + 1)))
    (signBit fb neg + code, nx ||| (if tiny && inexact then flagUF else 0))

/-- An exact value rounded once (R47); a zero keeps its sign. -/
def packFloat (fb : Nat) (mode : Rounding) (v : Exact) : Nat × Flags :=
  match v with
  | .nan s => (defaultNaN fb, if s then flagNV else 0)
  | .inf neg => (infFloat fb neg, 0)
  | .fin neg m e => if m = 0 then (signBit fb neg, 0) else roundFloat fb mode neg m e false

/-- The value is a signalling NaN. -/
def Exact.isSignalling (v : Exact) : Bool := match v with
  | .nan s => s
  | _ => false

/-- The value is a NaN. -/
def Exact.isNaN (v : Exact) : Bool := match v with
  | .nan _ => true
  | _ => false

/-- The value with its sign inverted. -/
def Exact.negate (v : Exact) : Exact := match v with
  | .nan s => .nan s
  | .inf n => .inf (!n)
  | .fin n m e => .fin (!n) m e

/-- The signed integer of a finite value in units of 2 ^ `u`, `u` not above its exponent. -/
def scaledInt (neg : Bool) (m : Nat) (e u : Int) : Int :=
  let k : Int := ((m <<< (e - u).toNat : Nat) : Int)
  if neg then -k else k

/-- The exact sum of two finite values: sign, magnitude and exponent, a zero sum signed by R49. -/
def sumExact (mode : Rounding) (n1 : Bool) (m1 : Nat) (e1 : Int) (n2 : Bool) (m2 : Nat) (e2 : Int) : Exact :=
  let u := min e1 e2
  let t := scaledInt n1 m1 e1 u + scaledInt n2 m2 e2 u
  if t = 0 then .fin (if n1 = n2 then n1 else mode == .rdn) 0 0
  else .fin (decide (t < 0)) t.natAbs u

/-- The sum of two values with the invalid case of R48: the exact sum and the flags. -/
def addValues (mode : Rounding) (x y : Exact) : Exact × Flags :=
  let nv := if x.isSignalling || y.isSignalling then flagNV else 0
  match x, y with
  | .nan _, _ => (.nan false, nv)
  | _, .nan _ => (.nan false, nv)
  | .inf a, .inf b => if a = b then (.inf a, 0) else (.nan false, flagNV)
  | .inf a, .fin .. => (.inf a, 0)
  | .fin .., .inf b => (.inf b, 0)
  | .fin n1 m1 e1, .fin n2 m2 e2 => (sumExact mode n1 m1 e1 n2 m2 e2, 0)

/-- The product of two values with the invalid case of R48: the exact product and the flags. -/
def mulValues (x y : Exact) : Exact × Flags :=
  let nv := if x.isSignalling || y.isSignalling then flagNV else 0
  match x, y with
  | .nan _, _ => (.nan false, nv)
  | _, .nan _ => (.nan false, nv)
  | .inf a, .inf b => (.inf (a != b), 0)
  | .inf a, .fin b m _ => if m = 0 then (.nan false, flagNV) else (.inf (a != b), 0)
  | .fin a m _, .inf b => if m = 0 then (.nan false, flagNV) else (.inf (a != b), 0)
  | .fin n1 m1 e1, .fin n2 m2 e2 => (.fin (n1 != n2) (m1 * m2) (e1 + e2), 0)

/-- An exact result and its flags, rounded once. -/
def finish (fb : Nat) (mode : Rounding) (r : Exact × Flags) : Nat × Flags :=
  let (x, f) := packFloat fb mode r.1
  (x, f ||| r.2)

/-- a + b (R47 to R49). -/
def fAdd (fb : Nat) (mode : Rounding) (a b : Nat) : Nat × Flags :=
  finish fb mode (addValues mode (unpackFloat fb a) (unpackFloat fb b))

/-- a − b. -/
def fSub (fb : Nat) (mode : Rounding) (a b : Nat) : Nat × Flags :=
  finish fb mode (addValues mode (unpackFloat fb a) (unpackFloat fb b).negate)

/-- a × b. -/
def fMul (fb : Nat) (mode : Rounding) (a b : Nat) : Nat × Flags :=
  finish fb mode (mulValues (unpackFloat fb a) (unpackFloat fb b))

/-- ± (a × b) ± c with one rounding; a product 0 × ∞ is invalid whatever the addend holds (R48). -/
def fFma (fb : Nat) (mode : Rounding) (negProduct negAddend : Bool) (a b c : Nat) : Nat × Flags :=
  let (p, f1) := mulValues (unpackFloat fb a) (unpackFloat fb b)
  let cv := unpackFloat fb c
  let (r, f2) := addValues mode (if negProduct then p.negate else p) (if negAddend then cv.negate else cv)
  finish fb mode (r, f1 ||| f2)

/-- a × 2 ^ n with one rounding (R161). The count is brought to ±1,000, past which every rounding is the same. -/
def fScale (fb : Nat) (mode : Rounding) (a : Nat) (n : Int) : Nat × Flags :=
  match unpackFloat fb a with
  | .fin neg m e => packFloat fb mode (.fin neg m (e + max (-1000) (min 1000 n)))
  | v => packFloat fb mode v

/-- The place of a non-NaN float in the order of the reals, −0 just below +0 (R50). -/
def floatKey (fb x : Nat) : Int :=
  let mag := x % 2 ^ (fb + 8)
  if x.testBit (fb + 8) then -(mag : Int) - 1 else mag

/-- FMin (R50). -/
def fMin (fb : Nat) (a b : Nat) : Nat × Flags :=
  let va := unpackFloat fb a
  let vb := unpackFloat fb b
  let f := if va.isSignalling || vb.isSignalling then flagNV else 0
  if va.isNaN then (if vb.isNaN then defaultNaN fb else b, f)
  else if vb.isNaN then (a, f)
  else (if floatKey fb a ≤ floatKey fb b then a else b, f)

/-- FMax (R50). -/
def fMax (fb : Nat) (a b : Nat) : Nat × Flags :=
  let va := unpackFloat fb a
  let vb := unpackFloat fb b
  let f := if va.isSignalling || vb.isSignalling then flagNV else 0
  if va.isNaN then (if vb.isNaN then defaultNaN fb else b, f)
  else if vb.isNaN then (a, f)
  else (if floatKey fb a ≤ floatKey fb b then b else a, f)

/-- A float is a zero of either sign. -/
def isZeroFloat (fb x : Nat) : Bool := decide (x % 2 ^ (fb + 8) = 0)

/-- Equality (R51). -/
def fEq (fb : Nat) (a b : Nat) : Bool × Flags :=
  let va := unpackFloat fb a
  let vb := unpackFloat fb b
  if va.isNaN || vb.isNaN then (false, if va.isSignalling || vb.isSignalling then flagNV else 0)
  else (decide (a = b) || (isZeroFloat fb a && isZeroFloat fb b), 0)

/-- Less than, false and invalid for a NaN (R51). -/
def fLt (fb : Nat) (a b : Nat) : Bool × Flags :=
  if (unpackFloat fb a).isNaN || (unpackFloat fb b).isNaN then (false, flagNV)
  else (decide (floatKey fb a < floatKey fb b) && !(isZeroFloat fb a && isZeroFloat fb b), 0)

/-- Less than or equal, false and invalid for a NaN (R51). -/
def fLe (fb : Nat) (a b : Nat) : Bool × Flags :=
  if (unpackFloat fb a).isNaN || (unpackFloat fb b).isNaN then (false, flagNV)
  else (decide (floatKey fb a ≤ floatKey fb b) || (isZeroFloat fb a && isZeroFloat fb b), 0)

/-- Unordered (R51, R162). -/
def fUn (fb : Nat) (a b : Nat) : Bool × Flags :=
  let va := unpackFloat fb a
  let vb := unpackFloat fb b
  (va.isNaN || vb.isNaN, if va.isSignalling || vb.isSignalling then flagNV else 0)

/-- The class mask of R163. -/
def fClass (fb x : Nat) : Nat :=
  let neg := x.testBit (fb + 8)
  let ex := (x >>> fb) % 256
  match unpackFloat fb x with
  | .nan s => if s then 256 else 512
  | .inf n => if n then 1 else 128
  | .fin _ m _ =>
    if m = 0 then (if neg then 8 else 16)
    else if ex = 0 then (if neg then 4 else 32)
    else (if neg then 2 else 64)

/-- −x: a NaN gives the default NaN (R165). -/
def fNeg (fb x : Nat) : Nat × Flags :=
  match unpackFloat fb x with
  | .nan s => (defaultNaN fb, if s then flagNV else 0)
  | _ => (x ^^^ 2 ^ (fb + 8), 0)

/-- |x|: a NaN gives the default NaN (R165). -/
def fAbs (fb x : Nat) : Nat × Flags :=
  match unpackFloat fb x with
  | .nan s => (defaultNaN fb, if s then flagNV else 0)
  | _ => (x % 2 ^ (fb + 8), 0)

end Sys2Proof.Machine
end

