-- ==== Sys2Proof/Machine/Marker.lean ====
section
/-! DEFINITION. The marker formats cm8 and cm4, the integer reductions, the conversions between element types and the
reduction tree (R42 to R44, R54 to R61, R68). -/

namespace Sys2Proof.Machine

/-- Payload bits of a marker type: 7 of cm8, 3 of cm4 (R55, R56). -/
def EType.payload (t : EType) : Nat := if t == .cm4 then 3 else 7

/-- The base exponent of a payload with `z` leading zeros (R55, R56). -/
def markerBase (t : EType) (z : Nat) : Int :=
  if t == .cm4 then (match z with | 0 => 0 | 1 => -2 | _ => -3)
  else (match z with | 0 => 0 | 1 => -8 | 2 => -12 | 3 => -16 | 4 => -18 | 5 => -20 | _ => -21)

/-- The magnitude of payload `c` as a mantissa and an exponent (R54). -/
def markerMag (t : EType) (c : Nat) : Nat × Int :=
  if c = 0 then (0, 0)
  else
    let z := leadingZeros t.payload c
    let below := t.payload - 1 - z
    let f := below / 2
    let ex := (c >>> f) % 2 ^ (below - f)
    (2 ^ f + c % 2 ^ f, markerBase t z + (ex : Int) - (f : Int))

/-- The value of a marker code; the code with the sign alone is NaV (R54). -/
def markerValue (t : EType) (x : Nat) : Exact :=
  let c := x % 2 ^ t.payload
  let neg := x.testBit t.payload
  if c = 0 then (if neg then .nan false else .fin false 0 0)
  else .fin neg (markerMag t c).1 (markerMag t c).2

/-- DecodeCM8 (R68). -/
def decodeCM8 (x : Nat) : Exact := markerValue .cm8 x

/-- DecodeCM4 (R68). -/
def decodeCM4 (x : Nat) : Exact := markerValue .cm4 x

/-- m1 × 2 ^ e1 ≤ m2 × 2 ^ e2. -/
def magLe (m1 : Nat) (e1 : Int) (m2 : Nat) (e2 : Int) : Bool :=
  decide (m1 <<< (e1 - min e1 e2).toNat ≤ m2 <<< (e2 - min e1 e2).toNat)

/-- The code of a sign and a payload (R54). -/
def markerCode (t : EType) (neg : Bool) (c : Nat) : Nat := (if neg then 2 ^ t.payload else 0) + c

/-- The largest payload, at most `c`, whose magnitude is at most m × 2 ^ e (R57). -/
def ladderBelow (t : EType) (m : Nat) (e : Int) : Nat → Nat
  | 0 => 0
  | c + 1 => if magLe (markerMag t (c + 1)).1 (markerMag t (c + 1)).2 m e then c + 1 else ladderBelow t m e c

/-- RoundToMarker (R57). Log entry 57 (DEDUCED, unsafe). -/
def roundToMarker (t : EType) (mode : Rounding) (v : Exact) : Nat × Flags :=
  let cmax := 2 ^ t.payload - 1
  match v with
  | .nan s => (markerCode t true 0, if s then flagNV else 0)
  | .inf neg => (markerCode t neg cmax, 0)
  | .fin neg m e =>
    if m = 0 then (0, 0)
    else if !magLe m e (markerMag t cmax).1 (markerMag t cmax).2 then (markerCode t neg cmax, flagOF ||| flagNX)
    else if !magLe (markerMag t 1).1 ((markerMag t 1).2 - 1) m e then (0, flagUF ||| flagNX)
    else
      let lo := ladderBelow t m e cmax
      let (ml, el) := markerMag t lo
      if magLe m e ml el then (markerCode t neg lo, 0)
      else
        let (mh, eh) := markerMag t (lo + 1)
        let u := min e (min el eh)
        let mid := scaledInt false ml el u + scaledInt false mh eh u
        let twice := 2 * scaledInt false m e u
        let up := match mode with
          | .rne => decide (twice > mid) || (decide (twice = mid) && decide (lo % 2 = 1))
          | .rz => false
          | .rup => !neg
          | .rdn => neg
        let c := if up then lo + 1 else lo
        (markerCode t (neg && decide (c ≠ 0)) c, flagNX ||| (if c = 0 then flagUF else 0))

/-- The ends of the range of an integer type (R42). -/
def intMin (t : EType) : Int := if t.isSigned then -(2 ^ (t.width - 1) : Int) else 0
/-- The ends of the range of an integer type (R42). -/
def intMax (t : EType) : Int := if t.isSigned then 2 ^ (t.width - 1) - 1 else 2 ^ t.width - 1

/-- SaturateInt (R42, R68). -/
def saturateInt (t : EType) (x : Int) : Int := max (intMin t) (min (intMax t) x)

/-- An exact integer result reduced to an element by R42. -/
def reduceInt (t : EType) (sat : Bool) (x : Int) : Nat := wrapTo t.width (if sat then saturateInt t x else x)

/-- The integer an element of an integer type holds (R40, R156). -/
def intOf (t : EType) (x : Nat) : Int := if t.isSigned then signedOf t.width x else x

/-- The exact value of an element (R40). -/
def valueOf (t : EType) (x : Nat) : Exact :=
  if t.isInt then .fin (decide (intOf t x < 0)) (intOf t x).natAbs 0
  else if t.isFloat then unpackFloat t.fracBits x
  else if t.isMarker then markerValue t x
  else .fin false (x % 2) 0

/-- A float or marker value as an integer of a type (R59). -/
def toIntElem (t : EType) (mode : Rounding) (v : Exact) : Nat × Flags :=
  match v with
  | .nan _ => (0, flagNV)
  | .inf neg => (wrapTo t.width (if neg then intMin t else intMax t), flagNV)
  | .fin neg m e =>
    let (k, inexact) := cutTo mode neg m e false 0
    let i : Int := if neg then -(k : Int) else k
    if i < intMin t ∨ intMax t < i then (wrapTo t.width (saturateInt t i), flagNV)
    else (wrapTo t.width i, if inexact then flagNX else 0)

/-- The value is greater than 0. -/
def Exact.isPositive (v : Exact) : Bool := match v with
  | .nan _ => false
  | .inf n => !n
  | .fin n m _ => !n && decide (m ≠ 0)

/-- Convert (R57 to R59, R68, and the additions of R167). The bits of a bf16 element become [31:16] of fp32, a quiet NaN
included (R59). Log entries 57 and 65 (DEDUCED, unsafe). -/
def convert (src dst : EType) (mode : Rounding) (sat : Bool) (x : Nat) : Nat × Flags :=
  if src = dst then (x, 0)
  else if src = .bf16 ∧ dst = .fp32 then
    (if (valueOf src x).isSignalling then (defaultNaN 23, flagNV) else ((x % 2 ^ 16) <<< 16, 0))
  else if dst.isFloat then packFloat dst.fracBits mode (valueOf src x)
  else if dst.isMarker then roundToMarker dst mode (valueOf src x)
  else if dst.isInt then
    if src.isInt then (reduceInt dst sat (intOf src x), 0)
    else if src = .b1 then (x % 2, 0)
    else toIntElem dst mode (valueOf src x)
  else (if (valueOf src x).isPositive then 1 else 0, if (valueOf src x).isNaN then flagNV else 0)

/-- One level of ReduceTree: neighbours are combined, a position alone stays as it is (R61). -/
def pairUp (op : Nat → Nat → Nat × Flags) : List (Option Nat) → List (Option Nat) × Flags
  | some x :: some y :: rest =>
    let (r, f) := pairUp op rest
    let (z, g) := op x y
    (some z :: r, f ||| g)
  | some x :: none :: rest => let (r, f) := pairUp op rest; (some x :: r, f)
  | none :: y :: rest => let (r, f) := pairUp op rest; (y :: r, f)
  | [x] => ([x], 0)
  | [] => ([], 0)

/-- ReduceTree over a list of 2 ^ `n` positions, absent ones being none (R61). -/
def reduceTree (op : Nat → Nat → Nat × Flags) : Nat → List (Option Nat) → Option Nat × Flags
  | 0, l => (l.headD none, 0)
  | n + 1, l =>
    let (l', f) := pairUp op l
    let (x, g) := reduceTree op n l'
    (x, f ||| g)

/-- The reductions of R172. -/
inductive ReduceOp where
  | add | min | max
  deriving DecidableEq, Repr

/-- The identity of a reduction (R61). -/
def reduceIdentity (t : EType) (op : ReduceOp) : Nat :=
  match op with
  | .add => 0
  | .min => if t.isFloat then infFloat t.fracBits false else wrapTo t.width (intMax t)
  | .max => if t.isFloat then infFloat t.fracBits true else wrapTo t.width (intMin t)

/-- One node of a reduction (R61, R172). -/
def reduceNode (t : EType) (op : ReduceOp) (mode : Rounding) (sat : Bool) (x y : Nat) : Nat × Flags :=
  match op with
  | .add => if t.isFloat then fAdd t.fracBits mode x y else (reduceInt t sat (intOf t x + intOf t y), 0)
  | .min =>
    if t.isFloat then fMin t.fracBits x y else (if intOf t x ≤ intOf t y then x else y, 0)
  | .max =>
    if t.isFloat then fMax t.fracBits x y else (if intOf t x ≤ intOf t y then y else x, 0)

end Sys2Proof.Machine
end

