-- ==== Sys2Proof/Config.lean ====
section
/-! DEFINITION. The free values: what the manual leaves open and the machine goes on with. None of them has a body, so
no proof can rest on a value of theirs. -/

namespace Sys2Proof.Config

/-- What a byte of HBM, of a vault or of host memory reads as that nothing has written since a bring-up or turnover: by the
count of these, the place and the key id (R97). Log entry 13 (DEDUCED, safe). -/
opaque undefinedByte : Nat → Nat → Nat → Byte

/-- What a byte reads as through a page of another key id than it was written under: by place, the two key ids and the
byte (R97). Log entry 14 (DEDUCED, safe). -/
opaque foreignByte : Nat → Nat → Nat → Byte → Byte

/-- The bytes of HBM traffic of a slot's tasks and copy commands in a cycle, by the count of free values and the slot (R35, R36).
Log entry 10 (DESIGN CHOICE, safe). -/
opaque trafficCharge : Nat → Nat → Nat

/-- The energy in nanojoules that the estimators charge a slot's tasks with in a cycle, by the count of free values and the slot (R35).
Log entry 10 (DESIGN CHOICE, safe). -/
opaque energyCharge : Nat → Nat → Nat

/-- Which of the values that a vector register or accumulator may hold after an abandonment it holds: by the count of
free values and the register (R206). Log entry 15 (DEDUCED, safe). -/
opaque abandonPick : Nat → Nat → Nat

/-- What a byte of another device reads as to an engine of this one, by the count of free values and the place (R112).
Log entry 5 (DESIGN CHOICE, unsafe). -/
opaque remoteByte : Nat → Nat → Byte

/-- Whether an engine that may read a sector at any instant of a span reads it at the end of the span rather than at its
beginning: by the count of free values and the sector (R248). Log entry 64 (DESIGN CHOICE, unsafe). -/
opaque readsLate : Nat → Nat → Bool

/-- Whether a core's tick is one ahead of the device's, by the core and the device's tick (R383).
Log entry 59 (DESIGN CHOICE, safe). -/
opaque tickAhead : Nat → Nat → Bool

/-- The die whose L2 slices and HBM stack are the home of a byte, by its physical address (R94, R96).
Log entry 59 (DESIGN CHOICE, safe). -/
opaque homeDie : Nat → Nat

/-- The page-table entry that stands for a 64 KiB page of the service context, by the page's number: the ranges that the front end
defines at bring-up (R392). Log entry 26 (DESIGN CHOICE, unsafe). -/
opaque serviceEntry : Nat → Nat

/-- The digest of something that is measured: 0 the boot ROM, else what came by the load of that number (R424).
Log entry 59 (DESIGN CHOICE, safe). -/
opaque digest : Nat → BitVec 64

/-- The digest of a retirement map (R424). Log entry 59 (DESIGN CHOICE, safe). -/
opaque mapDigest : List RasLocation → BitVec 64

/-- The signatures of a response, by the count of free values and which of them (R424).
Log entry 59 (DESIGN CHOICE, safe). -/
opaque signature : Nat → Nat → BitVec 64

/-- The supply voltage in millivolts that a re-planning gives a die, by the die and the margin that it has consumed, within the
part's limit (R428). Log entry 38 (DEDUCED, unsafe). -/
opaque supply : Nat → Nat → Nat

/-- What a byte of the save area holds after a save that is no copy of a scratchpad line: by the count of free values and the place
(R408, R419). Log entry 25 (DESIGN CHOICE, unsafe). -/
opaque savedByte : Nat → Nat → Byte

/-- A choice that the device is free to make among things it may take: by the count of free values and what is chosen
for. Log entry 3 (DESIGN CHOICE, safe). -/
opaque choice : Nat → Nat → Nat

/-- The words of an event whose layout the manual does not give: by the count of free values and the word (R397).
Log entry 16 (DESIGN CHOICE, safe). -/
opaque eventWord : Nat → Nat → BitVec 64

/-- The moderation interval of a vector in microseconds, taken modulo 1,001 (R397). Log entry 23 (DEDUCED, unsafe). -/
opaque moderation : Nat → Nat

/-- The row of HBM or of a vault that a byte lies in, named by one byte of it (R426). -/
opaque rowOf : Nat → Nat

/-- What a sensor reads: by the count of free values and the sensor (R430). Log entry 59 (DESIGN CHOICE, safe). -/
opaque sensor : Nat → Nat → Nat

/-- What a word of a queue's configuration block reads from its fifth on: by the word and QCREATE's parameters (R398).
Log entry 22 (DESIGN CHOICE, safe). -/
opaque queueCopy : Nat → List Nat → BitVec 64

end Sys2Proof.Config
end

