-- ==== Sys2Proof/Machine/Align.lean ====
section
/-! DEFINITION. The aligned forms of the matrix engine: AlignGroup16, AlignWeights12, GroupSum, the accumulations and
ScaleAccumulate (R60, R62 to R67). -/

namespace Sys2Proof.Machine

/-- x rounded to an integer, ties to even, then brought to ± `lim` (R62, R63). -/
def roundClamp (neg : Bool) (m : Nat) (e : Int) (lim : Int) : Int :=
  let k := (cutTo .rne neg m e false 0).1
  let i : Int := if neg then -(k : Int) else k
  max (-lim) (min lim i)

/-- floor (log2 |x|) of each non-zero value of a group. -/
def groupTops (xs : List Exact) : List Int :=
  xs.filterMap (fun v => match v with
    | .fin _ m e => if m = 0 then none else some ((Nat.log2 m : Int) + e)
    | _ => none)

/-- The greatest of a list of exponents. -/
def maxOf : List Int → Option Int
  | [] => none
  | x :: xs => some (xs.foldl max x)

/-- A value of the group is a NaN, NaV or infinite. -/
def groupInvalid (xs : List Exact) : Bool :=
  xs.any (fun v => match v with
    | .fin .. => false
    | _ => true)

/-- The aligned integers of a group under exponent `top` with `bits` bits kept below it. -/
def alignTo (bits : Int) (lim top : Int) (xs : List Exact) : List Int :=
  xs.map (fun v => match v with
    | .fin n m e => roundClamp n m (e + bits - top) lim
    | _ => 0)

/-- The integers of a group of integer elements. -/
def groupInts (xs : List Exact) : List Int :=
  xs.map (fun v => match v with
    | .fin n m _ => if n then -(m : Int) else m
    | _ => 0)

/-- AlignGroup16 (R62): the integers and Ea, or none when the group is invalid. -/
def alignGroup16 (t : EType) (xs : List Exact) : Option (List Int × Int) :=
  if t.isInt then some (groupInts xs, 14)
  else if groupInvalid xs then none
  else match maxOf (groupTops xs) with
    | none => some (xs.map (fun _ => 0), 0)
    | some top => some (alignTo 14 32767 top xs, top)

/-- AlignWeights12 (R63): the integers and Ew, or none when the group is invalid. -/
def alignWeights12 (t : EType) (xs : List Exact) : Option (List Int × Int) :=
  if t = .i8 then some (groupInts xs, 10)
  else if groupInvalid xs then none
  else match maxOf (groupTops xs) with
    | none => some (xs.map (fun _ => 0), 0)
    | some top =>
      let ew := max (-32) (min 31 top)
      some (alignTo 10 2047 ew xs, ew)

/-- Σ q × w over a group. -/
def dotInts (q w : List Int) : Int := (List.zipWith (· * ·) q w).foldl (· + ·) 0

/-- A signed integer × 2 ^ e as an exact value. -/
def exactOfInt (i e : Int) : Exact := .fin (decide (i < 0)) i.natAbs e

/-- GroupSum on the fp32 path (R64): fp32 bits and flags. A group sum that overflows raises OF by itself under R68, while the pseudocode
of R64 names OF for an accumulator that becomes infinite alone: the model raises it for that alone, so that none is raised where the
accumulator is already infinite or a NaN. Log entry 103 (DESIGN CHOICE, unsafe). -/
def groupSum (a w : Option (List Int × Int)) : Nat × Flags :=
  match a, w with
  | some (q, ea), some (v, ew) => ((packFloat 23 .rne (exactOfInt (dotInts q v) (ea + ew - 24))).1, 0)
  | _, _ => (defaultNaN 23, flagNV)

/-- The fp32 word is an infinity. -/
def isInfFloat (x : Nat) : Bool := decide (x % 2 ^ 31 = 255 * 2 ^ 23)

/-- One step of AccumulateFP32 (R64). A NaN in the accumulator stays a NaN; only NV and OF are raised. -/
def accumulateFp32 (acc : Nat) (g : Nat × Flags) : Nat × Flags :=
  let (r, f) := fAdd 23 .rne acc g.1
  (r, g.2 ||| (f &&& flagNV) ||| (if isInfFloat r && !isInfFloat acc then flagOF else 0))

/-- One step of the integer accumulation (R65). -/
def accumulateInt (sat : Bool) (acc : Nat) (s : Int) : Nat := reduceInt .i32 sat (signedOf 32 acc + s)

/-- The dot product of two groups of bits: XOR-popcount or AND-popcount (R60). -/
def dotBits (andMode : Bool) (a w : List Bool) : Int :=
  if andMode then ((List.zipWith (fun x y => x && y) a w).countP id : Int)
  else (a.length : Int) - 2 * ((List.zipWith (fun x y => x != y) a w).countP id : Int)

/-- ScaleAccumulate (R67). -/
def scaleAccumulate (d a rs cs : Nat) : Nat × Flags :=
  let (t1, f1) := fMul 23 .rne a rs
  let (t2, f2) := fMul 23 .rne t1 cs
  let (t3, f3) := fAdd 23 .rne d t2
  (t3, f1 ||| f2 ||| f3)

end Sys2Proof.Machine
end

