-- ==== Sys2Proof/Syntax.lean ====
section
/-! DEFINITION. The instructions and steps of the device: one constructor for each row of the opcode table.
A row with an encoding is an instruction word (R69 to R76) and its arguments are the fields the table gives it.
A row without one is a step of an engine, of the front end or of the outside world (R12 to R430),
and its arguments say which unit makes the step and what the outside world supplies. -/

namespace Sys2Proof

/-- An instruction word or a step of the device. Log entry 2 (DESIGN CHOICE, safe). -/
inductive Instr where
  /-- R118: Writes the 64-bit wrapping sum of two scalars. -/
  | sadd (d a b : BitVec 6)
  /-- R118: Writes the 64-bit wrapping difference of two scalars. -/
  | ssub (d a b : BitVec 6)
  /-- R118: Writes the low 64 bits of the product of two scalars. -/
  | smul (d a b : BitVec 6)
  /-- R118: Writes the high 64 bits of the signed 128-bit product. -/
  | smulh (d a b : BitVec 6)
  /-- R118: Writes the high 64 bits of the unsigned 128-bit product. -/
  | smulhu (d a b : BitVec 6)
  /-- R118: Writes the signed quotient, with the edge cases of R44. -/
  | sdiv (d a b : BitVec 6)
  /-- R118: Writes the unsigned quotient, with the edge cases of R44. -/
  | sdivu (d a b : BitVec 6)
  /-- R118: Writes the signed remainder, which takes the sign of the dividend. -/
  | srem (d a b : BitVec 6)
  /-- R118: Writes the unsigned remainder. -/
  | sremu (d a b : BitVec 6)
  /-- R118: Writes the bitwise AND of two scalars. -/
  | sand (d a b : BitVec 6)
  /-- R118: Writes the bitwise OR of two scalars. -/
  | sor (d a b : BitVec 6)
  /-- R118: Writes the bitwise XOR of two scalars. -/
  | sxor (d a b : BitVec 6)
  /-- R118: Shifts a scalar left by b[5:0]. -/
  | sshl (d a b : BitVec 6)
  /-- R118: Shifts a scalar right by b[5:0], filling with zeros. -/
  | sshr (d a b : BitVec 6)
  /-- R118: Shifts a scalar right by b[5:0], filling with the sign. -/
  | ssra (d a b : BitVec 6)
  /-- R118: Writes the signed minimum of two scalars. -/
  | smin (d a b : BitVec 6)
  /-- R118: Writes the signed maximum of two scalars. -/
  | smax (d a b : BitVec 6)
  /-- R118: Writes the unsigned minimum of two scalars. -/
  | sminu (d a b : BitVec 6)
  /-- R118: Writes the unsigned maximum of two scalars. -/
  | smaxu (d a b : BitVec 6)
  /-- R118: Writes 1 when two scalars are equal, else 0. -/
  | sseq (d a b : BitVec 6)
  /-- R118: Writes 1 when a is less than b, signed, else 0. -/
  | sslt (d a b : BitVec 6)
  /-- R118: Writes 1 when a is less than b, unsigned, else 0. -/
  | ssltu (d a b : BitVec 6)
  /-- R118: Writes the count of leading zeros of a scalar, 64 for zero. -/
  | sclz (d a : BitVec 6)
  /-- R118: Writes the count of set bits of a scalar. -/
  | spopc (d a : BitVec 6)
  /-- R118: Writes a predicate register, zero-extended, to a scalar. -/
  | spmov (d : BitVec 6) (p : BitVec 3)
  /-- R119: Adds a sign-extended 13-bit immediate to a scalar. -/
  | saddi (d a : BitVec 6) (imm : BitVec 13)
  /-- R119: ANDs a scalar with a sign-extended 13-bit immediate. -/
  | sandi (d a : BitVec 6) (imm : BitVec 13)
  /-- R119: ORs a scalar with a sign-extended 13-bit immediate. -/
  | sori (d a : BitVec 6) (imm : BitVec 13)
  /-- R119: Writes 1 when a scalar is less than a signed immediate, else 0. -/
  | sslti (d a : BitVec 6) (imm : BitVec 13)
  /-- R119: Shifts a scalar left by an immediate count of 0 to 63. -/
  | sshli (d a imm : BitVec 6)
  /-- R119: Shifts a scalar right, filling with the sign, by an immediate count. -/
  | ssrai (d a imm : BitVec 6)
  /-- R119: Shifts a scalar right, filling with zeros, by an immediate count. -/
  | sshri (d a imm : BitVec 6)
  /-- R119: Loads a sign-extended 19-bit immediate into a scalar. -/
  | sli (d : BitVec 6) (imm : BitVec 19)
  /-- R119: Keeps d[18:0] and places the sign-extended immediate at bit 19. -/
  | slui (d : BitVec 6) (imm : BitVec 19)
  /-- R119: Keeps d[37:0], places the immediate at bit 38 and clears bits 63 to 57. -/
  | slxi (d : BitVec 6) (imm : BitVec 19)
  /-- R121: Branches the fragment by a signed word offset. -/
  | br (off : BitVec 25)
  /-- R121: Sets lr to PC + 4, raises DEPTH and branches. -/
  | call (off : BitVec 25)
  /-- R121: Branches when a scalar is zero. -/
  | brz (d : BitVec 6) (off : BitVec 19)
  /-- R121: Branches when a scalar is not zero. -/
  | brnz (d : BitVec 6) (off : BitVec 19)
  /-- R122: Checks the alignment of lr, jumps to lr and lowers DEPTH. -/
  | ret
  /-- R131: Pops a stack entry or ends the fragment; the wave ends with its last fragment. -/
  | exit
  /-- R136: Makes the whole wave not ready for 16 cycles. -/
  | yield
  /-- R145: Completes and then raises TRAP, carrying a 6-bit code. -/
  | trap (code : BitVec 6)
  /-- R145: Returns from a trap to TPC, restores MR and clears ACTIVE. -/
  | rtt
  /-- R145: Raises BRK, a class 2 trap with TPC at the brk. -/
  | brk (code : BitVec 6)
  /-- R140: Acquires n ordinary register blocks, or writes 0 when too few are free. -/
  | racq (d : BitVec 6) (n : BitVec 5)
  /-- R140: Acquires n register blocks, drawing on the reserve for the oldest task. -/
  | racqE (d : BitVec 6) (n : BitVec 5)
  /-- R141: Releases the wave's highest-numbered n register blocks. -/
  | rrel (n : BitVec 5)
  /-- R137: Reads a special register into a scalar. -/
  | srd (d idx : BitVec 6)
  /-- R137: Writes a special register from a scalar, as that register allows. -/
  | swr (a idx : BitVec 6)
  /-- R148: Holds every wave of the task and posts a debug event. -/
  | frz
  /-- R123: Landing pad: has no effect but PC = PC + 4. -/
  | lpad (vj cl jp : BitVec 1) (tag : BitVec 13)
  /-- R78: Replaces MR[24:0] with the immediate. -/
  | mode (order : BitVec 2) (scope : BitVec 3) (sat : BitVec 1) (round : BitVec 2) (etype guard : BitVec 4)
  /-- R134: Writes the AND of two predicates. -/
  | pand (d a b : BitVec 3)
  /-- R134: Writes the OR of two predicates. -/
  | por (d a b : BitVec 3)
  /-- R134: Writes the XOR of two predicates. -/
  | pxor (d a b : BitVec 3)
  /-- R134: Writes a AND NOT b of two predicates. -/
  | pandn (d a b : BitVec 3)
  /-- R134: Writes the complement of a predicate. -/
  | pnot (d a : BitVec 3)
  /-- R134: Copies a predicate. -/
  | pmov (d a : BitVec 3)
  /-- R134: Writes the popcount of a predicate AND LMASK to a scalar. -/
  | pcnt (d : BitVec 6) (a : BitVec 3)
  /-- R134: Writes the lowest set bit of a predicate AND LMASK. -/
  | pfirst (d a : BitVec 3)
  /-- R134: Sets a predicate from the low 32 bits of a scalar. -/
  | pset (d : BitVec 3) (a : BitVec 6)
  /-- R129: Branches per lane, splitting off the minority as a fragment or a pending stack entry. -/
  | vbr (p : BitVec 3) (neg : BitVec 1) (off : BitVec 21)
  /-- R130: Reconvergence point: merges, parks, waits or proceeds by key. -/
  | reconv (rid : BitVec 8)
  /-- R125: Jumps to the target in a scalar after the landing-pad check. -/
  | jmpi (a : BitVec 6) (tag : BitVec 13)
  /-- R125: Calls the target in a scalar after the landing-pad check. -/
  | calli (a : BitVec 6) (tag : BitVec 13)
  /-- R132: Jumps per lane to checked targets, dividing the fragment by destination. -/
  | vjmpi (a : BitVec 7) (tag : BitVec 13)
  /-- R158: Integer add per element, reduced by R42. -/
  | vadd (d a b : BitVec 7)
  /-- R158: Integer subtract per element. -/
  | vsub (d a b : BitVec 7)
  /-- R158: Integer multiply per element. -/
  | vmul (d a b : BitVec 7)
  /-- R158: High half of the exact integer product per element. -/
  | vmulh (d a b : BitVec 7)
  /-- R158: Integer multiply-add into d, reduced once. -/
  | vmad (d a b : BitVec 7)
  /-- R158: Integer minimum per element. -/
  | vmin (d a b : BitVec 7)
  /-- R158: Integer maximum per element. -/
  | vmax (d a b : BitVec 7)
  /-- R158: Bitwise AND of lanes. -/
  | vand (d a b : BitVec 7)
  /-- R158: Bitwise OR of lanes. -/
  | vor (d a b : BitVec 7)
  /-- R158: Bitwise XOR of lanes. -/
  | vxor (d a b : BitVec 7)
  /-- R158: Bitwise a AND NOT b of lanes. -/
  | vandn (d a b : BitVec 7)
  /-- R158: Shifts elements left, saturating under MR.sat. -/
  | vshl (d a b : BitVec 7)
  /-- R158: Shifts elements right with zero fill. -/
  | vshr (d a b : BitVec 7)
  /-- R158: Shifts elements right with sign fill. -/
  | vsra (d a b : BitVec 7)
  /-- R158: Rotates elements left within the element. -/
  | vrot (d a b : BitVec 7)
  /-- R158: Bitwise select of a and b under the mask in d. -/
  | vsel (d a b : BitVec 7)
  /-- R159: Sets a predicate bit where any element of a equals b. -/
  | vcmpeq (d : BitVec 3) (a b : BitVec 7)
  /-- R159: Sets a predicate bit where any element differs. -/
  | vcmpne (d : BitVec 3) (a b : BitVec 7)
  /-- R159: Sets a predicate bit where any element of a is less than b. -/
  | vcmplt (d : BitVec 3) (a b : BitVec 7)
  /-- R159: Sets a predicate bit where any element of a is at most b. -/
  | vcmple (d : BitVec 3) (a b : BitVec 7)
  /-- R159: Sets a predicate bit where any element of a is greater than b. -/
  | vcmpgt (d : BitVec 3) (a b : BitVec 7)
  /-- R159: Sets a predicate bit where any element of a is at least b. -/
  | vcmpge (d : BitVec 3) (a b : BitVec 7)
  /-- R160: Writes the absolute difference of elements. -/
  | vabsd (d a b : BitVec 7)
  /-- R160: Writes the rounded-up average of elements. -/
  | vavg (d a b : BitVec 7)
  /-- R160: Adds the four-element byte dot product into the 32-bit lane of d. -/
  | vdot4 (d a b : BitVec 7)
  /-- R161: Float add, rounded once by MR.round. -/
  | vfadd (d a b : BitVec 7)
  /-- R161: Float subtract. -/
  | vfsub (d a b : BitVec 7)
  /-- R161: Float multiply. -/
  | vfmul (d a b : BitVec 7)
  /-- R161: Fused a × b + d. -/
  | vfma (d a b : BitVec 7)
  /-- R161: Fused a × b − d. -/
  | vfms (d a b : BitVec 7)
  /-- R161: Fused −(a × b) + d. -/
  | vfnma (d a b : BitVec 7)
  /-- R162: Float minimum by R50. -/
  | vfmin (d a b : BitVec 7)
  /-- R162: Float maximum by R50. -/
  | vfmax (d a b : BitVec 7)
  /-- R162: Float equality compare into a predicate. -/
  | vfcmpeq (d : BitVec 3) (a b : BitVec 7)
  /-- R162: Float less-than compare into a predicate. -/
  | vfcmplt (d : BitVec 3) (a b : BitVec 7)
  /-- R162: Float less-or-equal compare into a predicate. -/
  | vfcmple (d : BitVec 3) (a b : BitVec 7)
  /-- R162: Unordered float test into a predicate. -/
  | vfcmpun (d : BitVec 3) (a b : BitVec 7)
  /-- R161: Scales a float by a power of two (scaleB). -/
  | vfscal (d a b : BitVec 7)
  /-- R163: Writes a one-hot float class mask. -/
  | vfcls (d a : BitVec 7)
  /-- R164: Copies a vector register in guarded lanes. -/
  | vmov (d a : BitVec 7)
  /-- R164: Bitwise complement of lanes. -/
  | vnot (d a : BitVec 7)
  /-- R165: Negates elements. -/
  | vneg (d a : BitVec 7)
  /-- R165: Absolute value of elements. -/
  | vabs (d a : BitVec 7)
  /-- R164: Counts set bits per element. -/
  | vpopc (d a : BitVec 7)
  /-- R164: Counts leading zeros per element. -/
  | vclz (d a : BitVec 7)
  /-- R164: Writes the lane number to each guarded lane. -/
  | vlaneid (d : BitVec 7)
  /-- R166: Float reciprocal, rounded once. -/
  | vfrcp (d a : BitVec 7)
  /-- R166: Float reciprocal square root, rounded once. -/
  | vfrsq (d a : BitVec 7)
  /-- R166: Float 2^x, rounded once. -/
  | vfexp2 (d a : BitVec 7)
  /-- R166: Float log2 x, rounded once. -/
  | vflog2 (d a : BitVec 7)
  /-- R167: Converts one part of a lane from MR.etype to another type. -/
  | vcvt (d a : BitVec 7) (part : BitVec 3) (ty : BitVec 4)
  /-- R168: Broadcasts the low 32 bits of a scalar to guarded lanes. -/
  | vbcst (d : BitVec 7) (a : BitVec 6)
  /-- R168: Extracts one lane, zero-extended, into a scalar. -/
  | vextr (d : BitVec 6) (a : BitVec 7) (lane : BitVec 5)
  /-- R168: Inserts the low 32 bits of a scalar into one guarded lane. -/
  | vins (d : BitVec 7) (a : BitVec 6) (lane : BitVec 5)
  /-- R164: Reverses the bits of each element. -/
  | vbrev (d a : BitVec 7)
  /-- R169: Takes each lane from the lane named by b[l][4:0]. -/
  | vperm (d a b : BitVec 7)
  /-- R170: Byte table lookup in the 16 bytes of lanes 0 to 3 of a. -/
  | vbperm (d a b : BitVec 7)
  /-- R169: Takes each lane from lane l − b. -/
  | vshflu (d a b : BitVec 7)
  /-- R169: Takes each lane from lane l + b. -/
  | vshfld (d a b : BitVec 7)
  /-- R169: Takes each lane from lane l XOR b. -/
  | vshflx (d a b : BitVec 7)
  /-- R171: Slides a by n bytes, filling from the old d. -/
  | vslide (d a n : BitVec 7)
  /-- R172: Sum over guarded positions by ReduceTree, broadcast. -/
  | vredadd (d a : BitVec 7)
  /-- R172: Minimum over guarded positions, broadcast. -/
  | vredmin (d a : BitVec 7)
  /-- R172: Maximum over guarded positions, broadcast. -/
  | vredmax (d a : BitVec 7)
  /-- R173: Inclusive prefix sum over guarded positions. -/
  | vscan (d a : BitVec 7)
  /-- R174: Writes the mask of guarded lanes whose a is non-zero. -/
  | vballot (d a : BitVec 7)
  /-- R175: Packs guarded lanes into the lowest lanes of LMASK. -/
  | vcmprs (d a : BitVec 7)
  /-- R175: Spreads the lowest lanes of LMASK back into guarded lanes. -/
  | vexpnd (d a : BitVec 7)
  /-- R178: Loads one 128-byte sector into guarded lanes. -/
  | vld (d : BitVec 7) (b : BitVec 6) (imm : BitVec 12)
  /-- R178: Stores guarded lanes into one sector as one atomic access. -/
  | vst (d : BitVec 7) (b : BitVec 6) (imm : BitVec 12)
  /-- R179: Loads 8 bytes into a scalar. -/
  | sld (d b : BitVec 6) (imm : BitVec 12)
  /-- R179: Stores 8 bytes from a scalar. -/
  | sst (d b : BitVec 6) (imm : BitVec 12)
  /-- R179: Loads 4 bytes, zero-extended, into a scalar. -/
  | sldw (d b : BitVec 6) (imm : BitVec 12)
  /-- R179: Stores the low 4 bytes of a scalar. -/
  | sstw (d b : BitVec 6) (imm : BitVec 12)
  /-- R180: Gathers one 4-byte word per guarded lane. -/
  | vldx (d : BitVec 7) (b : BitVec 6) (x : BitVec 7)
  /-- R180: Scatters one 4-byte word per guarded lane in ascending lane order. -/
  | vstx (d : BitVec 7) (b : BitVec 6) (x : BitVec 7)
  /-- R195: Reads one logical segment of a ready tile row through the swizzle. -/
  | tld (d : BitVec 7) (t sb : BitVec 6)
  /-- R195: Writes one logical segment of a filling tile, making it ready with FINAL. -/
  | tst (d : BitVec 7) (t sb : BitVec 6)
  /-- R183: Vector atomic add per guarded lane, returning the old value. -/
  | aadd (d : BitVec 7) (b : BitVec 6) (x : BitVec 7)
  /-- R183: Vector atomic subtract, returning. -/
  | asub (d : BitVec 7) (b : BitVec 6) (x : BitVec 7)
  /-- R183: Vector atomic signed minimum, returning. -/
  | amin (d : BitVec 7) (b : BitVec 6) (x : BitVec 7)
  /-- R183: Vector atomic signed maximum, returning. -/
  | amax (d : BitVec 7) (b : BitVec 6) (x : BitVec 7)
  /-- R183: Vector atomic unsigned minimum, returning. -/
  | aminu (d : BitVec 7) (b : BitVec 6) (x : BitVec 7)
  /-- R183: Vector atomic unsigned maximum, returning. -/
  | amaxu (d : BitVec 7) (b : BitVec 6) (x : BitVec 7)
  /-- R183: Vector atomic AND, returning. -/
  | aand (d : BitVec 7) (b : BitVec 6) (x : BitVec 7)
  /-- R183: Vector atomic OR, returning. -/
  | aor (d : BitVec 7) (b : BitVec 6) (x : BitVec 7)
  /-- R183: Vector atomic XOR, returning. -/
  | axor (d : BitVec 7) (b : BitVec 6) (x : BitVec 7)
  /-- R183: Vector atomic exchange, returning. -/
  | axchg (d : BitVec 7) (b : BitVec 6) (x : BitVec 7)
  /-- R183: Vector atomic compare-and-swap with d+1, returning. -/
  | acas (d : BitVec 7) (b : BitVec 6) (x : BitVec 7)
  /-- R183: Vector atomic fp32 add by RNE, returning. -/
  | afadd (d : BitVec 7) (b : BitVec 6) (x : BitVec 7)
  /-- R183: Vector atomic fp32 minimum, returning. -/
  | afmin (d : BitVec 7) (b : BitVec 6) (x : BitVec 7)
  /-- R183: Vector atomic fp32 maximum, returning. -/
  | afmax (d : BitVec 7) (b : BitVec 6) (x : BitVec 7)
  /-- R183: Vector atomic add, non-returning. -/
  | aaddN (d : BitVec 7) (b : BitVec 6) (x : BitVec 7)
  /-- R183: Vector atomic subtract, non-returning. -/
  | asubN (d : BitVec 7) (b : BitVec 6) (x : BitVec 7)
  /-- R183: Vector atomic signed minimum, non-returning. -/
  | aminN (d : BitVec 7) (b : BitVec 6) (x : BitVec 7)
  /-- R183: Vector atomic signed maximum, non-returning. -/
  | amaxN (d : BitVec 7) (b : BitVec 6) (x : BitVec 7)
  /-- R183: Vector atomic unsigned minimum, non-returning. -/
  | aminuN (d : BitVec 7) (b : BitVec 6) (x : BitVec 7)
  /-- R183: Vector atomic unsigned maximum, non-returning. -/
  | amaxuN (d : BitVec 7) (b : BitVec 6) (x : BitVec 7)
  /-- R183: Vector atomic AND, non-returning. -/
  | aandN (d : BitVec 7) (b : BitVec 6) (x : BitVec 7)
  /-- R183: Vector atomic OR, non-returning. -/
  | aorN (d : BitVec 7) (b : BitVec 6) (x : BitVec 7)
  /-- R183: Vector atomic XOR, non-returning. -/
  | axorN (d : BitVec 7) (b : BitVec 6) (x : BitVec 7)
  /-- R183: Vector atomic exchange, non-returning. -/
  | axchgN (d : BitVec 7) (b : BitVec 6) (x : BitVec 7)
  /-- R183: Vector atomic compare-and-swap, non-returning. -/
  | acasN (d : BitVec 7) (b : BitVec 6) (x : BitVec 7)
  /-- R183: Vector atomic fp32 add, non-returning. -/
  | afaddN (d : BitVec 7) (b : BitVec 6) (x : BitVec 7)
  /-- R183: Vector atomic fp32 minimum, non-returning. -/
  | afminN (d : BitVec 7) (b : BitVec 6) (x : BitVec 7)
  /-- R183: Vector atomic fp32 maximum, non-returning. -/
  | afmaxN (d : BitVec 7) (b : BitVec 6) (x : BitVec 7)
  /-- R185: Scalar atomic add of 8 or 4 bytes, returning. -/
  | aaddScalar (d a : BitVec 6) (w : BitVec 1)
  /-- R185: Scalar atomic subtract, returning. -/
  | asubScalar (d a : BitVec 6) (w : BitVec 1)
  /-- R185: Scalar atomic signed minimum, returning. -/
  | aminScalar (d a : BitVec 6) (w : BitVec 1)
  /-- R185: Scalar atomic signed maximum, returning. -/
  | amaxScalar (d a : BitVec 6) (w : BitVec 1)
  /-- R185: Scalar atomic unsigned minimum, returning. -/
  | aminuScalar (d a : BitVec 6) (w : BitVec 1)
  /-- R185: Scalar atomic unsigned maximum, returning. -/
  | amaxuScalar (d a : BitVec 6) (w : BitVec 1)
  /-- R185: Scalar atomic AND, returning. -/
  | aandScalar (d a : BitVec 6) (w : BitVec 1)
  /-- R185: Scalar atomic OR, returning. -/
  | aorScalar (d a : BitVec 6) (w : BitVec 1)
  /-- R185: Scalar atomic XOR, returning. -/
  | axorScalar (d a : BitVec 6) (w : BitVec 1)
  /-- R185: Scalar atomic exchange, returning. -/
  | axchgScalar (d a : BitVec 6) (w : BitVec 1)
  /-- R185: Scalar atomic compare-and-swap with s[d+1], returning. -/
  | acasScalar (d a : BitVec 6) (w : BitVec 1)
  /-- R185: Scalar 4-byte atomic fp32 add, returning. -/
  | afaddScalar (d a : BitVec 6)
  /-- R185: Scalar 4-byte atomic fp32 minimum, returning. -/
  | afminScalar (d a : BitVec 6)
  /-- R185: Scalar 4-byte atomic fp32 maximum, returning. -/
  | afmaxScalar (d a : BitVec 6)
  /-- R185: Scalar atomic add, non-returning. -/
  | aaddNScalar (d a : BitVec 6) (w : BitVec 1)
  /-- R185: Scalar atomic subtract, non-returning. -/
  | asubNScalar (d a : BitVec 6) (w : BitVec 1)
  /-- R185: Scalar atomic signed minimum, non-returning. -/
  | aminNScalar (d a : BitVec 6) (w : BitVec 1)
  /-- R185: Scalar atomic signed maximum, non-returning. -/
  | amaxNScalar (d a : BitVec 6) (w : BitVec 1)
  /-- R185: Scalar atomic unsigned minimum, non-returning. -/
  | aminuNScalar (d a : BitVec 6) (w : BitVec 1)
  /-- R185: Scalar atomic unsigned maximum, non-returning. -/
  | amaxuNScalar (d a : BitVec 6) (w : BitVec 1)
  /-- R185: Scalar atomic AND, non-returning. -/
  | aandNScalar (d a : BitVec 6) (w : BitVec 1)
  /-- R185: Scalar atomic OR, non-returning. -/
  | aorNScalar (d a : BitVec 6) (w : BitVec 1)
  /-- R185: Scalar atomic XOR, non-returning. -/
  | axorNScalar (d a : BitVec 6) (w : BitVec 1)
  /-- R185: Scalar atomic exchange, non-returning. -/
  | axchgNScalar (d a : BitVec 6) (w : BitVec 1)
  /-- R185: Scalar atomic compare-and-swap, non-returning. -/
  | acasNScalar (d a : BitVec 6) (w : BitVec 1)
  /-- R185: Scalar 4-byte atomic fp32 add, non-returning. -/
  | afaddNScalar (d a : BitVec 6)
  /-- R185: Scalar 4-byte atomic fp32 minimum, non-returning. -/
  | afminNScalar (d a : BitVec 6)
  /-- R185: Scalar 4-byte atomic fp32 maximum, non-returning. -/
  | afmaxNScalar (d a : BitVec 6)
  /-- R106: Orders earlier accesses against later ones by kind at MR.scope. -/
  | fence (kind : BitVec 2)
  /-- R196: Prefetches a line into L1 or L2, never faulting. -/
  | pref (a : BitVec 6) (own lvl : BitVec 1)
  /-- R196: Writes back a dirty line from L1, and from L2 at level 1. -/
  | flush (a : BitVec 6) (lvl : BitVec 1)
  /-- R196: Removes a line from this L1, writing it back if dirty. -/
  | inv (a : BitVec 6)
  /-- R189: Pins up to n further zeroed scratchpad lines for the slot. -/
  | pin (d a : BitVec 6)
  /-- R190: Releases the slot's highest pinned lines above its floor. -/
  | unpin (d a : BitVec 6)
  /-- R194: Defines base and shape of an empty tile entry and sets it filling. -/
  | tdef (t a b : BitVec 6)
  /-- R194: Changes a tile entry's state as R193 permits. -/
  | tset (t a : BitVec 6)
  /-- R194: Reads one half of a tile-table entry into a scalar. -/
  | tqry (d t : BitVec 6) (sel : BitVec 1)
  /-- R209: Opens or nests a transaction, taking checkpoint 0 at depth 0. -/
  | tbeg (off : BitVec 25)
  /-- R210: Opens an alternative with its own checkpoint. -/
  | orelse (off : BitVec 25)
  /-- R212: Lowers the depth, committing the attempt at depth 1. -/
  | tend
  /-- R213: Abandons the attempt with status tabrt and a code. -/
  | tabrt (code : BitVec 6)
  /-- R211: Rolls back to the newest alternative, or sleeps on the read set. -/
  | retry
  /-- R213: Reads transaction status by selector. -/
  | tstat (d : BitVec 6) (sel : BitVec 2)
  /-- R213: Adds a sector to the read set without reading it. -/
  | twatch (a : BitVec 6)
  /-- R213: Writes the depth plus 256 times the open alternatives. -/
  | tdepth (d : BitVec 6)
  /-- R241: Multiplies A tile rows by the active bank set, adding into accumulators. -/
  | mma (d : BitVec 4) (t b : BitVec 6)
  /-- R241: As mma, zeroing the accumulator region first. -/
  | mmaz (d : BitVec 4) (t b : BitVec 6)
  /-- R241: Binary popcount product into i32 accumulators. -/
  | mmab (d : BitVec 4) (t b : BitVec 6)
  /-- R245: Scales an accumulator tile by row and column scales and adds it into another. -/
  | msca (d a : BitVec 4) (b : BitVec 6)
  /-- R246: Reads an accumulator row segment into a vector, optionally zeroing it. -/
  | mrd (d : BitVec 6) (a : BitVec 4) (b : BitVec 6)
  /-- R246: Writes a vector into an accumulator row segment. -/
  | mwr (d : BitVec 4) (a b : BitVec 6)
  /-- R247: Zeroes n accumulator tiles. -/
  | mzero (d : BitVec 4) (n : BitVec 5)
  /-- R249: Makes the full inactive bank set active. -/
  | mswap
  /-- R248: Queues a fill of the inactive bank set from a tile. -/
  | mldb (t b : BitVec 6)
  /-- R250: Reads the context's view of the bank-state word. -/
  | mqry (d : BitVec 6)
  /-- R257: Issues a linear copy command on a timeline counter. -/
  | cpy (b : BitVec 6) (t : BitVec 4)
  /-- R258: Issues a strided row copy command. -/
  | cpy2d (b : BitVec 6) (t : BitVec 4)
  /-- R259: Issues a row gather through an index list. -/
  | cgath (b : BitVec 6) (t : BitVec 4)
  /-- R259: Issues a row scatter through an index list. -/
  | cscat (b : BitVec 6) (t : BitVec 4)
  /-- R260: Issues a pattern fill command. -/
  | cfill (b : BitVec 6) (t : BitVec 4)
  /-- R261: Issues a row copy that carries a matrix instruction. -/
  | cpym (b : BitVec 6) (t : BitVec 4)
  /-- R265: Reads a timeline counter's value with error bit, or its last number, acquiring. -/
  | tlrd (d : BitVec 6) (t : BitVec 4) (sel : BitVec 1)
  /-- R266: Takes the next number and issues an access-free command that advances the counter. -/
  | tlinc (d : BitVec 6) (t : BitVec 4)
  /-- R266: Clears a counter's error state, counting the failed command complete. -/
  | tlincC (d : BitVec 6) (t : BitVec 4)
  /-- R299: Checks and loads a graph image into a custom slot. -/
  | xload (x : BitVec 4) (a : BitVec 6)
  /-- R301: Ends the slot's invocations and empties the slot once quiescent. -/
  | xdrop (x : BitVec 4)
  /-- R302: Reads a custom slot's state word. -/
  | xqry (d : BitVec 6) (x : BitVec 4)
  /-- R301: Injects a marker into the wave's open stream invocation of the slot. -/
  | xmark (x : BitVec 4)
  /-- R300: Installs an opcode-only image as the slot's new active plane. -/
  | xswap (x : BitVec 4) (a : BitVec 6)
  /-- R298: Runs the lanes through the graph of custom slot N in two beats. -/
  | xop (n : BitVec 4) (d a b : BitVec 7) (imm : BitVec 4)
  /-- R314: Boards the operator at a round's stop on every core of its group. -/
  | mrboard (d a : BitVec 6)
  /-- R315: Boards the task on the active set when it carries the given tag. -/
  | mrboardT (d a : BitVec 6)
  /-- R314: Marks the operator's slot leaving its round. -/
  | mrleave (d : BitVec 6)
  /-- R315: Takes the task off the set it is aboard. -/
  | mrleaveT (d : BitVec 6)
  /-- R328: Reads a round, boarding or activity-mask status word. -/
  | mrstat (d a : BitVec 6)
  /-- R346: Creates a record from an image and pushes it to a queue. -/
  | tknew (d a b : BitVec 6)
  /-- R349: Retires a live record row. -/
  | tkfree (a : BitVec 6)
  /-- R348: Takes up to 8 records from a queue into a tile's record block. -/
  | tkpop (t a : BitVec 6)
  /-- R347: Hands a live row to a queue, or retires it when cancelled. -/
  | tkpush (d a b : BitVec 6)
  /-- R354: Routes a live row to expert queues as copies, counting and capping. -/
  | tkroute (d a b : BitVec 6)
  /-- R351: Cancels a record id and every descendant at one instant. -/
  | tkcancel (d a : BitVec 6)
  /-- R350: Swaps a live row's header, keeping the cancelled bit. -/
  | tkhdr (d a b : BitVec 6)
  /-- R355: Snapshots and clears the routing counters into memory. -/
  | tkcnt (d a : BitVec 6)
  /-- R356: Combines expert rows under the record's gates into a bf16 row. -/
  | comb (d a b : BitVec 6)
  /-- R356: As comb, renormalising the surviving gates. -/
  | combRn (d a b : BitVec 6)
  /-- R358: Feeds guarded (score, index) pairs into the skimmer chain. -/
  | skput (k : BitVec 4) (a b : BitVec 6)
  /-- R359: Writes the ranked pairs of the chain and releases it. -/
  | skdrain (d : BitVec 6)
  /-- R375: Sends a live record and its row as a token packet to a queue. -/
  | pksend (d a b : BitVec 6)
  /-- R384: Reads the global tick of the core. -/
  | tick (d : BitVec 6)
  /-- R27: A queue fires one tile of records into the next ready pail, by count or timeout. -/
  | pailFiring (q : Nat)
  /-- R24: The core starts the oldest fired task that fits, granting the whole gang. -/
  | taskStart (core : Nat)
  /-- R33: A wave ready 256 cycles without issue has its effective class raised. -/
  | waveClassRaise (core wave : Nat)
  /-- R35: At each microsecond boundary each limit is added to its bucket, capped. -/
  | budgetRefill
  /-- R130: With no fragment runnable, the deepest waiter proceeds alone. -/
  | reconvRelease (core wave : Nat)
  /-- R136: The 16 cycles of a yield end and the wave may be ready again. -/
  | yieldEnd (core wave : Nat)
  /-- R224: A wake notice reaches the core and wakes the fragments registered on the sector; R223: or the core wakes them though
  no notice has come. -/
  | wakeNotice (core : Nat) (word : Watch) (spurious : Bool)
  /-- R225: After 4,096 cycles of back-off the fragment resumes at its handler. -/
  | wakeBackoffExpiry (f : FragId)
  /-- R99: An issued access reaches its visibility point and is performed. -/
  | memoryAccessPerformed (n : Nat)
  /-- R116: A peer-window store or atomic reaches the target core and is delivered through the slot map. -/
  | peerArrival (n : Nat)
  /-- R379: A remote request arrives and is performed at most once by sequence number. -/
  | remoteRequestArrival (r : RemoteRequest)
  /-- R113: An acknowledgement, read data or old value returns to the requester. -/
  | remoteResponse (n : Nat) (data : List Byte) (poisoned : Bool)
  /-- R198: A page-table walk finishes and yields a translation or a fault. -/
  | pageWalkComplete (core ctx : Nat) (va : BitVec 64)
  /-- R202, R426: An error beyond correction at a location; the sector whose bits it held, if any, is marked poisoned. -/
  | uncorrectableError (loss : BitLoss)
  /-- R426: A corrected soft error is counted for its location. -/
  | correctedError (loc : RasLocation)
  /-- R244: A matrix instruction finishes its phases and writes accumulators and PEND. -/
  | matrixInstructionComplete (core : Nat)
  /-- R248: A queued bank fill ends and sets the inactive set full. -/
  | mldbFillComplete (core : Nat)
  /-- R318: The core swaps bank sets by the round once its conditions hold. -/
  | roundSwap (core : Nat)
  /-- R317: A round group starts once the served cores' inactive sets are empty. -/
  | groupStart (round : Nat)
  /-- R317: After PASSLIM × 1,024 cycles, cores still full are passed over for the group. -/
  | passOver (round : Nat)
  /-- R327: A weight block is read, decoded, checked and written into its macro. -/
  | blockDelivery (round : Nat)
  /-- R317: The end-of-group entry sets the tag and makes the inactive set full. -/
  | endOfGroupEntry (round : Nat)
  /-- R314: A newly served core empties its sets and sets OWN once fills end and PEND is 0. -/
  | boardCoreTakeover (core : Nat)
  /-- R314: A leaving slot detaches from a core once no task there is aboard. -/
  | slotDetach (core slot : Nat)
  /-- R254: A waiting copy command becomes active in rotation among slots. -/
  | copyCommandStart (core n : Nat)
  /-- R263: The copy engine performs one sector access of an active command. -/
  | copySectorAccess (core n : Nat)
  /-- R262: A command completes, applies its tile steps and advances its counter. -/
  | copyCommandComplete (core n : Nat)
  /-- R261: After the copy part of a cpym is performed, its matrix instruction issues or parks. -/
  | carriedInstructionIssue (core n : Nat)
  /-- R283: A churn element with valid inputs and free output slots fires. -/
  | churnElementFire (core churn copy pos : Nat)
  /-- R292: An address generator makes one read or write step at its counters. -/
  | agStep (core churn ag : Nat)
  /-- R304: Every 8 cycles the detector samples a churn's three counters. -/
  | quiescenceRound (core churn : Nat)
  /-- R289: An idle stream invocation is saved out to free a churn after 1,024 cycles. -/
  | streamPark (core churn : Nat)
  /-- R293: An xop's destination tokens arrive and its registers and flags are written. -/
  | xopComplete (core n : Nat)
  /-- R338: The oldest spilled record moves into the queue store. -/
  | spillRefill (q : Nat)
  /-- R377: A token packet arrives: checks, row write and push to its queue. -/
  | packetArrival (src : PacketSource)
  /-- R368: A packet's flits return to the stream's send allowance. -/
  | allowanceReturn (stream n : Nat)
  /-- R369: After 2^20 cycles waiting for allowance an ALLOWANCE record is posted. -/
  | allowanceWaitExpiry (f : FragId)
  /-- R358: After 256 idle cycles the skimmer chain is saved and given to a waiting wave. -/
  | skimmerHandover (core : Nat) (f : FragId)
  /-- R380: A Ploarn port goes down; its unacknowledged traffic is resent on another route. -/
  | portDown (port : Nat)
  /-- R381: A die bridge goes down; traffic is resent and rerouted. -/
  | dieBridgeDown (die bridge : Nat)
  /-- R382: With no route to a chip for the timeout, held accesses fail. -/
  | routeTimeout (chip : Nat)
  /-- R368: A destination reports its queue installed and the packet stream opens. -/
  | streamOpenReport (stream : Nat)
  /-- R395: A doorbell write lets the device consume host commands up to its value. -/
  | hqDoorbell (q : Nat) (v : BitVec 64)
  /-- R397: The host reports consumed events, freeing event ring space. -/
  | hqEvhead (q : Nat) (v : BitVec 64)
  /-- R397: An MSI-X message is sent after the vector's moderation interval. -/
  | msixMessage (vector : Nat)
  /-- R425: FW_GO = 1 starts reading and verifying the firmware image. -/
  | fwLoad
  /-- R425: FW_GO = 2 starts loading a signed configuration block. -/
  | configLoad
  /-- R425: The image read ends; signatures are checked and bring-up starts or FWSTAT reads 2. -/
  | fwLoadComplete (ok : Bool) (version : BitVec 64)
  /-- R425: Training, routes, tick and health test end and FWSTAT reads 1: what the test finds, the chip number, and what is set
  beside it. -/
  | bringUpComplete (test : HealthTest) (chip : BitVec 12) (b : BringUp)
  /-- R390: Setting AQ_EN creates and runs the admin queue. -/
  | aqEnable
  /-- R390: Clearing AQ_EN stops queue 0 with ST 2. -/
  | aqDisable
  /-- R389: A write to a BAR0 register with no behaviour of its own sets the field. -/
  | registerWrite (off size : Nat) (v : BitVec 64)
  /-- R399: Host command with no effect. -/
  | nop (q : Nat)
  /-- R393: Creates a host queue with its rings and status block. -/
  | qcreate (q : Nat)
  /-- R399: Stops a host queue. -/
  | qdestroy (q : Nat)
  /-- R396: Restarts a stopped queue at HQ_CONS. -/
  | qrestart (q : Nat)
  /-- R408: Creates a context from its descriptor. -/
  | ctxcreate (q : Nat)
  /-- R399: Destroys a context, its graphs, queues and reservations. -/
  | ctxdestroy (q : Nat)
  /-- R399: Writes a group-table entry, refused while an operator uses it. -/
  | groupset (q : Nat)
  /-- R410: Checks and installs a whole graph at one instant, or nothing. -/
  | install (q : Nat)
  /-- R407: Drains and frees a graph's slots and removes its queues and rounds. -/
  | remove (q : Nat)
  /-- R400: Creates records into a queue as tknew does. -/
  | submit (q : Nat)
  /-- R412: Queues a launch of a graph with records, tick and fences. -/
  | launch (q : Nat)
  /-- R419: Moves a context to draining and begins saving it. -/
  | preempt (q : Nat)
  /-- R422: Places all saved slots of a context and resumes it. -/
  | restore (q : Nat)
  /-- R416: Invalidates translations of a range everywhere. -/
  | inval (q : Nat)
  /-- R417: Re-executes everything suspended on a fault record. -/
  | replay (q : Nat)
  /-- R417: Terminates the context of a fault record. -/
  | kill (q : Nat)
  /-- R415: Sets the three limits of one budget class. -/
  | setbudget (q : Nat)
  /-- R415: Writes the context's budget buckets to host memory. -/
  | qbudget (q : Nat)
  /-- R418: Ends the debug hold of a frozen task. -/
  | release (q : Nat)
  /-- R382: Resumes a context's waves once a route returns. -/
  | resume (q : Nat)
  /-- R399: Returns a fresh key id for pages two contexts share. -/
  | keyalloc (q : Nat)
  /-- R401: Replaces the route table, route timeout and tick root. -/
  | routeset (q : Nat)
  /-- R423: Replaces keys, scrubs all state, attests and health-tests the device: whether all but the locations listed passes, and
  those. -/
  | turnover (q : Nat) (test : HealthTest)
  /-- R404: Supplies the run list of contexts and quanta. -/
  | runlist (q : Nat)
  /-- R399: Clears a timeline counter's error as tlinc.c does. -/
  | clearerr (q : Nat)
  /-- R402: Admits or withdraws a further context on a milk round. -/
  | roundshare (q : Nat)
  /-- R412: After waited launches complete and tick T is reached, a launch creates its records. -/
  | launchStart (n : Nat)
  /-- R412: At the graph's idle instant: release, fence write and launch-complete event. -/
  | launchComplete (n : Nat)
  /-- R404: A run-list turn ends and the front end moves to the next entry. -/
  | quantumEnd
  /-- R419: The drain window closes and remaining tasks are saved whole. -/
  | drainWindowClose (ctx : Nat)
  /-- R419: All slots are saved and the context becomes saved. -/
  | preemptSaveComplete (ctx : Nat)
  /-- R420: The pre-emption deadline passes and unsaved slots are force-reset. -/
  | preemptDeadlineExpiry (ctx : Nat)
  /-- R421: The progress period expires and the context is terminated. -/
  | watchdogExpiry (ctx : Nat)
  /-- R421: The save period expires and the context is lost. -/
  | savePeriodExpiry (ctx : Nat)
  /-- R417: An unanswered replayable record is handled as KILL. -/
  | faultPeriodExpiry (rec : Nat)
  /-- R405: The firmware pair disagrees, resets and resumes queues. -/
  | lockstepMismatch
  /-- R425: The boot ROM starts the hub and waits for firmware. -/
  | powerOn
  /-- R425: A cold reset or PERST# requires a new firmware push. -/
  | coldReset
  /-- R388: Function Level Reset ends every context and stops every queue. -/
  | flr
  /-- R388: A PRI page response resumes, or faults, a suspended host access. -/
  | priResponse (page : Nat) (ok : Bool)
  /-- R392: A host access through a BAR2 aperture is translated and performed. -/
  | hostBar2Access (off : Nat) (acc : HostAccess)
  /-- R429: Input outside 48 to 54 V stops the clocks. -/
  | inputVoltageFault
  /-- R429: The 10 ms average is compared with the cap; over it the arithmetic clock is lowered. -/
  | powerCapThrottle
  /-- R429: A junction at 100 °C throttles the clock. -/
  | thermalThrottle
  /-- R429: A junction at 110 °C stops every arithmetic clock. -/
  | thermalTrip
  /-- R428: Ring oscillators and path replicas are sampled each second. -/
  | ageingSample (die margin : Nat)
  /-- R428: Supply margins are re-planned periodically, lowering the clock at 100 %. -/
  | marginReplan
  /-- R430: A management request over MCTP is answered. -/
  | pldmRequest (req : PldmRequest)
  /-- R424: An SPDM request is answered with doubly signed measurements. -/
  | spdmRequest (req : SpdmRequest)
  /-- R73: A wave issues a word that decodes to no instruction and takes the ILL trap. -/
  | illegalInstruction (word : BitVec 32)
  /-- R121: A fetch of the next instruction fails translation, hits the scratch window or reads poison, suspending the fragment or raising POISON at the target. -/
  | instructionFetchFault
  /-- R380: The front end restores a Ploarn port that went down, and the bridge engine uses it again. -/
  | portRestore (port : Nat)
  /-- R383: Tick synchronisation from the root chip arrives over the links, slewing the tick until it is within 2 of the root and ending the LINK_DOWN detail 2 report. -/
  | tickSync (t : BitVec 64)
  /-- R368: The destination device reports that the queue of a packet stream to another chip has been removed, so later pksend on it raises REMOTE_ABSENT. -/
  | streamCloseReport (stream : Nat)
  /-- R201: The front end reads posted records from a die, ending their merging and freeing space so pending records are posted. -/
  | faultRecordRead (die : Nat)
  /-- R405: The lock-step pair finishes its reset and firmware reload and resumes every queue at HQ_CONS + 1. -/
  | lockstepRecoveryEnd
  /-- R425: A configuration block read ends, its signatures are checked, and FWSTAT records it accepted or rejected. -/
  | configLoadComplete (ok : Bool)
  deriving DecidableEq, Repr

end Sys2Proof
end

