-- ==== Sys2Proof/Machine/State.lean ====
section
/-! DEFINITION. The state of the device as plain data: what the manual gives the machine, table by table, the few fields
the model adds (the tape of moves, the fragment that issues, the counter of free values), and the state at reset. -/

namespace Sys2Proof.Machine

/-- Why the machine stops. No meaning of this model stops with a fault; the type is closed and has one constructor.
Log entry 60 (DEDUCED, safe). -/
inductive Fault where
  /-- Raised by nothing: every access the manual refuses is a trap or a record. Safe. -/
  | machineCheck
  deriving DecidableEq, Repr

/-- Why an instruction has no meaning. Log entry 60 (DEDUCED, safe). -/
inductive Refusal where
  /-- Raised by an arm of `exec` whose instruction has no meaning yet. Safe: a claim about it cannot be proved. -/
  | notModelled (mnemonic : String)
  deriving DecidableEq, Repr

/-! ## Fragments and waves -/

/-- Where the result of a deferred or answered read goes (R99, R112). -/
inductive Dest where
  | none
  | scalar (d : Nat)
  /-- Lanes of a vector register: each lane of the list takes the next four bytes. -/
  | lanes (d : Nat) (ls : List Nat)
  /-- No register: the bytes are kept for an instruction or an engine that reads another device (R112). -/
  | fetch
  deriving DecidableEq, Repr

/-- What a fragment is doing (R34, R130, R223, R227, R201). -/
inductive RunStatus where
  /-- Ready, but for what its wave or an interlock holds back (R34). -/
  | ready
  /-- Waiting at a `reconv` of this id (R130). -/
  | atReconv (id : Nat)
  /-- Asleep on the words listed: after a `retry` it wakes at its handler, in an implicit wait at the same instruction. -/
  | asleep (words : List Watch) (handler : Bool) (since : Nat)
  /-- Ready again at the cycle given (R223, R225). -/
  | backoff (readyAt : Nat) (handler : Bool)
  /-- Suspended on a fault record (R181, R201). -/
  | suspended (record : Nat)
  /-- Waiting for the answer of an access it has issued (R112, R388); the number is the access's, and the values that other
  accesses of the instruction have brought are written with the last of them. -/
  | awaiting (access : Nat) (got : List (Dest × List Nat))
  /-- Waiting for bytes of another device that its instruction reads, which is then issued again (R112). -/
  | fetching
  /-- Waiting for the host's answer to a page request, by page number and access kind, for an address (R388). -/
  | awaitingPage (page need : Nat) (va : Word)
  /-- Stopped because a chip cannot be reached, or a die as 4096 + d, with the values that its instruction has brought (R382). -/
  | unreachable (chip : Nat) (got : List (Dest × List Nat))
  deriving DecidableEq, Repr

/-- A place a byte can be: its number, the key id it is reached under, and what its page says (R93, R95, R96): kind,
cacheability, and home, 0 for the package and 1 to 8 for a die. -/
structure Place where
  key : Nat
  keyId : Nat
  kind : Nat
  cached : Bool
  home : Nat
  /-- The virtual address it was reached by. -/
  va : Word
  deriving DecidableEq, Repr

/-- Where an access is performed (R94, R95, R93, R112). -/
inductive Target where
  | here
  /-- Another core's scratchpad, through the peer window. -/
  | peer (core : Nat)
  /-- A peer device. -/
  | chip (c : Nat)
  deriving DecidableEq, Repr

/-- What an engine command does when it is issued (R219, R220). -/
inductive CmdKind where
  | copy (fn : Nat) | tlinc | tlincClear | tkfree | tkroute | tkcancel | tkcnt | mrboard | mrboardTask | mrleave
  | mrleaveTask | pksend | mswap
  deriving DecidableEq, Repr

/-- An engine command with what it read at issue (R110, R220). -/
structure Command where
  kind : CmdKind
  /-- The destination scalar, counter or handle its word names. -/
  dst : Nat
  tl : Nat
  regs : List Word
  mr : BitVec 25
  pc : Word
  data : List Byte
  places : List (Place × Target)
  deriving DecidableEq, Repr

/-- The registers and state of a fragment (R126, R204). -/
structure Frag where
  pc : Word
  lmask : Lane
  mr : BitVec 25
  depth : BitVec 32
  s : Vector Word 64
  p : Vector Lane 8
  status : RunStatus
  /-- The fragment's own line of accesses, and the lines that come before it in program order (R103 of chapter 4). -/
  thread : Nat
  before : List Nat
  ageTick : Word
  ageMember : Nat
  ageValid : Bool
  attempts : Nat
  txStatus : Nat
  txCode : Nat
  wake : Nat
  txAddr1 : Word
  txAddr2 : Word
  /-- A single-step trap is due before the next instruction (R149). -/
  stepDue : Bool
  /-- The word of the last instruction issued. -/
  word : BitVec 32
  /-- Commands of a commit that has been made, not issued yet for want of room (R220, R254). -/
  due : List Command
  /-- The words that it sleeps on are registered (R223). -/
  registered : Bool
  /-- Cycles in which it has been ready since it last issued (R34). -/
  idle : Nat
  /-- The cycles since which its `xop` has found no churn (R289), and its request for the skimmer has waited (R358). -/
  churnWait : Option Nat
  skimWait : Option Nat
  /-- The stream whose allowance its `pksend` waits for, and the cycle since which it does (R369). -/
  allowWait : Option (Nat × Nat)
  deriving DecidableEq, Repr

/-- A fragment's state where no task start has set it: the values of R22 with PC, MR 0.
Log entry 11 (DESIGN CHOICE, unsafe). -/
def Frag.reset : Frag :=
  { pc := 0, lmask := BitVec.allOnes 32, mr := 0, depth := 0, s := Vector.replicate 64 0, p := Vector.replicate 8 0,
    status := .ready, thread := 0, before := [], ageTick := 0, ageMember := 0, ageValid := false, attempts := 0,
    txStatus := 0, txCode := 0, wake := 0, txAddr1 := 0, txAddr2 := 0, stepDue := false, word := 0, due := [], registered := false,
    idle := 0, churnWait := none, skimWait := none, allowWait := none }

/-- An entry of the divergence stack (R128): pending, or parked at a `reconv` of an id with an `lr` value; and its number
among all that the wave has pushed. -/
structure StackEntry where
  num : Nat
  owner : Nat
  parked : Option (Nat × Word)
  lmask : Lane
  pc : Word
  depth : BitVec 32
  mr : BitVec 25
  deriving DecidableEq, Repr

/-- A checkpoint (R206); of the divergence stack, how many entries the wave had pushed, and the fragment's own, newest first. -/
structure Checkpoint where
  s : Vector Word 64
  p : Vector Lane 8
  mr : BitVec 25
  lmask : Lane
  depth : BitVec 32
  stackMark : Nat
  stack : List StackEntry
  rblk : Nat
  deriving DecidableEq, Repr

/-- A byte written inside an attempt, or a byte of an atomic that wrote nothing and is in the write set (R214). -/
structure TxWrite where
  place : Place
  byte : Option Byte
  deriving DecidableEq, Repr

/-- An open alternative (R210), with the marks that separate what was done before it from what came after (R206). -/
structure Alternative where
  target : Word
  checkpoint : Checkpoint
  depth : Nat
  writes : Nat
  cmds : Nat
  tokenOps : Nat
  vlog : Nat
  alog : Nat
  deriving DecidableEq, Repr

/-- What an attempt does to a token queue when it commits (R361): records taken from a queue into a tile-table entry of
the core, by their places in the queue, with the places that leave it; or a live row of an entry pushed, with the scalar
that its status goes to. -/
inductive TokenOp where
  | pop (queue entry : Nat) (order gone : List Nat)
  | push (queue entry row dst : Nat)
  deriving DecidableEq, Repr

/-- The open attempt of a wave (R204 to R220). -/
structure Attempt where
  owner : Nat
  depth : Nat
  handler : Word
  checkpoint : Checkpoint
  /-- Open alternatives, newest first. -/
  alts : List Alternative
  /-- Words read, each with the virtual address of its sector, or 0 for a hardware state word. -/
  reads : List (Watch × Word)
  writes : List TxWrite
  cmds : List Command
  tokenOps : List TokenOp
  /-- Vector registers the attempt has written, oldest first: the register, the value before and the value written. -/
  vlog : List (Nat × Vector Lane 32 × Vector Lane 32)
  /-- The instructions of the attempt that have zeroed accumulator elements, oldest first: the tile, and the elements with
  the value before. -/
  alog : List (Nat × List (Nat × Lane))
  deriving DecidableEq, Repr

/-- A wave's registers and state (R79, R80, R126). -/
structure Wave where
  task : Nat
  roleClass : Nat
  v : Vector (Vector Lane 32) 128
  rblk : Nat
  fstat : Flags
  tcause : Word
  tpc : Word
  taddr : Word
  tinfo : Word
  tvec : Word
  dbgSS : Bool
  dbgHold : Bool
  /-- The holds on the wave: 64 and above for a freeze, else the wave whose trap placed it (R147, R148). -/
  holds : List Nat
  stack : List StackEntry
  /-- Entries pushed on the stack so far. -/
  pushes : Nat
  acks : Nat
  tx : Option Attempt
  /-- The fragment in its trap handler (R144). -/
  handler : Option Nat
  /-- The cycle at which a `yield` ends (R136). -/
  yieldEnd : Option Nat
  /-- Ready cycles since the wave last issued, and the class it has been raised by (R33). -/
  readyCycles : Nat
  raised : Nat
  /-- The pairs of its own saved chain with k (R358). -/
  savedChain : Option (Nat × List (Lane × Lane))
  /-- Cycles that the wave has waited for the allowance of each stream, in the waits that are over (R369). -/
  waited : Tab Nat
  deriving DecidableEq, Repr

/-- A register that reads as zero in every lane (R23). -/
def zeroReg : Vector Lane 32 := Vector.replicate 32 0

/-- A wave's state where no task start has set it: the values of R22, one register block, and zero elsewhere.
Log entry 11 (DESIGN CHOICE, unsafe). -/
def Wave.reset : Wave :=
  { task := 0, roleClass := 0, v := Vector.replicate 128 zeroReg, rblk := 1, fstat := 0, tcause := 0, tpc := 0,
    taddr := 0, tinfo := 0, tvec := 0, dbgSS := false, dbgHold := false, holds := [], stack := [], pushes := 0, acks := 0,
    tx := none, handler := none, yieldEnd := none, readyCycles := 0, raised := 0, savedChain := none, waited := [] }

/-! ## Tasks, operators, slots -/

/-- A role of a launch block (R20). -/
structure Role where
  entry : Word
  regs : Nat
  waves : Nat
  cls : Nat
  mrInit : BitVec 25
  arg : Word
  stkBase : Word
  stkSize : Nat
  deriving DecidableEq, Repr

/-- Where a task stands: fired and waiting to start, running, waiting to be placed again after a restore, saved whole, or ended
while accesses of it are on their way (R32, R419, R422). -/
inductive TaskState where
  | queued | running | restoring | saved | ended
  deriving DecidableEq, Repr

/-- A task of a core (R15, R25, R32). -/
structure Task where
  core : Nat
  number : Nat
  age : Nat
  oper : Nat
  ctx : Nat
  state : TaskState
  /-- The tile-table entry of the core that is its tile, and the rows it was fired with. -/
  tile : Nat
  rows : Nat
  fired : Nat
  waves : List Nat
  /-- Declared aboard the active set of its core (R315); when saved aboard, the tag of that set (R329). -/
  aboard : Bool
  savedTag : Option Nat
  deriving DecidableEq, Repr

/-- No task. -/
def Task.reset : Task :=
  { core := 0, number := 0, age := 0, oper := 0, ctx := 0, state := .running, tile := 0, rows := 0, fired := 0,
    waves := [], aboard := false, savedTag := none }

/-- An installed operator (R410, R411). -/
structure Operator where
  ctx : Nat
  graph : Nat
  index : Nat
  group : Nat
  members : List Nat
  roles : List Role
  timeout : Nat
  bclass : Nat
  inq : Nat
  part : Nat
  acc : Nat
  extra : Nat
  churn : Nat
  tshape : Word
  tbase : Word
  /-- Its graph has been removed, and its slots are freed as their work ends (R399, R417). -/
  removed : Bool
  /-- A REMOVE of its graph has begun: its slots drain (R399). -/
  leaving : Bool
  deriving DecidableEq, Repr

/-- No operator. -/
def Operator.reset : Operator :=
  { ctx := 0, graph := 0, index := 0, group := 0, members := [], roles := [], timeout := 2048, bclass := 0, inq := 0,
    part := 0, acc := 0, extra := 0, churn := 0, tshape := 0, tbase := 0, removed := false,
    leaving := false }

/-- The states of a slot (R17). -/
inductive SlotState where
  | free | installed | draining | saved | lost
  deriving DecidableEq, Repr

/-- A timeline counter (R264): its value, the last number issued, whether it is in error and the failed number, and the
numbers above the value that have completed or failed. -/
structure Timeline where
  value : Nat
  issued : Nat
  error : Bool
  failed : Nat
  done : List Nat
  fails : List Nat
  deriving DecidableEq, Repr

/-- A counter at install (R264). -/
def Timeline.reset : Timeline := { value := 0, issued := 0, error := false, failed := 0, done := [], fails := [] }

/-- A live row of a record block (R344): the row, word 0 of its record as the device keeps it, the context, and, of a saved slot
whose lines another device has, DPARENT of the record as it was saved. -/
structure LiveRow where
  row : Nat
  w0 : Word
  ctx : Nat
  parent : Nat := 0
  deriving DecidableEq, Repr

/-- A tile-table entry (R191), its live rows (R344), and a change to empty that waits for commands (R193). -/
structure TileEntry where
  base : Word
  task : Bool
  stamp : Nat
  stampV : Bool
  state : Nat
  span : Nat
  etype : Nat
  rowsM1 : Nat
  rsec : Nat
  pendingEmpty : Bool
  /-- A `tst` with FINAL is on its way to it (R195). -/
  finalDue : Bool
  /-- Commands naming the entry that have not completed. -/
  inFlight : Nat
  /-- Commands that were to fill it and have failed: the command's order on its core, its counter and its number (R262). -/
  failedFills : List (Nat × Nat × Nat)
  live : List LiveRow
  /-- The task that the live rows belong to. -/
  liveTask : Nat
  deriving DecidableEq, Repr

/-- An entry at reset (R191). -/
def TileEntry.reset : TileEntry :=
  { base := 0, task := false, stamp := 0, stampV := false, state := 0, span := 0, etype := 0, rowsM1 := 0, rsec := 0,
    pendingEmpty := false, finalDue := false, inFlight := 0, failedFills := [], live := [], liveTask := 0 }

/-- What an operator holds on one core: its slot and all that is saved and restored with it (R17, R116). -/
structure Seat where
  state : SlotState
  slot : Nat
  /-- First entry of its tile-table partition and its size. -/
  partBase : Nat
  partSize : Nat
  /-- First accumulator tile of its range and its size. -/
  accBase : Nat
  accSize : Nat
  /-- Pinned lines, and those pinned at install (R188). -/
  lines : Nat
  floor : Nat
  counters : Vector Timeline 16
  /-- The milk round its operator is boarded on, counted from 1, the stop, and whether it is leaving (R314); of a saved slot,
  where it was boarded (R329). -/
  boarded : Nat
  stop : Nat
  leaving : Bool
  /-- Of a saved slot: the tile-table entries of its partition, by handle (R362, R419). -/
  saved : Tab TileEntry
  /-- Of a saved slot: where the sectors of its scratchpad lines lie in the save area, and the device that has them (R116). -/
  image : List (Place × Target)
  deriving DecidableEq, Repr

/-- A seat before anything is placed in it. -/
def Seat.reset : Seat :=
  { state := .free, slot := 0, partBase := 0, partSize := 0, accBase := 0, accSize := 0, lines := 0, floor := 0,
    counters := Vector.replicate 16 Timeline.reset, boarded := 0, stop := 0, leaving := false, saved := [], image := [] }

/-- A group-table entry (R18); COUNT and LEAD follow from the members. -/
structure Group where
  valid : Bool
  ctx : Nat
  members : List Nat
  deriving DecidableEq, Repr

/-- A group entry at reset (R18). -/
def Group.reset : Group := { valid := false, ctx := 0, members := [] }

/-- What a core keeps of its own (R15, R139). -/
structure CoreRow where
  taskCount : Nat
  freeBlocks : Nat
  reserve : Nat
  /-- The cycle in which its last task started (R32). -/
  lastStart : Option Nat
  /-- Blocks retired for lasting faults that are still in use (R426, R427). -/
  owed : Nat
  /-- Waves that have issued in this cycle, and fragments, by their rows, that were found unable to (R33, R34). -/
  issued : List Nat
  passed : List Nat
  /-- The slot of this cycle for a wave that has been ready for 1,024 cycles has been used (R33). -/
  first : Bool
  deriving DecidableEq, Repr

/-- A core when bring-up ends (R15, R139). -/
def CoreRow.reset : CoreRow :=
  { taskCount := 0, freeBlocks := 496, reserve := 16, lastStart := none, owed := 0, issued := [], passed := [], first := false }

/-! ## Memory, translation, accesses on their way -/

/-- Memory (R93): the bytes that differ from what an unlisted place reads as, the key id each byte was written under
where it is not 0 (R97), and the sectors marked poisoned (R202). A place of the local map or of host memory is its
physical address; a scratchpad byte has a number of its own (see `scratchKey`). -/
structure Memory where
  bytes : Tab Byte
  keys : Tab Nat
  poison : List Nat
  /-- The model's own: bring-ups and turnovers so far (R97). -/
  epoch : Nat
  deriving DecidableEq, Repr

/-- A translation that a core holds, or, as core 512 + d, the shared TLB of die d (R200); d is 8 for the agents that belong to
no core. -/
structure TlbEntry where
  core : Nat
  ctx : Nat
  /-- The first virtual address of the page and its size in bytes. -/
  va : Nat
  size : Nat
  pa : Nat
  keyId : Nat
  kind : Nat
  cached : Bool
  exec : Bool
  write : Bool
  read : Bool
  home : Nat
  /-- Held as not present, with the XLATE detail of the walk that met it (R200, R201). -/
  missing : Option Nat
  deriving DecidableEq, Repr

/-- What a die's page-walk cache holds (R200): for a context, a level and the address bits above it, the next table. -/
structure WalkEntry where
  die : Nat
  ctx : Nat
  level : Nat
  top : Nat
  next : Nat
  deriving DecidableEq, Repr

/-- For what an agent of the device that belongs to no core reads and writes by virtual address (R388): a command of a host queue, a
launch, an access of the host through BAR2 (R392, R400), the spill area of a token queue (R338), or the save of a context (R419). -/
inductive AskOwner where
  | queue (q : Nat)
  | launch (n : Nat)
  | bar2 (off : Nat) (a : HostAccess)
  | spill (q : Nat)
  | save (ctx : Nat)
  deriving DecidableEq, Repr

/-- Who makes an access (R110, R112): a wave, a copy command of the core by its number, the generator of a churn of the core at
a position, a token packet that writes its row, a queue, a round, or the front end. -/
inductive Issuer where
  | wave
  | copy (n : Nat)
  | generator (churn pos : Nat)
  | flight (n : Nat)
  /-- The token engine at the home of a queue, for the queue's spill area (R338, R341). -/
  | queue (q : Nat)
  /-- The milk round engine, for the blocks of a round (R326). -/
  | round (n : Nat)
  | frontEnd (who : AskOwner)
  deriving DecidableEq, Repr

/-- What an access that has been issued and not performed does (R99, R112). -/
inductive AccessOp where
  /-- Bytes to be stored, each at its place. -/
  | store (data : List (Place × Byte))
  /-- Bytes to be loaded into a register. -/
  | load (places : List Place) (dst : Dest)
  /-- An atomic with its operands on the bytes of the places. -/
  | atomic (op : AtomicOp) (places : List Place) (x y : Word) (returning : Bool) (dst : Dest)
  /-- A fence of a kind of R106, which keeps its place in program order. -/
  | fence (kind : Nat)
  /-- A token packet on its way, by its number, and the die it goes to (R377, R378). -/
  | packet (n die : Nat)
  /-- A `flush` or an `inv` of a line, ordered as a write to it (R196). -/
  | flush (places : List Place)
  deriving DecidableEq, Repr

/-- An access that has been issued and not performed (R99). -/
structure Access where
  id : Nat
  /-- Who makes it; the fragment, or of an engine the fragment whose command it is; the task of that fragment; the context. -/
  issuer : Issuer
  agent : FragId
  task : Nat
  ctx : Nat
  thread : Nat
  before : List Nat
  target : Target
  op : AccessOp
  /-- Kind of R98, acquire and release property of R105, scope. -/
  kind : Nat
  acquire : Bool
  release : Bool
  scope : Nat
  /-- The address of its instruction, and the instruction's word. -/
  pc : Word
  word : BitVec 32
  /-- The lane that it is made for, 0 where it is made for the whole instruction. -/
  lane : Nat
  /-- The bytes that it stores were read from a poisoned sector (R268). -/
  poisoned : Bool
  /-- For a remote access: the sequence number of its pair, and whether its answer is awaited (R112, R379). -/
  seq : Nat
  sent : Bool
  failed : Bool
  /-- The port it was sent through (R380). -/
  port : Option Nat
  /-- The tile-table entry of the agent's core that its performance makes ready (R193, R195). -/
  final : Option Nat
  deriving DecidableEq, Repr

/-- A byte of another device that an instruction or an engine has read and not used yet (R112, R202): whose it is, the chip,
the place, the byte and whether it came with poison. -/
structure Fetched where
  issuer : Issuer
  agent : FragId
  task : Nat
  chip : Nat
  key : Nat
  byte : Byte
  poisoned : Bool
  deriving DecidableEq, Repr

/-- A wake notice on its way to a core, with the fragments, by their rows, whose registration on the word was not complete
when it was written (R223, R224). -/
structure Notice where
  core : Nat
  word : Watch
  early : List Nat
  deriving DecidableEq, Repr

/-- A fault record (R417). -/
structure FaultRecord where
  id : Nat
  cause : Nat
  detail : Nat
  core : Nat
  ctx : Nat
  va : Word
  /-- Of a page's record, where the page begins and its size in bytes (R92, R201). -/
  page : Nat × Nat
  wave : Nat
  frag : Nat
  task : Nat
  slot : Nat
  pc : Word
  access : Nat
  agent : Nat
  /-- Bits of word 6 above the agent, and word 7, as R417 gives them for the cause. -/
  more6 : Nat
  word7 : Nat
  /-- The packet stream of an ALLOWANCE record (R369). -/
  stream : Nat
  suspended : List FragId
  /-- Commands, packets and address-generator steps suspended on it, by their numbers. -/
  others : List Nat
  /-- Posted to the front end, or held while its die's records are full (R201); read by the front end. -/
  posted : Bool
  wasRead : Bool
  arisen : Nat
  /-- It takes no command although its cause would (R412); it has been answered; its replay waits for a restore (R417). -/
  reportOnly : Bool
  answered : Bool
  deferred : Bool
  deriving DecidableEq, Repr

/-! ## The matrix engine (R232 to R252) -/

/-- Who may use a bank set (R234). -/
inductive SetUser where
  | nobody
  | context (c : Nat)
  | round (r : Nat)
  deriving DecidableEq, Repr

/-- The aligned weights of 32 consecutive K indices of a column (R63); of b1 sets, the bits. -/
structure WeightGroup where
  w : List Int
  ew : Int
  invalid : Bool
  deriving DecidableEq, Repr

/-- A bank set (R232 to R234): 0 empty, 1 filling, 2 holding weights; poisoned by a checksum (1) or a sector (2); its
groups by column × 32 + group. -/
structure BankSet where
  st : Nat
  tag : Nat
  arr : Nat
  fmt : Nat
  pois : Nat
  user : SetUser
  groups : Tab WeightGroup
  deriving DecidableEq, Repr

/-- A set that holds nothing. -/
def BankSet.reset : BankSet := { st := 0, tag := 0, arr := 0, fmt := 0, pois := 0, user := .nobody, groups := [] }

/-- What a matrix instruction that has issued does when it completes. -/
inductive MatKind where
  /-- Rows of A elements in groups, by accumulator row; the number of rows and columns and whether they are zeroed first;
  the path: 0 fp32, 1 integer, 2 XOR-popcount, 3 AND-popcount. -/
  | product (d m n : Nat) (zero : Bool) (path etype : Nat) (sat : Bool) (rows : List (Nat × List (List Nat)))
      (weights : Tab WeightGroup)
  /-- The elements of tile a as they stand when it issues, by rows, and row and column scales. -/
  | scale (d : Nat) (src rs cs : List Nat)
  deriving DecidableEq, Repr

/-- A matrix instruction that has issued and not completed (R236). -/
structure MatOp where
  oper : Nat
  ctx : Nat
  /-- The wave whose FSTAT takes its flags, with the task it belongs to. -/
  agent : FragId
  task : Nat
  /-- The `cpym` that carries it (R251). -/
  carried : Option Nat
  kind : MatKind
  deriving DecidableEq, Repr

/-- A queued `mldb` (R248): for each column the bytes of its K elements, with the value each had at issue, and the sectors that
were poisoned then. -/
structure Fill where
  oper : Nat
  ctx : Nat
  tag : Nat
  arr : Nat
  etype : Nat
  k : Nat
  rows : List (List (Place × Target × Byte))
  poisoned : List Nat
  deriving DecidableEq, Repr

/-- The banks and the pending work of a core's matrix engine. -/
structure Bank where
  active : BankSet
  inactive : BankSet
  swaps : Nat
  /-- Swaps by the user of the set that each made active (R233). -/
  swapsBy : List (SetUser × Nat)
  queue : List MatOp
  fills : List Fill
  /-- OWN (R233), and the cycle of the last swap since it became 1 (R318). -/
  own : Bool
  ownSwap : Option Nat
  deriving DecidableEq, Repr

/-- The banks at reset (R233). -/
def Bank.reset : Bank :=
  { active := BankSet.reset, inactive := BankSet.reset, swaps := 0, swapsBy := [], queue := [], fills := [],
    own := false, ownSwap := none }

/-! ## The copy engine (R253 to R270) -/

/-- Where a copy command stands: waiting to start, active, or its carried instruction parked (R254, R261). -/
inductive CopyStatus where
  | waiting | active | parked
  deriving DecidableEq, Repr

/-- A copy command that has not completed (R253 to R263). -/
structure CopyCmd where
  /-- Its order among the commands of its core. -/
  id : Nat
  oper : Nat
  ctx : Nat
  /-- The fragment that issued it, with its task, and the address of its instruction. -/
  agent : FragId
  task : Nat
  pc : Word
  tl : Nat
  n : Nat
  fn : Nat
  words : List Word
  mr : BitVec 25
  /-- Tile-table entries of the core that its sides name. -/
  srcTile : Option Nat
  dstTile : Option Nat
  status : CopyStatus
  /-- The row and the sector of the row that come next, and the address read from the list for the row, if one was. -/
  row : Nat
  sec : Nat
  listed : Option (Option Word)
  /-- A byte has been moved; the first poisoned source sector read. -/
  moved : Bool
  poison : Option Word
  stamped : Bool
  /-- Accesses that came before it in program order; those that its first access waits for, and the scope (R110). -/
  past : List Nat
  holds : List Nat
  /-- Earlier commands of the slot that fill the same tile (R262). -/
  prior : List Nat
  /-- The carried instruction has issued; it has completed. -/
  carrying : Bool
  carried : Bool
  deriving DecidableEq, Repr

/-- The copy engine of a core: its commands, in the order of service, the slot whose command started last, and the number
of the next command. -/
structure CopyRow where
  cmds : List CopyCmd
  lastSlot : Nat
  next : Nat
  deriving DecidableEq, Repr

/-- A copy engine with nothing to do. -/
def CopyRow.reset : CopyRow := { cmds := [], lastSlot := 7, next := 1 }

/-! ## Churns (R272 to R305) -/

/-- A link of a route plane (R276). -/
structure ChurnLink where
  src : Nat
  dst : Nat
  input : Nat
  slots : Nat
  init : Bool
  iv : Lane
  deriving DecidableEq, Repr

/-- A loaded custom slot of a context on a core (R275, R295, R296): header fields, links, table-unit records as unit,
offset and bytes, and the active and the previous opcode plane as 26 entries of 32 bytes. -/
structure ChurnImage where
  lat : Nat
  srcs : Nat
  dst2 : Bool
  strm : Bool
  fa : Nat
  fb : Nat
  fd : Nat
  f0 : Nat
  f1 : Nat
  rv : Nat
  ov : Nat
  ovp : Nat
  links : List ChurnLink
  units : List (Nat × Nat × List Byte)
  plane : List (List Byte)
  prev : List (List Byte)
  mism : Bool
  deriving DecidableEq, Repr

/-- What a link holds (R273): a token, said to be one that an INIT link holds at rest or not, or a marker; with the opcode
version it was injected under. -/
inductive LinkItem where
  | token (h0 h1 : Lane) (ov : Nat) (rest : Bool)
  | marker (ov : Nat)
  deriving DecidableEq, Repr

/-- An `xop` that has issued (R298): its place in its invocation, its destination, its guarded lanes, what it recorded of
MR, and the accesses that came before it. -/
structure XopRec where
  id : Nat
  agent : FragId
  task : Nat
  pc : Word
  regs : List Nat
  guarded : List Nat
  round : Nat
  past : List Nat
  holds : List Nat
  done : Bool
  deriving DecidableEq, Repr

/-- An invocation (R287): the wave that holds it, its opcode version, whether its marker has been injected, its `xop`s in
order, and the flags raised by the firings of each number and lane copy. -/
structure Invocation where
  num : Nat
  owner : Nat
  task : Nat
  ov : Nat
  marked : Bool
  xops : List XopRec
  flags : Tab Flags
  deriving DecidableEq, Repr

/-- An address generator (R292, R294): its loop counters, whether it has abandoned the rest of its invocation, and the
record it is stopped on. -/
structure AgState where
  i0 : Nat
  i1 : Nat
  i2 : Nat
  abandoned : Bool
  stopped : Option Nat
  deriving DecidableEq, Repr

/-- An address generator at the start of an invocation. -/
def AgState.reset : AgState := { i0 := 0, i1 := 0, i2 := 0, abandoned := false, stopped := none }

/-- The contents of a churn that holds a route plane. Keys join a link, a port or a position with a lane copy. -/
structure Net where
  ctx : Nat
  slot : Nat
  queues : Tab (List LinkItem)
  /-- Tokens and markers injected and not yet taken up by the source's links. -/
  pend : Tab (List LinkItem)
  /-- Markers passed and firings since the last, by position; markers that an INIT link has given up. -/
  passed : Tab Nat
  fired : Tab Nat
  popped : Tab Nat
  /-- Tokens that have reached a destination, by invocation and port, and markers that have, by port. -/
  outs : Tab (List (Lane × Lane))
  outMarks : Tab Nat
  invs : List Invocation
  nextInv : Nat
  ags : List AgState
  deriving DecidableEq, Repr

/-- A churn: what it holds, its return count, signals of freed slots on their way since the last round of the detector, the
rounds that have found it empty, and the cycle of its last `xop` (R289, R304). -/
structure Churn where
  net : Option Net
  returns : Nat
  rounds : Nat
  lastXop : Nat
  deriving DecidableEq, Repr

/-- A churn that holds nothing. -/
def Churn.reset : Churn := { net := none, returns := 0, rounds := 2, lastXop := 0 }

/-- The churns of a core, the invocations parked in save areas, and the number of the next `xop`. -/
structure ChurnRow where
  churns : Vector Churn 4
  parked : List Net
  nextXop : Nat
  deriving DecidableEq, Repr

/-- The churns of a core at reset. -/
def ChurnRow.reset : ChurnRow := { churns := Vector.replicate 4 Churn.reset, parked := [], nextXop := 1 }

/-! ## Milk rounds (R308 to R331) -/

/-- An installed round: the context and graph it belongs to and the contexts admitted to it, what its descriptor gives,
its entries as they stand in memory, the entry it stands at, passes completed, the last tag delivered, the activity mask
and the mask latched for the pass, whether the latch of the pass is still to be made, the cores that receive the group
under way, the cycle since which the next group has been waiting to start, and the record it is stopped on. -/
structure Round where
  ctx : Nat
  graph : Nat
  shared : List Nat
  stopv : BitVec 16
  dwell : Nat
  passlim : Nat
  skipen : Bool
  entries : List (BitVec 256)
  pos : Nat
  passes : Nat
  ltag : Nat
  activity : BitVec 256
  latched : BitVec 256
  latchDue : Bool
  group : Option (List Nat)
  since : Option Nat
  stopped : Option Nat
  /-- Sectors of the block at which it stands that have been read: the core for a cream block, else 0xFFFF, the sector, its
  bytes, and whether it is poisoned (R326). -/
  sampled : List (Nat × Nat × List Byte × Bool)
  /-- Its graph has been removed, and it goes when the last operator has left it (R308, R402). -/
  gone : Bool
  deriving DecidableEq, Repr

/-- A round with nothing in it. -/
def Round.reset : Round :=
  { ctx := 0, graph := 0, shared := [], stopv := 0, dwell := 0, passlim := 0, skipen := false, entries := [], pos := 0,
    passes := 0, ltag := 0, activity := BitVec.allOnes 256, latched := BitVec.allOnes 256, latchDue := true,
    group := none, since := none, stopped := none, sampled := [], gone := false }

/-! ## Token queues, packets and the skimmer (R336 to R344, R357, R368 to R382) -/

/-- A record in a queue's store: its words, the cycle of its push, and the length of its chunk where that is not what its
header says (R343). -/
structure QueueEntry where
  record : List Word
  stamp : Nat
  len : Option Nat
  deriving DecidableEq, Repr

/-- A spilled record: word 0 and DPARENT as the device keeps them, the cycle of its push, and its place in the ring. -/
structure SpillEntry where
  w0 : Word
  parent : Nat
  stamp : Nat
  pos : Nat
  deriving DecidableEq, Repr

/-- A token queue (R336 to R343): its descriptor, its store and spill in order, the place where the next spilled record
goes, the routed copies held in the spill area, lengths of chunks whose first record has been retired, and the core whose pail it served
last. -/
structure TokenQueue where
  ctx : Nat
  graph : Nat
  scope : Nat
  anchor : Nat
  home : Nat
  cap : Nat
  join : Bool
  spBase : Nat
  spCap : Nat
  store : List QueueEntry
  spill : List SpillEntry
  spillTail : Nat
  held : List SpillEntry
  nextLen : List (Nat × Nat)
  lastCore : Nat
  deriving DecidableEq, Repr

/-- A queue with nothing in it. -/
def TokenQueue.reset : TokenQueue :=
  { ctx := 0, graph := 0, scope := 1, anchor := 0, home := 0, cap := 8, join := false, spBase := 0, spCap := 0, store := [],
    spill := [], spillTail := 0, held := [], nextLen := [], lastCore := 255 }

/-- A packet in receive space or on its way to it (R372, R377): the wave that sent it and the core that it sent it from, or the
sequence number and pair of one from another chip; its stream; the destination; whether its row has been written; and the
record it is stopped on. -/
structure Flight where
  id : Nat
  wave : Nat
  core : Nat
  remote : Option (Nat × Nat)
  stream : Nat
  flits : Nat
  queue : Nat
  ctx : Nat
  rowAddr : Nat
  row : List Byte
  record : List Word
  rowDone : Bool
  stopped : Option Nat
  deriving DecidableEq, Repr

/-- A packet stream that a graph declares (R368, R410): for another chip the home die and the context of the queue. -/
structure StreamDecl where
  graph : Nat
  ctx : Nat
  core : Nat
  chip : Nat
  queue : Nat
  die : Nat
  dstCtx : Nat
  deriving DecidableEq, Repr

/-- What a destination keeps for a pair of source die and itself (R379): the number below which all have been performed,
those above it that have, and the results of atomics whose numbers may come again, none for one that found poison. -/
structure SeqWindow where
  low : Nat
  done : List Nat
  results : Tab (Option Nat)
  deriving DecidableEq, Repr

/-- A pair that has sent nothing. -/
def SeqWindow.reset : SeqWindow := { low := 0, done := [], results := [] }

/-- What the device sends to the outside world in answer to it. Log entry 61 (DESIGN CHOICE, safe). -/
inductive Reply where
  /-- To another chip: the sequence number, bytes read or the old value of an atomic, poison, and the flits of a packet that
  return to its stream (R112, R202, R377). -/
  | remote (chip die : Nat) (seq : Option Nat) (data : List Byte) (poisoned : Bool) (flits : Nat)
  /-- A request as it leaves for another chip through a port: its sequence number, address and key id (R112, R379, R380). -/
  | request (chip die : Nat) (port seq : Option Nat) (pa keyId : Nat) (op : RemoteOp)
  /-- A token packet as it leaves for another chip through a port, with its sequence number (R372, R379, R380). -/
  | packet (chip die : Nat) (port : Option Nat) (seq : Nat) (data : List Byte)
  /-- To the other chips: a queue of system scope has been installed or removed (R368). -/
  | queueReport (queue ctx die : Nat) (installed : Bool)
  /-- To the host: a BAR2 access has been performed, with what it read or the old value, and poison; or Unsupported
  Request (R392, R202). -/
  | hostAccess (off : Nat) (data : List Byte) (poisoned unsupported : Bool)
  /-- To the host: the message of a vector (R397). -/
  | msix (vector : Nat)
  /-- To management: the temperatures of the dies and of the HBM stacks, input voltage and power; the margin consumed per die;
  counts of corrected errors and of retirements; FWSTAT; the arithmetic clock (R428, R430). -/
  | sensors (dieTemps : List Nat) (stackTemps : List Nat) (voltage power : Nat) (margins : List Nat) (corrected retired : Nat) (fwstat : Word)
      (clock : Nat)
  /-- To management: a setting has been taken, or refused (R388, R428, R429). -/
  | setting (taken : Bool)
  /-- To a verifier, over MCTP or DOE: the digests of the boot ROM, of the firmware image and of each configuration block, the
  firmware's version, the last health result, the digest of the retirement map and the map, and the Ed25519 and the ML-DSA-65
  signature (R424). -/
  | measurements (overMctp : Bool) (rom image : Word) (blocks : List Word) (version : Word) (health : Nat) (map : Word)
      (retired : List RasLocation) (ed25519 mldsa65 : Word)
  /-- To management: the input voltage is outside its range (R429). -/
  | voltageFault
  deriving DecidableEq, Repr

/-- The skimmer chain of a core (R357, R358): its owner, with the task, k, the pairs in rank order, and the cycle of the
owner's last put. -/
structure Chain where
  owner : Option (Nat × Nat)
  k : Nat
  pairs : List (Lane × Lane)
  lastPut : Nat
  deriving DecidableEq, Repr

/-- A chain without an owner. -/
def Chain.reset : Chain := { owner := none, k := 0, pairs := [], lastPut := 0 }

/-! ## Contexts -/

/-- The states of a context (R407). -/
inductive CtxState where
  | active | draining | saved | lost | terminated
  deriving DecidableEq, Repr

/-- The three limits and buckets of a budget class (R35). -/
structure Budget where
  limits : List Nat
  buckets : List Int
  deriving DecidableEq, Repr

/-- A budget class at creation: no limit, every bucket 0 (R35). -/
def Budget.reset : Budget := { limits := [0, 0, 0], buckets := [0, 0, 0] }

/-- A context (R407 to R409). -/
structure Context where
  state : CtxState
  keyId : Nat
  root : Nat
  tvec : Word
  saveBase : Word
  saveBytes : Nat
  spillBase : Word
  spillN : Nat
  liveLimit : Nat
  progress : Nat
  savePeriod : Nat
  faultPeriod : Nat
  drain : Nat
  deadline : Nat
  /-- Nanosecond times at which PREEMPT was performed and the progress period last restarted. -/
  preemptAt : Nat
  progressAt : Nat
  /-- The drain window has closed; the deadline has passed and the slots have been reset (R419, R420). -/
  windowClosed : Bool
  forced : Bool
  /-- It was pre-empted at the end of its turn of the run list (R404); it is being destroyed (R388, R399). -/
  turnSaved : Bool
  destroying : Bool
  /-- A CTXDESTROY of it has begun: it issues nothing, so that its work in flight ends (R399). -/
  frozen : Bool
  budgets : Vector Budget 4
  /-- The last record id given, the expert table and the routing counters (R335, R353). -/
  lastId : Nat
  experts : Tab (BitVec 32)
  counters : Tab Nat
  deriving DecidableEq, Repr

/-- A context with every field 0 and active. -/
def Context.reset : Context :=
  { state := .active, keyId := 0, root := 0, tvec := 0, saveBase := 0, saveBytes := 0, spillBase := 0, spillN := 0,
    liveLimit := 0, progress := 0, savePeriod := 0, faultPeriod := 0, drain := 0, deadline := 0,
    preemptAt := 0, progressAt := 0, windowClosed := false, forced := false, turnSaved := false,
    destroying := false, frozen := false, budgets := Vector.replicate 4 Budget.reset,
    lastId := 0, experts := [], counters := [] }

/-- The service context (R74): it has no descriptor, and no limit of live records but the greatest.
Log entry 26 (DESIGN CHOICE, unsafe). -/
def Context.service : Context := { Context.reset with liveLimit := 2 ^ 32 - 1 }

/-! ## Host queues (R391 to R398) -/

/-- A host queue. -/
structure HostQueue where
  ctx : Nat
  logN : Nat
  logM : Nat
  vector : Nat
  cmdBase : Nat
  evBase : Nat
  stbBase : Nat
  /-- HQ_STATE.ST and THR. -/
  st : Nat
  throttled : Bool
  cons : Nat
  evPost : Nat
  dbVal : Nat
  evHead : Nat
  /-- Events held for a full ring, words 1 to 7 of each (R397). -/
  held : List (List Word)
  /-- The words of the command at HQ_CONS + 1 where it has begun and not completed (R395). -/
  begun : List Word
  deriving DecidableEq, Repr

/-- A queue number that has not been created. -/
def HostQueue.reset : HostQueue :=
  { ctx := 0, logN := 0, logM := 0, vector := 0, cmdBase := 0, evBase := 0, stbBase := 0, st := 0, throttled := false,
    cons := 0, evPost := 0, dbVal := 0, evHead := 0, held := [], begun := [] }

/-! ## Launches, run list, registers, RAS and power (R389, R390, R404, R412, R426 to R429) -/

/-- A LAUNCH that has not completed: its queue and SEQ, its operands, the SEQs it waits for, whether it came after its tick,
whether its records have been created, how many were, and word 5 of its event. -/
structure Launch where
  id : Nat
  queue : Nat
  seq : Nat
  ctx : Nat
  graph : Nat
  count : Nat
  records : Word
  tick : Nat
  fence : Word
  fenceValue : Word
  waits : List Nat
  late : Bool
  started : Bool
  made : Nat
  missed : Nat
  deriving DecidableEq, Repr

/-- A page request of an agent that belongs to no core, or one that the host has refused: who waits for it, the context, the page,
the access kind and the address (R388). -/
structure PageAsk where
  owner : AskOwner
  ctx : Nat
  page : Nat
  access : Nat
  va : Word
  refused : Bool
  deriving DecidableEq, Repr

/-- An entry of the run list. -/
structure RunEntry where
  ctx : Nat
  reside : Bool
  quantum : Nat
  deriving DecidableEq, Repr

/-- The run list, the entry whose turn it is, and the tick at which its turn began. -/
structure RunList where
  entries : List RunEntry
  pos : Nat
  since : Nat
  deriving DecidableEq, Repr

/-- Why a graph's admissions are throttled (R414). -/
inductive ThrottleWhy where
  | full
  /-- A spill fault, by its record. -/
  | fault (record : Nat)
  | liveLimit
  deriving DecidableEq, Repr

/-- A token queue for which admissions are throttled, with its context and graph. -/
structure Throttle where
  queue : Nat
  ctx : Nat
  graph : Nat
  why : ThrottleWhy
  deriving DecidableEq, Repr

/-- The registers of BAR0 and what loads and bring-up leave (R389, R390, R392, R425): FWSTAT[2:0] and [9:8], what is being
loaded (1 firmware, 2 a configuration block) and FWSTAT[2:0] before it, the low halves of registers half written, the
tables by 8-byte words, and whether FWSTAT has read 1 since the power came on; the loads begun so far, the one that the running
firmware came by and those of the configuration blocks accepted, which name what R424 measures; the IDE streams that are keyed
(R388). -/
structure Control where
  fwAddr : Word
  fwLen : Word
  fwstat : Nat
  cfgstat : Nat
  fwVersion : Word
  loading : Nat
  resume : Nat
  aqCmd : Word
  aqEv : Word
  aqStb : Word
  aqSize : Word
  aqEnabled : Bool
  degraded : Bool
  failed : Bool
  everReady : Bool
  halves : Tab (BitVec 32)
  msixTable : Tab Word
  apertures : Tab Word
  loads : Nat
  image : Nat
  blocks : List Nat
  ide : List Nat
  deriving DecidableEq, Repr

/-- The registers at reset (R390). Log entry 12 (DESIGN CHOICE, unsafe). -/
def Control.reset : Control :=
  { fwAddr := 0, fwLen := 0, fwstat := 0, cfgstat := 0, fwVersion := 0, loading := 0, resume := 0, aqCmd := 0, aqEv := 0,
    aqStb := 0, aqSize := 0, aqEnabled := false, degraded := false, failed := false, everReady := false, halves := [],
    msixTable := [], apertures := [], loads := 0, image := 0, blocks := [], ide := [] }

/-- RAS history: the ticks of corrected errors and of mismatches of the pair that are still in their windows, how many
errors have been corrected, the locations retired, and whether the pair is being reset (R405, R426). The last health
result: 0 none, 1 pass, 2 fail (R423). -/
structure Ras where
  counts : List (RasLocation × Nat)
  corrected : Nat
  mismatches : List Nat
  recovering : Bool
  retired : List RasLocation
  health : Nat
  deriving DecidableEq, Repr

/-- No RAS history. -/
def Ras.reset : Ras := { counts := [], corrected := 0, mismatches := [], recovering := false, retired := [], health := 0 }

/-- Power and clocks: the arithmetic clock in MHz, the cap in watts, minutes between re-plannings and the tick of the last,
the last sample and the margin consumed by die, the supply voltage by die in millivolts as the last re-planning has set it,
whether the clocks stand, whether the device waits for a reset, and whether the clock is being lowered for the power cap
(R428, R429). -/
structure Power where
  clock : Nat
  cap : Nat
  average : Nat
  period : Nat
  planned : Nat
  samples : Tab Nat
  sampled : Tab Nat
  margins : Tab Nat
  voltages : Tab Nat
  stopped : Bool
  tripped : Bool
  throttling : Bool
  deriving DecidableEq, Repr

/-- Power and clocks at reset. Log entry 12 (DESIGN CHOICE, unsafe). -/
def Power.reset : Power :=
  { clock := 600, cap := 3200, average := 0, period := 10, planned := 0, samples := [], sampled := [], margins := [], voltages := [], stopped := false,
    tripped := false, throttling := false }

/-! ## The tape of moves -/

/-- What happens next: which agent moves, or what the outside world does (the model's own; see log entry 1).
Log entry 1 (DESIGN CHOICE, safe). Log entry 61 (DESIGN CHOICE, safe). -/
inductive Input where
  /-- A fragment issues its next instruction; the accesses it makes are performed with it, or later when deferred. -/
  | issue (f : FragId) (deferred : Bool)
  /-- A step without an encoding. -/
  | event (i : Instr)
  /-- The host writes bytes of its own memory. -/
  | hostStore (addr : Nat) (data : List Byte)
  /-- Arithmetic cycles and nanoseconds pass. -/
  | elapse (cycles ns : Nat)
  /-- From here on the accesses of the front end to host memory succeed, or fail (R397, R410). -/
  | hostPort (works : Bool)
  /-- The pipeline or engine that a fragment's next instruction needs cannot take it in this cycle (R34). -/
  | busy (f : FragId)
  /-- The registration of a sleeping fragment is complete (R223). -/
  | register (f : FragId)
  /-- A core or a die no longer holds a translation, or an entry of a page-walk cache, by its place in the list (R200). -/
  | forget (walk : Bool) (n : Nat)
  /-- A sector of the block at which a round stands is read: of the core's vault for a cream block (R326). -/
  | readSector (round core sector : Nat)
  /-- The average of the module's power over the last 10 ms is this, in watts (R429). -/
  | power (watts : Nat)
  deriving DecidableEq, Repr

/-! ## The state -/

/-- The state of the device. -/
structure State where
  /-- The model's own: the moves to come, the fragment that issues, whether its instruction found that it cannot issue yet,
  whether its accesses are deferred, and the counter of free values. -/
  inputs : List Input
  cur : FragId
  stalled : Bool
  deferring : Bool
  fresh : Nat
  /-- Arithmetic cycles since bring-up ended (R15), and the global tick (R383). -/
  cycle : Nat
  tick : Nat
  /-- Microsecond boundaries at which the buckets have been refilled (R35). -/
  refills : Nat
  chip : Nat
  frags : Tab Frag
  waves : Tab Wave
  tasks : Tab Task
  cores : Tab CoreRow
  operators : Tab Operator
  seats : Tab Seat
  /-- The operator in each slot of each core (R116). -/
  slotMap : Tab Nat
  tiles : Tab TileEntry
  groups : Tab Group
  banks : Tab Bank
  /-- Accumulator elements that are not 0 (R235). -/
  accs : Tab Lane
  copies : Tab CopyRow
  /-- Loaded custom slots, the churns of each core, and the table-store entries reserved for a context on a core (R295). -/
  images : Tab ChurnImage
  churns : Tab ChurnRow
  churnRes : Tab Nat
  rounds : Tab Round
  queues : Tab TokenQueue
  /-- Packets on their way or in receive space, and flits on their way back to the allowance of a stream (R368, R377). -/
  flights : List Flight
  returns : List (Nat × Nat)
  streams : List StreamDecl
  /-- Streams to other chips that the destination has reported open (R368). -/
  opened : List Nat
  /-- Flits of each stream's allowance that are in use (R368). -/
  inUse : Tab Nat
  /-- The next sequence number of each pair of die and chip, and what this chip has performed for others (R379). -/
  sendSeq : Tab Nat
  peerSeq : Tab SeqWindow
  chains : Tab Chain
  /-- The route table: the output ports of the routes to each chip, in order of preference; the ports and die bridges that
  are down (R366, R380, R381, R401). -/
  routes : Tab (List Nat)
  portsDown : List Nat
  bridgesDown : List Nat
  /-- Chips to which no route has existed since a tick, an isolated die d as 4096 + d; the route timeout in nanoseconds; the
  chip that the tick is synchronised from, and whether the tick is in line with it (R382, R383). -/
  routeLost : Tab Nat
  routeTimeout : Nat
  tickRoot : Nat
  synced : Bool
  /-- How far the root's tick is ahead of this one, and the nanoseconds since this one was last moved (R383). -/
  tickOff : Int
  slewed : Nat
  /-- The model's own: what the device has answered to the outside world. -/
  replies : List Reply
  mem : Memory
  tlb : List TlbEntry
  /-- The page-walk caches of the dies (R200). -/
  walks : List WalkEntry
  /-- Host pages whose ATS translation is held (R388), and whether the host port completes AtomicOps (R115). -/
  ats : List Nat
  hostAtomics : Bool
  /-- Chips that the route timeout has declared unreachable (R382). -/
  unreachable : List Nat
  accesses : List Access
  /-- The model's own: bytes of other devices that have come back and not been used (R112). -/
  fetched : List Fetched
  notices : List Notice
  records : List FaultRecord
  contexts : Tab Context
  hostQueues : Tab HostQueue
  /-- Vectors whose MSI-X message is due, and the tick of the last message of each (R397). -/
  msixDue : List Nat
  msixLast : Tab Nat
  hostWorks : Bool
  /-- The number of the last operator installed; what each graph asks of each core's table store (R295); the key ids that two
  contexts share (R97). -/
  lastOper : Nat
  /-- The model's own: the number of the last task made. -/
  lastTask : Nat
  churnReqs : Tab Nat
  sharedKeys : List (Nat × Nat × Nat)
  launches : List Launch
  /-- Accesses of the host through BAR2 that have arrived and not been performed, in order (R115). -/
  bar2 : List (Nat × HostAccess)
  /-- Page requests of the agents that belong to no core that are out, and those that have been refused (R388). -/
  asks : List PageAsk
  runList : Option RunList
  throttles : List Throttle
  control : Control
  ras : Ras
  power : Power
  deriving DecidableEq, Repr

/-- The fragment that issues at reset: the first of the first wave of core 0. -/
def firstFragment : FragId := { core := 0, wave := 0, frag := 0 }

/-- The machine right after reset: no context but the service context, no wave, nothing written (R425).
Log entry 8 (DESIGN CHOICE, safe). Log entry 12 (DESIGN CHOICE, unsafe). -/
def State.reset : State :=
  { inputs := [], cur := firstFragment, stalled := false, deferring := false, fresh := 0, cycle := 0, tick := 0, refills := 0, chip := 0,
    frags := [], waves := [], tasks := [], cores := [], operators := [], seats := [], slotMap := [], tiles := [],
    groups := [], banks := [], accs := [], copies := [], images := [], churns := [], churnRes := [], rounds := [], queues := [], flights := [],
    returns := [], streams := [], opened := [], inUse := [], sendSeq := [], peerSeq := [], chains := [], routes := [], portsDown := [],
    bridgesDown := [], routeLost := [], routeTimeout := 10000000, tickRoot := 0, synced := true,
    tickOff := 0, slewed := 0, replies := [], mem := { bytes := [], keys := [], poison := [], epoch := 0 }, tlb := [], walks := [], ats := [], hostAtomics := true, unreachable := [],
    accesses := [], fetched := [], notices := [],
    records := [], contexts := [(0, Context.service)], hostQueues := [], msixDue := [], msixLast := [],
    hostWorks := true, lastOper := 0, lastTask := 0, churnReqs := [], sharedKeys := [], launches := [], bar2 := [], asks := [], runList := none, throttles := [],
    control := Control.reset, ras := Ras.reset, power := Power.reset }

end Sys2Proof.Machine
end

