-- ==== Sys2Proof/Machine/Ops.lean ====
section
/-! DEFINITION. The named operations over registers, special registers, fault records, attempts and sleep that every
meaning uses, and taking an exception (R143) and returning from one (R145). -/

namespace Sys2Proof.Machine

/-- What a meaning answers. -/
abbrev Result := Host.Outcome State Fault Refusal

/-! ## Rows of the executing fragment -/

/-- The executing fragment. -/
def State.fr (s : State) : Frag := getAt Frag.reset s.frags s.cur.key
/-- The state with the executing fragment replaced. -/
def State.setFr (s : State) (f : Frag) : State := { s with frags := putAt s.frags s.cur.key f }
/-- The executing wave. -/
def State.wv (s : State) : Wave := getAt Wave.reset s.waves s.cur.waveKey
/-- The state with the executing wave replaced. -/
def State.setWv (s : State) (w : Wave) : State := { s with waves := putAt s.waves s.cur.waveKey w }
/-- A fragment by its name. -/
def State.frOf (s : State) (f : FragId) : Frag := getAt Frag.reset s.frags f.key
/-- The state with a fragment replaced. -/
def State.setFrOf (s : State) (f : FragId) (x : Frag) : State := { s with frags := putAt s.frags f.key x }
/-- The wave a fragment belongs to. -/
def State.wvOf (s : State) (f : FragId) : Wave := getAt Wave.reset s.waves f.waveKey
/-- The state with the wave of a fragment replaced. -/
def State.setWvOf (s : State) (f : FragId) (x : Wave) : State := { s with waves := putAt s.waves f.waveKey x }
/-- The task of a wave. -/
def State.taskOf (s : State) (f : FragId) : Task := getAt Task.reset s.tasks (s.wvOf f).task
/-- The task of the executing wave. -/
def State.tk (s : State) : Task := getAt Task.reset s.tasks s.wv.task
/-- The operator of the executing wave. -/
def State.op (s : State) : Operator := getAt Operator.reset s.operators s.tk.oper
/-- The row number of what an operator holds on a core. -/
def seatKey (oper core : Nat) : Nat := oper * 256 + core
/-- What an operator holds on a core. -/
def State.seatOf (s : State) (oper core : Nat) : Seat := getAt Seat.reset s.seats (seatKey oper core)
/-- The state with that replaced. -/
def State.setSeatOf (s : State) (oper core : Nat) (x : Seat) : State :=
  { s with seats := putAt s.seats (seatKey oper core) x }
/-- What the executing wave's operator holds on its core. -/
def State.seat (s : State) : Seat := s.seatOf s.tk.oper s.cur.core
/-- The context a wave runs in (R74). -/
def State.ctxId (s : State) : Nat := s.tk.ctx
/-- A context. -/
def State.ctxOf (s : State) (c : Nat) : Context := getAt Context.reset s.contexts c
/-- The state with a context replaced. -/
def State.setCtx (s : State) (c : Nat) (x : Context) : State := { s with contexts := putAt s.contexts c x }
/-- A core's own row. -/
def State.coreOf (s : State) (c : Nat) : CoreRow := getAt CoreRow.reset s.cores c
/-- The state with a core's own row replaced. -/
def State.setCore (s : State) (c : Nat) (x : CoreRow) : State := { s with cores := putAt s.cores c x }
/-- A tile-table entry of a core. -/
def State.tileOf (s : State) (core entry : Nat) : TileEntry := getAt TileEntry.reset s.tiles (core * 64 + entry)
/-- The state with a tile-table entry replaced. -/
def State.setTile (s : State) (core entry : Nat) (x : TileEntry) : State :=
  { s with tiles := putAt s.tiles (core * 64 + entry) x }
/-- The live fragments of a wave, ascending (R127). -/
def State.fragsOf (s : State) (core wave : Nat) : List Nat :=
  (List.range 8).filter (fun k => (findAt s.frags ((core * 64 + wave) * 8 + k)).isSome)
/-- The instruction does not issue now: nothing else changes, and it is tried again when its fragment next issues.
Log entry 7 (DEDUCED, safe). -/
def State.stall (s : State) : State := { s with stalled := true }
/-- The tick of a core: never more than 1 from that of another core of the device (R383, R384). -/
def State.coreTick (s : State) (core : Nat) : Nat := s.tick + (if Config.tickAhead core s.tick then 1 else 0)
/-- A free value's number taken from the counter. Log entry 3 (DESIGN CHOICE, safe). -/
def State.takeFresh (s : State) : State := { s with fresh := s.fresh + 1 }

/-! ## Scalars, predicates, vectors -/

/-- Scalar `i` of a fragment; `s0` reads as zero (R79). -/
def Frag.getS (f : Frag) (i : BitVec 6) : Word := if i = 0 then 0 else f.s[i.toNat]'i.isLt
/-- Scalar `i` written; a write to `s0` is discarded (R79). -/
def Frag.setS (f : Frag) (i : BitVec 6) (x : Word) : Frag := if i = 0 then f else { f with s := f.s.set i.toNat x i.isLt }
/-- Predicate `i` of a fragment; `p0` reads as all ones (R79). -/
def Frag.getP (f : Frag) (i : BitVec 3) : Lane := if i = 0 then BitVec.allOnes 32 else f.p[i.toNat]'i.isLt
/-- Predicate `i` written; a write to `p0` is discarded (R79). -/
def Frag.setP (f : Frag) (i : BitVec 3) (x : Lane) : Frag := if i = 0 then f else { f with p := f.p.set i.toNat x i.isLt }
/-- Scalar `i` of the executing fragment. -/
def State.getS (s : State) (i : BitVec 6) : Word := s.fr.getS i
/-- Scalar `i` of the executing fragment written. -/
def State.setS (s : State) (i : BitVec 6) (x : Word) : State := s.setFr (s.fr.setS i x)
/-- Predicate `i` of the executing fragment. -/
def State.getP (s : State) (i : BitVec 3) : Lane := s.fr.getP i
/-- Predicate `i` of the executing fragment written. -/
def State.setP (s : State) (i : BitVec 3) (x : Lane) : State := s.setFr (s.fr.setP i x)
/-- Vector register `i` of the executing wave. -/
def State.getV (s : State) (i : BitVec 7) : Vector Lane 32 := s.wv.v[i.toNat]'i.isLt
/-- A write of a vector register noted in the open attempt of the fragment that makes it (R206). -/
def Wave.noteV (w : Wave) (frag d : Nat) (x : Vector Lane 32) : Option Attempt :=
  match w.tx with
  | some a =>
    some (if a.owner = frag then { a with vlog := a.vlog ++ [(d, w.v.toList.getD d zeroReg, x)] } else a)
  | none => none
/-- Vector register `i` of the executing wave written. -/
def State.setV (s : State) (i : BitVec 7) (x : Vector Lane 32) : State :=
  s.setWv { s.wv with v := s.wv.v.set i.toNat x i.isLt, tx := s.wv.noteV s.cur.frag i.toNat x }
/-- Lane `l` of a register. -/
def laneOf (v : Vector Lane 32) (l : Nat) : Lane := v.toList.getD l 0
/-- The register with the lanes listed replaced by `f`. -/
def withLanes (v : Vector Lane 32) (ls : List Nat) (f : Nat → Lane) : Vector Lane 32 :=
  Vector.ofFn (fun i => if ls.contains i.val then f i.val else v[i.val])

/-- The program counter moved past the instruction (R69). -/
def State.advance (s : State) : State := s.setFr { s.fr with pc := s.fr.pc + 4 }
/-- The program counter replaced. -/
def State.goTo (s : State) (pc : Word) : State := s.setFr { s.fr with pc := pc }

/-! ## The mode register (R77) -/

/-- MR.guard. -/
def State.guard (s : State) : BitVec 4 := s.fr.mr.extractLsb' 0 4
/-- MR.etype. -/
def State.etypeCode (s : State) : Nat := (s.fr.mr.extractLsb' 4 4).toNat
/-- MR.round. -/
def State.rounding (s : State) : Rounding := roundingOf (s.fr.mr.extractLsb' 8 2).toNat
/-- MR.sat. -/
def State.sat (s : State) : Bool := s.fr.mr.getLsbD 10
/-- MR.scope. -/
def State.scope (s : State) : Nat := (s.fr.mr.extractLsb' 11 3).toNat
/-- MR.order. -/
def State.order (s : State) : Nat := (s.fr.mr.extractLsb' 14 2).toNat
/-- The lanes of Guarded(), ascending (R10). -/
def Frag.guarded (f : Frag) : List Nat :=
  (List.range 32).filter (fun l =>
    f.lmask.getLsbD l && ((f.getP (f.mr.extractLsb' 0 3)).getLsbD l != f.mr.getLsbD 3))
/-- The lanes of Guarded() of the executing fragment. -/
def State.guarded (s : State) : List Nat := s.fr.guarded

/-- Flags ORed into FSTAT (R52, R53). -/
def State.raiseFlags (s : State) (f : Flags) : State := s.setWv { s.wv with fstat := s.wv.fstat ||| f }

/-! ## Attempts -/

/-- The executing fragment holds the wave's open attempt (R126). -/
def State.inTx (s : State) : Bool :=
  match s.wv.tx with
  | some a => a.owner == s.cur.frag
  | none => false

/-- Blocks returned to a core: to the reserve while it holds fewer than 16, then to the free pool, retired ones leaving it
(R141, R427). -/
def CoreRow.giveBack (c : CoreRow) (n : Nat) : CoreRow :=
  let r := min n (16 - c.reserve)
  let k := min c.owed (n - r)
  { c with reserve := c.reserve + r, freeBlocks := c.freeBlocks + (n - r - k), owed := c.owed - k }

/-! ## Sleepers and notices (R223, R224) -/

/-- The name of the fragment in a row of the fragment table. -/
def fragIdOf (key : Nat) : FragId := { core := key / 512, wave := (key / 8) % 64, frag := key % 8 }

/-- The words a fragment is registered on. -/
def Frag.watches (f : Frag) (w : Watch) : Bool :=
  match f.status with
  | .asleep words _ _ => words.contains w
  | _ => false

/-- The notices that a write of a word sends: one to each core with a fragment registered on it, or whose registration is not
complete (R223, R224). -/
def State.noticesFor (s : State) (w : Watch) : List Notice :=
  let on := s.frags.filter (fun x => x.2.watches w)
  (distinct (on.map (fun x => (fragIdOf x.1).core))).map (fun c =>
    { core := c, word := w,
      early := (on.filter (fun x => (fragIdOf x.1).core == c && !x.2.registered)).map (·.1) })

/-- A write of a word, as its watchers see it. -/
def State.notify (s : State) (w : Watch) : State :=
  { s with notices := s.notices ++ (s.noticesFor w).filter (fun n => !s.notices.contains n) }

/-! ## Abandoning an attempt (R221, R222) -/

/-- The values that a register may hold after what a log tells of is abandoned: its value before the first write and
every value written (R206). -/
def abandonValues (log : List (Nat × Vector Lane 32 × Vector Lane 32)) (d : Nat) : List (Vector Lane 32) :=
  match log.filter (fun e => e.1 == d) with
  | [] => []
  | e :: r => e.2.1 :: e.2.2 :: r.map (·.2.2)

/-- The lanes of a register that a log tells of a change in. -/
def abandonLanes (log : List (Nat × Vector Lane 32 × Vector Lane 32)) (d : Nat) : List Nat :=
  (List.range 32).filter (fun l => log.any (fun e => e.1 == d && laneOf e.2.1 l != laneOf e.2.2 l))

/-- The register file after an abandonment: each register that the log names holds one of its values, as the device
chooses, in the lanes that the abandoned part wrote; what other fragments have written of it stands (R126, R206).
Log entry 15 (DEDUCED, safe). -/
def abandonVectors (fresh : Nat) (log : List (Nat × Vector Lane 32 × Vector Lane 32)) (v : Vector (Vector Lane 32) 128) :
    Vector (Vector Lane 32) 128 :=
  (distinct (log.map (·.1))).foldl (fun f d =>
    let vals := abandonValues log d
    let pick := vals.getD (Config.abandonPick fresh d % vals.length) zeroReg
    f.setIfInBounds d (withLanes (f.toList.getD d zeroReg) (abandonLanes log d) (laneOf pick))) v

/-- The accumulators with an element set; elements that are 0 are not listed (R235). -/
def putAcc (t : Tab Lane) (k : Nat) (x : Lane) : Tab Lane := if x = 0 then dropAt t k else putAt t k x

/-- The accumulators after an abandonment: each tile holds its value at the checkpoint, or the value that one of the
instructions of the abandoned part gave it (R206, R252). Log entry 15 (DEDUCED, safe). -/
def abandonAccs (fresh : Nat) (log : List (Nat × List (Nat × Lane))) (t : Tab Lane) : Tab Lane :=
  (distinct (log.map (·.1))).foldl (fun u d =>
    let mine := log.filter (fun e => e.1 == d)
    let undone := mine.drop (Config.abandonPick fresh (1024 + d) % (mine.length + 1))
    undone.reverse.foldl (fun x e => e.2.foldl (fun y z => putAcc y z.1 z.2) x) u) t

/-- The age stamp and attempt count are kept for these statuses (R207, R221). -/
def keepsAge (status : Nat) : Bool := decide (status = 0 ∨ status = 1 ∨ status = 2 ∨ status = 3 ∨ status = 7)

/-- A fragment restored from a checkpoint (R206), with its PC at the target. -/
def Frag.restore (f : Frag) (c : Checkpoint) (pc : Word) : Frag :=
  { f with s := c.s, p := c.p, mr := c.mr, lmask := c.lmask, depth := c.depth, pc := pc }

/-- The wave's stack with the entries of a fragment as a checkpoint has them: those pushed since are gone, and those popped
since are back (R206). Log entry 89 (DEDUCED, unsafe). -/
def Wave.unstack (w : Wave) (owner : Nat) (c : Checkpoint) : Wave :=
  { w with stack := c.stack ++ w.stack.filter (fun e => e.owner != owner) }

/-- The open attempt of a fragment dropped with a status, a code and the two `tstat` addresses (R222): its sets and
commands discarded, the fragment restored from checkpoint 0 and placed at the handler. The second part is the number of
register blocks that the attempt had acquired (R140). A single-step trap is due before the handler's first instruction, if DBG.SS
is then 1 (R149). -/
def State.dropAttempt (s : State) (f : FragId) (status code : Nat) (addr1 addr2 : Word) : State × Nat :=
  match (s.wvOf f).tx with
  | none => (s, 0)
  | some a =>
    let w := s.wvOf f
    let w' := { (w.unstack a.owner a.checkpoint) with
      tx := none, rblk := a.checkpoint.rblk, v := abandonVectors s.fresh a.vlog w.v }
    let fr := (s.frOf f).restore a.checkpoint a.handler
    let fr' := { fr with
      txStatus := status, txCode := if status = 4 then code else fr.txCode, txAddr1 := addr1, txAddr2 := addr2,
      attempts := min 255 (fr.attempts + 1),
      ageValid := fr.ageValid && keepsAge status,
      stepDue := true }
    let s0 : State := { s with accs := abandonAccs s.fresh a.alog s.accs, fresh := s.fresh + 1 }
    ((s0.setWvOf f w').setFrOf f fr', w.rblk - a.checkpoint.rblk)

/-- The fragment that owns a wave's attempt. -/
def ownerOf (waveRow : Nat) (a : Attempt) : FragId :=
  { core := waveRow / 64, wave := waveRow % 64, frag := a.owner }

/-- The open attempts of the device with their owners. -/
def State.attempts (s : State) : List (FragId × Attempt) :=
  s.waves.filterMap (fun x => x.2.tx.map (fun a => (ownerOf x.1 a, a)))

/-- Register blocks returned to a core, which writes its free-block word (R141): attempts that read the word end by a
conflict (R216), which may return more blocks, and its sleepers are notified (R224). -/
def State.returnBlocks (s : State) (core n : Nat) : State :=
  if n = 0 then s
  else
    let s1 := s.setCore core ((s.coreOf core).giveBack n)
    let readers := (s1.attempts.filter (fun x => x.2.reads.any (fun r => r.1 == .freeBlocks core))).map (·.1)
    let s2 := readers.foldl (fun t x =>
      let (u, k) := t.dropAttempt x 1 0 (t.frOf x).pc 0
      u.setCore core ((u.coreOf core).giveBack k)) s1
    s2.notify (.freeBlocks core)

/-- The open attempt of a fragment abandoned (R222), the blocks it had acquired returned. -/
def State.abandon (s : State) (f : FragId) (status code : Nat) (addr1 addr2 : Word) : State :=
  let (s1, k) := s.dropAttempt f status code addr1 addr2
  s1.returnBlocks f.core k

/-- The executing fragment's attempt abandoned at its present instruction. -/
def State.abandonHere (s : State) (status code : Nat) (addr2 : Word) : State :=
  s.abandon s.cur status code s.fr.pc addr2

/-! ## Fault records (R83, R201, R417) -/

/-- Numbers of the causes of R83. -/
def causeILL : Nat := 0x01
/-- Privilege (R83). -/
def causePRIV : Nat := 0x02
/-- Landing (R83). -/
def causeLANDING : Nat := 0x03
/-- Register range (R83). -/
def causeREGRANGE : Nat := 0x04
/-- The `trap` instruction (R83). -/
def causeTRAP : Nat := 0x05
/-- The `brk` instruction (R83). -/
def causeBRK : Nat := 0x06
/-- Single step (R83). -/
def causeSSTEP : Nat := 0x07
/-- Register blocks (R83). -/
def causeRBLK : Nat := 0x08
/-- Element type (R83). -/
def causeTYPE : Nat := 0x10
/-- Translation (R83). -/
def causeXLATE : Nat := 0x20
/-- Protection (R83). -/
def causePROT : Nat := 0x21
/-- Alignment (R83). -/
def causeMISALIGN : Nat := 0x22
/-- Tile layout (R83). -/
def causeLAYOUT : Nat := 0x24
/-- Tile state (R83). -/
def causeTILESTATE : Nat := 0x25
/-- Poison (R83). -/
def causePOISON : Nat := 0x27
/-- Transaction nesting (R83). -/
def causeNEST : Nat := 0x30
/-- Not allowed in a transaction (R83). -/
def causeTXILLEGAL : Nat := 0x31

/-- A record with every field that its cause does not name at 0. -/
def FaultRecord.blank : FaultRecord :=
  { id := 0, cause := 0, detail := 0, core := 0xFFFF, ctx := 0, va := 0, page := (0, 0), wave := 0, frag := 0, task := 0, slot := 0xFF,
    pc := 0, access := 0, agent := 0, more6 := 0, word7 := 0, stream := 0, suspended := [], others := [], posted := false,
    wasRead := false, arisen := 0, reportOnly := false, answered := false, deferred := false }

/-- The causes whose records merge: a page's (R201), a queue's or a wake area's (R225, R340), a round's (R327), a port's or
a stream's (R386). -/
def mergingCauses : List Nat := [0x20, 0x21, 0x70, 0x71, 0x82, 0x83, 0x90, 0x91]

/-- Two records merge until the front end has read the first. A page's do whose context, page and access kind are one (R201);
a milk round's whose round and entry are (R327); a queue's or a wake area's whose context and queue are (R225, R340); a port's
or stream's whose port, chip or stream are (R386). A page's record that takes no command merges with none that does, and a page's
merge within the die that keeps them (R201). Log entry 69 (DEDUCED, unsafe). -/
def FaultRecord.merges (a b : FaultRecord) : Bool :=
  !a.wasRead && !a.answered && a.reportOnly == b.reportOnly && mergingCauses.contains a.cause && a.ctx == b.ctx &&
    (if a.agent = 3 ∨ b.agent = 3 then a.agent == b.agent && a.more6 == b.more6 && a.pc == b.pc
    else if a.cause = 0x20 ∨ a.cause = 0x21 then
      (b.cause == 0x20 || b.cause == 0x21) && a.access == b.access && a.page == b.page && a.core / 32 == b.core / 32
    else a.cause == b.cause && a.detail == b.detail && a.agent == b.agent && a.more6 == b.more6 && a.access == b.access
      && (a.cause < 0x90 || (a.word7 == b.word7 && a.core == b.core && a.stream == b.stream)))

/-- The records of a die that are posted and not read (R201). -/
def State.outstanding (s : State) (die : Nat) : Nat :=
  s.records.countP (fun r => r.posted && !r.wasRead && r.core / 32 == die)

/-- The least record id not in use. Log entry 6 (DESIGN CHOICE, safe). -/
def State.nextRecord (s : State) : Nat := s.records.foldl (fun m r => max m (r.id + 1)) 1

/-- What is left of two records that merge: the first with what is suspended on either; of a round's, where the second alone
stops the round, the cause and the fields of the second (R201, R327). Log entry 69 (DEDUCED, unsafe). -/
def FaultRecord.join (a b : FaultRecord) : FaultRecord :=
  let c := if a.agent = 3 ∧ a.others = [] ∧ b.others ≠ [] then
    { a with cause := b.cause, detail := b.detail, core := b.core, va := b.va, word7 := b.word7 } else a
  { c with suspended := a.suspended ++ b.suspended, others := a.others ++ b.others }

/-- A record posted, or held while its die's records are full, or merged; its number is the second part (R201). -/
def State.postRecord (s : State) (r : FaultRecord) : State × Nat :=
  match s.records.find? (fun x => x.merges r) with
  | some x =>
    ({ s with records := s.records.map (fun y => if y.id == x.id then y.join r else y) }, x.id)
  | none =>
    let id := s.nextRecord
    ({ s with records := s.records ++
        [{ r with id := id, posted := decide (s.outstanding (r.core / 32) < 1024), arisen := s.tick }] }, id)

/-- The 64 KiB page of an address: the page of a record whose address no larger page maps (R92). -/
def smallPage (va : Word) : Nat × Nat := (va.toNat / 65536 * 65536, 65536)

/-- A record of a fragment: its core, context, wave, task, slot and program counter (R417). -/
def State.waveRecord (s : State) (f : FragId) (cause detail access : Nat) (va : Word) : FaultRecord :=
  let t := s.taskOf f
  { FaultRecord.blank with
    cause := cause, detail := detail, core := f.core, ctx := t.ctx, va := va, page := smallPage va, wave := f.wave, frag := f.frag,
    task := t.number, slot := if t.oper = 0 then 0xFF else (s.seatOf t.oper f.core).slot, pc := (s.frOf f).pc,
    access := access }

/-- A fragment suspended at its present instruction on a record (R83, R181). -/
def State.suspendOn (s : State) (f : FragId) (r : FaultRecord) : State :=
  let (s', id) := s.postRecord { r with suspended := [f] }
  s'.setFrOf f { s'.frOf f with status := .suspended id }

/-- A fragment suspended at its present instruction on a record of its own making (R83, R181). -/
def State.suspend (s : State) (f : FragId) (cause detail access : Nat) (va : Word) : State :=
  s.suspendOn f (s.waveRecord f cause detail access va)

/-- A record that suspends nothing. -/
def State.report (s : State) (r : FaultRecord) : State := (s.postRecord r).1

/-! ## Taking an exception and returning from one (R143 to R149) -/

/-- TCAUSE.ACTIVE (R81). -/
def Wave.active (w : Wave) : Bool := w.tcause.getLsbD 15

/-- The value of TCAUSE at trap entry (R81, R143). -/
def tcauseOf (mr : BitVec 25) (detail cls cause : Nat) : Word :=
  BitVec.ofNat 64 (mr.toNat * 2 ^ 32 + detail * 2 ^ 16 + 2 ^ 15 + cls * 2 ^ 8 + cause)

/-- The other waves of a wave's task, by their rows. -/
def State.siblings (s : State) (f : FragId) : List Nat :=
  ((s.taskOf f).waves.map (fun w => f.core * 64 + w)).filter (fun k => k ≠ f.waveKey && (s.wvOf f).task ≠ 0)

/-- Holds placed on waves by one hold number (R147, R148). -/
def State.placeHold (s : State) (keys : List Nat) (h : Nat) : State :=
  { s with waves := mapTab (fun k w => if keys.contains k then { w with holds := w.holds ++ [h] } else w) s.waves }

/-- The holds of one number released on waves. -/
def State.liftHold (s : State) (keys : List Nat) (h : Nat) : State :=
  { s with waves := mapTab (fun k w => if keys.contains k then { w with holds := w.holds.filter (· ≠ h) } else w) s.waves }

/-- Trap entry of a fragment (R143): while a trap is active the fragment is suspended and a record carries the cause
(R84); otherwise an open attempt is abandoned with status trap and the handler address is saved in its place, the trap
registers are written, MR becomes 0 and PC the handler base plus 64 for each class. -/
def State.trapEntry (s : State) (f : FragId) (cause cls : Nat) (tpc taddr tinfo : Word) (detail : Nat) : State :=
  if (s.wvOf f).active then s.suspend f cause detail 0 taddr
  else
    let open' := match (s.wvOf f).tx with
      | some a => if a.owner = f.frag then some a.handler else none
      | none => none
    let s1 := match open' with
      | some _ => s.abandon f 5 0 (s.frOf f).pc 0
      | none => s
    let saved := match open' with
      | some h => h
      | none => tpc
    let s2 := s1.setWvOf f { s1.wvOf f with
      tpc := saved, taddr := taddr, tinfo := tinfo, tcause := tcauseOf (s1.frOf f).mr detail cls cause,
      handler := some f.frag }
    let s3 := s2.setFrOf f { s2.frOf f with mr := 0, pc := (s2.wvOf f).tvec + BitVec.ofNat 64 (64 * cls) }
    if cls = 2 ∧ (s3.wvOf f).dbgHold then s3.placeHold (s3.siblings f) f.wave else s3

/-- The word of TINFO: the instruction in [31:0] and a lane in [36:32] (R80). -/
def State.tinfoWord (s : State) (lane : Nat) : Word := BitVec.ofNat 64 (s.fr.word.toNat + (lane % 32) * 2 ^ 32)

/-- A precise trap of the executing instruction (R11, R83). -/
def State.trap (s : State) (cause : Nat) (taddr : Word) (lane detail : Nat) : State :=
  s.trapEntry s.cur cause 0 s.fr.pc taddr (s.tinfoWord lane) detail

/-- `rtt` once its checks have passed (R145): PC and MR come back, the trap ends, the other fragments resume and a hold
that the trap placed is released. MR takes all 25 bits of TCAUSE.SMR, also where software has put into them what MR calls reserved.
Log entry 90 (DESIGN CHOICE, unsafe). -/
def State.trapReturn (s : State) : State :=
  let w := s.wv
  let s1 := s.setWv { w with tcause := w.tcause &&& ~~~(BitVec.ofNat 64 (2 ^ 15)), handler := none }
  let s2 := s1.setFr { s1.fr with pc := w.tpc, mr := w.tcause.extractLsb' 32 25 }
  s2.liftHold (s2.siblings s2.cur) s2.cur.wave

/-- A single-step trap comes before a fragment's next instruction: one is due, DBG.SS is 1 and no trap is active (R149).
Log entry 67 (DEDUCED, unsafe). -/
def State.stepOwed (s : State) (f : FragId) : Bool :=
  (s.frOf f).stepDue && (s.wvOf f).dbgSS && !(s.wvOf f).active

/-- A single-step trap before the next instruction of a fragment (R149). Log entry 67 (DEDUCED, unsafe). -/
def State.stepTrap (s : State) (f : FragId) : State :=
  (s.setFrOf f { s.frOf f with stepDue := false }).trapEntry f causeSSTEP 2 (s.frOf f).pc 0
    (BitVec.ofNat 64 (s.frOf f).word.toNat) 0

/-- What follows an instruction that a fragment has issued (R149): with DBG.SS set and no trap active, a completed
instruction outside an attempt is followed by a single-step trap, at once or when what it waits for is over. -/
def State.afterIssue (before s : State) : State :=
  if s.stalled || !before.wv.dbgSS || before.wv.active || s.wv.active || (findAt s.frags s.cur.key).isNone then s
  else match s.fr.status with
    | .ready => if s.inTx then s else s.stepTrap s.cur
    | .atReconv _ => s.setFr { s.fr with stepDue := true }
    | .awaiting .. => s.setFr { s.fr with stepDue := true }
    | _ => s

/-! ## Sleeping -/

/-- The executing fragment asleep on words (R223, R227). -/
def State.sleepOn (s : State) (words : List Watch) (handler : Bool) : State :=
  s.setFr { s.fr with status := .asleep words handler s.cycle, registered := false }

/-- The executing fragment in the back-off of R223 and R225. -/
def State.backOff (s : State) (handler : Bool) : State :=
  s.setFr { s.fr with status := .backoff (s.cycle + 4096) handler }

end Sys2Proof.Machine
end

