-- ==== Sys2Proof/Machine/Flags.lean ====
section
/-! DEFINITION. Flags of FSTAT: how the elements of a lane and the lanes of an instruction gather them, what a read and a
write of FSTAT give (R52, R53, R155). -/

namespace Sys2Proof.Machine

/-- Results of elements with their flags, the flags of all ORed. -/
def gatherFlags (l : List (Nat × Flags)) : Flags := l.foldl (fun f x => f ||| x.2) 0

/-- Lanes with their flags, the flags of all ORed. -/
def laneFlags (ls : List Nat) (f : Nat → Lane × Flags) : Flags := ls.foldl (fun acc l => acc ||| (f l).2) 0

/-- FSTAT as `srd` reads it (R52). -/
def State.fstatWord (s : State) : Word := s.wv.fstat.setWidth 64

/-- FSTAT replaced by `swr` (R53). -/
def State.setFstat (s : State) (x : Word) : State := s.setWv { s.wv with fstat := x.setWidth 5 }

/-- A result that raises no flag. -/
def noFlag (x : Nat) : Nat × Flags := (x, 0)

end Sys2Proof.Machine
end

