-- ==== Sys2Proof/Machine/Operands.lean ====
section
/-! DEFINITION. The operand forms: register range and element type checks, element-wise application over guarded lanes,
predicate destinations, and the addresses of memory operands (R71, R72, R154 to R156, R177 to R180). -/

namespace Sys2Proof.Machine

/-! ## Vector operands -/

/-- The vector register lies within the blocks the wave holds (R72, R154). -/
def State.inRange (s : State) (r : BitVec 7) : Bool := decide (r.toNat < 8 * s.wv.rblk)

/-- REG_RANGE unless every register named lies within the blocks of the wave (R72). -/
def State.withRegs (s : State) (rs : List (BitVec 7)) (k : State) : State :=
  if rs.all s.inRange then k else s.trap causeREGRANGE 0 0 0

/-- REG_RANGE, then TYPE, then the instruction under the element type of MR (R41, R84, R156). -/
def State.withType (s : State) (rs : List (BitVec 7)) (ok : EType → Bool) (k : EType → State) : State :=
  s.withRegs rs (match etypeOf s.etypeCode with
    | some t => if ok t then k t else s.trap causeTYPE 0 0 0
    | none => s.trap causeTYPE 0 0 0)

/-- The elements of a lane that an operation on elements makes, and their flags (R40, R156). -/
def mapLane (w : Nat) (f : Nat → Nat × Flags) : Lane × Flags :=
  let rs := (List.range (32 / w)).map f
  (packLane w (fun e => (rs.map (·.1)).getD e 0), gatherFlags rs)

/-- Guarded lanes of a register written, their flags ORed into FSTAT, and the program counter moved on (R155). -/
def State.putLanes (s : State) (d : BitVec 7) (f : Nat → Lane × Flags) : State :=
  let g := s.guarded
  let rs := g.map (fun l => (l, f l))
  ((s.setV d (withLanes (s.getV d) g (fun l => (getAt (0, 0) rs l).1))).raiseFlags
    (rs.foldl (fun acc x => acc ||| x.2.2) 0)).advance

/-- Guarded lanes written with whole 32-bit values that raise no flag. -/
def State.putRaw (s : State) (d : BitVec 7) (f : Nat → Lane) : State := s.putLanes d (fun l => (f l, 0))

/-- Guarded bits of a predicate written with the flags of their lanes (R155). -/
def State.putBits (s : State) (d : BitVec 3) (f : Nat → Bool × Flags) : State :=
  let g := s.guarded
  let rs := g.map (fun l => (l, f l))
  let m := maskOf g
  let hits := maskOf ((rs.filter (fun x => x.2.1)).map (·.1))
  ((s.setP d ((s.getP d &&& ~~~m) ||| hits)).raiseFlags (rs.foldl (fun acc x => acc ||| x.2.2) 0)).advance

/-- An operation on the elements of a, b and d of each guarded lane. -/
def State.elementwise (s : State) (d a b : BitVec 7) (w : Nat) (f : Nat → Nat → Nat → Nat × Flags) : State :=
  let va := s.getV a
  let vb := s.getV b
  let vd := s.getV d
  s.putLanes d (fun l => mapLane w (fun e =>
    f (elemOf w (laneOf va l) e) (elemOf w (laneOf vb l) e) (elemOf w (laneOf vd l) e)))

/-- An operation on the whole lanes of a, b and d. -/
def State.lanewise (s : State) (d a b : BitVec 7) (f : Lane → Lane → Lane → Lane) : State :=
  let va := s.getV a
  let vb := s.getV b
  let vd := s.getV d
  s.putRaw d (fun l => f (laneOf va l) (laneOf vb l) (laneOf vd l))

/-- A relation on the elements of a and b; a lane holds when any of its elements holds (R159, R162). -/
def State.relate (s : State) (d : BitVec 3) (a b : BitVec 7) (w : Nat) (f : Nat → Nat → Bool × Flags) : State :=
  let va := s.getV a
  let vb := s.getV b
  s.putBits d (fun l =>
    let rs := (List.range (32 / w)).map (fun e => f (elemOf w (laneOf va l) e) (elemOf w (laneOf vb l) e))
    (rs.any (·.1), rs.foldl (fun acc x => acc ||| x.2) 0))

/-- Byte `j` of a register taken as 128 bytes (R171). -/
def byteOf (v : Vector Lane 32) (k : Nat) : Nat := elemOf 8 (laneOf v (k / 4)) (k % 4)

/-! ## Memory operands -/

/-- The address of form M12: a scalar plus a signed offset scaled by the size given (R71, R178, R179). -/
def State.baseAddr (s : State) (b : BitVec 6) (imm : BitVec 12) (scale : Nat) : Word :=
  s.getS b + BitVec.ofNat 64 scale * imm.signExtend 64

/-- The address of a lane of form X7: a scalar plus the sign-extended lane of a register (R180). -/
def State.laneAddr (s : State) (b : BitVec 6) (x : BitVec 7) (l : Nat) : Word :=
  s.getS b + (laneOf (s.getV x) l).signExtend 64

/-- An address is a multiple of a power of two. -/
def aligned (a : Word) (n : Nat) : Bool := a.toNat % n == 0

end Sys2Proof.Machine
end

