-- ==== Sys2Proof/Machine/Translate.lean ====
section
/-! DEFINITION. Memory bytes, the regions of physical addresses, and the translation of a context address: the scratch
window, the held translations and the page-table walk (R92 to R97, R181, R182, R198 to R202). -/

namespace Sys2Proof.Machine

/-! ## Bytes -/

/-- The numbers of scratchpad bytes begin here; every physical address lies below. -/
def scratchBase : Nat := 2 ^ 56

/-- The number of byte `off` of the scratchpad lines that an operator holds on a core. Log entry 6 (DESIGN CHOICE, safe). -/
def scratchKey (oper core off : Nat) : Nat := scratchBase + (oper * 256 + core) * 2 ^ 23 + off

/-- The first number of host memory: PA[55:54] is 1 (R93). -/
def hostBase : Nat := 2 ^ 54

/-- What an unlisted place holds: a scratchpad byte reads as zero (R188), any other has no value of its own (R97).
Log entry 13 (DEDUCED, safe). -/
def unlisted (key : Nat) : Option Byte := if scratchBase ≤ key then some 0 else none

/-- Bytes of HBM and of vaults are stored under a key id (R96). -/
def isKeyed (key : Nat) : Bool := decide (key < hostBase)

/-- The byte at a place as a reader sees it (R97). Log entry 13 (DEDUCED, safe). Log entry 14 (DEDUCED, safe). -/
def Memory.readByte (m : Memory) (p : Place) : Byte :=
  match findAt m.bytes p.key with
  | some b =>
    if isKeyed p.key && getAt 0 m.keys p.key != p.keyId then Config.foreignByte p.key (getAt 0 m.keys p.key) p.keyId b else b
  | none => (unlisted p.key).getD (Config.undefinedByte m.epoch p.key (if isKeyed p.key then p.keyId else 0))

/-- A byte stored; a place that then holds what an unlisted place reads as is not listed. -/
def Memory.writeByte (m : Memory) (p : Place) (b : Byte) : Memory :=
  { m with
    bytes := if unlisted p.key = some b then dropAt m.bytes p.key else putAt m.bytes p.key b,
    keys := if isKeyed p.key && p.keyId != 0 then putAt m.keys p.key p.keyId else dropAt m.keys p.key }

/-- Memory in which the bytes outside some places are as if nothing had written them, at the end of a bring-up or turnover (R97). -/
def Memory.clearedBut (m : Memory) (keep : Nat → Bool) : Memory :=
  { bytes := m.bytes.filter (fun x => keep x.1), keys := m.keys.filter (fun x => keep x.1)
    poison := m.poison.filter (fun q => keep (128 * q)), epoch := m.epoch + 1 }

/-- A place of host memory (R93). -/
def ofHost (key : Nat) : Bool := decide (hostBase ≤ key ∧ key < 2 * hostBase)

/-- Bytes stored one after another. -/
def Memory.writeBytes (m : Memory) (data : List (Place × Byte)) : Memory :=
  data.foldl (fun m x => m.writeByte x.1 x.2) m

/-- The sector of a byte (R4). -/
def sectorOf (key : Nat) : Nat := key / 128

/-- The sectors that a list of bytes covers whole (R202). -/
def wholeSectors (keys : List Nat) : List Nat :=
  (distinct (keys.map sectorOf)).filter (fun q => (upFrom (q * 128) 128).all (fun k => keys.contains k))

/-- A sector is marked poisoned (R202). -/
def Memory.poisoned (m : Memory) (key : Nat) : Bool := m.poison.contains (sectorOf key)

/-- The marks that a write leaves: one that covers a whole sector clears its mark (R202). -/
def Memory.clearPoison (m : Memory) (keys : List Nat) : Memory :=
  if m.poison.isEmpty then m else { m with poison := m.poison.filter (fun q => !(wholeSectors keys).contains q) }

/-- The keys of a table rise strictly. -/
def risingKeys {α : Type} (t : Tab α) : Bool :=
  match t with
  | [] => true
  | [_] => true
  | (a, _) :: (b, v) :: r => decide (a < b) && risingKeys ((b, v) :: r)

/-- The canonical form of memory: addresses rise strictly and no entry holds what an unlisted place reads as. -/
def Memory.wf (m : Memory) : Bool :=
  risingKeys m.bytes && m.bytes.all (fun x => decide (unlisted x.1 ≠ some x.2))
    && risingKeys m.keys && m.keys.all (fun x => decide (x.2 ≠ 0))

/-- A place reached by the device itself under a key id, as the walker and the front end do. -/
def plainPlace (key keyId : Nat) : Place := { key := key, keyId := keyId, kind := 0, cached := false, home := 0, va := 0 }

/-- `n` bytes of the local map or of host memory as the device itself reads them. -/
def Memory.readRaw (m : Memory) (key keyId n : Nat) : List Byte :=
  (upFrom key n).map (fun k => m.readByte (plainPlace k keyId))

/-- `n` bytes as a number. -/
def Memory.readNat (m : Memory) (key keyId n : Nat) : Nat := ofBytes (m.readRaw key keyId n)

/-! ## Regions (R93) -/

/-- A physical address of the local map: HBM, a vault, or none. -/
def localOk (low : Nat) : Bool :=
  decide (low ≤ 0x12A05F1FFFF) || (decide (0x20000000000 ≤ low) && decide (low < 0x20000000000 + 256 * 2 ^ 24))

/-- The address lies in local HBM. -/
def isHbm (pa : Nat) : Bool := decide (pa ≤ 0x12A05F1FFFF)

/-- The regions of a physical address (R93). -/
inductive Region where
  | device
  | host
  | chip (c : Nat)
  | missing
  deriving DecidableEq, Repr

/-- The region of a physical address (R93). -/
def regionOf (pa : Nat) : Region :=
  match pa / 2 ^ 54 with
  | 0 => if localOk pa then .device else .missing
  | 1 => .host
  | 2 => if localOk (pa % 2 ^ 42) then .chip ((pa / 2 ^ 42) % 4096) else .missing
  | _ => .missing

/-! ## Translation -/

/-- What an access needs of its page (R199). -/
inductive Need where
  | read | write | atomic | fetch
  deriving DecidableEq, Repr

/-- The access kind of a record (R417). -/
def Need.code (n : Need) : Nat := match n with
  | .read => 1 | .write => 2 | .atomic => 3 | .fetch => 4

/-- The first address of the scratch window (R95). -/
def windowBase : Nat := 0x1FFFF00000000

/-- What a leaf entry says of its page (R199). -/
structure Leaf where
  pa : Nat
  size : Nat
  keyId : Nat
  kind : Nat
  cached : Bool
  exec : Bool
  write : Bool
  read : Bool
  home : Nat
  deriving DecidableEq, Repr

/-- The virtual-address bits that index a level, and the size a leaf maps there (R198). -/
def levelShape (level : Nat) : Nat × Nat :=
  match level with
  | 0 => (48, 39) | 1 => (38, 30) | 2 => (29, 21) | _ => (20, 16)

/-- The size of a page that a leaf of a level maps (R198). -/
def leafSize (level : Nat) : Nat :=
  match level with
  | 0 => 2 ^ 39 | 1 => 2 ^ 30 | 2 => 2 ^ 21 | _ => 2 ^ 16

/-- The leaf that an entry holds, if it is one that R199 accepts at its level. -/
def leafOf (level e : Nat) : Option Leaf :=
  let pa := bitsOf e 48 9 * 2 ^ 16
  let lowClear := decide (pa % leafSize level = 0)
  if level = 0 ∨ e.testBit 63 ∨ e.testBit 2 ∨ bitsOf e 52 49 > 8 ∨ bitsOf e 8 7 = 3 ∨ !lowClear then none
  else some { pa := pa, size := leafSize level, keyId := bitsOf e 62 53, kind := bitsOf e 8 7, cached := e.testBit 6,
              exec := e.testBit 5, write := e.testBit 4, read := e.testBit 3, home := bitsOf e 52 49 }

/-- The next table that an entry points to, if it is a pointer that R199 accepts at its level. A pointer says no more of the
table than where it begins, and one that is not aligned to the table's size is taken as it stands.
Log entry 68 (DESIGN CHOICE, unsafe). -/
def pointerOf (level e : Nat) : Option Nat :=
  let next := bitsOf e 56 9 * 2 ^ 8
  if level ≥ 3 ∨ bitsOf e 63 57 ≠ 0 ∨ bitsOf e 8 2 ≠ 0 ∨ !(isHbm next) then none else some next

/-- The walk from a table at the levels listed: the leaf, or the XLATE detail of R201. An entry lies 8 times its index on from
where its table begins (R198). Log entry 68 (DESIGN CHOICE, unsafe). -/
def walkFrom (m : Memory) (va table : Nat) : List Nat → Except Nat Leaf
  | [] => .error 5
  | level :: rest =>
    let at8 := table + 8 * bitsOf va (levelShape level).1 (levelShape level).2
    if m.poisoned at8 then .error 6
    else
      let e := m.readNat at8 0 8
      if !e.testBit 0 then .error (2 + level)
      else if e.testBit 1 then
        match leafOf level e with
        | some l => .ok l
        | none => .error (2 + level)
      else
        match pointerOf level e with
        | some next => walkFrom m va next rest
        | none => .error (2 + level)

/-- The page-walk cache entry of a die that lets a walk begin lowest (R200). -/
def State.cachedWalk (s : State) (die ctx va : Nat) : Option WalkEntry :=
  (s.walks.filter (fun w => w.die == die && w.ctx == ctx && w.top == va / 2 ^ (levelShape w.level).2)).foldl (fun b w =>
    match b with
    | none => some w
    | some x => if x.level < w.level then some w else b) none

/-- The translation of an address of the service context: the front end defines its ranges at bring-up, and it has no page
tables (R392). Log entry 26 (DESIGN CHOICE, unsafe). -/
def State.serviceWalk (s : State) (va : Nat) : Except Nat Leaf :=
  let e := Config.serviceEntry (va / 65536)
  if s.control.everReady && e.testBit 0 then
    match leafOf 3 e with
    | some l => .ok l
    | none => .error 5
  else .error 5

/-- The page-table walk of a context (R198), from where the page-walk cache of the core's die lets it begin (R200). -/
def State.walk (s : State) (core ctx va : Nat) : Except Nat Leaf :=
  if ctx = 0 then s.serviceWalk va
  else match s.cachedWalk (core / 32) ctx va with
  | some w => walkFrom s.mem va w.next ((upFrom (w.level + 1) 3).filter (· ≤ 3))
  | none => walkFrom s.mem va (s.ctxOf ctx).root [0, 1, 2, 3]

/-- The pointers that a walk from a table meets: for each level the next table (R198, R200). -/
def pointersFrom (m : Memory) (va table : Nat) : List Nat → List (Nat × Nat)
  | [] => []
  | level :: rest =>
    let e := m.readNat (table + 8 * bitsOf va (levelShape level).1 (levelShape level).2) 0 8
    if m.poisoned (table + 8 * bitsOf va (levelShape level).1 (levelShape level).2) ∨ !e.testBit 0 ∨ e.testBit 1 then []
    else match pointerOf level e with
      | some next => (level, next) :: pointersFrom m va next rest
      | none => []

/-- The leaf that a held translation gives. -/
def TlbEntry.leaf (t : TlbEntry) : Leaf :=
  { pa := t.pa, size := t.size, keyId := t.keyId, kind := t.kind, cached := t.cached, exec := t.exec, write := t.write,
    read := t.read, home := t.home }

/-- The number under which the shared TLB of a core's die holds translations (R200). -/
def sharedTlb (core : Nat) : Nat := 512 + core / 32

/-- A translation of an address that a TLB holds. -/
def State.heldBy (s : State) (core ctx va : Nat) : Option TlbEntry :=
  s.tlb.find? (fun t => t.core == core && t.ctx == ctx && decide (t.va ≤ va) && decide (va < t.va + t.size))

/-- A core's translation of an address: one it holds, or the shared TLB of its die, else the walk (R200). -/
def State.leafFor (s : State) (core ctx va : Nat) : Except Nat Leaf :=
  match (s.heldBy core ctx va).or (s.heldBy (sharedTlb core) ctx va) with
  | some t => match t.missing with
    | some d => .error d
    | none => .ok t.leaf
  | none => s.walk core ctx va

/-- The page of an address for a core, where it begins and its size; 64 KiB where none is mapped (R92, R201). -/
def State.pageOf (s : State) (core ctx : Nat) (va : Word) : Nat × Nat :=
  if va.toNat ≥ windowBase then smallPage va
  else match s.leafFor core ctx va.toNat with
    | .ok l => (va.toNat / l.size * l.size, l.size)
    | .error _ => smallPage va

/-- The page permits the access, or the PROT detail that refuses it (R199, R201); an atomic on a page that permits neither reads nor
writes is refused as a read. Log entry 91 (DESIGN CHOICE, unsafe). -/
def Leaf.permits (l : Leaf) (n : Need) : Option Nat :=
  match n with
  | .read => if l.read then none else some 1
  | .write => if l.write then none else some 2
  | .atomic => if !l.read then some 1 else if l.write then none else some 2
  | .fetch => if l.exec then none else some 3

/-- A core may be named by an operator's peer window (R95). -/
def Operator.reaches (o : Operator) (self c : Nat) : Bool := c == self || o.members.contains c

/-- An address of the scratch window (R95): its place and where the access is performed, or PROT detail 4. A store or an
atomic of a wave through a peer window meets the lines that are pinned at its target; `pinned` asks for the line at once, as
for an engine (R267). Log entry 66 (DEDUCED, unsafe). -/
def State.windowPlace (s : State) (pinned : Bool) (oper core ctx va : Nat) (n : Need) :
    Except (Nat × Nat) (Place × Target) :=
  let c := (va - windowBase) / 2 ^ 24
  let o := (va - windowBase) % 2 ^ 24
  let place (c off : Nat) : Place :=
    { key := scratchKey oper c off, keyId := (s.ctxOf ctx).keyId, kind := 0, cached := false, home := 0,
      va := BitVec.ofNat 64 va }
  if n = .fetch then .error (causePROT, 4)
  else if o < 2 ^ 23 then
    if c = 255 ∧ o < 512 * (s.seatOf oper core).lines then .ok (place core o, .here) else .error (causePROT, 4)
  else if n = .read then .error (causePROT, 4)
  else if (getAt Operator.reset s.operators oper).reaches core c
      ∧ (pinned = false ∨ o - 2 ^ 23 < 512 * (s.seatOf oper c).lines) then
    .ok (place c (o - 2 ^ 23), .peer c)
  else .error (causePROT, 4)

/-- A context address translated for an access of an operator's wave or engine on a core: its place and where the access
is performed, or the cause and detail of R201. -/
def State.translateAs (s : State) (pinned : Bool) (oper core ctx : Nat) (va : Word) (n : Need) :
    Except (Nat × Nat) (Place × Target) :=
  let a := va.toNat
  if a ≥ 2 ^ 49 then .error (causeXLATE, 1)
  else if a ≥ windowBase then s.windowPlace pinned oper core ctx a n
  else match s.leafFor core ctx a with
    | .error d => .error (causeXLATE, d)
    | .ok l =>
      match l.permits n with
      | some d => .error (causePROT, d)
      | none =>
        let pa := l.pa + a % l.size
        let p : Place := { key := pa, keyId := l.keyId, kind := l.kind, cached := l.cached, home := l.home, va := va }
        match regionOf pa with
        | .device => .ok (p, .here)
        | .host => .ok (p, .here)
        | .chip c => .ok (p, .chip c)
        | .missing => .error (causePROT, 6)

/-- An address translated for an engine of an operator on a core. -/
def State.translate (s : State) (oper core ctx : Nat) (va : Word) (n : Need) : Except (Nat × Nat) (Place × Target) :=
  s.translateAs true oper core ctx va n

/-- The number under which the agents of the device that belong to no core hold translations. -/
def hubCore : Nat := 256

/-- A context address translated for an agent of the device that belongs to no core: its place and where the access is
performed, or the cause and detail of R201. The scratch window is no such agent's. Log entry 29 (DESIGN CHOICE, unsafe). -/
def State.hubXlate (s : State) (ctx : Nat) (va : Word) (n : Need) : Except (Nat × Nat) (Place × Target) :=
  let a := va.toNat
  if a ≥ 2 ^ 49 then .error (causeXLATE, 1)
  else if a ≥ windowBase then .error (causePROT, 4)
  else match s.leafFor hubCore ctx a with
    | .error d => .error (causeXLATE, d)
    | .ok l =>
      match l.permits n with
      | some d => .error (causePROT, d)
      | none =>
        let p : Place := {
          key := l.pa + a % l.size, keyId := l.keyId, kind := l.kind, cached := l.cached, home := l.home, va := va }
        match regionOf p.key with
        | .device => .ok (p, .here)
        | .host => .ok (p, .here)
        | .chip c => .ok (p, .chip c)
        | .missing => .error (causePROT, 6)

/-- An address translated for the executing wave. -/
def State.xlate (s : State) (va : Word) (n : Need) : Except (Nat × Nat) (Place × Target) :=
  s.translateAs false s.tk.oper s.cur.core s.ctxId va n

end Sys2Proof.Machine
end

