-- ==== Sys2Proof/Machine/Access.lean ====
section
/-! DEFINITION. Accesses: which of them must come before which (R101, R104 to R106, R112, R113), performing one at its
visibility point (R99, R102, R103), the conflicts a write makes (R216), the notices it sends (R224), and how the loads,
stores and atomics of a wave are issued, inside an attempt and outside one. -/

namespace Sys2Proof.Machine

/-- Cause LINK_DOWN (R83). -/
def causeLINK : Nat := 0x90

/-! ## Order -/

/-- The places of `n` bytes from one on. -/
def placesFrom (p : Place) (n : Nat) : List Place :=
  (List.range n).map (fun i => { p with key := p.key + i, va := p.va + BitVec.ofNat 64 i })

/-- The bytes an access touches. -/
def AccessOp.keys (o : AccessOp) : List Nat :=
  match o with
  | .store d => d.map (·.1.key)
  | .load ps _ => ps.map (·.key)
  | .atomic _ ps _ _ _ _ => ps.map (·.key)
  | .fence _ => []
  | .packet .. => []
  | .flush ps => ps.map (·.key)

/-- The places an access touches. -/
def AccessOp.places (o : AccessOp) : List Place :=
  match o with
  | .store d => d.map (·.1)
  | .load ps _ => ps
  | .atomic _ ps _ _ _ _ => ps
  | .fence _ => []
  | .packet .. => []
  | .flush ps => ps

/-- The access kind of a record (R417). -/
def AccessOp.code (o : AccessOp) : Nat :=
  match o with
  | .load .. => 1
  | .atomic .. => 3
  | _ => 2

/-- The access reads: a load or an atomic. -/
def AccessOp.isRead (o : AccessOp) : Bool :=
  match o with
  | .load .. => true
  | .atomic .. => true
  | _ => false

/-- The access writes, or is ordered as a write: a store, an atomic, a packet, a `flush` or `inv` (R196). -/
def AccessOp.isWrite (o : AccessOp) : Bool :=
  match o with
  | .store .. => true
  | .atomic .. => true
  | .packet .. => true
  | .flush _ => true
  | _ => false

/-- The access is a packet. -/
def AccessOp.isPacket (o : AccessOp) : Bool :=
  match o with
  | .packet .. => true
  | _ => false

/-- The destination of an access. -/
def AccessOp.dest (o : AccessOp) : Dest :=
  match o with
  | .load _ d => d
  | .atomic _ _ _ _ _ d => d
  | _ => .none

/-- The access is one of a peer device. -/
def Access.isRemote (a : Access) : Bool :=
  match a.target with
  | .chip _ => true
  | _ => false

/-- The access ends by an event of its own: it is one of a peer device, or a packet. -/
def Access.isOut (a : Access) : Bool := a.isRemote || a.op.isPacket

/-- The access is one that a wave has made by its own instructions. -/
def Access.ofWave (a : Access) : Bool := a.issuer == .wave

/-- The access was made by an instruction of a fragment. -/
def Access.ofFrag (a : Access) (f : FragId) : Bool := a.ofWave && a.agent == f

/-- The access comes before the next instruction of a fragment in program order. -/
def Access.precedes (a : Access) (f : Frag) : Bool := a.ofWave && (a.thread == f.thread || f.before.contains a.thread)

/-- A comes before B in program order, A being issued first (chapter 4, "Program order and ordering"). -/
def Access.inOrder (a b : Access) : Bool := a.ofWave && b.ofWave && (a.thread == b.thread || b.before.contains a.thread)

/-- Two accesses touch a byte in common. -/
def Access.overlaps (a b : Access) : Bool := a.op.keys.any (fun k => b.op.keys.contains k)

/-- A fence of a kind waits for an earlier access (R106, R113): a release part for writes to another device at system scope
alone, an acquire part for every read and atomic whatever the scope. Log entry 70 (DEDUCED, unsafe). -/
def fenceCollects (kind scope : Nat) (a : Access) : Bool :=
  match kind with
  | 0 => !a.isRemote || decide (scope = 5) || a.op.isRead
  | 1 => a.op.isRead && a.kind != 2
  | _ => (!a.isRemote || decide (scope = 5)) && a.kind != 2

/-- A later access waits for a fence of a kind (R106). -/
def fenceHolds (kind : Nat) (b : Access) : Bool :=
  match kind with
  | 0 => true
  | 1 => b.kind != 2
  | _ => b.op.isWrite && b.kind != 2

/-- The release part of B at system scope waits for the acknowledgement of a remote write A of its wave, whichever
fragment made it (R113). -/
def Access.ackHolds (a b : Access) : Bool :=
  a.ofWave && b.ofWave && a.isRemote && a.op.isWrite && a.agent.waveKey == b.agent.waveKey && b.scope == 5 &&
    match b.op with
    | .fence k => k != 1
    | _ => b.release

/-- A packet of this chip to a die comes before B only where B has a release part whose scope covers the die (R107, R378). -/
def Access.packetHolds (b : Access) (die : Nat) : Bool :=
  (decide (b.scope ≥ 4) || decide (b.scope = 3 ∧ die = b.agent.core / 32)) &&
    match b.op with
    | .fence k => k != 1
    | _ => b.release

/-- A, issued before B, must be performed before B (R101, R104 to R106, R112, R113, R378). -/
def Access.ordersBefore (a b : Access) : Bool :=
  a.ackHolds b || a.inOrder b &&
    match a.op, b.op with
    | .packet _ die, _ => !a.isRemote && b.packetHolds die
    | .fence _, .fence _ => true
    | .fence k, _ => fenceHolds k b
    | _, .fence k => fenceCollects k b.scope a
    | _, _ =>
      a.overlaps b || a.kind == 1 || b.kind == 1
        || (a.kind == 0 && b.kind == 0 && (a.acquire || (b.release && (!a.isRemote || b.scope == 5))))

/-- The accesses of a list, in order, that must be performed before B. -/
def neededFor (pend : List Access) (b : Access) : List Access :=
  pend.foldr (fun a need => if a.ordersBefore b || need.any (fun n => a.ordersBefore n) then a :: need else need) []

/-! ## Writes as other agents see them -/

/-- The virtual address under which an attempt read one of some words. -/
def Attempt.readOf (a : Attempt) (ws : List Watch) : Option Word :=
  (a.reads.find? (fun r => ws.contains r.1)).map (·.2)

/-- The virtual address under which an attempt wrote one of some sectors. -/
def Attempt.wroteOf (a : Attempt) (ws : List Watch) : Option Word :=
  (a.writes.find? (fun w => ws.contains (.sector (sectorOf w.place.key)))).map
    (fun w => w.place.va &&& ~~~(127 : Word))

/-- Attempts of other agents that a non-transactional write of some words abandons with status conflict (R216). -/
def State.conflictWrite (s : State) (agent : Option FragId) (ws : List Watch) : State :=
  s.attempts.foldl (fun t x =>
    if agent = some x.1 then t
    else match x.2.readOf ws with
      | some va => t.abandon x.1 1 0 (t.frOf x.1).pc va
      | none => t) s

/-- A hardware state word written: attempts that read it end, and its sleepers are notified (R216, R224, R226). -/
def State.writeWord (s : State) (w : Watch) : State := (s.conflictWrite none [w]).notify w

/-- The sectors of some bytes as words of a read set. -/
def sectorWords (keys : List Nat) : List Watch := (distinct (keys.map sectorOf)).map Watch.sector

/-- A non-transactional write performed at its visibility point (R99, R102): conflicts, bytes, poison marks, notices. -/
def State.storeBytes (s : State) (agent : Option FragId) (data : List (Place × Byte)) : State :=
  let keys := data.map (·.1.key)
  let ws := sectorWords keys
  let s1 := s.conflictWrite agent ws
  ws.foldl (fun t w => t.notify w) { s1 with mem := (s1.mem.writeBytes data).clearPoison keys }

/-! ## Atomics (R184) -/

/-- The value that an atomic of `w` bits stores on memory value `m`; none when nothing is written. -/
def atomicValue (op : AtomicOp) (w m x y : Nat) : Option Nat :=
  match op with
  | .add => some ((m + x) % 2 ^ w)
  | .sub => some (wrapTo w ((m : Int) - x))
  | .min => some (if signedOf w m ≤ signedOf w x then m else x)
  | .max => some (if signedOf w m ≤ signedOf w x then x else m)
  | .minu => some (min m x)
  | .maxu => some (max m x)
  | .and => some (m &&& x)
  | .or => some (m ||| x)
  | .xor => some (m ^^^ x)
  | .xchg => some x
  | .cas => if m = x then some y else none
  | .fadd => some (fAdd 23 .rne m x).1
  | .fmin => some (fMin 23 m x).1
  | .fmax => some (fMax 23 m x).1

/-- The operand of a lane's atomic cut to the width of its bytes. -/
def cutWord (bytes : Nat) (x : Word) : Nat := x.toNat % 2 ^ (8 * bytes)

/-- The bytes that an atomic on some places stores, and the old value. -/
def Memory.atomic (m : Memory) (op : AtomicOp) (ps : List Place) (x y : Word) : List (Place × Byte) × Nat :=
  let old := ofBytes (ps.map m.readByte)
  match atomicValue op (8 * ps.length) old (cutWord ps.length x) (cutWord ps.length y) with
  | some v => (ps.zip (toBytes ps.length v), old)
  | none => ([], old)

/-- An atomic performed: the state and the old value (R103, R184). -/
def State.runAtomic (s : State) (agent : Option FragId) (op : AtomicOp) (ps : List Place) (x y : Word) : State × Nat :=
  let (data, old) := s.mem.atomic op ps x y
  (if data.isEmpty then s else s.storeBytes agent data, old)

/-! ## Registers that a load or a returning atomic writes -/

/-- Little-endian groups of four bytes as lanes. -/
def lanesFrom (bytes : List Byte) (n : Nat) : List Lane :=
  (List.range n).map (fun i => BitVec.ofNat 32 (ofBytes ((bytes.drop (4 * i)).take 4)))

/-- Values placed in the destination of a fragment's access. What an instruction of an attempt brings is noted in the attempt, and
what comes of an instruction before it is not: it is part of what the attempt began with (R206).
Log entry 89 (DEDUCED, unsafe). -/
def State.deliver (s : State) (f : FragId) (dst : Dest) (vals : List Nat) (noted : Bool := false) : State :=
  match dst with
  | .none => s
  | .fetch => s
  | .scalar d => s.setFrOf f ((s.frOf f).setS (BitVec.ofNat 6 d) (BitVec.ofNat 64 (vals.headD 0)))
  | .lanes d ls =>
    let w := s.wvOf f
    let r := w.v.toList.getD d zeroReg
    let r' := withLanes r ls (fun l => BitVec.ofNat 32 (vals.getD ((findIndexOf (· == l) ls).getD 0) 0))
    s.setWvOf f { w with v := w.v.setIfInBounds d r', tx := if noted then w.noteV f.frag d r' else w.tx }

/-- The bytes of a load as the values its destination takes: one number for a scalar, a lane for each four bytes. -/
def Dest.split (dst : Dest) (bytes : List Byte) : List Nat :=
  match dst with
  | .none => []
  | .fetch => []
  | .scalar _ => [ofBytes bytes]
  | .lanes _ ls => (lanesFrom bytes ls.length).map (·.toNat)

/-! ## Performing an access (R99) -/

/-- An access of the list by its number. -/
def State.accessOf (s : State) (n : Nat) : Option Access := s.accesses.find? (fun a => a.id == n)

/-- A list of accesses without the fences that hold nothing back any more. -/
def dropFences (l : List Access) : List Access :=
  l.foldl (fun kept a =>
    match a.op with
    | .fence _ => if kept.any (fun b => b.ordersBefore a) then kept ++ [a] else kept
    | _ => kept ++ [a]) []

/-- The access taken off the list. -/
def State.dropAccess (s : State) (n : Nat) : State :=
  { s with accesses := dropFences (s.accesses.filter (fun a => a.id != n)) }

/-- The operator and core whose scratchpad line holds a byte, and the byte's offset. -/
def scratchOwner (key : Nat) : Nat × Nat × Nat :=
  let k := key - scratchBase
  (k / 2 ^ 31, (k / 2 ^ 23) % 256, k % 2 ^ 23)

/-- The scratchpad bytes of an access lie in lines that are still pinned (R95, R190). -/
def State.linePinned (s : State) (key : Nat) : Bool :=
  if key < scratchBase then true
  else
    let (oper, core, off) := scratchOwner key
    decide (off < 512 * (s.seatOf oper core).lines)

/-- The slot that holds a scratchpad byte is lost (R117). -/
def State.lineLost (s : State) (key : Nat) : Bool :=
  if key < scratchBase then false
  else
    let (oper, core, _) := scratchOwner key
    (s.seatOf oper core).state == .lost

/-- The access answers its wave with a value. -/
def AccessOp.returns (o : AccessOp) : Bool :=
  match o with
  | .load .. => true
  | .atomic _ _ _ _ r _ => r
  | _ => false

/-- The access is one whose answer its fragment waits for. -/
def Access.awaitedBy (a : Access) (f : FragId) : Bool := a.ofFrag f && (a.sent || a.isRemote) && a.op.returns

/-- Values that an access brings its fragment: kept with the wait of the fragment for the rest of its instruction, so that no
part of a result is written before all of it is there (R95), or written at once where the fragment does not wait. -/
def State.answer (s : State) (a : Access) (vals : List Nat) : State :=
  match (s.frOf a.agent).status with
  | .awaiting n got =>
    if a.awaitedBy a.agent || a.pc == (s.frOf a.agent).pc then
      s.setFrOf a.agent { s.frOf a.agent with status := .awaiting n (got ++ [(a.op.dest, vals)]) }
    else s.deliver a.agent a.op.dest vals
  | _ => s.deliver a.agent a.op.dest vals

/-- Where a scratchpad byte of a saved slot lies in the save area, and the device that has it (R116). -/
def State.imageOf (s : State) (p : Place) : Option (Place × Target) :=
  if p.key < scratchBase then none
  else
    let (oper, core, off) := scratchOwner p.key
    let q := s.seatOf oper core
    if q.state = .saved then
      (q.image[off / 128]?).map (fun x => ({ x.1 with key := x.1.key + off % 128, va := p.va }, x.2))
    else none

/-- A byte of a saved slot at its place in the save area, where this device has it; else the place itself (R116). -/
def State.imagePlace (s : State) (p : Place) : Place :=
  match s.imageOf p with
  | some (x, .here) => x
  | _ => p

/-- The same access at other places. -/
def AccessOp.mapPlaces (o : AccessOp) (g : Place → Place) : AccessOp :=
  match o with
  | .store d => .store (d.map (fun x => (g x.1, x.2)))
  | .load ps dst => .load (ps.map g) dst
  | .atomic op ps x y ret dst => .atomic op (ps.map g) x y ret dst
  | .fence k => .fence k
  | .packet n die => .packet n die
  | .flush ps => .flush (ps.map g)

/-- What an access does where the scratchpad line that it names is saved: the same to the line's copy in the save image (R116). -/
def State.redirect (s : State) (o : AccessOp) : AccessOp := o.mapPlaces s.imagePlace

/-- The other device that has the save image of the line that an access names (R116). -/
def State.imageChip (s : State) (o : AccessOp) : Option Nat :=
  match o.places.head?.bind s.imageOf with
  | some (_, .chip c) => some c
  | _ => none

/-- An access at the save image of its line, whatever device has that (R116). -/
def State.atImage (s : State) (o : AccessOp) : AccessOp := o.mapPlaces (fun p => ((s.imageOf p).map (·.1)).getD p)

/-- What an access does at its visibility point, its bytes being reachable. -/
def State.applyOp (s : State) (a : Access) : State :=
  match a.op with
  | .fence _ => s
  | .packet .. => s
  | .flush _ => s
  | .store data => s.storeBytes (some a.agent) data
  | .load ps dst => s.answer a (dst.split (ps.map s.mem.readByte))
  | .atomic op ps x y ret _ =>
    let (s', old) := s.runAtomic (some a.agent) op ps x y
    if ret then s'.answer a [old] else s'

/-- The virtual address of the first of some places whose scratchpad line is not pinned (R417). -/
def State.goneVa (s : State) (ps : List Place) : Word :=
  match ps.find? (fun p => !s.linePinned p.key) with
  | some p => p.va
  | none => 0

/-- The accesses of the instruction that a fragment waits in, other than those that answer nothing, given up. -/
def State.dropAwaited (s : State) (f : FragId) : State :=
  { s with accesses := s.accesses.filter (fun b => !b.awaitedBy f) }

/-- POISON taken by the fragment of an access, at the instruction that made it (R202). -/
def State.raisePoison (s : State) (a : Access) (va : Word) : State :=
  s.trapEntry a.agent causePOISON 0 a.pc (va &&& ~~~(127 : Word)) (BitVec.ofNat 64 (a.word.toNat + a.lane * 2 ^ 32)) 0

/-- POISON that an access of a wave meets at a place: the rest of its instruction is given up and the trap is taken at the
instruction (R202). -/
def State.accessPoison (s : State) (a : Access) (va : Word) : State :=
  let s1 := s.dropAwaited a.agent
  (s1.setFrOf a.agent { s1.frOf a.agent with status := .ready, pc := a.pc }).raisePoison a va

/-- POISON that a non-returning atomic has met at another device after its fragment has gone on: the fragment, where it is still
there, takes the trap where it stands, with TPC at the atomic. Log entry 94 (DEDUCED, unsafe). -/
def State.latePoison (s : State) (a : Access) (va : Word) : State :=
  if (findAt s.frags a.agent.key).isNone || (s.wvOf a.agent).task != a.task then s
  else (s.setFrOf a.agent { s.frOf a.agent with status := .ready }).raisePoison a va

/-- The first place that an access reads in a poisoned sector of this device (R202). -/
def State.readsPoison (s : State) (a : Access) : Option Place :=
  if s.mem.poison.isEmpty || !a.op.isRead then none else a.op.places.find? (fun p => s.mem.poisoned p.key)

/-- An access performed at its visibility point. One that finds its scratchpad line released is discarded and reported
with PROT detail 7, or, when it answers with a value, suspends its wave with detail 4 (R95, R190); one that finds its
slot lost is discarded (R117), the register that it answers into keeping what it holds; one that reads a poisoned sector raises
POISON (R202). Log entry 95 (DESIGN CHOICE, unsafe). -/
def State.performOp (s : State) (a : Access) : State :=
  if a.op.keys.any s.lineLost then s
  else if !a.op.keys.all s.linePinned then
    if a.op.returns then
      let s1 := s.dropAwaited a.agent
      (s1.setFrOf a.agent { s1.frOf a.agent with pc := a.pc }).suspend a.agent causePROT 4 a.op.code (s.goneVa a.op.places)
    else
      let t := getAt Task.reset s.tasks a.task
      s.report { s.waveRecord a.agent causePROT 7 a.op.code (s.goneVa a.op.places) with
        pc := a.pc, ctx := a.ctx, task := t.number, reportOnly := true }
  else
    let b := { a with op := s.redirect a.op }
    match s.readsPoison b with
    | some p => s.accessPoison a p.va
    | none => s.applyOp b

/-- A fragment that waits for an access goes on when it has come back, unless another of its instruction is out; the result is
then written. One that reads bytes of another device issues its instruction again when all have come (R112). -/
def State.resumeAwait (s : State) (a : Access) : State :=
  let f := s.frOf a.agent
  if !a.ofWave then s
  else match f.status with
    | .awaiting n got =>
      if n = a.id then
        match s.accesses.find? (fun b => b.awaitedBy a.agent) with
        | some b => s.setFrOf a.agent { f with status := .awaiting b.id got }
        | none =>
          let s1 := got.foldl (fun t x => t.deliver a.agent x.1 x.2) s
          s1.setFrOf a.agent { s1.frOf a.agent with status := .ready, pc := f.pc + 4 }
      else s
    | .fetching => if s.accesses.any (fun b => b.awaitedBy a.agent) then s else s.setFrOf a.agent { f with status := .ready }
    | _ => s

/-- A change of a tile-table entry's state, which is a write of its state word (R193, R226). -/
def State.setTileState (s : State) (core entry st : Nat) : State :=
  (s.setTile core entry { s.tileOf core entry with state := st }).writeWord (.tile core entry)

/-- A change to empty asked for: made at once, or pending while commands name the entry or a `tst` with FINAL is on its way to it;
its state word is written when the change takes effect (R25, R193). With it goes what the entry keeps of failed fills, which R262
counts against later fills of the same tile. Log entry 96 (DESIGN CHOICE, unsafe). -/
def State.emptyTile (s : State) (core entry : Nat) : State :=
  let e := s.tileOf core entry
  if e.inFlight = 0 ∧ e.finalDue = false then
    (s.setTile core entry { e with pendingEmpty := false, failedFills := [] }).setTileState core entry 0
  else s.setTile core entry { e with pendingEmpty := true }

/-- What `tst` with FINAL makes of its entry, which is filling unless a command has made it ready meanwhile; a change to empty that
has waited for it may then take effect (R193, R195). -/
def State.finalTile (s : State) (core entry : Nat) : State :=
  let e := s.tileOf core entry
  let s1 := s.setTile core entry { e with finalDue := false }
  let s2 := if e.state = 1 then
      (s1.setTile core entry { e with stamp := e.span, stampV := true, finalDue := false }).setTileState core entry 2
    else s1
  if e.pendingEmpty then s2.emptyTile core entry else s2

/-- What the performance of an access brings about besides its effect. -/
def State.afterAccess (s : State) (a : Access) : State :=
  match a.final with
  | some e => (s.finalTile a.agent.core e).resumeAwait a
  | none => s.resumeAwait a

/-- An access of the list performed and taken off it. -/
def State.performAccess (s : State) (a : Access) : State := ((s.dropAccess a.id).performOp a).afterAccess a

/-- Accesses performed in order; none when one of them waits for another device. Log entry 4 (DEDUCED, safe). -/
def State.forceAll (s : State) : List Access → Option State
  | [] => some s
  | a :: rest => if a.isOut then none else (s.performAccess a).forceAll rest

/-- Every access that must come before B performed; none when B has to wait for another device (R112, R113).
Log entry 4 (DEDUCED, safe). -/
def State.forceFor (s : State) (b : Access) : Option State :=
  s.forceAll (neededFor (s.accesses.takeWhile (fun a => a.id != b.id)) b)

/-- Every access of a fragment's program order performed, as far as this device can (R110, R212, R218). -/
def State.drain (s : State) (f : FragId) : State :=
  let fr := s.frOf f
  let mine := s.accesses.filter (fun a => a.precedes fr && !a.isOut)
  mine.foldl (fun t a => t.performAccess a) s

/-- Loads that were deferred performed, with what must come before each: their destinations are free of interlocks (R34). -/
def State.settle (s : State) (loads : List Access) : State :=
  loads.foldl (fun t a =>
    match t.accessOf a.id with
    | some b => match t.forceFor b with
      | some u => u.performAccess b
      | none => t
    | none => t) s

/-- The loads of a fragment that were deferred, performed (R34). -/
def State.settleLoads (s : State) (f : FragId) : State :=
  s.settle (s.accesses.filter (fun a => a.ofFrag f && a.op.returns && !a.isRemote))

/-! ## Faults of an access -/

/-- The executing fragment suspended by failing addresses: an open attempt is abandoned with status trap first and the
fragment is suspended at its handler (R181, R201, R219). -/
def State.suspendAll (s : State) (fails : List ((Nat × Nat) × Word)) (n : Need) : State :=
  let s1 := if s.inTx then s.abandonHere 5 0 ((fails.map (·.2)).headD 0) else s
  fails.foldl (fun t x =>
    t.suspendOn t.cur { t.waveRecord t.cur x.1.1 x.1.2 n.code x.2 with page := s.pageOf s.cur.core s.ctxId x.2 }) s1

/-- Failing addresses of one instruction, one for each page (R181). -/
def onePerPage (page : Word → Nat × Nat) (l : List ((Nat × Nat) × Word)) : List ((Nat × Nat) × Word) :=
  l.foldl (fun acc x => if acc.any (fun y => page y.2 == page x.2) then acc else acc ++ [x]) []

/-- The host page of a place. -/
def hostPage (p : Place) : Nat := (p.key - hostBase) / 4096

/-- The place is in host memory. -/
def Place.isHost (p : Place) : Bool := decide (hostBase ≤ p.key ∧ p.key < 2 * hostBase)

/-- The place is a scratchpad byte. -/
def Place.isScratch (p : Place) : Bool := decide (scratchBase ≤ p.key)

/-- An address translated, and refused for a cause and detail where `refuse` gives one for its place. -/
def State.xlateOr (s : State) (refuse : Place × Target → Option (Nat × Nat)) (va : Word) (n : Need) :
    Except (Nat × Nat) (Place × Target) :=
  match s.xlate va n with
  | .error e => .error e
  | .ok x => match refuse x with
    | some e => .error e
    | none => .ok x

/-- Every address of an instruction translated (R181): the places, or the state in which the fragment waits. -/
def State.xlateWith (s : State) (refuse : Place × Target → Option (Nat × Nat)) (vas : List Word) (n : Need) :
    Except State (List (Place × Target)) :=
  let rs := vas.map (fun va => (s.xlateOr refuse va n, va))
  let fails := rs.filterMap (fun r => match r.1 with
    | .error e => some (e, r.2)
    | .ok _ => none)
  let oks := rs.filterMap (fun r => match r.1 with
    | .ok x => some x
    | .error _ => none)
  if !fails.isEmpty then .error (s.suspendAll (onePerPage (s.pageOf s.cur.core s.ctxId) fails) n)
  else
    match oks.find? (fun x => x.1.isHost && x.2 == .here && !s.ats.contains (hostPage x.1) && !s.inTx) with
    | some x => .error (s.setFr { s.fr with status := .awaitingPage (hostPage x.1) n.code x.1.va })
    | none => .ok oks

/-- Every address of an instruction translated, none refused for its place. -/
def State.xlateAll (s : State) (vas : List Word) (n : Need) : Except State (List (Place × Target)) :=
  s.xlateWith (fun _ => none) vas n

/-- The strongest of the ordering kinds of some places (R98). -/
def strongest (ps : List Place) : Nat :=
  if ps.any (fun p => p.kind == 1) then 1 else if ps.any (fun p => p.kind == 0) then 0 else if ps.isEmpty then 0 else 2

/-! ## Attempts: reads, writes, conflicts and capacity (R214 to R217) -/

/-- Fragment `a` has the older age stamp (R207). -/
def Frag.older (a b : Frag) : Bool :=
  decide (a.ageTick.toNat < b.ageTick.toNat) || (a.ageTick == b.ageTick && decide (a.ageMember < b.ageMember))

/-- The executing fragment's attempt. -/
def State.attempt (s : State) : Option Attempt := if s.inTx then s.wv.tx else none

/-- The executing fragment's attempt changed. -/
def State.setAttempt (s : State) (a : Attempt) : State := s.setWv { s.wv with tx := some a }

/-- Entries counted between marks: what is counted before and after an open alternative's checkpoint counts on each side
(R214). -/
def countParts (marks : List Nat) (xs : List Nat) : Nat :=
  ((marks.reverse ++ [xs.length]).foldl (fun (acc : Nat × Nat) m =>
    (m, acc.2 + (distinct ((xs.take m).drop acc.1)).length)) (0, 0)).2

/-- The queue that an operation of an attempt names. -/
def TokenOp.queueOf (o : TokenOp) : Nat :=
  match o with
  | .pop q _ _ _ => q
  | .push q _ _ _ => q

/-- The write-set entries of an attempt: sectors, and the words of token queues (R214, R361). -/
def Attempt.writeEntries (a : Attempt) : Nat :=
  countParts (a.alts.map (·.writes)) (a.writes.map (fun w => sectorOf w.place.key))
    + countParts (a.alts.map (·.tokenOps)) (a.tokenOps.map TokenOp.queueOf)

/-- The ways of an L1 set of a core that pinned lines hold, those of slots that are lost and not yet freed among them (R117,
R187). -/
def State.pinnedWays (s : State) (core set : Nat) : Nat :=
  (s.seats.filter (fun x => x.1 % 256 == core
      && (x.2.state == .installed || x.2.state == .draining || x.2.state == .lost))).foldl
    (fun n x => n + (List.range x.2.lines).countP (fun k => (k + 32 * x.2.slot) % 256 == set)) 0

/-- The L1 set of a byte (R187). -/
def l1Set (key : Nat) : Nat := (key / 512) % 256

/-- Speculative lines of a core's attempts in an L1 set, with those of some further bytes (R187, R215). -/
def State.specWays (s : State) (core set : Nat) (more : List Nat) : Nat :=
  let keys := (s.attempts.filter (fun x => x.1.core == core)).flatMap (fun x => x.2.writes.map (fun w => w.place.key))
  (distinct (((keys ++ more).filter (fun k => decide (k < scratchBase) && l1Set k == set)).map (· / 512))).length

/-- The ways of each L1 set of a core: 16 less those retired (R187, R426). Log entry 36 (DEDUCED, unsafe). -/
def State.l1Ways (s : State) (core : Nat) : Nat :=
  16 - s.ras.retired.countP (fun l => match l with
    | .l1Way c _ => c == core
    | _ => false)

/-- The sectors of some bytes that find no way for their speculative data (R215). Data of scratchpad lines needs none: its lines
are in the L1 as pinned ones. Log entry 71 (DESIGN CHOICE, unsafe). -/
def State.noWay (s : State) (keys : List Nat) : Bool :=
  keys.any (fun k => decide (k < scratchBase) &&
    decide (s.l1Ways s.cur.core < s.pinnedWays s.cur.core (l1Set k) + s.specWays s.cur.core (l1Set k) keys))

/-- The virtual address under which another attempt holds a sector that a transactional access conflicts with: a write with
any that it holds, a read with one that is only in its write set (R216). -/
def Attempt.holds (a : Attempt) (write : Bool) (w : Watch) : Option Word :=
  if write then (a.wroteOf [w]).or (a.readOf [w])
  else if (a.readOf [w]).isSome then none else a.wroteOf [w]

/-- The attempts of other waves that hold one of some sectors against a transactional access, a write or a read, each with the
virtual address it holds it under (R216). -/
def State.rivals (s : State) (secs : List (Watch × Word)) (write : Bool) : List (FragId × Word) :=
  s.attempts.filterMap (fun x =>
    if x.1 = s.cur then none else (secs.findSome? (fun q => x.2.holds write q.1)).map (fun v => (x.1, v)))

/-- Conflicts of a transactional access of some sectors, a write or a read (R216): every younger holder of one of them is abandoned,
and the requester where a holder is older. The second part says that the access goes on: the requester's attempt is still open. -/
def State.txConflict (s : State) (secs : List (Watch × Word)) (write : Bool) : State × Bool :=
  let me := s.fr
  let held := s.rivals secs write
  let s1 := (held.filter (fun x => !(s.frOf x.1).older me)).foldl (fun t x => t.abandon x.1 1 0 (t.frOf x.1).pc x.2) s
  match secs.find? (fun q => (s.rivals [q] write).any (fun x => (s.frOf x.1).older me)) with
  | some q => (if s1.inTx then s1.abandonHere 1 0 q.2 else s1, false)
  | none => (s1, s1.inTx)

/-- A word added to the read set of the executing fragment's attempt; the second part is false when the attempt ended
for want of room (R215). -/
def State.addRead (s : State) (w : Watch) (va : Word) : State × Bool :=
  match s.attempt with
  | none => (s, true)
  | some a =>
    if a.reads.any (fun r => r.1 == w) then (s, true)
    else if a.reads.length ≥ 64 then (s.abandonHere 2 0 va, false)
    else (s.setAttempt { a with reads := a.reads ++ [(w, va)] }, true)

/-- Words added one after another. -/
def State.addReads (s : State) : List (Watch × Word) → State × Bool
  | [] => (s, true)
  | (w, va) :: rest =>
    let (s', ok) := s.addRead w va
    if ok then s'.addReads rest else (s', false)

/-- The latest byte that an attempt wrote at a place (R214). -/
def Attempt.ownByte (a : Attempt) (key : Nat) : Option Byte :=
  a.writes.foldl (fun r w => if w.place.key = key then w.byte.or r else r) none

/-- The last byte that some data puts at a place. -/
def byteAt (d : List (Place × Byte)) (key : Nat) : Option Byte :=
  d.foldl (fun r x => if x.1.key = key then some x.2 else r) none

/-- The byte that a store on its way puts at a place. -/
def AccessOp.storedByte (o : AccessOp) (key : Nat) : Option Byte :=
  match o with
  | .store d => byteAt d key
  | _ => none

/-- The latest byte that earlier stores of a fragment, on their way, put at a place (R99, R101).
Log entry 64 (DESIGN CHOICE, unsafe). -/
def State.lateByte (s : State) (f : Frag) (key : Nat) : Option Byte :=
  s.accesses.foldl (fun r a =>
    if a.precedes f then (a.op.storedByte key).or r else r) none

/-- A byte as the executing fragment reads it: the latest write of its attempt, then its own latest earlier write, then
memory (R99, R214). -/
def State.readByte (s : State) (p : Place) : Byte :=
  let own := match s.attempt with
    | some a => a.ownByte p.key
    | none => none
  (own.or (s.lateByte s.fr p.key)).getD (s.mem.readByte p)

/-- The distinct sectors of some places with the virtual address of each. -/
def sectorsOf (ps : List Place) : List (Watch × Word) :=
  ps.foldl (fun acc p =>
    let w := Watch.sector (sectorOf p.key)
    if acc.any (fun x => x.1 == w) then acc else acc ++ [(w, p.va &&& ~~~(127 : Word))]) []

/-- A region or page that a transaction may not access (R219). -/
def txForbidden (x : Place × Target) : Bool := x.2 != .here || x.1.isHost || x.1.kind == 1

/-- The write set of an attempt grown by some places and what is written there, if there is room (R215): the second part is
false when it ended. -/
def State.growWrites (s : State) (data : List TxWrite) (va : Word) : State × Bool :=
  match s.attempt with
  | none => (s, false)
  | some a =>
    let a' := { a with writes := a.writes ++ data }
    if a'.writeEntries > 16 ∨ s.noWay (data.map (·.place.key)) then (s.abandonHere 3 0 va, false)
    else (s.setAttempt a', true)

/-- The writes of an attempt grown by some bytes, if there is room (R215). -/
def State.addWrites (s : State) (data : List (Place × Byte)) (va : Word) : State × Bool :=
  s.growWrites (data.map (fun x => { place := x.1, byte := some x.2 })) va

/-- A sector is read as poisoned inside an attempt: it is marked, and no store of the attempt or before it covers it whole
(R202, R214). -/
def State.txPoisoned (s : State) (p : Place) : Bool :=
  let own := match s.attempt with
    | some a => (a.writes.filter (fun w => w.byte.isSome)).map (·.place.key)
    | none => []
  let late := (s.accesses.filter (fun a => a.precedes s.fr)).flatMap (fun a => match a.op with
    | .store d => d.map (·.1.key)
    | _ => [])
  s.mem.poisoned p.key && !((wholeSectors (own ++ late)).contains (sectorOf p.key))

/-! ## Loads, stores and atomics of a wave -/

/-- The access that the executing fragment issues. -/
def State.newAccess (s : State) (target : Target) (op : AccessOp) (kind : Nat) : Access :=
  { id := s.accesses.foldl (fun m a => max m (a.id + 1)) 1, issuer := .wave, agent := s.cur, task := s.wv.task,
    ctx := s.ctxId, thread := s.fr.thread, before := s.fr.before, target := target, op := op, kind := kind,
    acquire := op.isRead && (s.order == 1 || s.order == 3) && kind != 2,
    release := op.isWrite && (s.order == 2 || s.order == 3) && kind != 2,
    scope := s.scope, pc := s.fr.pc, word := s.fr.word, lane := 0, poisoned := false, seq := 0, sent := false, failed := false,
    port := none, final := none }

/-- Remote writes, atomics and packets of a die that another chip has not acknowledged (R379). -/
def State.unacked (s : State) (die chip : Nat) : Nat :=
  s.accesses.countP (fun a => a.agent.core / 32 == die && a.target == .chip chip && a.op.isWrite)

/-- One single-copy access of an instruction (R100): where it is performed, what it does, the kind of its page. -/
structure Part where
  target : Target
  op : AccessOp
  kind : Nat
  /-- The lane that it is made for, 0 where it is made for the whole instruction. -/
  lane : Nat := 0
  deriving DecidableEq, Repr

/-- An access of a line whose save image another device has is made there (R112, R116). -/
def State.routePart (s : State) (p : Part) : Part :=
  match s.imageChip p.op with
  | some c => { p with target := .chip c, op := s.atImage p.op }
  | none => p

/-- The access goes to another chip. -/
def Part.isRemote (p : Part) : Bool :=
  match p.target with
  | .chip _ => true
  | _ => false

/-- The places an instruction touches, with where each access is performed. -/
def Part.touches (p : Part) : List (Place × Target) :=
  match p.op with
  | .store d => d.map (fun x => (x.1, p.target))
  | .load ps _ => ps.map (fun x => (x, p.target))
  | .atomic _ ps _ _ _ _ => ps.map (fun x => (x, p.target))
  | .flush ps => ps.map (fun x => (x, p.target))
  | .fence _ => []
  | .packet .. => []

/-- The other end of a die bridge: a die and its bridge, or the hub (R13). -/
def bridgeEnd (die bridge : Nat) : Option (Nat × Nat) :=
  match bridge with
  | 1 => some ((die + 4) % 8, 1)
  | 2 => if die % 4 = 0 then none else some (die - 1, 3)
  | 3 => if die % 4 = 3 then none else some (die + 1, 2)
  | _ => none

/-- A die bridge carries traffic: neither end is down (R381). -/
def State.bridgeUp (s : State) (die bridge : Nat) : Bool :=
  !s.bridgesDown.contains (die * 4 + bridge) &&
    match bridgeEnd die bridge with
    | some x => !s.bridgesDown.contains (x.1 * 4 + x.2)
    | none => true

/-- A die has no path to any other die or to the hub (R381). -/
def State.isolated (s : State) (die : Nat) : Bool := (List.range 4).all (fun b => !s.bridgeUp die b)

/-- The die where a place becomes visible, 8 for the hub (R94). -/
def placeDie (x : Place × Target) : Nat :=
  match x.2 with
  | .peer c => c / 32
  | .chip _ => 8
  | .here =>
    if x.1.isScratch then (scratchOwner x.1.key).2.1 / 32
    else if x.1.isHost then 8
    else if x.1.key < 2 ^ 41 then if x.1.home = 0 then Config.homeDie x.1.key % 8 else x.1.home - 1
    else (x.1.key - 2 ^ 41) / 2 ^ 29

/-- The one of two dies, the hub being 8, that no path joins to any other die or to the hub, where they are two (R381). -/
def State.cutBetween (s : State) (a b : Nat) : Option Nat :=
  if s.bridgesDown.isEmpty || a == b then none
  else if decide (a < 8) && s.isolated a then some a
  else if decide (b < 8) && s.isolated b then some b
  else none

/-- The die that keeps a core from a place (R381). -/
def State.cutDie (s : State) (core : Nat) (x : Place × Target) : Option Nat := s.cutBetween (core / 32) (placeDie x)

/-- The die for which accesses of an instruction of the executing fragment are held for want of a path (R381, R382). -/
def State.pathCut (s : State) (parts : List Part) : Option Nat :=
  parts.findSome? (fun p => p.touches.findSome? (s.cutDie s.cur.core))

/-- An instruction whose accesses are held for a die that is cut off: it does not issue, and once the route timeout has passed its
fragment stays suspended at it (R381, R382). -/
def State.holdCut (s : State) (die : Nat) : State :=
  if s.unreachable.contains (4096 + die) then s.setFr { s.fr with status := .unreachable (4096 + die) [] } else s.stall

/-- The accesses that must come before each part of an instruction performed; none when one of them waits for another
device (R112, R113). Log entry 4 (DEDUCED, safe). -/
def State.forceParts (s : State) : List Part → Option State
  | [] => some s
  | p :: rest =>
    match s.forceFor (s.newAccess p.target p.op p.kind) with
    | some s' => s'.forceParts rest
    | none => none

/-- There is room for the remote parts of an instruction: in the window of each pair (R379) and in the wave's
outstanding-acknowledgement counter (R113). -/
def State.remoteRoom (s : State) (parts : List Part) : Bool :=
  let rem := parts.filter Part.isRemote
  rem.all (fun p => match p.target with
    | .chip c => decide (s.unacked (s.cur.core / 32) c + rem.countP (fun q => q.target == .chip c && q.op.isWrite) ≤ 8192)
    | _ => true)
  && decide (s.wv.acks + rem.countP (fun q => !q.op.returns) ≤ 64 ∨ rem.all (fun q => q.op.returns))

/-- The access may stay on its way after its instruction: the tape defers it and its page is not strongly ordered, or it
goes to another chip. -/
def State.staysOut (s : State) (p : Part) : Bool :=
  match p.target with
  | .chip _ => true
  | .peer _ => s.deferring
  | .here => s.deferring && p.kind != 1

/-- The next sequence number of a die and a chip taken (R379). -/
def State.takeSeq (s : State) (die chip : Nat) : State × Nat :=
  let k := die * 4096 + chip
  let n := getAt 0 s.sendSeq k
  ({ s with sendSeq := putAt s.sendSeq k ((n + 1) % 2 ^ 32) }, n)

/-- The port that leads to a chip: the first, in the order of the route table, that is up (R366, R380). -/
def State.portTo (s : State) (chip : Nat) : Option Nat := (getAt [] s.routes chip).find? (fun p => !s.portsDown.contains p)

/-- The first byte that an access touches, and the bytes from it to the last. -/
def AccessOp.extent (o : AccessOp) : Nat × Nat :=
  let lo := o.keys.foldl min (o.keys.headD 0)
  (lo, o.keys.foldl max lo + 1 - lo)

/-- What the request of an access asks for, its places in rising order from the first, and poison that goes with what it writes
(R112, R268). -/
def AccessOp.remote (o : AccessOp) (poisoned : Bool) : RemoteOp :=
  match o with
  | .store d => .write ((upFrom o.extent.1 o.extent.2).map (byteAt d)) poisoned
  | .atomic op ps x y ret _ => .atomic op ps.length x y ret
  | _ => .read o.extent.2

/-- Bytes that the answer to the request of an access brings. Log entry 85 (DESIGN CHOICE, unsafe). -/
def AccessOp.answerSize (o : AccessOp) : Nat :=
  match o with
  | .load .. => o.extent.2
  | .atomic _ ps _ _ ret _ => if ret then ps.length else 0
  | _ => 0

/-- The request of an access as it leaves for another chip (R112, R379). -/
def Access.request (a : Access) (chip : Nat) : Reply :=
  .request chip (a.agent.core / 32) a.port (if a.op.isWrite then some a.seq else none) (a.op.extent.1 % 2 ^ 42)
    ((a.op.places.map (·.keyId)).headD 0) (a.op.remote a.poisoned)

/-- An access put on the list. -/
def State.listAccess (s : State) (a : Access) : State := { s with accesses := s.accesses ++ [a] }

/-- An access to another chip leaves, its place on the list being its caller's to give: a write or an atomic takes a sequence number
(R379), and its request leaves through the port that leads there, or waits for a route (R382). -/
def State.putOut (s : State) (a : Access) (chip : Nat) : State × Access :=
  let (s1, n) := if a.op.isWrite then s.takeSeq (a.agent.core / 32) chip else (s, 0)
  let b := { a with seq := n, sent := true, port := s.portTo chip }
  (if b.port.isSome && !b.op.isPacket then { s1 with replies := s1.replies ++ [b.request chip] } else s1, b)

/-- The issuer is the device as it saves or restores a context. -/
def Issuer.isSave (i : Issuer) : Bool :=
  match i with
  | .frontEnd (.save _) => true
  | _ => false

/-- An access reaches bytes of a save image at another device that the device is writing there, or is reading back: it is held until
that is over (R116). -/
def State.imageBusy (s : State) (a : Access) : Bool :=
  a.isRemote && !a.issuer.isSave &&
    (s.accesses.any (fun b => b.issuer.isSave && b.target == a.target && b.overlaps a)
      || s.fetched.any (fun x => x.issuer.isSave && a.target == .chip x.chip && a.op.keys.contains x.key))

/-- An access put on its way. -/
def State.sendAccess (s : State) (a : Access) : State :=
  match a.target with
  | .chip c =>
    if s.imageBusy a then s.listAccess a
    else
      let (t, b) := s.putOut a c
      t.listAccess b
  | _ => s.listAccess a

/-- An access is performed after an earlier one of its instruction: they touch the same bytes, or both are strongly ordered (R101,
R104, R180, R183). -/
def Access.behind (b a : Access) : Bool := a.inOrder b && (a.overlaps b || (a.kind == 1 && b.kind == 1))

/-- Accesses to other chips that were held behind earlier ones, or for a save image, sent once those are over (R112, R116, R180). -/
def State.sendHeld (s : State) : State :=
  s.accesses.foldl (fun t a =>
    match a.target with
    | .chip c =>
      if a.sent || t.accesses.any (fun b => decide (b.id < a.id) && a.behind b) || t.imageBusy a then t
      else
        let (u, b) := t.putOut a c
        { u with accesses := u.accesses.map (fun x => if x.id = a.id then b else x) }
    | _ => t) s

/-- One part of an instruction issued: performed, or put on the list of accesses on their way; `waits` says that the fragment waits
for the answers of its instruction, and an access whose answer it waits for is marked sent, as is one to another chip. An earlier
part of the instruction that must come before is performed first, and one to another chip behind such a part is held until that has
been answered (R101, R104, R180, R183). -/
def State.issuePart (waits : Bool) (s : State) (part : Part) : State :=
  let p := s.routePart part
  let a := { s.newAccess p.target p.op p.kind with lane := p.lane, sent := waits && !p.isRemote && p.op.returns }
  let count (t : State) : State :=
    if p.isRemote && !p.op.returns then t.setWv { t.wv with acks := t.wv.acks + 1 } else t
  match s.forceAll (s.accesses.filter a.behind) with
  | none => count (s.listAccess a)
  | some t => if t.staysOut p then count (t.sendAccess a) else t.performOp a

/-- What stops an instruction once the accesses before it have been performed: a returning access that finds its scratchpad
line released, or a read of a poisoned sector (R95, R176, R202). -/
def State.badPart (s : State) (parts : List Part) : Option State :=
  match parts.find? (fun p => p.op.returns && !p.op.keys.all s.linePinned && !p.op.keys.any s.lineLost) with
  | some p => some (s.suspend s.cur causePROT 4 p.op.code (s.goneVa p.op.places))
  | none =>
    if s.mem.poison.isEmpty then none
    else
      let bad (x : Place) : Bool := s.mem.poisoned (s.imagePlace x).key
      (parts.find? (fun p => p.op.isRead && !p.isRemote && p.op.places.any bad)).map (fun p =>
        s.trap causePOISON (((p.op.places.find? bad).map (·.va)).getD 0 &&& ~~~(127 : Word)) p.lane 0)

/-- Performing earlier accesses has stopped the executing fragment, or has taken it into a trap, before its instruction. -/
def State.movedOn (s before : State) : Bool := s.fr.status != before.fr.status || s.fr.pc != before.fr.pc

/-- The instruction has issued and its fragment is at the next one. -/
def State.wentOn (s before : State) : Bool :=
  !s.stalled && s.fr.status == before.fr.status && s.fr.pc == before.fr.pc + 4 && s.wv.handler == before.wv.handler

/-! ## Bytes of other devices that instructions and engines read and write (R112 to R114) -/

/-- Who makes the accesses of an engine, or of an instruction that reads bytes for an engine: see `Access`. -/
structure Owner where
  issuer : Issuer
  agent : FragId
  task : Nat
  ctx : Nat
  pc : Word
  thread : Nat
  before : List Nat
  deriving DecidableEq, Repr

/-- The agents of the device that belong to no core, in a context. -/
def hubOwner (issuer : Issuer) (ctx : Nat) : Owner :=
  { issuer := issuer, agent := { core := hubCore, wave := 0, frag := 0 }, task := 0, ctx := ctx, pc := 0,
    thread := 0, before := [] }

/-- The executing fragment. -/
def State.waveOwner (s : State) : Owner :=
  { issuer := .wave, agent := s.cur, task := s.wv.task, ctx := s.ctxId, pc := s.fr.pc, thread := s.fr.thread,
    before := s.fr.before }

/-- An access is one of an owner's. -/
def Access.of (a : Access) (o : Owner) : Bool := a.issuer == o.issuer && a.agent == o.agent && a.task == o.task

/-- A byte that has come back is an owner's. -/
def Fetched.of (x : Fetched) (o : Owner) : Bool := x.issuer == o.issuer && x.agent == o.agent && x.task == o.task

/-- The byte of a place of another chip that an owner has read. -/
def State.fetchedAt (s : State) (o : Owner) (chip key : Nat) : Option Fetched :=
  s.fetched.find? (fun x => x.of o && x.chip == chip && x.key == key)

/-- A byte as an engine reads it: memory's by `read`, or what has come back from another device. -/
def State.engineByte (s : State) (o : Owner) (read : Place → Byte) (x : Place × Target) : Byte :=
  match x.2 with
  | .chip c => match s.fetchedAt o c x.1.key with
    | some y => y.byte
    | none => Config.remoteByte s.fresh x.1.key
  | _ => read x.1

/-- A byte that an engine reads is poisoned, where it is read (R202). -/
def State.enginePoison (s : State) (o : Owner) (x : Place × Target) : Bool :=
  match x.2 with
  | .chip c => match s.fetchedAt o c x.1.key with
    | some y => y.poisoned
    | none => false
  | _ => s.mem.poisoned x.1.key

/-- Bytes of other devices among some places that an owner has not read, and that no access of its own is out for. -/
def State.unread (s : State) (o : Owner) (xs : List (Place × Target)) : List (Nat × Place) :=
  xs.filterMap (fun x => match x.2 with
    | .chip c =>
      if (s.fetchedAt o c x.1.key).isSome then none
      else if s.accesses.any (fun a => a.of o && a.target == .chip c && a.op.dest == .fetch && a.op.keys.contains x.1.key) then none
      else some (c, x.1)
    | _ => none)

/-- Bytes of other devices that an owner has asked for are still on their way. -/
def State.fetchOut (s : State) (o : Owner) : Bool := s.accesses.any (fun a => a.of o && a.op.dest == .fetch)

/-- Every byte of other devices among some places has come back. -/
def State.allFetched (s : State) (o : Owner) (xs : List (Place × Target)) : Bool :=
  (s.unread o xs).isEmpty && !s.fetchOut o

/-- The number of the next access. -/
def State.nextAccess (s : State) : Nat := s.accesses.foldl (fun m a => max m (a.id + 1)) 1

/-- An access of an engine, unordered but for what its engine keeps (R110). -/
def State.engineAccess (s : State) (o : Owner) (chip : Nat) (op : AccessOp) : Access :=
  { id := s.nextAccess, issuer := o.issuer, agent := o.agent, task := o.task, ctx := o.ctx, thread := o.thread,
    before := o.before,
    target := .chip chip, op := op, kind := 0, acquire := false, release := false, scope := 0, pc := o.pc, word := 0, lane := 0,
    poisoned := false, seq := 0, sent := false, failed := false, port := none, final := none }

/-- Reads of bytes of other devices sent, one for each sector (R100, R112). -/
def State.askFor (s : State) (o : Owner) (xs : List (Place × Target)) : State :=
  let need := s.unread o xs
  let secs := need.foldl (fun acc x => if acc.contains (x.1, sectorOf x.2.key) then acc else acc ++ [(x.1, sectorOf x.2.key)]) []
  secs.foldl (fun t q =>
    let ps := (need.filter (fun x => x.1 == q.1 && sectorOf x.2.key == q.2)).map (·.2)
    t.sendAccess (t.engineAccess o q.1 (.load (ps.foldl (fun acc p => if acc.contains p then acc else acc ++ [p]) []) .fetch))) s

/-- What an owner has read of other devices used up. -/
def State.dropFetched (s : State) (o : Owner) : State :=
  if s.fetched.isEmpty then s else { s with fetched := s.fetched.filter (fun x => !x.of o) }

/-- The executing fragment waits for bytes of other devices that its instruction reads, once the accesses before it allow
that, and issues the instruction again when they have come (R112). -/
def State.awaitFetch (s : State) (xs : List (Place × Target)) : State :=
  match s.forceParts ((xs.filter (fun x => match x.2 with
      | .chip _ => true
      | _ => false)).map (fun x => { target := x.2, op := .load [x.1] .none, kind := x.1.kind })) with
  | none => s.stall
  | some s1 =>
    if s1.movedOn s then s1
    else
      let t := s1.askFor s1.waveOwner xs
      t.setFr { t.fr with status := .fetching }

/-! ## The accesses of an instruction -/

/-- The bytes of another device that an atomic works on. -/
def Part.awayAtomic (p : Part) : List (Place × Target) :=
  if p.isRemote && p.op.isRead && p.op.isWrite then p.touches else []

/-- Where the remote atomics of an instruction that makes several accesses are performed: their sectors are read first, so that poison
is met before any access of the instruction has been performed (R176, R202). Log entry 94 (DEDUCED, unsafe). -/
def atomicsAway (parts : List Part) : List (Place × Target) :=
  if parts.length ≤ 1 then [] else parts.flatMap Part.awayAtomic

/-- Accesses of an instruction for whose answers its fragment waits: those of another device, those of a peer's scratchpad that stay
out, and those of its own scratch window, so that a line that `unpin` takes away finds the fragment still at its instruction (R95,
R112, R190). -/
def State.waitsFor (s : State) (p : Part) : Bool :=
  p.op.returns && (p.isRemote || (s.staysOut p && (p.target != .here || p.op.keys.any (fun k => decide (scratchBase ≤ k)))))

/-- The parts of an instruction issued outside an attempt, in order, once nothing stops it (R99, R104). The fragment goes on, but
behind an access that answers with a value from elsewhere it waits for the answer. -/
def State.sendParts (s : State) (parts : List Part) : State :=
  let waits := parts.any s.waitsFor
  let s1 := if waits then s.setFr { s.fr with status := .awaiting 0 [] } else s
  let s2 := parts.foldl (State.issuePart waits) s1
  match s2.fr.status with
  | .awaiting _ got =>
    match s2.accesses.find? (fun b => b.awaitedBy s.cur) with
    | some b => s2.setFr { s2.fr with status := .awaiting b.id got }
    | none => (got.foldl (fun t x => t.deliver s.cur x.1 x.2) (s2.setFr { s2.fr with status := .ready })).advance
  | .ready => s2.advance
  | _ => s2

/-- The parts of an instruction issued outside an attempt (R99, R104, R112, R113). Where one must wait for another device, or there
is no room for it, the instruction does not issue; where one cannot be performed, or reads poison, none is (R95, R176, R202). -/
def State.issueParts (s : State) (asked : List Part) : State :=
  let parts := asked.map s.routePart
  let away := atomicsAway parts
  if !s.allFetched s.waveOwner away then s.awaitFetch away
  else match s.forceParts parts with
    | none => s.stall
    | some s1 =>
      if s1.movedOn s then s1
      else if !s1.remoteRoom parts then s.stall
      else match s.pathCut parts, s1.badPart parts, parts.find? (fun p => p.awayAtomic.any (s1.enginePoison s1.waveOwner)) with
        | some die, _, _ => s.holdCut die
        | none, some t, _ => t
        | none, none, some p => s1.trap causePOISON (((p.op.places.headD (plainPlace 0 0)).va) &&& ~~~(127 : Word)) p.lane 0
        | none, none, none => s1.sendParts parts

/-- The effect of one access inside an attempt once its conflicts and reads are settled (R214): the second part is false
when the attempt ended for want of room. An atomic that stores nothing puts its sector in the write set all the same. -/
def State.txPart (s : State) (p : Part) : State × Bool :=
  match p.op with
  | .fence _ => (s, true)
  | .packet .. => (s, true)
  | .flush _ => (s, true)
  | .load ps dst => (s.deliver s.cur dst (dst.split (ps.map s.readByte)) true, true)
  | .store data => s.addWrites data (((sectorsOf (data.map (·.1))).map (·.2)).headD 0)
  | .atomic op ps x y ret dst =>
    let old := ofBytes (ps.map s.readByte)
    let s1 := if ret then s.deliver s.cur dst [old] true else s
    let va := ((sectorsOf ps).map (·.2)).headD 0
    match atomicValue op (8 * ps.length) old (cutWord ps.length x) (cutWord ps.length y) with
    | none => s1.growWrites (ps.map (fun q => { place := q, byte := none })) va
    | some v => s1.addWrites (ps.zip (toBytes ps.length v)) va

/-- The parts of an instruction inside an attempt, in order. -/
def State.txParts (s : State) : List Part → State
  | [] => s.advance
  | p :: rest =>
    let (s', ok) := s.txPart p
    if ok then s'.txParts rest else s'

/-- Earlier accesses of the executing fragment's program order that touch the same bytes as accesses of its attempt performed first
(R101, R217, R218); inside an attempt MR orders nothing (R218). -/
def State.forceTx (s : State) (parts : List Part) : Option State := s.forceParts (parts.map (fun p => { p with kind := 2 }))

/-- What an instruction inside an attempt does once the accesses before it have been performed: its conflicts, the read set, and the
accesses themselves (R214 to R216). A conflict is settled before room is looked for: an access that then finds none is not
performed, and a younger rival has been abandoned for it. Log entry 97 (DESIGN CHOICE, unsafe). -/
def State.txPerform (s : State) (parts : List Part) : State :=
  let secs := sectorsOf ((parts.flatMap Part.touches).map (·.1))
  let (s1, ok) := s.txConflict secs (parts.any (fun p => p.op.isWrite))
  if !ok then s1
  else
    let (s2, ok2) := s1.addReads (if parts.any (fun p => p.op.isRead) then secs else [])
    if !ok2 then s2
    else
      let s3 := s2.txParts parts
      if s2.mem.poison.isEmpty || !s3.inTx then s3
      else match parts.find? (fun p => p.op.isRead && p.op.places.any s2.txPoisoned) with
        | some p =>
          s2.trap causePOISON (((p.op.places.find? s2.txPoisoned).map (·.va)).getD 0 &&& ~~~(127 : Word)) p.lane 0
        | none => s3

/-- An instruction goes on once what must be performed before it has been: it waits where that needs another device, and does
not issue where that has stopped its fragment. -/
def State.after (s : State) (forced : Option State) (go : State → State) : State :=
  match forced with
  | none => s.stall
  | some t => if t.movedOn s then t else go t

/-- The accesses of an instruction inside an attempt (R214 to R216, R219): none is performed where one is not allowed, loses
a conflict or finds no room, and otherwise POISON is raised by a read of a poisoned sector (R202). -/
def State.txIssue (s : State) (parts : List Part) : State :=
  match (parts.flatMap Part.touches).find? txForbidden with
  | some x => s.abandonHere 6 0 x.1.va
  | none =>
    match s.pathCut parts with
    | some die => s.holdCut die
    | none => s.after (s.forceTx parts) (fun t => t.txPerform parts)

/-- The accesses of an instruction of the executing fragment. -/
def State.access (s : State) (parts : List Part) : State := if s.inTx then s.txIssue parts else s.issueParts parts

/-! ## Writes of engines (R99, R112 to R114) -/

/-- There is room in the window of a die and a chip for a write of an engine (R379). -/
def State.windowRoom (s : State) (core : Nat) (x : Target) : Bool :=
  match x with
  | .chip c => decide (s.unacked (core / 32) c < 8192)
  | _ => true

/-- Bytes written by an engine: at home, in another core's scratchpad, or sent to another device with a sequence number and
counted until they are acknowledged, with the poison of what they were read from (R99, R112 to R114, R268, R379); bytes for a lost
slot are discarded (R117). -/
def State.engineStore (s : State) (o : Owner) (x : Target) (data : List (Place × Byte)) (poisoned : Bool := false) : State :=
  if data.isEmpty then s
  else match x with
    | .chip c => s.sendAccess { s.engineAccess o c (.store data) with poisoned := poisoned }
    | _ =>
      let kept := data.filter (fun d => !s.lineLost d.1.key)
      match s.imageChip (.store kept) with
      | some c => s.sendAccess { s.engineAccess o c (s.atImage (.store kept)) with poisoned := poisoned }
      | none => s.storeBytes none (kept.map (fun d => (s.imagePlace d.1, d.2)))

/-- Writes of an owner that another device has not acknowledged (R113). -/
def State.writesOut (s : State) (o : Owner) : Bool := s.accesses.any (fun a => a.of o && a.isRemote && a.op.isWrite)

/-! ## What agents that belong to no core wait for (R112, R388) -/

/-- Why an agent that belongs to no core does not make an access yet, or at all: a failing translation or poison, by cause, detail
and address; a page that the host has refused it; a host page whose translation it asks for; bytes of another device that it asks
for. -/
inductive HubStop where
  | fault (cause detail va : Nat)
  | refused
  | page (page : Nat) (va : Word)
  | fetch (xs : List (Place × Target))

/-- The access is one that fails. -/
def HubStop.fails (e : HubStop) : Bool :=
  match e with
  | .fault .. => true
  | .refused => true
  | .page .. => false
  | .fetch _ => false

/-- The agent that makes accesses for an asker in a context. -/
def AskOwner.owner (who : AskOwner) (ctx : Nat) : Owner :=
  match who with
  | .spill q => hubOwner (.queue q) ctx
  | _ => hubOwner (.frontEnd who) ctx

/-- The host has refused an asker a page. -/
def State.askRefused (s : State) (who : AskOwner) (page : Nat) : Bool :=
  s.asks.any (fun a => a.owner == who && a.page == page && a.refused)

/-- The translation of a host page is not held yet: an asker asks for it, or has been refused it (R388). -/
def State.pageStop (s : State) (who : AskOwner) (x : Place × Target) : Option HubStop :=
  if x.1.isHost && x.2 == .here && !s.ats.contains (hostPage x.1) then
    some (if s.askRefused who (hostPage x.1) then .refused else .page (hostPage x.1) x.1.va)
  else none

/-- What an access that waits asks for: a page of the host, or bytes of another device (R112, R388). -/
def State.askHub (s : State) (who : AskOwner) (ctx access : Nat) (e : HubStop) : State :=
  match e with
  | .page p va =>
    if s.asks.any (fun a => a.owner == who && a.page == p) then s
    else { s with asks := s.asks ++ [{ owner := who, ctx := ctx, page := p, access := access, va := va, refused := false }] }
  | .fetch xs => s.askFor (who.owner ctx) xs
  | _ => s

/-! ## Poison marks (R202) -/

/-- The sector of a place marked poisoned. Reads of it on their way are performed before, so that none of them meets the mark
after its instruction (R11, R202). Log entry 72 (DEDUCED, unsafe). -/
def State.poisonSector (s : State) (p : Place) : State :=
  let reads := s.accesses.filter (fun a => a.ofWave && a.op.isRead && !a.isRemote
    && (s.redirect a.op).keys.any (fun k => sectorOf k == sectorOf p.key))
  let s1 := s.settle reads
  if s1.mem.poisoned p.key then s1 else { s1 with mem := { s1.mem with poison := s1.mem.poison ++ [sectorOf p.key] } }

/-- A PCIe AtomicOp exists for the atomic (R115). Log entry 34 (DEDUCED, unsafe). -/
def hostAtomicOk (op : AtomicOp) : Bool := op == .add || op == .xchg || op == .cas

/-- The first of some places whose sector is poisoned (R202). -/
def State.poisonAt (s : State) (ps : List Place) : Option Place :=
  if s.mem.poison.isEmpty then none else ps.find? (fun p => s.mem.poisoned p.key)

/-- POISON at a place of a lane (R202). -/
def State.trapPoison (s : State) (p : Place) (lane : Nat) : State :=
  s.trap causePOISON (p.va &&& ~~~(127 : Word)) lane 0

/-! ## Bytes that an instruction reads at once -/

/-- Pieces of a size, whole sectors or halves of them, read at once by an instruction of the executing wave, from their first
places (R112, R181, R202, R219): the state and the bytes, or the state in which the instruction does not go on. -/
def State.waveBytes (s : State) (firsts : List (Place × Target)) (size : Nat := 128) : Except State (State × List Byte) :=
  let xs := firsts.flatMap (fun x => (placesFrom x.1 size).map (fun p => (p, x.2)))
  let parts := firsts.map (fun x => { target := x.2, op := .load (placesFrom x.1 size) .none, kind := x.1.kind })
  match firsts.find? (fun x => s.inTx && txForbidden x), s.pathCut parts with
  | some x, _ => .error (s.abandonHere 6 0 x.1.va)
  | none, some die => .error (s.holdCut die)
  | none, none =>
    if s.inTx then
      match s.forceTx parts with
      | none => .error s.stall
      | some s0 =>
        if s0.movedOn s then .error s0
        else
          let secs := sectorsOf (xs.map (·.1))
          let (s1, ok) := s0.txConflict secs false
          if !ok then .error s1
          else
            let (s2, ok2) := s1.addReads secs
            if !ok2 then .error s2
            else match xs.find? (fun x => s2.txPoisoned x.1) with
              | some x => .error (s2.trapPoison x.1 0)
              | none => .ok (s2, xs.map (fun x => s2.readByte x.1))
    else if !s.allFetched s.waveOwner xs then .error (s.awaitFetch xs)
    else match s.forceParts parts with
      | none => .error s.stall
      | some s1 =>
        if s1.movedOn s then .error s1
        else match s1.badPart parts, xs.find? (s1.enginePoison s1.waveOwner) with
          | some t, _ => .error t
          | none, some x => .error (s1.trapPoison x.1 0)
          | none, none => .ok (s1, xs.map (s1.engineByte s1.waveOwner s1.readByte))

/-- 128 bytes read by the executing wave (R181): the state and the bytes, or the state in which it does not go on. -/
def State.waveRead (s : State) (va : Word) : Except State (State × List Byte) :=
  match s.xlateAll [va] .read with
  | .error t => .error t
  | .ok xs => s.waveBytes xs

end Sys2Proof.Machine
end

