-- ==== Sys2Proof/Machine/Events.lean ====
section
/-! DEFINITION. Events of the front end: the event ring, the status block, the MSI-X message that falls due, and the
queue a context's records and events go to (R391, R397, R398, R417). -/

namespace Sys2Proof.Machine

/-- A host queue by its number. -/
def State.hq (s : State) (q : Nat) : HostQueue := getAt HostQueue.reset s.hostQueues q
/-- The state with a host queue replaced. -/
def State.setHq (s : State) (q : Nat) (x : HostQueue) : State := { s with hostQueues := putAt s.hostQueues q x }

/-- Bytes of host memory written by the front end (R397). Log entry 29 (DESIGN CHOICE, unsafe). -/
def State.hostWrite (s : State) (addr : Nat) (data : List Byte) : State :=
  s.storeBytes none ((upFrom (hostBase + addr % hostBase) data.length).map (fun k => plainPlace k 0) |>.zip data)

/-- Bytes of host memory read by the front end. Log entry 29 (DESIGN CHOICE, unsafe). -/
def State.hostRead (s : State) (addr n : Nat) : List Byte := s.mem.readRaw (hostBase + addr % hostBase) 0 n

/-- 64-bit words as bytes. -/
def wordBytes (ws : List Word) : List Byte := ws.flatMap (fun w => toBytes 8 w.toNat)

/-- Bytes as 64-bit words, `n` of them. -/
def wordsOf (bytes : List Byte) (n : Nat) : List Word :=
  (List.range n).map (fun i => BitVec.ofNat 64 (ofBytes ((bytes.drop (8 * i)).take 8)))

/-- HQ_STATE (R398). -/
def HostQueue.stateWord (h : HostQueue) : Word :=
  BitVec.ofNat 64 (h.ctx * 2 ^ 32 + h.logN * 2 ^ 8 + (if h.throttled then 8 else 0) + h.st)

/-- The operators of a graph that is installed. -/
def State.graphOps (s : State) (ctx graph : Nat) : List Nat :=
  (s.operators.filter (fun x => x.2.ctx == ctx && x.2.graph == graph && !x.2.removed)).map (·.1)

/-- A REMOVE that has begun is given up: the slots of its graph are as before (R398, R405). -/
def State.stayGraph (s : State) (ctx graph : Nat) : State :=
  let ops := s.graphOps ctx graph
  { s with
    operators := mapTab (fun k o => if ops.contains k then { o with leaving := false } else o) s.operators
    seats := mapTab (fun k q =>
      if ops.contains (k / 256) ∧ q.state = .draining ∧ (s.ctxOf ctx).state = .active then { q with state := .installed } else q) s.seats }

/-! ## Commands given up (R398, R405) -/

/-- An asker of the front end is done: its page requests and what it has read of other devices are given up. -/
def State.endAsk (s : State) (who : AskOwner) : State :=
  { s with
    asks := s.asks.filter (fun a => a.owner != who)
    fetched := s.fetched.filter (fun x => x.issuer != .frontEnd who) }

/-- What a command of a queue that has begun and not completed has brought about is undone, and what it waits for is given up: it
has had no effect (R398, R405). Log entry 37 (DEDUCED, unsafe). -/
def State.dropBegun (s : State) (q : Nat) : State :=
  let w (i : Nat) : Word := (s.hq q).begun.getD i 0
  let x := fieldOf (w 2) 15 0
  let s1 := match fieldOf (w 1) 7 0 with
    | 0x05 => if (findAt s.contexts x).isSome then s.setCtx x { s.ctxOf x with frozen := false } else s
    | 0x08 => s.stayGraph (fieldOf (w 1) 47 32) x
    | _ => s
  let out := s1.launches.filter (fun l => !l.started && l.queue == q)
  let s2 := out.foldl (fun t l => t.endAsk (.launch l.id)) { s1 with launches := s1.launches.filter (fun l => l.started || l.queue != q) }
  (s2.endAsk (.queue q)).setHq q { s2.hq q with begun := [] }

/-- A queue stopped in a state (R398). -/
def State.stopQueue (s : State) (q st : Nat) : State :=
  let s1 := s.dropBegun q
  s1.setHq q { s1.hq q with st := st }

/-! ## Events (R397) -/

/-- The status block written, and the MSI-X message due; a write that fails stops the queue (R397). -/
def State.writeStatus (s : State) (q : Nat) : State :=
  let h := s.hq q
  if !s.hostWorks then s.stopQueue q 5
  else
    let s1 := s.hostWrite h.stbBase (wordBytes [BitVec.ofNat 64 h.cons, BitVec.ofNat 64 h.evPost, h.stateWord])
    if s1.msixDue.contains h.vector then s1 else { s1 with msixDue := s1.msixDue ++ [h.vector] }

/-- An event written into a ring that has room, words 1 to 7 being given (R397). -/
def State.writeEvent (s : State) (q : Nat) (ws : List Word) : State :=
  let h := s.hq q
  let seq := h.evPost + 1
  if !s.hostWorks then (s.setHq q { h with held := h.held ++ [ws] }).stopQueue q 5
  else
    let s1 := s.hostWrite (h.evBase + 64 * (seq % 2 ^ h.logM)) (wordBytes (BitVec.ofNat 64 seq :: ws))
    s1.setHq q { s1.hq q with evPost := seq }

/-- The ring has room for the next event (R397). -/
def HostQueue.hasRoom (h : HostQueue) : Bool := decide (h.evPost + 1 ≤ h.evHead + 2 ^ h.logM)

/-- Events are written to the queue: it runs, or has stopped without a failed write (R396, R398). -/
def HostQueue.takesEvents (h : HostQueue) : Bool := h.st == 1 || h.st == 3 || h.st == 4

/-- An event posted: written with the status block after it, or held while the ring is full, the queue does not take events or the
firmware pair resets (R397, R405). -/
def State.postEvent (s : State) (q : Nat) (ws : List Word) : State :=
  let h := s.hq q
  if h.held.isEmpty && h.hasRoom && h.takesEvents && !s.ras.recovering then (s.writeEvent q ws).writeStatus q
  else s.setHq q { h with held := h.held ++ [ws] }

/-- Held events written as long as the ring has room; a write that fails stops the queue (R397). -/
def State.flushEvents (s : State) (q : Nat) : List (List Word) → State
  | [] => s
  | ws :: rest =>
    if !((s.hq q).hasRoom && (s.hq q).takesEvents) then s
    else if !s.hostWorks then s.stopQueue q 5
    else
      let s1 := s.setHq q { s.hq q with held := rest }
      ((s1.writeEvent q ws).writeStatus q).flushEvents q rest

/-- Word 1 of an event (R397). -/
def eventWord1 (core ctx detail cause kind : Nat) : Word :=
  BitVec.ofNat 64 (core % 65536 * 2 ^ 48 + ctx % 65536 * 2 ^ 32 + detail % 65536 * 2 ^ 16 + cause % 256 * 2 ^ 8 + kind)

/-- The queue that a context's records and events go to (R417). Log entry 17 (DESIGN CHOICE, unsafe). -/
def State.faultQueue (s : State) (ctx : Nat) : Nat :=
  ((s.hostQueues.find? (fun x => x.2.ctx == ctx && x.2.st == 1)).map (·.1)).getD 0

/-- An event of a context posted: words 1 to 7 from the fields of R397. Log entry 16 (DESIGN CHOICE, safe). -/
def State.contextEvent (s : State) (ctx core detail cause kind : Nat) (rest : List Word) : State :=
  s.postEvent (s.faultQueue ctx) ((eventWord1 core ctx detail cause kind :: rest ++ List.replicate 6 0).take 7)

/-- The words 1 to 7 of a record's event (R417). -/
def FaultRecord.words (r : FaultRecord) : List Word :=
  [eventWord1 r.core r.ctx r.detail r.cause 2, r.va, BitVec.ofNat 64 r.id,
   BitVec.ofNat 64 (r.suspended.length % 65536 * 2 ^ 48
     + ((r.suspended.headD { core := 0, wave := r.wave, frag := r.frag }).frag) * 2 ^ 40
     + ((r.suspended.headD { core := 0, wave := r.wave, frag := r.frag }).wave) * 2 ^ 32
     + r.task % 65536 * 2 ^ 16 + r.slot % 256),
   r.pc, BitVec.ofNat 64 (r.access + r.agent * 2 ^ 8 + r.more6), BitVec.ofNat 64 r.word7]

end Sys2Proof.Machine
end

