-- ==== Sys2Proof/Machine/Fragments.lean ====
section
/-! DEFINITION. Fragments: making one, the divergence stack, the merge and the wait at a `reconv` and its release
(R126 to R132). -/

namespace Sys2Proof.Machine

/-! ## Threads: the lines of program order that splits and merges make -/

/-- A number that no line of program order has yet. -/
def State.nextThread (s : State) : Nat :=
  (s.frags.foldl (fun m x => max m (x.2.before.foldl max x.2.thread)) 0) + 1 +
    s.accesses.foldl (fun m a => max m a.thread) 0

/-! ## Room for a fragment (R127) -/

/-- Fragments of a core beyond one of each wave: those that use a shared file. The one that is left of a wave is taken to use the
wave's own file, whichever it is. Log entry 93 (DESIGN CHOICE, unsafe). -/
def State.sharedFiles (s : State) (core : Nat) : Nat :=
  (s.waves.filter (fun x => x.1 / 64 == core)).foldl (fun n x => n + ((s.fragsOf core (x.1 % 64)).length - 1)) 0

/-- How many new fragments the executing fragment can make (R127). -/
def State.fragmentRoom (s : State) : Nat :=
  if s.inTx then 0
  else min (8 - (s.fragsOf s.cur.core s.cur.wave).length) (128 - s.sharedFiles s.cur.core)

/-- A fragment of the executing wave by its id. -/
def State.mate (s : State) (k : Nat) : FragId := { s.cur with frag := k }

/-- A new fragment of the executing wave on the lowest free id, with lanes and program counter of its own and copies of
the rest (R126); both lines of program order go on from the present one. Its age stamp, attempt count and the state of its last
attempt (R204) begin as at reset, with no attempt behind them. Log entry 77 (DESIGN CHOICE, unsafe). -/
def State.newFragment (s : State) (lanes : Lane) (pc : Word) : State :=
  match firstFree 8 (s.fragsOf s.cur.core s.cur.wave) with
  | none => s
  | some k =>
    let f := s.fr
    let t := s.nextThread
    let past := f.thread :: f.before
    let child : Frag := { Frag.reset with
      pc := pc, lmask := lanes, mr := f.mr, depth := f.depth, s := f.s, p := f.p, thread := t + 1, before := past,
      word := f.word }
    (s.setFr { f with thread := t, before := past }).setFrOf (s.mate k) child

/-! ## The divergence stack (R128) -/

/-- The entries of a fragment, newest first. -/
def Wave.entriesOf (w : Wave) (k : Nat) : List StackEntry := w.stack.filter (fun e => e.owner == k)

/-- An entry pushed, with the next number of its wave. -/
def Wave.push (w : Wave) (e : StackEntry) : Wave :=
  { w with stack := { e with num := w.pushes } :: w.stack, pushes := w.pushes + 1 }

/-- The newest entry of a fragment removed from a stack. -/
def dropTop (k : Nat) : List StackEntry → List StackEntry
  | [] => []
  | e :: r => if e.owner == k then r else e :: dropTop k r

/-- The newest entry of a fragment popped. -/
def Wave.pop (w : Wave) (k : Nat) : Wave := { w with stack := dropTop k w.stack }

/-- Lanes of the executing fragment put off as a pending entry (R128). -/
def State.pushPending (s : State) (lanes : Lane) (pc : Word) : State :=
  s.setWv (s.wv.push {
    num := 0, owner := s.cur.frag, parked := none, lmask := lanes, pc := pc, depth := s.fr.depth, mr := s.fr.mr })

/-! ## reconv (R130) -/

/-- A fragment is runnable: neither waiting at a `reconv`, asleep, suspended, held nor stopped behind a trap handler.
One in the back-off of R223 or R225 does not sleep. -/
def State.runnable (s : State) (f : FragId) : Bool :=
  let w := s.wvOf f
  let st := match (s.frOf f).status with
    | .ready => true
    | .awaiting .. => true
    | .fetching => true
    | .backoff .. => true
    | _ => false
  st && w.holds.isEmpty && (w.handler.isNone || w.handler == some f.frag)

/-- A fragment waits at a `reconv`. -/
def Frag.waiting (f : Frag) : Bool :=
  match f.status with
  | .atReconv _ => true
  | _ => false

/-- A fragment waits at a `reconv` with the id given. -/
def Frag.waitsAt (f : Frag) (rid : Nat) : Bool :=
  match f.status with
  | .atReconv i => i == rid
  | _ => false

/-- `lr` of a fragment (R79). -/
def Frag.lr (f : Frag) : Word := f.getS 62

/-- The top entry of the executing fragment popped and its lanes joined, where it is parked with an equal key (R130, first
row): one entry, whatever lies under it. -/
def State.joinParked (s : State) (rid : Nat) : State :=
  match s.wv.entriesOf s.cur.frag with
  | [] => s
  | e :: _ =>
    if e.parked = some (rid, s.fr.lr) ∧ e.depth = s.fr.depth then
      (s.setWv (s.wv.pop s.cur.frag)).setFr { s.fr with lmask := s.fr.lmask ||| e.lmask }
    else s

/-- The lowest lane of a mask. -/
def lowestLane (m : Lane) : Nat := (lanesOf m).headD 32

/-- The predicates after a merge: each lane's bit from the fragment that held it, else the leader's (R126). -/
def mergePreds (leader : Frag) (fs : List Frag) : Vector Lane 8 :=
  Vector.ofFn (fun i => fs.foldl (fun acc f => (acc &&& ~~~f.lmask) ||| (f.p[i] &&& f.lmask)) leader.p[i])

/-- The fragments of the executing wave with the ids given merged with the executing one (R126): the survivor proceeds
after its `reconv` and is the executing fragment from here on. Of age stamps, attempt counts and the state of last attempts
(R204) those of the survivor are kept, and where one of them is the trapping fragment of R144 the survivor is from here on.
Log entry 77 (DESIGN CHOICE, unsafe). -/
def State.merge (s : State) (ids : List Nat) : State :=
  let all := s.cur.frag :: ids
  let rows := all.map (fun k => (k, s.frOf (s.mate k)))
  let survivorId := all.foldl min s.cur.frag
  let survivor := s.frOf (s.mate survivorId)
  let leader := (rows.foldl (fun b x => if lowestLane x.2.lmask < lowestLane b.2.lmask then x else b)
    (s.cur.frag, s.fr)).2
  let merged : Frag := { survivor with
    pc := survivor.pc + 4, lmask := rows.foldl (fun m x => m ||| x.2.lmask) 0, mr := leader.mr, s := leader.s,
    p := mergePreds leader (rows.map (·.2)), status := .ready, thread := s.nextThread,
    before := distinct (rows.flatMap (fun x => x.2.thread :: x.2.before)), stepDue := false, word := s.fr.word }
  let others := all.filter (· ≠ survivorId)
  let kept := others.foldl (fun t k => dropAt t (s.mate k).key) s.frags
  let s1 := match s.wv.handler with
    | some h => if all.contains h then s.setWv { s.wv with handler := some survivorId } else s
    | none => s
  { s1 with frags := putAt kept (s.mate survivorId).key merged, cur := s.mate survivorId }

/-- The fragment that the release rule lets go: the deepest waiter, then the lowest id (R130). -/
def State.releaseChoice (s : State) (core wave : Nat) : Option Nat :=
  let id (k : Nat) : FragId := { core := core, wave := wave, frag := k }
  let ks := s.fragsOf core wave
  if ks.any (fun k => s.runnable (id k)) then none
  else
    (ks.filter (fun k => (s.frOf (id k)).waiting)).foldl (fun b k =>
      match b with
      | none => some k
      | some j => if (s.frOf (id j)).depth.toNat < (s.frOf (id k)).depth.toNat then some k else b) none

/-- The release rule applied to a wave (R130). -/
def State.releaseOne (s : State) (core wave : Nat) : State :=
  match s.releaseChoice core wave with
  | none => s
  | some k =>
    let f : FragId := { core := core, wave := wave, frag := k }
    s.setFrOf f { s.frOf f with status := .ready, pc := (s.frOf f).pc + 4 }

/-- Ids of the other fragments of the executing wave that wait at a `reconv` with an equal key (R130). -/
def State.sameKey (s : State) (rid : Nat) : List Nat :=
  (s.fragsOf s.cur.core s.cur.wave).filter (fun k =>
    k ≠ s.cur.frag && (s.frOf (s.mate k)).waitsAt rid && (s.frOf (s.mate k)).depth == s.fr.depth
      && (s.frOf (s.mate k)).lr == s.fr.lr)

/-- The rows of R130 below the first, applied to the executing fragment. -/
def State.reconvRows (s : State) (rid : Nat) : State :=
  let mates := (s.fragsOf s.cur.core s.cur.wave).filter (· ≠ s.cur.frag)
  match s.wv.entriesOf s.cur.frag with
  | e :: _ =>
    match e.parked with
    | none =>
      let s1 := s.setWv ((s.wv.pop s.cur.frag).push {
        num := 0, owner := s.cur.frag, parked := some (rid, s.fr.lr),
        lmask := s.fr.lmask, pc := s.fr.pc, depth := s.fr.depth, mr := s.fr.mr })
      s1.setFr { s1.fr with pc := e.pc, lmask := e.lmask, depth := e.depth, mr := e.mr }
    | some _ => s.advance
  | [] =>
    if s.inTx then s.advance
    else if !(s.sameKey rid).isEmpty then s.merge (s.sameKey rid)
    else if mates.any (fun k => s.runnable (s.mate k)) then s.setFr { s.fr with status := .atReconv rid }
    else if mates.any (fun k => (s.frOf (s.mate k)).waiting) then
      (s.setFr { s.fr with status := .atReconv rid }).releaseOne s.cur.core s.cur.wave
    else s.advance

/-- The whole of `reconv` (R130). -/
def State.reconverge (s : State) (rid : Nat) : State :=
  (s.joinParked rid).reconvRows rid

/-- `reconv`: merge, wait or proceed (R130). -/
def execReconv (rid : BitVec 8) (s : State) : Result := .next (s.reconverge rid.toNat)

/-- The release rule applied to every wave of the cores: a waiter is let go at once when its wave has no runnable fragment left
(R130). -/
def State.releaseAll (s : State) : State :=
  if s.frags.any (fun x => x.2.waiting) then
    s.waves.foldl (fun t x => if x.1 < 16384 then t.releaseOne (x.1 / 64) (x.1 % 64) else t) s
  else s

/-- RECONV_RELEASE: a waiter proceeds when its wave has no runnable fragment (R130). -/
def execReconvRelease (core wave : Nat) (s : State) : Result := .next (s.releaseOne core wave)

end Sys2Proof.Machine
end

