-- ==== Sys2Proof/Machine/Control.lean ====
section
/-! DEFINITION. `yield`, traps and the return from one, register blocks, `mode` and `frz` (R136, R138 to R148), and the
two steps that stand for a word that is no instruction and for a fetch that fails (R73, R121, R202). -/

namespace Sys2Proof.Machine

/-- `yield`: the wave is not ready for the 16 cycles after the one in which it issues (R136). -/
def execYield (s : State) : Result := .next (s.setWv { s.wv with yieldEnd := some (s.cycle + 17) }).advance

/-- YIELD_END: the cycles of a `yield` are over (R136). -/
def execYieldEnd (core wave : Nat) (s : State) : Result :=
  let f : FragId := { core := core, wave := wave, frag := 0 }
  .next (match (s.wvOf f).yieldEnd with
    | some c => if c ≤ s.cycle then s.setWvOf f { s.wvOf f with yieldEnd := none } else s
    | none => s)

/-- `trap`: TRAP is raised after it completes, TINFO holding its word (R145). -/
def execTrap (_code : BitVec 6) (s : State) : Result :=
  .next (if s.wv.active then s.advance.trapEntry s.cur causeTRAP 0 (s.fr.pc + 4) 0 (s.tinfoWord 0) 0
    else s.trapEntry s.cur causeTRAP 0 (s.fr.pc + 4) 0 (s.tinfoWord 0) 0)

/-- `brk`: BRK of class 2, TPC at the `brk` (R145). -/
def execBrk (_code : BitVec 6) (s : State) : Result :=
  .next (s.trapEntry s.cur causeBRK 2 s.fr.pc 0 (s.tinfoWord 0) 0)

/-- `rtt` (R145): ILL outside a trap, LANDING for a TPC that is not aligned (R69), TX_ILLEGAL in an attempt (R219). -/
def execRtt (s : State) : Result :=
  .next (if !s.wv.active then s.trap causeILL 0 0 0
    else if s.wv.tpc.extractLsb' 0 2 ≠ 0 then s.trap causeLANDING s.wv.tpc 0 0
    else if s.inTx then s.trap causeTXILLEGAL 0 0 0
    else s.trapReturn)

/-! ## Register blocks (R139 to R142) -/

/-- Several fragments, or stack entries of the executing one, are present (R140, R141). -/
def State.splitWave (s : State) : Bool :=
  decide (1 < (s.fragsOf s.cur.core s.cur.wave).length) || !(s.wv.entriesOf s.cur.frag).isEmpty

/-- The executing wave's task has the lowest AGE of the running tasks of its core (R140). -/
def State.oldestTask (s : State) : Bool :=
  s.tasks.all (fun x => x.2.core != s.cur.core || x.2.state != .running || decide (s.tk.age ≤ x.2.age))

/-- Registers from the first up to the last of some blocks at zero (R23). -/
def zeroBlocks (v : Vector (Vector Lane 32) 128) (first n : Nat) : Vector (Vector Lane 32) 128 :=
  Vector.ofFn (fun i => if 8 * first ≤ i.val ∧ i.val < 8 * (first + n) then zeroReg else v[i])

/-- `n` blocks taken from a core, ordinary ones first (R140). -/
def CoreRow.take (c : CoreRow) (n : Nat) : CoreRow :=
  let ord := min n c.freeBlocks
  { c with freeBlocks := c.freeBlocks - ord, reserve := c.reserve - (n - ord) }

/-- `racq` and `racq.e` (R140). -/
def State.acquire (s : State) (d : BitVec 6) (n : Nat) (emergency : Bool) : State :=
  let c := s.coreOf s.cur.core
  let avail := c.freeBlocks + (if emergency && s.oldestTask then c.reserve else 0)
  if s.splitWave then s.trap causeRBLK 0 0 3
  else if s.wv.rblk + n > 16 then s.trap causeRBLK 0 0 1
  else if avail ≥ n then
    let w := s.wv
    let s1 := (s.setCore s.cur.core (c.take n)).setWv { w with rblk := w.rblk + n, v := zeroBlocks w.v w.rblk n }
    (s1.setS d (BitVec.ofNat 64 (w.rblk + n))).advance
  else
    let (s1, ok) := s.addRead (.freeBlocks s.cur.core) 0
    if ok then (s1.setS d 0).advance else s1

/-- `racq` (R140). -/
def execRacq (d : BitVec 6) (n : BitVec 5) (s : State) : Result := .next (s.acquire d n.toNat false)

/-- `racq.e`: the oldest task of the core may draw on the reserve (R140). -/
def execRacqE (d : BitVec 6) (n : BitVec 5) (s : State) : Result := .next (s.acquire d n.toNat true)

/-- `rrel` (R141). -/
def execRrel (n : BitVec 5) (s : State) : Result :=
  .next (
    if s.inTx then s.trap causeTXILLEGAL 0 0 0
    else if s.splitWave then s.trap causeRBLK 0 0 3
    else if n.toNat ≥ s.wv.rblk then s.trap causeRBLK 0 0 2
    else ((s.setWv { s.wv with rblk := s.wv.rblk - n.toNat }).returnBlocks s.cur.core n.toNat).advance)

/-! ## mode -/

/-- The value that `mode` gives MR (R78). -/
def modeWord (order : BitVec 2) (scope : BitVec 3) (sat : BitVec 1) (round : BitVec 2) (etype guard : BitVec 4) :
    BitVec 25 :=
  (0 : BitVec 9) ++ order ++ scope ++ sat ++ round ++ etype ++ guard

/-- `mode`: MR replaced; a scope of 6 or 7 raises ILL (R78, R138). -/
def execMode (order : BitVec 2) (scope : BitVec 3) (sat : BitVec 1) (round : BitVec 2) (etype guard : BitVec 4)
    (s : State) : Result :=
  .next (if scope.toNat ≥ 6 then s.trap causeILL 0 0 0
    else (s.setFr { s.fr with mr := modeWord order scope sat round etype guard }).advance)

/-! ## frz -/

/-- The hold number of a freeze (R148). -/
def freezeHold : Nat := 64

/-- The rows of every wave of the executing wave's task. -/
def State.taskWaves (s : State) : List Nat := distinct (s.cur.waveKey :: s.siblings s.cur)

/-- `frz`: every wave of the task held, and a debug event (R148, R418); inside an attempt it is unsupported. -/
def execFrz (s : State) : Result :=
  .next (
    if s.inTx then s.abandonHere 6 0 0
    else
      let s1 := s.advance.placeHold s.taskWaves freezeHold
      s1.contextEvent s.ctxId s.cur.core 0 0 6 [0, 0, BitVec.ofNat 64 (s.tk.number * 2 ^ 16 + s.seat.slot)])

/-! ## Words that are no instruction, and fetches that fail -/

/-- ILLEGAL_INSTRUCTION: ILL, TINFO holding the word (R73). -/
def execIllegalInstruction (word : BitVec 32) (s : State) : Result :=
  .next (s.trapEntry s.cur causeILL 0 s.fr.pc 0 (word.setWidth 64) 0)

/-- INSTRUCTION_FETCH_FAULT: the fetch at the program counter is made again; one that fails its translation suspends the
fragment there, and one that reads a poisoned sector raises POISON there (R95, R121, R202). -/
def execInstructionFetchFault (s : State) : Result :=
  .next (match s.xlateAll [s.fr.pc] .fetch with
    | .error s' => s'
    | .ok xs =>
      match xs.find? (s.enginePoison s.waveOwner) with
      | some x => s.trapPoison x.1 0
      | none => s)

end Sys2Proof.Machine
end

