-- ==== Sys2Proof/Machine/Tx.lean ====
section
/-! DEFINITION. The transaction engine: opening, nesting and committing attempts, alternatives, `retry`, sleep and wake
(R204 to R228). Engine commands that a commit issues are described with the commit in the file of the commit. -/

namespace Sys2Proof.Machine

/-- Cause SPILL_FULL (R83). -/
def causeSPILLFULL : Nat := 0x82
/-- Cause SPILL_FAULT (R83). -/
def causeSPILLFAULT : Nat := 0x83

/-! ## Checkpoints and depth -/

/-- A checkpoint of the executing fragment taken now (R206). -/
def State.checkpointNow (s : State) : Checkpoint :=
  let f := s.fr
  { s := f.s, p := f.p, mr := f.mr, lmask := f.lmask, depth := f.depth,
    stackMark := s.wv.pushes, stack := s.wv.entriesOf s.cur.frag, rblk := s.wv.rblk }

/-- The nesting depth of the executing fragment (R205). -/
def State.txDepth (s : State) : Nat :=
  match s.attempt with
  | some a => a.depth
  | none => 0

/-- The second member of an age stamp (R207). -/
def State.ageMember (s : State) : Nat := s.chip * 16384 + s.cur.core * 64 + s.cur.wave

/-- The age stamp taken when the fragment has none, its attempt count begun anew (R207, R209). -/
def State.stampAge (s : State) : State :=
  let f := s.fr
  if f.ageValid then s
  else s.setFr { f with ageTick := BitVec.ofNat 64 (s.coreTick s.cur.core), ageMember := s.ageMember, ageValid := true, attempts := 0 }

/-- The attempt that an outermost `tbeg` opens (R209). -/
def State.openAttempt (s : State) (handler : Word) : Attempt :=
  { owner := s.cur.frag, depth := 1, handler := handler, checkpoint := s.checkpointNow, alts := [], reads := [],
    writes := [], cmds := [], tokenOps := [], vlog := [], alog := [] }

/-- `tbeg` (R205, R209): it does not issue while another fragment of the wave holds an open attempt (R126). -/
def execTbeg (off : BitVec 25) (s : State) : Result :=
  .next (match s.wv.tx with
    | some a =>
      if a.owner ≠ s.cur.frag then s.stall
      else if a.depth ≥ 4 then s.abandonHere 8 0 0
      else (s.setAttempt { a with depth := a.depth + 1 }).advance
    | none =>
      let s1 := s.stampAge
      (s1.setWv { s1.wv with tx := some (s1.openAttempt (s1.fr.pc + 4 * off.signExtend 64)) }).advance)

/-- `orelse` (R208, R210). -/
def execOrelse (off : BitVec 25) (s : State) : Result :=
  .next (match s.attempt with
    | none => s.trap causeNEST 0 0 0
    | some a =>
      if a.alts.length ≥ 4 then s.abandonHere 8 0 0
      else
        let alt : Alternative := {
          target := s.fr.pc + 4 * off.signExtend 64, checkpoint := s.checkpointNow, depth := a.depth,
          writes := a.writes.length, cmds := a.cmds.length, tokenOps := a.tokenOps.length, vlog := a.vlog.length,
          alog := a.alog.length }
        (s.setAttempt { a with alts := alt :: a.alts }).advance)

/-! ## Sleeping (R223 to R225) -/

/-- Words that the sleeping fragments of a core watch, those of one context alone when one is given. -/
def State.watchedOn (s : State) (core : Nat) (keep : FragId → Bool) : List Watch :=
  (s.frags.filter (fun x => (fragIdOf x.1).core == core && keep (fragIdOf x.1))).foldl (fun acc x =>
    match x.2.status with
    | .asleep ws _ _ => acc ++ ws.filter (fun w => !acc.contains w)
    | _ => acc) []

/-- Entries of the wake table of a core beyond its 1,024 (R224). -/
def State.overflowOn (s : State) (core : Nat) : Nat := (s.watchedOn core (fun _ => true)).length - 1024

/-- Entries of a context in its wake spill area: of each core's overflow, at most as many as the context watches. -/
def State.spilledOf (s : State) (ctx : Nat) : Nat :=
  (distinct (s.frags.map (fun x => (fragIdOf x.1).core))).foldl (fun n c =>
    n + min (s.overflowOn c) (s.watchedOn c (fun f => (s.taskOf f).ctx == ctx)).length) 0

/-- Why a registration that must spill cannot: the area is full, or an entry of 64 bytes that it takes cannot be written
(R225). -/
def State.spillFails (s : State) (f : FragId) (t : State) : Option Nat :=
  let c := s.ctxOf (s.taskOf f).ctx
  if t.overflowOn f.core ≤ s.overflowOn f.core then none
  else if t.spilledOf (s.taskOf f).ctx > c.spillN then some causeSPILLFULL
  else if (upFrom (s.spilledOf (s.taskOf f).ctx) (t.spilledOf (s.taskOf f).ctx - s.spilledOf (s.taskOf f).ctx)).any (fun k =>
      match s.translate (s.taskOf f).oper f.core (s.taskOf f).ctx (c.spillBase + BitVec.ofNat 64 (64 * k)) .write with
      | .ok _ => false
      | .error _ => true) then some causeSPILLFAULT
  else none

/-- The executing fragment registered on words and asleep, or in the back-off of R225 where a registration cannot
spill. -/
def State.registerOn (s : State) (words : List Watch) (handler : Bool) : State :=
  let t := s.sleepOn words handler
  match s.spillFails s.cur t with
  | none => t
  | some cause =>
    (s.report { FaultRecord.blank with cause := cause, detail := 0x10, core := s.cur.core, ctx := s.ctxId }).backOff
      handler

/-- An implicit wait outside an attempt: the instruction does not issue and the fragment sleeps on the word (R227).
Log entry 7 (DEDUCED, safe). -/
def State.waitOn (s : State) (w : Watch) : State := s.registerOn [w] false

/-! ## retry (R211, R223) -/

/-- The state rolled back to the newest open alternative (R206, R211). Register blocks that go back write the free-block word,
as any return of blocks does: an attempt that has read the word, the executing one among them, then ends by a conflict (R141,
R216, R226), and goes to its handler rather than to the alternative. Log entry 75 (DESIGN CHOICE, unsafe). -/
def State.rollBack (s : State) (a : Attempt) (alt : Alternative) (rest : List Alternative) : State :=
  let w := s.wv
  let cp := alt.checkpoint
  let gone := a.vlog.drop alt.vlog
  let a' := { a with
    alts := rest, depth := alt.depth, writes := a.writes.take alt.writes, cmds := a.cmds.take alt.cmds,
    tokenOps := a.tokenOps.take alt.tokenOps, vlog := a.vlog }
  let w' := { (w.unstack a.owner cp) with
    tx := some a', rblk := cp.rblk, v := abandonVectors s.fresh gone w.v }
  let s0 : State := { s with accs := abandonAccs s.fresh (a.alog.drop alt.alog) s.accs }
  let s1 := (s0.takeFresh.setWv w').setFr (s.fr.restore cp alt.target)
  s1.returnBlocks s.cur.core (w.rblk - cp.rblk)

/-- The executing fragment, asleep on a word that has been written since its attempt read it, is due to wake (R223). -/
def State.noteEarly (s : State) (w : Watch) : State :=
  if s.fr.watches w then { s with notices := s.notices ++ [{ core := s.cur.core, word := w, early := [s.cur.key] }] } else s

/-- What `retry` does (R211): a rollback to the newest alternative, or the end of the attempt and sleep on its reads; with
no read the fragment resumes after the back-off (R223). Blocks that the attempt gives back write the free-block word after the
attempt read it. -/
def State.actRetry (s : State) : State :=
  match s.attempt with
  | none => s
  | some a =>
    match a.alts with
    | alt :: rest => s.rollBack a alt rest
    | [] =>
      let s1 := s.abandonHere 0 0 0
      if a.reads.isEmpty then s1.backOff true
      else
        let s2 := s1.registerOn (a.reads.map (·.1)) true
        if s.wv.rblk = a.checkpoint.rblk then s2 else s2.noteEarly (.freeBlocks s.cur.core)

/-- `retry` (R208, R211). -/
def execRetry (s : State) : Result := .next (if s.inTx then s.actRetry else s.trap causeNEST 0 0 0)

/-- An instruction that finds a word not as it needs it: in an attempt it acts as `retry` with the word in the read set,
else it waits on the word (R219, R227). Log entry 7 (DEDUCED, safe). -/
def State.waitFor (s : State) (w : Watch) : State :=
  if s.inTx then
    let (s1, ok) := s.addRead w 0
    if ok then s1.actRetry else s1
  else s.waitOn w

/-! ## tabrt, twatch, tdepth, TXSTAT -/

/-- `tabrt` (R208, R213). -/
def execTabrt (code : BitVec 6) (s : State) : Result :=
  .next (if s.inTx then s.abandonHere 4 code.toNat 0 else s.trap causeNEST 0 0 0)

/-- `twatch`: the sector of an address enters the read set without being read (R213). -/
def execTwatch (a : BitVec 6) (s : State) : Result :=
  let va := s.getS a
  .next (if !s.inTx then s.trap causeNEST 0 0 0
    else match s.xlateAll [va] .read with
      | .error s' => s'
      | .ok xs =>
        match xs.find? txForbidden with
        | some _ => s.abandonHere 6 0 va
        | none =>
          let secs := sectorsOf (xs.map (·.1))
          let (s1, ok) := s.txConflict secs false
          if !ok then s1
          else
            let (s2, ok2) := s1.addReads secs
            if ok2 then s2.advance else s2)

/-- `tdepth` (R213). -/
def execTdepth (d : BitVec 6) (s : State) : Result :=
  let v := match s.attempt with
    | some a => a.depth + 256 * a.alts.length
    | none => 0
  .next (s.setS d (BitVec.ofNat 64 v)).advance

/-- TXSTAT (R228). -/
def State.txstat (s : State) : Word :=
  let f := s.fr
  let own := match s.attempt with
    | some a => a.reads.length * 2 ^ 29 + a.writeEntries * 2 ^ 24 + a.alts.length * 2 ^ 21 + a.depth * 2 ^ 18 + 2 ^ 16
    | none => 0
  BitVec.ofNat 64 (f.attempts * 2 ^ 36 + own + (if f.ageValid then 2 ^ 17 else 0) + f.txCode * 2 ^ 8 + f.wake * 2 ^ 4
    + f.txStatus)

/-- `tstat` (R213). -/
def execTstat (d : BitVec 6) (sel : BitVec 2) (s : State) : Result :=
  let v : Word := match sel.toNat with
    | 0 => s.txstat
    | 1 => s.fr.txAddr1
    | 2 => s.fr.txAddr2
    | _ => if s.fr.ageValid then s.fr.ageTick else 0
  .next (s.setS d v).advance

/-! ## Waking (R223 to R225) -/

/-- The executing fragment, which sleeps or is in the back-off, waits for the allowance of a stream (R225, R369). -/
def State.waitAllowance (s : State) (k : Nat) : State :=
  match s.fr.status with
  | .asleep .. => s.setFr { s.fr with allowWait := some (k, s.cycle) }
  | .backoff .. => s.setFr { s.fr with allowWait := some (k, s.cycle) }
  | _ => s

/-- The wait of a fragment for an allowance is over: its wave has waited so much longer for it in all (R369). -/
def State.endAllowWait (s : State) (f : FragId) : State :=
  match (s.frOf f).allowWait with
  | none => s
  | some (k, since) =>
    let w := s.wvOf f
    (s.setWvOf f { w with waited := putAt w.waited k (getAt 0 w.waited k + (s.cycle - since)) }).setFrOf f
      { s.frOf f with allowWait := none }

/-- A sleeping fragment woken for a reason of TXSTAT.WAKE; an implicit wait changes no TXSTAT field (R223, R227). -/
def State.wakeFrag (s : State) (f : FragId) (why : Nat) : State :=
  let x := s.frOf f
  match x.status with
  | .asleep _ handler _ =>
    let s1 := s.endAllowWait f
    s1.setFrOf f { s1.frOf f with status := .ready, wake := if handler then why else x.wake }
  | _ => s

/-- The fragments of a core that are registered on a word wake: with WAKE 2 those that are named, which were not registered when the
word was written, and with WAKE 1 the others (R223). -/
def State.wakeOn (s : State) (core : Nat) (word : Watch) (early : List Nat) : State :=
  let sleepers := (s.frags.filter (fun x => (fragIdOf x.1).core == core && x.2.watches word)).map (fun x => fragIdOf x.1)
  sleepers.foldl (fun t f => t.wakeFrag f (if early.contains f.key then 2 else 1)) s

/-- WAKE_NOTICE: a core receives the notices of a word that are due to it and wakes the fragments registered on it; a spurious wake
needs no notice and takes none (R223, R224). Log entry 76 (DESIGN CHOICE, safe). -/
def execWakeNotice (core : Nat) (word : Watch) (spurious : Bool) (s : State) : Result :=
  let due (n : Notice) : Bool := n.core == core && n.word == word
  let early := (s.notices.filter due).flatMap (·.early)
  .next (
    if spurious then s.wakeOn core word []
    else if s.notices.any due then
      State.wakeOn { s with notices := s.notices.filter (fun n => !due n) } core word early
    else s)

/-- The registration of a sleeping fragment is complete (R223). Log entry 76 (DESIGN CHOICE, safe). -/
def State.registered (s : State) (f : FragId) : State :=
  if (findAt s.frags f.key).isSome then s.setFrOf f { s.frOf f with registered := true } else s

/-- WAKE_BACKOFF_EXPIRY: a back-off of 4,096 cycles is over (R223, R225). -/
def execWakeBackoffExpiry (f : FragId) (s : State) : Result :=
  let x := s.frOf f
  .next (match x.status with
    | .backoff c handler =>
      if c ≤ s.cycle then
        let s1 := s.endAllowWait f
        s1.setFrOf f { s1.frOf f with status := .ready, wake := if handler then 3 else x.wake }
      else s
    | _ => s)

end Sys2Proof.Machine
end

