-- ==== Sys2Proof/Machine/LoadStore.lean ====
section
/-! DEFINITION. Loads and stores of sectors and scalars, gather and scatter, and the fences (R106, R176 to R182). -/

namespace Sys2Proof.Machine

/-- MISALIGN at an address of a lane (R176). -/
def State.trapMisaligned (s : State) (a : Word) (lane : Nat) : State := s.trap causeMISALIGN a lane 0

/-- One access of a run of bytes: aligned, translated and issued (R176, R181). -/
def State.oneAccess (s : State) (ea : Word) (align : Nat) (need : Need) (make : Place → AccessOp) : State :=
  if !aligned ea align then s.trapMisaligned ea 0
  else match s.xlateAll [ea] need with
    | .error s' => s'
    | .ok xs =>
      match xs with
      | [] => s
      | x :: _ => s.access [{ target := x.2, op := make x.1, kind := x.1.kind }]

/-- A scalar load of `n` bytes (R179). -/
def State.loadScalar (s : State) (d b : BitVec 6) (imm : BitVec 12) (n : Nat) : State :=
  s.oneAccess (s.baseAddr b imm n) n .read (fun p => .load (placesFrom p n) (.scalar d.toNat))

/-- A scalar store of `n` bytes (R179). -/
def State.storeScalar (s : State) (d b : BitVec 6) (imm : BitVec 12) (n : Nat) : State :=
  s.oneAccess (s.baseAddr b imm n) n .write (fun p => .store ((placesFrom p n).zip (toBytes n (s.getS d).toNat)))

/-- `sld` (R179). -/
def execSld (d b : BitVec 6) (imm : BitVec 12) (s : State) : Result := .next (s.loadScalar d b imm 8)

/-- `sldw` (R179). -/
def execSldw (d b : BitVec 6) (imm : BitVec 12) (s : State) : Result := .next (s.loadScalar d b imm 4)

/-- `sst` (R179). -/
def execSst (d b : BitVec 6) (imm : BitVec 12) (s : State) : Result := .next (s.storeScalar d b imm 8)

/-- `sstw` (R179). -/
def execSstw (d b : BitVec 6) (imm : BitVec 12) (s : State) : Result := .next (s.storeScalar d b imm 4)

/-- The place a number of bytes on from another. -/
def Place.plus (p : Place) (n : Nat) : Place := { p with key := p.key + n, va := p.va + BitVec.ofNat 64 n }

/-- The places of the words of some lanes, each lane at an offset from a place. -/
def lanePlaces (p : Place) (ls : List Nat) (off : Nat → Nat) : List Place :=
  ls.flatMap (fun l => placesFrom (p.plus (off l)) 4)

/-- The bytes that some lanes of a register store, each lane at an offset from a place. -/
def laneData (p : Place) (ls : List Nat) (off : Nat → Nat) (v : Vector Lane 32) : List (Place × Byte) :=
  ls.flatMap (fun l => (placesFrom (p.plus (off l)) 4).zip (toBytes 4 (laneOf v l).toNat))

/-- `vld` (R178). -/
def execVld (d : BitVec 7) (b : BitVec 6) (imm : BitVec 12) (s : State) : Result :=
  let g := s.guarded
  .next (s.withRegs [d] (
    if g.isEmpty then s.advance
    else s.oneAccess (s.baseAddr b imm 128) 128 .read (fun p => .load (lanePlaces p g (4 * ·)) (.lanes d.toNat g))))

/-- `vst` (R178). -/
def execVst (d : BitVec 7) (b : BitVec 6) (imm : BitVec 12) (s : State) : Result :=
  let g := s.guarded
  .next (s.withRegs [d] (
    if g.isEmpty then s.advance
    else s.oneAccess (s.baseAddr b imm 128) 128 .write (fun p => .store (laneData p g (4 * ·) (s.getV d)))))

/-! ## One access for each guarded lane (R180, R183) -/

/-- The lowest guarded lane whose address is not aligned to four bytes. -/
def State.misalignedLane (s : State) (g : List Nat) (b : BitVec 6) (x : BitVec 7) : Option Nat :=
  g.find? (fun l => !aligned (s.laneAddr b x l) 4)

/-- An instruction that makes one 4-byte access for each guarded lane: checked, translated and issued lane by lane. -/
def State.laneAccesses (s : State) (b : BitVec 6) (x : BitVec 7) (need : Need)
    (refuse : Place × Target → Option (Nat × Nat)) (make : Nat → Place → AccessOp) : State :=
  let g := s.guarded
  if g.isEmpty then s.advance
  else match s.misalignedLane g b x with
    | some l => s.trapMisaligned (s.laneAddr b x l) l
    | none =>
      match s.xlateWith refuse (g.map (s.laneAddr b x)) need with
      | .error s' => s'
      | .ok xs =>
        s.access ((g.zip xs).map (fun q => { target := q.2.2, op := make q.1 q.2.1, kind := q.2.1.kind, lane := q.1 }))

/-- `vldx` (R180). -/
def execVldx (d : BitVec 7) (b : BitVec 6) (x : BitVec 7) (s : State) : Result :=
  .next (s.withRegs [d, x] (s.laneAccesses b x .read (fun _ => none) (fun l p =>
    .load (placesFrom p 4) (.lanes d.toNat [l]))))

/-- `vstx` (R180). -/
def execVstx (d : BitVec 7) (b : BitVec 6) (x : BitVec 7) (s : State) : Result :=
  let v := s.getV d
  .next (s.withRegs [d, x] (s.laneAccesses b x .write (fun _ => none) (fun l p =>
    .store ((placesFrom p 4).zip (toBytes 4 (laneOf v l).toNat)))))

/-! ## fence (R106) -/

/-- Marks that a fence leaves behind accesses on their way, one for each of its parts. -/
def State.markFence (s : State) (kinds : List Nat) : State :=
  kinds.foldl (fun t k =>
    let a := t.newAccess .here (.fence k) 0
    { t with accesses := dropFences (t.accesses ++ [a]) }) s

/-- `fence`: full, acquire, release, or both; no effect inside an attempt (R106, R218), and none beyond R101 at scope 0
(R106). -/
def execFence (kind : BitVec 2) (s : State) : Result :=
  .next (if s.inTx || s.scope == 0 then s.advance
    else (s.markFence (match kind.toNat with
      | 0 => [0] | 1 => [1] | 2 => [2] | _ => [1, 2])).advance)

end Sys2Proof.Machine
end

