-- ==== Sys2Proof/Machine/Atomic.lean ====
section
/-! DEFINITION. The vector and scalar atomics, returning and not (R183 to R186). -/

namespace Sys2Proof.Machine

/-- An atomic on host memory that PCIe does not offer, or that the host port does not complete (R115). -/
def State.hostRefuses (s : State) (op : AtomicOp) (x : Place × Target) : Option (Nat × Nat) :=
  if !s.inTx && x.1.isHost && !(hostAtomicOk op && s.hostAtomics) then some (causePROT, 5) else none

/-- A vector atomic: one 32-bit atomic for each guarded lane, in ascending order (R183). -/
def State.vectorAtomic (s : State) (op : AtomicOp) (returning : Bool) (d : BitVec 7) (b : BitVec 6) (x : BitVec 7) :
    State :=
  let v := s.getV d
  let v2 := s.getV (d + 1)
  s.withRegs (if op == .cas then [d, d + 1, x] else [d, x]) (
    s.laneAccesses b x .atomic (s.hostRefuses op)
      (fun l p => .atomic op (placesFrom p 4) ((laneOf v l).setWidth 64) ((laneOf v2 l).setWidth 64) returning
        (if returning then .lanes d.toNat [l] else .none)))

/-- A scalar atomic on `n` bytes (R185). -/
def State.scalarAtomic (s : State) (op : AtomicOp) (returning : Bool) (d a : BitVec 6) (n : Nat) : State :=
  let ea := s.getS a
  if !aligned ea n then s.trapMisaligned ea 0
  else match s.xlateWith (s.hostRefuses op) [ea] .atomic with
    | .error s' => s'
    | .ok xs =>
      match xs with
      | [] => s
      | x :: _ =>
        s.access [{
          target := x.2, kind := x.1.kind,
          op := .atomic op (placesFrom x.1 n) (s.getS d) (s.getS (d + 1)) returning
            (if returning then .scalar d.toNat else .none) }]

/-- The width of a scalar atomic by its W field (R185). -/
def atomicBytes (w : BitVec 1) : Nat := if w = 0 then 8 else 4

/-! ## Vector atomics (R183, R184) -/

/-- `aadd` on lanes (R183, R184). -/
def execAadd (d : BitVec 7) (b : BitVec 6) (x : BitVec 7) (s : State) : Result :=
  .next (s.vectorAtomic .add true d b x)

/-- `asub` on lanes (R183, R184). -/
def execAsub (d : BitVec 7) (b : BitVec 6) (x : BitVec 7) (s : State) : Result :=
  .next (s.vectorAtomic .sub true d b x)

/-- `amin` on lanes (R183, R184). -/
def execAmin (d : BitVec 7) (b : BitVec 6) (x : BitVec 7) (s : State) : Result :=
  .next (s.vectorAtomic .min true d b x)

/-- `amax` on lanes (R183, R184). -/
def execAmax (d : BitVec 7) (b : BitVec 6) (x : BitVec 7) (s : State) : Result :=
  .next (s.vectorAtomic .max true d b x)

/-- `aminu` on lanes (R183, R184). -/
def execAminu (d : BitVec 7) (b : BitVec 6) (x : BitVec 7) (s : State) : Result :=
  .next (s.vectorAtomic .minu true d b x)

/-- `amaxu` on lanes (R183, R184). -/
def execAmaxu (d : BitVec 7) (b : BitVec 6) (x : BitVec 7) (s : State) : Result :=
  .next (s.vectorAtomic .maxu true d b x)

/-- `aand` on lanes (R183, R184). -/
def execAand (d : BitVec 7) (b : BitVec 6) (x : BitVec 7) (s : State) : Result :=
  .next (s.vectorAtomic .and true d b x)

/-- `aor` on lanes (R183, R184). -/
def execAor (d : BitVec 7) (b : BitVec 6) (x : BitVec 7) (s : State) : Result :=
  .next (s.vectorAtomic .or true d b x)

/-- `axor` on lanes (R183, R184). -/
def execAxor (d : BitVec 7) (b : BitVec 6) (x : BitVec 7) (s : State) : Result :=
  .next (s.vectorAtomic .xor true d b x)

/-- `axchg` on lanes (R183, R184). -/
def execAxchg (d : BitVec 7) (b : BitVec 6) (x : BitVec 7) (s : State) : Result :=
  .next (s.vectorAtomic .xchg true d b x)

/-- `acas` on lanes (R183, R184). -/
def execAcas (d : BitVec 7) (b : BitVec 6) (x : BitVec 7) (s : State) : Result :=
  .next (s.vectorAtomic .cas true d b x)

/-- `afadd` on lanes (R183, R184). -/
def execAfadd (d : BitVec 7) (b : BitVec 6) (x : BitVec 7) (s : State) : Result :=
  .next (s.vectorAtomic .fadd true d b x)

/-- `afmin` on lanes (R183, R184). -/
def execAfmin (d : BitVec 7) (b : BitVec 6) (x : BitVec 7) (s : State) : Result :=
  .next (s.vectorAtomic .fmin true d b x)

/-- `afmax` on lanes (R183, R184). -/
def execAfmax (d : BitVec 7) (b : BitVec 6) (x : BitVec 7) (s : State) : Result :=
  .next (s.vectorAtomic .fmax true d b x)

/-- `aadd.n` on lanes (R183, R184). -/
def execAaddN (d : BitVec 7) (b : BitVec 6) (x : BitVec 7) (s : State) : Result :=
  .next (s.vectorAtomic .add false d b x)

/-- `asub.n` on lanes (R183, R184). -/
def execAsubN (d : BitVec 7) (b : BitVec 6) (x : BitVec 7) (s : State) : Result :=
  .next (s.vectorAtomic .sub false d b x)

/-- `amin.n` on lanes (R183, R184). -/
def execAminN (d : BitVec 7) (b : BitVec 6) (x : BitVec 7) (s : State) : Result :=
  .next (s.vectorAtomic .min false d b x)

/-- `amax.n` on lanes (R183, R184). -/
def execAmaxN (d : BitVec 7) (b : BitVec 6) (x : BitVec 7) (s : State) : Result :=
  .next (s.vectorAtomic .max false d b x)

/-- `aminu.n` on lanes (R183, R184). -/
def execAminuN (d : BitVec 7) (b : BitVec 6) (x : BitVec 7) (s : State) : Result :=
  .next (s.vectorAtomic .minu false d b x)

/-- `amaxu.n` on lanes (R183, R184). -/
def execAmaxuN (d : BitVec 7) (b : BitVec 6) (x : BitVec 7) (s : State) : Result :=
  .next (s.vectorAtomic .maxu false d b x)

/-- `aand.n` on lanes (R183, R184). -/
def execAandN (d : BitVec 7) (b : BitVec 6) (x : BitVec 7) (s : State) : Result :=
  .next (s.vectorAtomic .and false d b x)

/-- `aor.n` on lanes (R183, R184). -/
def execAorN (d : BitVec 7) (b : BitVec 6) (x : BitVec 7) (s : State) : Result :=
  .next (s.vectorAtomic .or false d b x)

/-- `axor.n` on lanes (R183, R184). -/
def execAxorN (d : BitVec 7) (b : BitVec 6) (x : BitVec 7) (s : State) : Result :=
  .next (s.vectorAtomic .xor false d b x)

/-- `axchg.n` on lanes (R183, R184). -/
def execAxchgN (d : BitVec 7) (b : BitVec 6) (x : BitVec 7) (s : State) : Result :=
  .next (s.vectorAtomic .xchg false d b x)

/-- `acas.n` on lanes (R183, R184). -/
def execAcasN (d : BitVec 7) (b : BitVec 6) (x : BitVec 7) (s : State) : Result :=
  .next (s.vectorAtomic .cas false d b x)

/-- `afadd.n` on lanes (R183, R184). -/
def execAfaddN (d : BitVec 7) (b : BitVec 6) (x : BitVec 7) (s : State) : Result :=
  .next (s.vectorAtomic .fadd false d b x)

/-- `afmin.n` on lanes (R183, R184). -/
def execAfminN (d : BitVec 7) (b : BitVec 6) (x : BitVec 7) (s : State) : Result :=
  .next (s.vectorAtomic .fmin false d b x)

/-- `afmax.n` on lanes (R183, R184). -/
def execAfmaxN (d : BitVec 7) (b : BitVec 6) (x : BitVec 7) (s : State) : Result :=
  .next (s.vectorAtomic .fmax false d b x)

/-! ## Scalar atomics (R184, R185) -/

/-- `aadd` on 8 or 4 bytes (R184, R185). -/
def execAaddScalar (d a : BitVec 6) (w : BitVec 1) (s : State) : Result :=
  .next (s.scalarAtomic .add true d a (atomicBytes w))

/-- `asub` on 8 or 4 bytes (R184, R185). -/
def execAsubScalar (d a : BitVec 6) (w : BitVec 1) (s : State) : Result :=
  .next (s.scalarAtomic .sub true d a (atomicBytes w))

/-- `amin` on 8 or 4 bytes (R184, R185). -/
def execAminScalar (d a : BitVec 6) (w : BitVec 1) (s : State) : Result :=
  .next (s.scalarAtomic .min true d a (atomicBytes w))

/-- `amax` on 8 or 4 bytes (R184, R185). -/
def execAmaxScalar (d a : BitVec 6) (w : BitVec 1) (s : State) : Result :=
  .next (s.scalarAtomic .max true d a (atomicBytes w))

/-- `aminu` on 8 or 4 bytes (R184, R185). -/
def execAminuScalar (d a : BitVec 6) (w : BitVec 1) (s : State) : Result :=
  .next (s.scalarAtomic .minu true d a (atomicBytes w))

/-- `amaxu` on 8 or 4 bytes (R184, R185). -/
def execAmaxuScalar (d a : BitVec 6) (w : BitVec 1) (s : State) : Result :=
  .next (s.scalarAtomic .maxu true d a (atomicBytes w))

/-- `aand` on 8 or 4 bytes (R184, R185). -/
def execAandScalar (d a : BitVec 6) (w : BitVec 1) (s : State) : Result :=
  .next (s.scalarAtomic .and true d a (atomicBytes w))

/-- `aor` on 8 or 4 bytes (R184, R185). -/
def execAorScalar (d a : BitVec 6) (w : BitVec 1) (s : State) : Result :=
  .next (s.scalarAtomic .or true d a (atomicBytes w))

/-- `axor` on 8 or 4 bytes (R184, R185). -/
def execAxorScalar (d a : BitVec 6) (w : BitVec 1) (s : State) : Result :=
  .next (s.scalarAtomic .xor true d a (atomicBytes w))

/-- `axchg` on 8 or 4 bytes (R184, R185). -/
def execAxchgScalar (d a : BitVec 6) (w : BitVec 1) (s : State) : Result :=
  .next (s.scalarAtomic .xchg true d a (atomicBytes w))

/-- `acas` on 8 or 4 bytes (R184, R185). -/
def execAcasScalar (d a : BitVec 6) (w : BitVec 1) (s : State) : Result :=
  .next (s.scalarAtomic .cas true d a (atomicBytes w))

/-- `afadd` on 4 bytes (R184, R185). -/
def execAfaddScalar (d a : BitVec 6) (s : State) : Result := .next (s.scalarAtomic .fadd true d a 4)

/-- `afmin` on 4 bytes (R184, R185). -/
def execAfminScalar (d a : BitVec 6) (s : State) : Result := .next (s.scalarAtomic .fmin true d a 4)

/-- `afmax` on 4 bytes (R184, R185). -/
def execAfmaxScalar (d a : BitVec 6) (s : State) : Result := .next (s.scalarAtomic .fmax true d a 4)

/-- `aadd.n` on 8 or 4 bytes (R184, R185). -/
def execAaddNScalar (d a : BitVec 6) (w : BitVec 1) (s : State) : Result :=
  .next (s.scalarAtomic .add false d a (atomicBytes w))

/-- `asub.n` on 8 or 4 bytes (R184, R185). -/
def execAsubNScalar (d a : BitVec 6) (w : BitVec 1) (s : State) : Result :=
  .next (s.scalarAtomic .sub false d a (atomicBytes w))

/-- `amin.n` on 8 or 4 bytes (R184, R185). -/
def execAminNScalar (d a : BitVec 6) (w : BitVec 1) (s : State) : Result :=
  .next (s.scalarAtomic .min false d a (atomicBytes w))

/-- `amax.n` on 8 or 4 bytes (R184, R185). -/
def execAmaxNScalar (d a : BitVec 6) (w : BitVec 1) (s : State) : Result :=
  .next (s.scalarAtomic .max false d a (atomicBytes w))

/-- `aminu.n` on 8 or 4 bytes (R184, R185). -/
def execAminuNScalar (d a : BitVec 6) (w : BitVec 1) (s : State) : Result :=
  .next (s.scalarAtomic .minu false d a (atomicBytes w))

/-- `amaxu.n` on 8 or 4 bytes (R184, R185). -/
def execAmaxuNScalar (d a : BitVec 6) (w : BitVec 1) (s : State) : Result :=
  .next (s.scalarAtomic .maxu false d a (atomicBytes w))

/-- `aand.n` on 8 or 4 bytes (R184, R185). -/
def execAandNScalar (d a : BitVec 6) (w : BitVec 1) (s : State) : Result :=
  .next (s.scalarAtomic .and false d a (atomicBytes w))

/-- `aor.n` on 8 or 4 bytes (R184, R185). -/
def execAorNScalar (d a : BitVec 6) (w : BitVec 1) (s : State) : Result :=
  .next (s.scalarAtomic .or false d a (atomicBytes w))

/-- `axor.n` on 8 or 4 bytes (R184, R185). -/
def execAxorNScalar (d a : BitVec 6) (w : BitVec 1) (s : State) : Result :=
  .next (s.scalarAtomic .xor false d a (atomicBytes w))

/-- `axchg.n` on 8 or 4 bytes (R184, R185). -/
def execAxchgNScalar (d a : BitVec 6) (w : BitVec 1) (s : State) : Result :=
  .next (s.scalarAtomic .xchg false d a (atomicBytes w))

/-- `acas.n` on 8 or 4 bytes (R184, R185). -/
def execAcasNScalar (d a : BitVec 6) (w : BitVec 1) (s : State) : Result :=
  .next (s.scalarAtomic .cas false d a (atomicBytes w))

/-- `afadd.n` on 4 bytes (R184, R185). -/
def execAfaddNScalar (d a : BitVec 6) (s : State) : Result := .next (s.scalarAtomic .fadd false d a 4)

/-- `afmin.n` on 4 bytes (R184, R185). -/
def execAfminNScalar (d a : BitVec 6) (s : State) : Result := .next (s.scalarAtomic .fmin false d a 4)

/-- `afmax.n` on 4 bytes (R184, R185). -/
def execAfmaxNScalar (d a : BitVec 6) (s : State) : Result := .next (s.scalarAtomic .fmax false d a 4)

end Sys2Proof.Machine
end

