-- ==== Sys2Proof/Machine/Branch.lean ====
section
/-! DEFINITION. Branches, calls, returns, landing pads, indirect jumps and the divergent branches (R120 to R132). -/

namespace Sys2Proof.Machine

/-- The target of a direct transfer: signed words from the transfer itself (R69, R121). -/
def State.target {n : Nat} (s : State) (off : BitVec n) : Word := s.fr.pc + 4 * off.signExtend 64

/-- `br` (R121). -/
def execBr (off : BitVec 25) (s : State) : Result := .next (s.goTo (s.target off))

/-- A call to a target: `lr` takes the return address and the depth rises (R120, R121). -/
def State.callTo (s : State) (t : Word) : State :=
  let f := s.fr.setS 62 (s.fr.pc + 4)
  s.setFr { f with depth := f.depth + 1, pc := t }

/-- `call` (R121). -/
def execCall (off : BitVec 25) (s : State) : Result := .next (s.callTo (s.target off))

/-- `brz` (R121). -/
def execBrz (d : BitVec 6) (off : BitVec 19) (s : State) : Result :=
  .next (if s.getS d = 0 then s.goTo (s.target off) else s.advance)

/-- `brnz` (R121). -/
def execBrnz (d : BitVec 6) (off : BitVec 19) (s : State) : Result :=
  .next (if s.getS d = 0 then s.advance else s.goTo (s.target off))

/-- `ret`: to `lr`, the depth falling, after the alignment check of R69 (R122). -/
def execRet (s : State) : Result :=
  let t := s.fr.lr
  .next (if t.extractLsb' 0 2 ≠ 0 then s.trap causeLANDING t 0 0
    else s.setFr { s.fr with pc := t, depth := s.fr.depth - 1 })

/-- `lpad` has no effect when control reaches it (R123). -/
def execLpad (_vj _cl _jp : BitVec 1) (_tag : BitVec 13) (s : State) : Result := .next s.advance

/-! ## Indirect transfers (R124, R125) -/

/-- The places of the word whose first byte is at a place. -/
def wordPlaces (x : Place × Target) : List (Place × Target) := (placesFrom x.1 4).map (fun p => (p, x.2))

/-- The word at a place as a fetch reads it: memory's, or what has come back from another device (R112, R121). -/
def State.fetchWord (s : State) (x : Place × Target) : BitVec 32 :=
  BitVec.ofNat 32 (ofBytes ((wordPlaces x).map (s.engineByte s.waveOwner s.mem.readByte)))

/-- A word is an `lpad` that R73 accepts, with the kind bit given and the tag given (R123, R124). -/
def landsOn (w : BitVec 32) (kind : Nat) (tag : BitVec 13) : Bool :=
  w.extractLsb' 25 7 == 0x11 && w.extractLsb' 16 9 == 0 && w.getLsbD kind && w.extractLsb' 0 13 == tag

/-- The checks of an indirect transfer of a kind to a target, in the order of R124; the state in which the transfer is
not made, or none when it may be made. A target in another device is read first (R112). The lane is 0 but for `vjmpi`. -/
def State.checkTarget (s : State) (t : Word) (kind : Nat) (tag : BitVec 13) (lane : Nat) : Option State :=
  if t.extractLsb' 0 2 ≠ 0 then some (s.trap causeLANDING t lane 0)
  else match s.xlateAll [t] .fetch with
    | .error s' => some s'
    | .ok xs =>
      match xs with
      | [] => none
      | x :: _ =>
        if !s.allFetched s.waveOwner (wordPlaces x) then some (s.awaitFetch (wordPlaces x))
        else if s.enginePoison s.waveOwner x then some (s.trapPoison x.1 lane)
        else if landsOn (s.fetchWord x) kind tag then none
        else some (s.trap causeLANDING t lane 0)

/-- `jmpi` (R125). -/
def execJmpi (a : BitVec 6) (tag : BitVec 13) (s : State) : Result :=
  .next (match s.checkTarget (s.getS a) 13 tag 0 with
    | some s' => s'
    | none => s.goTo (s.getS a))

/-- `calli`: the target is read before `lr` is written (R125). -/
def execCalli (a : BitVec 6) (tag : BitVec 13) (s : State) : Result :=
  .next (match s.checkTarget (s.getS a) 14 tag 0 with
    | some s' => s'
    | none => s.callTo (s.getS a))

/-! ## Divergence (R129, R132) -/

/-- RBLK of the divergence stack (R128). -/
def State.trapStackFull (s : State) : State := s.trap causeRBLK 0 0 4

/-- The lanes of a minority leave at one program counter while the others stay at another (R129). -/
def State.splitOff (s : State) (out : Lane) (outPc : Word) (stay : Lane) (stayPc : Word) : State :=
  let keep (t : State) : State := t.setFr { t.fr with lmask := stay, pc := stayPc }
  if s.fragmentRoom ≠ 0 then keep (s.newFragment out outPc)
  else if s.wv.stack.length < 32 then keep (s.pushPending out outPc)
  else s.trapStackFull

/-- The lanes of a `vbr` that take the branch (R129). -/
def State.taken (s : State) (p : BitVec 3) (neg : BitVec 1) : Lane :=
  s.fr.lmask &&& (if neg = 0 then s.getP p else ~~~(s.getP p))

/-- `vbr` (R129). -/
def execVbr (p : BitVec 3) (neg : BitVec 1) (off : BitVec 21) (s : State) : Result :=
  let t := s.taken p neg
  let n := s.fr.lmask &&& ~~~t
  let tgt := s.target off
  .next (
    if n = 0 then s.goTo tgt
    else if t = 0 then s.advance
    else if countBits 32 t.toNat ≤ countBits 32 n.toNat then s.splitOff t tgt n (s.fr.pc + 4)
    else s.splitOff n (s.fr.pc + 4) t tgt)

/-- The target of a lane of `vjmpi` (R132). -/
def State.laneTarget (s : State) (a : BitVec 7) (l : Nat) : Word :=
  (s.fr.pc &&& BitVec.ofNat 64 (0x1FFFF * 2 ^ 32)) ||| (laneOf (s.getV a) l).setWidth 64

/-- The distinct targets of some lanes, each with its lowest lane, ascending by that lane. -/
def firstLanes (tgt : Nat → Word) : List Nat → List (Nat × Word)
  | [] => []
  | l :: r => (l, tgt l) :: (firstLanes tgt r).filter (fun x => x.2 != tgt l)

/-- Every distinct target of `vjmpi` checked, the first failure deciding (R132). -/
def State.checkTargets (s : State) (tag : BitVec 13) : List (Nat × Word) → Option State
  | [] => none
  | (l, t) :: r =>
    match s.checkTarget t 15 tag l with
    | some s' => some s'
    | none => s.checkTargets tag r

/-- The lanes of a mask whose destination is the one given. -/
def lanesTo (dest : Nat → Word) (m : Lane) (t : Word) : Lane := maskOf ((lanesOf m).filter (fun l => dest l == t))

/-- Sets of lanes each made a new fragment (R132, step 4). -/
def State.spread (s : State) (dest : Nat → Word) (m : Lane) : List Word → State
  | [] => s
  | t :: r => (s.newFragment (lanesTo dest m t) t).spread dest m r

/-- Sets of lanes pushed as pending entries, in the order given (R132, step 5). -/
def State.pushAll (s : State) (dest : Nat → Word) (m : Lane) : List Word → State
  | [] => s
  | t :: r => (s.pushPending (lanesTo dest m t) t).pushAll dest m r

/-- The sets of `vjmpi` placed once its targets have passed (R132, steps 2 to 5). -/
def State.jumpSets (s : State) (dest : Nat → Word) : State :=
  let m := s.fr.lmask
  match (firstLanes dest (lanesOf m)).map (·.2) with
  | [] => s.advance
  | stay :: others =>
    let room := s.fragmentRoom
    let pend := others.drop room
    if s.wv.stack.length + pend.length > 32 then s.trapStackFull
    else
      let s1 := (s.spread dest m (others.take room)).pushAll dest m pend.reverse
      s1.setFr { s1.fr with lmask := lanesTo dest m stay, pc := stay }

/-- `vjmpi` (R132). -/
def execVjmpi (a : BitVec 7) (tag : BitVec 13) (s : State) : Result :=
  .next (
    if a.toNat ≥ 8 * s.wv.rblk then s.trap causeREGRANGE 0 0 0
    else
      let g := s.guarded
      match s.checkTargets tag (firstLanes (s.laneTarget a) g) with
      | some s' => s'
      | none => s.jumpSets (fun l => if g.contains l then s.laneTarget a l else s.fr.pc + 4))

end Sys2Proof.Machine
end

