-- ==== Sys2Proof/Machine/Tile.lean ====
section
/-! DEFINITION. The tile table: `tdef`, `tset`, `tqry`, and the transfer of tile segments with `tld` and `tst`
(R191 to R195). -/

namespace Sys2Proof.Machine

/-- TILE_STATE with a detail of R176. -/
def State.trapTile (s : State) (detail : Nat) : State := s.trap causeTILESTATE 0 0 detail

/-- The entry of the core that a handle of the executing wave names. -/
def State.entryOf (s : State) (t : Nat) : Nat := s.seat.partBase + t

/-- A handle lies within the slot's partition. -/
def State.handleOk (s : State) (t : Nat) : Bool := decide (t < s.seat.partSize)

/-- The entry that a handle names. -/
def State.tileAt (s : State) (t : Nat) : TileEntry := s.tileOf s.cur.core (s.entryOf t)

/-- The state word of the entry that a handle names. -/
def State.tileWord (s : State) (t : Nat) : Watch := .tile s.cur.core (s.entryOf t)

/-- Bytes of a row (R191). -/
def TileEntry.rowBytes (e : TileEntry) : Nat := 128 * e.rsec

/-- Swz: the offset in a row of byte `b` of logical row `r` (R192). -/
def swz (spanCode r b : Nat) : Nat :=
  let span := 16 * 2 ^ spanCode
  let seg := b / span
  let j := (b % span) / 16
  seg * span + (j ^^^ (r % (span / 16))) * 16 + b % 16

/-- The low half of an entry as `tqry` reads it (R191). -/
def TileEntry.word0 (e : TileEntry) : Word :=
  BitVec.ofNat 64 ((if e.task then 2 ^ 40 else 0) + e.stamp * 2 ^ 37 + (if e.stampV then 2 ^ 36 else 0) + e.state * 2 ^ 34
    + e.span * 2 ^ 31 + e.etype * 2 ^ 27 + e.rowsM1 * 2 ^ 15 + e.rsec)

/-- A shape word is one that `tdef` accepts (R194). -/
def shapeOk (x : Word) : Bool :=
  decide (fieldOf x 63 34 = 0 ∧ fieldOf x 30 27 ≤ 10 ∧ fieldOf x 14 0 ≠ 0 ∧
    (128 * fieldOf x 14 0) % (16 * 2 ^ fieldOf x 33 31) = 0)

/-- A tile base is one that `tdef` accepts (R194). -/
def baseOk (x : Word) : Bool := decide (x.toNat % 128 = 0 ∧ x.toNat < 2 ^ 49)

/-- An entry with a base and a shape, filling (R191, R194). -/
def TileEntry.define (e : TileEntry) (base shape : Word) (task : Bool) : TileEntry :=
  { e with
      base := base, task := task, stampV := false, state := 1, span := fieldOf shape 33 31,
      etype := fieldOf shape 30 27, rowsM1 := fieldOf shape 26 15, rsec := fieldOf shape 14 0, failedFills := [] }

/-- `tdef` (R194). -/
def execTdef (t a b : BitVec 6) (s : State) : Result :=
  let e := s.tileAt t.toNat
  .next (
    if s.inTx then s.abandonHere 6 0 0
    else if !s.handleOk t.toNat then s.trapTile 1
    else if e.pendingEmpty then s.waitOn (s.tileWord t.toNat)
    else if e.state ≠ 0 ∨ e.task then s.trapTile 3
    else if !baseOk (s.getS a) || !shapeOk (s.getS b) then s.trapTile 4
    else ((s.setTile s.cur.core (s.entryOf t.toNat) (e.define (s.getS a) (s.getS b) false)).writeWord
      (s.tileWord t.toNat)).advance)

/-- `tset` may take an entry from one state to another (R193). -/
def tsetAllows (old new : Nat) : Bool :=
  match new with
  | 0 => true
  | 1 => true
  | 2 => decide (old ≠ 0)
  | _ => decide (old = 2 ∨ old = 3)

/-- The change that `tset` makes; its state word is written also where a change to empty has to wait (R193, R226). -/
def State.setTo (s : State) (core entry x : Nat) : State :=
  if x = 0 then
    let t := s.emptyTile core entry
    if (t.tileOf core entry).pendingEmpty then t.writeWord (.tile core entry) else t
  else s.setTileState core entry x

/-- `tset` (R193, R194); it does not issue while a `tst` with FINAL is on its way to the entry. -/
def execTset (t a : BitVec 6) (s : State) : Result :=
  let e := s.tileAt t.toNat
  let x := (s.getS a).toNat
  .next (
    if s.inTx then s.abandonHere 6 0 0
    else if !s.handleOk t.toNat then s.trapTile 1
    else if e.pendingEmpty then s.waitOn (s.tileWord t.toNat)
    else if x ≥ 4 then s.trapTile 2
    else if !tsetAllows e.state x then s.trapTile 3
    else if e.finalDue then s.stall
    else (s.setTo s.cur.core (s.entryOf t.toNat) x).advance)

/-- `tqry`: half of an entry, whose state word enters the read set of an open attempt (R194, R219). -/
def execTqry (d t : BitVec 6) (sel : BitVec 1) (s : State) : Result :=
  .next (
    if !s.handleOk t.toNat then s.trapTile 1
    else
      let (s1, ok) := s.addRead (s.tileWord t.toNat) 0
      if ok then
        (s1.setS d (if sel = 0 then (s.tileAt t.toNat).word0 else (s.tileAt t.toNat).base)).advance
      else s1)

/-! ## tld and tst (R195) -/

/-- The address of a byte of a logical row of a tile (R192). -/
def TileEntry.addr (e : TileEntry) (r b : Nat) : Word := e.base + BitVec.ofNat 64 (r * e.rowBytes + swz e.span r b)

/-- The sector that a logical segment of a row lies in, and the offset of each lane's word in it (R192, R195). -/
def TileEntry.segment (e : TileEntry) (r g : Nat) : Word × (Nat → Nat) :=
  (e.addr r (128 * g) &&& ~~~(127 : Word), fun l => (e.addr r (128 * g + 4 * l)).toNat % 128)

/-- The row and segment of the scalar operand lie in the tile, and its reserved bits are 0 (R195). -/
def TileEntry.segmentOk (e : TileEntry) (x : Word) (top : Nat) : Bool :=
  decide (fieldOf x top 27 = 0 ∧ fieldOf x 11 0 ≤ e.rowsM1 ∧ fieldOf x 26 12 < e.rsec)

/-- `tld` (R195). -/
def execTld (d : BitVec 7) (t sb : BitVec 6) (s : State) : Result :=
  let e := s.tileAt t.toNat
  let x := s.getS sb
  let g := s.guarded
  .next (s.withRegs [d] (
    if !s.handleOk t.toNat then s.trapTile 1
    else if !e.segmentOk x 63 then s.trapTile 2
    else if e.state = 0 then s.trapTile 3
    else if e.state = 1 then s.waitFor (s.tileWord t.toNat)
    else if e.stampV ∧ e.stamp ≠ e.span then s.trap causeLAYOUT e.base 0 0
    else if g.isEmpty then s.advance
    else
      let q := e.segment (fieldOf x 11 0) (fieldOf x 26 12)
      s.oneAccess q.1 128 .read (fun p => .load (lanePlaces p g q.2) (.lanes d.toNat g))))

/-- A store of the executing fragment's program order is on its way to another device (R195). -/
def State.storesOut (s : State) : Bool := s.accesses.any (fun a => a.precedes s.fr && a.isRemote && a.op.isWrite)

/-- A store that makes its tile ready: what comes before it in program order is performed first, and the change is made
when the store has been performed (R193, R195). Until then no other store makes the tile ready, as exactly one may. -/
def State.storeFinal (s : State) (entry : Nat) (sector : Word) (make : Place → AccessOp) : State :=
  let s1 := ({ s with deferring := false } : State).drain s.cur
  if s1.movedOn s then s1
  else
  let s2 := s1.oneAccess sector 128 .write make
  if s2.stalled || s2.fr.status != .ready || s2.wv.active != s.wv.active then s2
  else match s2.accesses.find? (fun a => a.ofFrag s.cur && !s1.accesses.any (fun b => b.id == a.id)) with
    | some a =>
      let s3 : State := { s2 with
        accesses := s2.accesses.map (fun b => if b.id == a.id then { b with final := some entry } else b) }
      s3.setTile s.cur.core entry { s3.tileOf s.cur.core entry with finalDue := true }
    | none => s2.finalTile s.cur.core entry

/-- `tst` (R195); with FINAL inside an attempt it is unsupported whatever its tile (R219). -/
def execTst (d : BitVec 7) (t sb : BitVec 6) (s : State) : Result :=
  let e := s.tileAt t.toNat
  let x := s.getS sb
  let final := x.getLsbD 63
  let g := s.guarded
  .next (s.withRegs [d] (
    if s.inTx && final then s.abandonHere 6 0 0
    else if !s.handleOk t.toNat then s.trapTile 1
    else if final && e.pendingEmpty then s.waitOn (s.tileWord t.toNat)
    else if !e.segmentOk x 62 then s.trapTile 2
    else if e.state ≠ 1 then s.trapTile 3
    else if final && (e.finalDue || s.storesOut) then s.stall
    else
      let q := e.segment (fieldOf x 11 0) (fieldOf x 26 12)
      let make (p : Place) : AccessOp := .store (laneData p g q.2 (s.getV d))
      if final then
        if g.isEmpty then s.after (some (s.drain s.cur)) (fun u => (u.finalTile u.cur.core (s.entryOf t.toNat)).advance)
        else s.storeFinal (s.entryOf t.toNat) q.1 make
      else if g.isEmpty then s.advance
      else s.oneAccess q.1 128 .write make))

end Sys2Proof.Machine
end

