-- ==== Sys2Proof/Machine/Matrix.lean ====
section
/-! DEFINITION. The matrix engine: bank sets, accumulators, products and their completion, `msca`, the moves of
accumulator rows, fills and swaps (R232 to R252). -/

namespace Sys2Proof.Machine

/-- Cause WEIGHT_INTEGRITY (R83). -/
def causeWEIGHT : Nat := 0x40
/-- Cause SHAPE (R83). -/
def causeSHAPE : Nat := 0x41
/-- Cause FORMAT (R83). -/
def causeFORMAT : Nat := 0x42

/-- The matrix engine of a core. -/
def State.bank (s : State) (core : Nat) : Bank := getAt Bank.reset s.banks core
/-- The state with a core's matrix engine replaced. -/
def State.setBank (s : State) (core : Nat) (b : Bank) : State := { s with banks := putAt s.banks core b }
/-- A change of the bank-state word of a core (R226, R233). -/
def State.changeBank (s : State) (core : Nat) (b : Bank) : State := (s.setBank core b).writeWord (.bankState core)

/-! ## Accumulators (R235) -/

/-- The number of an accumulator element of an operator on a core. -/
def accKey (oper core tile row col : Nat) : Nat := ((oper * 256 + core) * 16 + tile) * 1024 + row * 128 + col

/-- An accumulator element. -/
def State.acc (s : State) (k : Nat) : Lane := getAt 0 s.accs k

/-- An accumulator element written. -/
def State.setAcc (s : State) (k : Nat) (x : Lane) : State := { s with accs := putAcc s.accs k x }

/-- Accumulator tiles that a pending instruction writes: those of its columns (R236, R239). -/
def MatKind.tiles (k : MatKind) : List Nat :=
  match k with
  | .product d _ n .. => upFrom d ((n + 127) / 128)
  | .scale d .. => [d]

/-! ## Arrangements and bank sets (R232 to R234) -/

/-- K and N of an arrangement (R232). -/
def arrShape (arr : Nat) : Nat × Nat :=
  match arr with
  | 0 => (1024, 128) | 1 => (512, 256) | 2 => (256, 512) | _ => (128, 1024)

/-- The weight format code of an element type (R233, R248). -/
def fmtOf (etype : Nat) : Option Nat :=
  match etype with
  | 9 => some 0 | 8 => some 1 | 4 => some 2 | 7 => some 3 | 10 => some 4 | _ => none

/-- Who uses matrix state: an operator on a core in a context, with the round it is boarded on, counted from 1. -/
structure MatUser where
  oper : Nat
  core : Nat
  ctx : Nat
  boarded : Nat
  deriving DecidableEq, Repr

/-- The executing wave as a user. -/
def State.matUser (s : State) : MatUser :=
  { oper := s.tk.oper, core := s.cur.core, ctx := s.ctxId, boarded := s.seat.boarded }

/-- A set may be used by a user (R234). -/
def SetUser.allows (u : SetUser) (m : MatUser) : Bool :=
  match u with
  | .nobody => false
  | .context c => c == m.ctx
  | .round r => m.boarded == r + 1

/-- Boarded seats of a core (R312). -/
def State.boardedSeats (s : State) (core : Nat) : List (Nat × Seat) :=
  s.seats.filter (fun x => x.1 % 256 == core && x.2.boarded != 0 && (x.2.state == .installed || x.2.state == .draining))

/-- OWN: the sets of the core belong to a milk round (R233, R314). -/
def State.ownBank (s : State) (core : Nat) : Bool := (s.bank core).own

/-- A slot of a context is boarded on the core. -/
def State.ownsBank (s : State) (core ctx : Nat) : Bool :=
  (s.boardedSeats core).any (fun x => (getAt Operator.reset s.operators (x.1 / 256)).ctx == ctx)

/-- The bank-state word as a user's context sees it (R233). -/
def State.bankWord (s : State) (m : MatUser) : Word :=
  let b := s.bank m.core
  let ua := b.active.user.allows m
  let ui := b.inactive.user.allows m
  let pend := b.queue.countP (fun o => o.ctx == m.ctx && (match o.kind with
    | .product .. => true
    | .scale .. => false))
  let swaps := b.swapsBy.foldl (fun n x => if x.1.allows m then n + x.2 else n) 0
  let fa := if ua then b.active.tag * 2 ^ 48 + 2 ^ 30 + b.active.arr * 2 ^ 26 + b.active.fmt * 2 ^ 21
      + (if b.active.pois = 0 then 0 else 2 ^ 17) + (if b.active.st = 2 then 2 ^ 15 else 0) else 0
  let fi := if ui then b.inactive.tag * 2 ^ 32 + 2 ^ 29 + b.inactive.arr * 2 ^ 24 + b.inactive.fmt * 2 ^ 18
      + (if b.inactive.pois = 0 then 0 else 2 ^ 16) + b.inactive.st * 2 ^ 13 else 0
  BitVec.ofNat 64 (fa + fi + (if b.own && s.ownsBank m.core m.ctx then 2 ^ 28 else 0) + pend % 32 * 2 ^ 8 + swaps % 256)

/-- The sets of a core that only a context may use emptied, with the fills on their way to them, as its last slot there is saved
or freed (R234). -/
def State.emptySets (s : State) (core ctx : Nat) : State :=
  let b := s.bank core
  let cut (q : BankSet) : BankSet := if q.user = .context ctx then BankSet.reset else q
  if b.active.user = .context ctx ∨ b.inactive.user = .context ctx then
    s.changeBank core { b with
      active := cut b.active, inactive := cut b.inactive, fills := b.fills.filter (fun f => f.ctx != ctx) }
  else s

/-- The swaps that a user's sets have been in no longer counted: its number is given up (R233). -/
def State.forgetUser (s : State) (u : SetUser) : State :=
  { s with banks := mapTab (fun _ b => { b with swapsBy := b.swapsBy.filter (fun x => x.1 != u) }) s.banks }

/-! ## Completion (R236, R241, R245) -/

/-- A group of a set that is not listed: zeros. -/
def zeroGroup : WeightGroup := { w := List.replicate 32 0, ew := 0, invalid := false }

/-- A group of weights of a column. -/
def groupOf (ws : Tab WeightGroup) (j g : Nat) : WeightGroup := getAt zeroGroup ws (j * 32 + g)

/-- The weights of a group as GroupSum takes them (R63). -/
def WeightGroup.aligned (g : WeightGroup) : Option (List Int × Int) := if g.invalid then none else some (g.w, g.ew)

/-- One accumulator element after the groups of its row and column (R60, R62 to R65). -/
def accumulate (path : Nat) (t : EType) (sat : Bool) (ws : Tab WeightGroup) (j : Nat) (groups : List (List Nat))
    (acc0 : Nat) : Nat × Flags :=
  groups.zipIdx.foldl (fun r x =>
    let wg := groupOf ws j x.2
    match path with
    | 0 =>
      let step := accumulateFp32 r.1 (groupSum (alignGroup16 t (x.1.map (valueOf t))) wg.aligned)
      (step.1, r.2 ||| step.2)
    | 1 => (accumulateInt sat r.1 (dotInts (x.1.map (intOf t)) wg.w), r.2)
    | _ => (accumulateInt sat r.1 (dotBits (path == 3) (x.1.map (· == 1)) (wg.w.map (· == 1))), r.2)) (acc0, 0)

/-- The accumulator element in a row and column of a product. -/
def productKey (oper core d i j : Nat) : Nat := accKey oper core (d + j / 128) i (j % 128)

/-- A pending instruction's effect on the accumulators and the flags it raises (R241, R245). -/
def State.applyMat (s : State) (core : Nat) (o : MatOp) : State × Flags :=
  match o.kind with
  | .product d m n zero path etype sat rows ws =>
    let t := (etypeOf etype).getD .i8
    let s1 := if zero then
        (List.range m).foldl (fun u i => (List.range n).foldl (fun v j => v.setAcc (productKey o.oper core d i j) 0) u) s
      else s
    rows.foldl (fun r row => (List.range n).foldl (fun q j =>
      let k := productKey o.oper core d row.1 j
      let x := accumulate path t sat ws j row.2 (q.1.acc k).toNat
      (q.1.setAcc k (BitVec.ofNat 32 x.1), q.2 ||| x.2)) r) (s1, 0)
  | .scale d src rs cs =>
    (List.range 8).foldl (fun r i => (List.range 128).foldl (fun q j =>
      let kd := accKey o.oper core d i j
      let x := scaleAccumulate (q.1.acc kd).toNat (src.getD (128 * i + j) 0) (rs.getD i 0) (cs.getD j 0)
      (q.1.setAcc kd (BitVec.ofNat 32 x.1), q.2 ||| x.2)) r) (s, 0)

/-- The copy engine of a core. -/
def State.copyRow (s : State) (core : Nat) : CopyRow := getAt CopyRow.reset s.copies core
/-- The state with a core's copy engine replaced. -/
def State.setCopies (s : State) (core : Nat) (r : CopyRow) : State := { s with copies := putAt s.copies core r }

/-- The carried instruction of a copy command has completed (R261). -/
def State.noteCarried (s : State) (core : Nat) (n : Option Nat) : State :=
  match n with
  | none => s
  | some k =>
    let r := s.copyRow core
    s.setCopies core { r with cmds := r.cmds.map (fun c => if c.id = k then { c with carried := true } else c) }

/-- A product, which PEND counts (R233). -/
def MatOp.isProduct (o : MatOp) : Bool :=
  match o.kind with
  | .product .. => true
  | .scale .. => false

/-- PEND (R233): product instructions pending. -/
def Bank.pend (b : Bank) : Nat := b.queue.countP MatOp.isProduct

/-- The pending instructions of a core changed: a change of PEND, which counts products alone, is a write of the bank-state word
(R226, R233). -/
def State.setPending (s : State) (core : Nat) (q : List MatOp) : State :=
  let b := s.bank core
  if b.pend = q.countP MatOp.isProduct then s.setBank core { b with queue := q }
  else s.changeBank core { b with queue := q }

/-- The oldest pending instruction of a core completes: its accumulators are written, its flags reach the wave that issued
it while that wave's task exists, and PEND falls (R236, R241, R251). -/
def State.completeMat (s : State) (core : Nat) : State :=
  match (s.bank core).queue with
  | [] => s
  | o :: rest =>
    let (s1, f) := s.applyMat core o
    let s1 := s1.noteCarried core o.carried
    let s2 := if (findAt s1.waves o.agent.waveKey).isSome ∧ (s1.wvOf o.agent).task = o.task then
        s1.setWvOf o.agent { s1.wvOf o.agent with fstat := (s1.wvOf o.agent).fstat ||| f }
      else s1
    s2.setPending core rest

/-- Pending instructions of a core completed up to the last that satisfies a test. -/
def State.completeThrough (s : State) (core : Nat) (p : MatOp → Bool) : State :=
  let q := (s.bank core).queue
  let n := q.zipIdx.foldl (fun k x => if p x.1 then x.2 + 1 else k) 0
  (List.range n).foldl (fun t _ => t.completeMat core) s

/-- The interlock of R236: pending instructions that write tiles of an operator complete first. -/
def State.settleAccs (s : State) (oper core first n : Nat) : State :=
  s.completeThrough core (fun o => o.oper == oper && o.kind.tiles.any (fun t => decide (first ≤ t ∧ t < first + n)))

/-- The interlock of R53: pending instructions of the executing wave complete first. -/
def State.settleFlags (s : State) : State :=
  s.completeThrough s.cur.core (fun o => o.carried.isNone && o.agent.waveKey == s.cur.waveKey)

/-- MATRIX_INSTRUCTION_COMPLETE: the oldest pending instruction of the core, unless a `cpym` carries it and completes it
itself (R236, R251). -/
def execMatrixInstructionComplete (core : Nat) (s : State) : Result := .next (s.completeMat core)

/-! ## Why a matrix instruction does not go on -/

/-- What stops a matrix instruction at its checks (R238). -/
inductive MatStop where
  | cause (cause detail : Nat) (taddr : Word)
  | waitTile
  | fail (fails : List ((Nat × Nat) × Word))
  | hostPage (page : Nat) (va : Word)
  | poison (p : Place)
  /-- Bytes of another device that it reads are to be fetched (R112). -/
  | needs (reads : List (Place × Target))
  deriving DecidableEq, Repr

/-- Every address of an engine's access translated for an operator on a core (R181): the places, or what stops it. -/
def State.xlateEngine (s : State) (m : MatUser) (vas : List Word) (n : Need) : Except MatStop (List (Place × Target)) :=
  let rs := vas.map (fun va => (s.translate m.oper m.core m.ctx va n, va))
  let fails := rs.filterMap (fun r => match r.1 with
    | .error e => some (e, r.2)
    | .ok _ => none)
  let oks := rs.filterMap (fun r => match r.1 with
    | .ok x => some x
    | .error _ => none)
  if !fails.isEmpty then .error (.fail (onePerPage (s.pageOf m.core m.ctx) fails))
  else match oks.find? (fun x => x.1.isHost && x.2 == .here && !s.ats.contains (hostPage x.1)) with
    | some x => .error (.hostPage (hostPage x.1) x.1.va)
    | none => .ok oks

/-- The addresses of the bytes of some logical bytes of a row (R192). -/
def TileEntry.rowAddrs (e : TileEntry) (r first n : Nat) : List Word := (upFrom first n).map (fun b => e.addr r b)

/-- The sector of an address. -/
def sectorVa (a : Word) : Word := a &&& ~~~(127 : Word)

/-- The list without repeats. -/
def distinctWords (l : List Word) : List Word := l.foldl (fun acc a => if acc.contains a then acc else acc ++ [a]) []

/-- The places of addresses whose sectors have been translated. -/
def placesIn (secs : List (Word × (Place × Target))) (as : List Word) : List (Place × Target) :=
  as.map (fun a =>
    match secs.find? (fun q => q.1 == sectorVa a) with
    | some q => (q.2.1.plus ((a - q.1).toNat), q.2.2)
    | none => (plainPlace 0 0, .here))

/-- Elements of a width in a run of bytes, from one on (R40). -/
def elementsOf (w first n : Nat) (bytes : List Byte) : List Nat :=
  let x := ofBytes bytes
  (List.range n).map (fun i => (x >>> (w * (first + i))) % 2 ^ w)

/-- The bytes of a logical row that elements from one on lie in: the first byte and the count. -/
def elementBytes (w first n : Nat) : Nat × Nat :=
  let lo := w * first / 8
  (lo, (w * (first + n) + 7) / 8 - lo)

/-- Lists of at most 32 elements, in order (R62). -/
def groupsOf32 (l : List Nat) : Nat → List (List Nat)
  | 0 => []
  | n + 1 => if l.isEmpty then [] else l.take 32 :: groupsOf32 (l.drop 32) n

/-! ## Products (R239 to R243) -/

/-- The fields of a shape scalar (R239). -/
structure Shape where
  row0 : Nat
  koff : Nat
  bin : Bool
  arr : Nat
  k : Nat
  n : Nat
  m : Nat
  deriving DecidableEq, Repr

/-- A shape scalar's fields. -/
def shapeOf (x : Word) : Shape :=
  { row0 := fieldOf x 59 48, koff := fieldOf x 47 32, bin := x.getLsbD 30, arr := fieldOf x 29 28, k := fieldOf x 27 16,
    n := fieldOf x 15 4, m := fieldOf x 3 0 }

/-- M, N and K are all above 0. -/
def Shape.used (q : Shape) : Bool := decide (q.m > 0 ∧ q.n > 0 ∧ q.k > 0)

/-- The products: `mma`, `mmaz`, `mmab`. -/
inductive ProductForm where
  | mma | mmaz | mmab
  deriving DecidableEq, Repr

/-- SHAPE 2 of a shape scalar (R238, R239). -/
def shapeBits (form : ProductForm) (x : Word) : Bool :=
  let q := shapeOf x
  decide (fieldOf x 63 60 ≠ 0 ∨ x.getLsbD 31 = true ∨ (form ≠ .mmab ∧ q.bin = true) ∨ q.m > 8 ∨ q.n > (arrShape q.arr).2
    ∨ q.k > (arrShape q.arr).1 ∨ q.koff % 32 ≠ 0)

/-- SHAPE 3 of a shape scalar: rows or elements outside the tile (R239). -/
def shapeOutside (q : Shape) (e : TileEntry) (t : EType) : Bool :=
  decide ((q.m > 0 ∧ q.row0 + q.m - 1 > e.rowsM1) ∨ q.koff + q.k > e.rsec * 1024 / t.width)

/-- The A type is one that a form accepts (R240). -/
def formAccepts (form : ProductForm) (t : EType) : Bool :=
  match form with
  | .mmab => t == .b1
  | _ => !(t == .i32 || t == .n32 || t == .b1)

/-- The path of an A type and a weight format, if the form accepts the format (R240). -/
def pathOf (form : ProductForm) (bin : Bool) (t : EType) (fmt : Nat) : Option Nat :=
  match form with
  | .mmab => if fmt = 4 then some (if bin then 3 else 2) else none
  | _ => if fmt = 4 then none else if t.isInt && fmt == 2 then some 1 else some 0

/-- The causes of a product in the order of R238, up to LAYOUT. -/
def State.productCause (s : State) (u : MatUser) (form : ProductForm) (d t : Nat) (x : Word) (et : EType) :
    Option MatStop :=
  let seat := s.seatOf u.oper u.core
  let e := s.tileOf u.core (seat.partBase + t)
  let q := shapeOf x
  let a := (s.bank u.core).active
  let shape (n : Nat) : Option MatStop := some (.cause causeSHAPE n 0)
  if t ≥ seat.partSize then some (.cause causeTILESTATE 1 0)
  else if e.state = 0 then some (.cause causeTILESTATE 3 0)
  else if d ≥ seat.accSize ∨ d + (q.n + 127) / 128 > seat.accSize then shape 1
  else if shapeBits form x then shape 2
  else if shapeOutside q e et then shape 3
  else if q.used && a.st == 2 && !a.user.allows u then shape 7
  else if q.used && a.st != 2 then shape 5
  else if q.used && q.arr != a.arr then shape 4
  else if !formAccepts form et then some (.cause causeFORMAT 1 0)
  else if et.code ≠ e.etype then some (.cause causeFORMAT 2 0)
  else if q.used && (pathOf form q.bin et a.fmt).isNone then some (.cause causeFORMAT 3 0)
  else if e.stampV ∧ e.stamp ≠ e.span then some (.cause causeLAYOUT 0 e.base)
  else none

/-- A row of a tile is live: its record's kind is not 0, where the tile is a task's (R242). -/
def State.rowLive (s : State) (u : MatUser) (t row : Nat) : Bool :=
  let e := s.tileOf u.core ((s.seatOf u.oper u.core).partBase + t)
  if e.task ∧ row ≤ 7 then
    (s.mem.readByte (plainPlace (scratchKey u.oper u.core (1024 * t + 128 * row + 8)) 0)).toNat % 4 ≠ 0
  else true

/-- Everything that a product reads at issue, or what stops it (R238, R241). -/
def State.productPlan (s : State) (o : Owner) (u : MatUser) (rd : Place → Byte) (form : ProductForm) (d t : Nat) (x : Word) (et : EType)
    (sat : Bool) : Except MatStop (MatKind × List Part) :=
  match s.productCause u form d t x et with
  | some c => .error c
  | none =>
    let e := s.tileOf u.core ((s.seatOf u.oper u.core).partBase + t)
    let q := shapeOf x
    let a := (s.bank u.core).active
    let path := (pathOf form q.bin et a.fmt).getD 0
    if e.state = 1 then .error .waitTile
    else if !q.used then .ok (.product d q.m q.n (form == .mmaz) path et.code sat [] [], [])
    else
      let eb := elementBytes et.width q.koff q.k
      let rowVas := (List.range q.m).map (fun i => e.rowAddrs (q.row0 + i) eb.1 eb.2)
      let secVas := distinctWords (rowVas.flatMap (fun r => r.map sectorVa))
      match s.xlateEngine u secVas .read with
      | .error c => .error c
      | .ok xs =>
        let secs := secVas.zip xs
        let reads := rowVas.flatMap (placesIn secs)
        if a.pois ≠ 0 then .error (.cause causeWEIGHT a.pois 0)
        else if !s.allFetched o reads then .error (.needs reads)
        else match reads.find? (s.enginePoison o) with
          | some p => .error (.poison p.1)
          | none =>
            let rows := ((List.range q.m).zip rowVas).filterMap (fun r =>
              if s.rowLive u t (q.row0 + r.1) then
                let bytes := (placesIn secs r.2).map (s.engineByte o rd)
                some (r.1, groupsOf32 (elementsOf et.width ((et.width * q.koff % 8) / et.width) q.k bytes) 33)
              else none)
            .ok (.product d q.m q.n (form == .mmaz) path et.code sat rows a.groups,
              xs.map (fun p => { target := p.2, op := .load (placesFrom p.1 128) .none, kind := p.1.kind }))

/-- The executing fragment at what stops its matrix instruction. -/
def State.stopMat (s : State) (tile : Nat) (c : MatStop) : State :=
  match c with
  | .cause cause detail taddr => s.trap cause taddr 0 detail
  | .waitTile => s.waitOn (s.tileWord tile)
  | .fail fails => s.suspendAll fails .read
  | .hostPage p va => s.setFr { s.fr with status := .awaitingPage p 1 va }
  | .poison p => s.trapPoison p 0
  | .needs xs => s.awaitFetch xs

/-- A matrix instruction put on its core's queue; PEND rises for a product, and where it stands at its highest value the oldest
product, with what is queued before it, completes first (R233, R241). -/
def State.queueMat (s : State) (core : Nat) (o : MatOp) : State :=
  let q := (s.bank core).queue
  let s1 := if o.isProduct ∧ (s.bank core).pend ≥ 31 then
      (List.range (q.findIdx MatOp.isProduct + 1)).foldl (fun t _ => t.completeMat core) s
    else s
  s1.setPending core ((s1.bank core).queue ++ [o])

/-- The executing wave's matrix instruction of a kind. -/
def State.waveMat (s : State) (k : MatKind) : MatOp :=
  { oper := s.tk.oper, ctx := s.ctxId, agent := s.cur, task := s.wv.task, carried := none, kind := k }

/-- A product of the executing wave (R241). -/
def State.product (s : State) (form : ProductForm) (d : BitVec 4) (t b : BitVec 6) : State :=
  match etypeOf s.etypeCode with
  | none => s.trap causeTYPE 0 0 0
  | some et =>
    if s.inTx then s.abandonHere 6 0 0
    else match s.productPlan s.waveOwner s.matUser s.readByte form d.toNat t.toNat (s.getS b) et s.sat with
      | .error c => s.stopMat t.toNat c
      | .ok (k, parts) =>
        match s.forceParts parts with
        | none => s.stall
        | some s1 =>
          if s1.movedOn s then s1
          else match s1.productPlan s1.waveOwner s1.matUser s1.readByte form d.toNat t.toNat (s.getS b) et s.sat with
          | .error _ => s.stall
          | .ok (k', _) =>
            let s2 := s1.settleAccs s.tk.oper s.cur.core d.toNat (max 1 k.tiles.length)
            (s2.takeFresh.queueMat s.cur.core (s2.waveMat k')).advance

/-- `mma` (R241). -/
def execMma (d : BitVec 4) (t b : BitVec 6) (s : State) : Result := .next (s.product .mma d t b)

/-- `mmaz`: as `mma`, its rows and columns zeroed first (R241). -/
def execMmaz (d : BitVec 4) (t b : BitVec 6) (s : State) : Result := .next (s.product .mmaz d t b)

/-- `mmab`: binary products (R241). -/
def execMmab (d : BitVec 4) (t b : BitVec 6) (s : State) : Result := .next (s.product .mmab d t b)

/-! ## msca (R245) -/

/-- The elements of an accumulator tile by rows, as they stand. -/
def State.accTile (s : State) (oper core a : Nat) : List Nat :=
  (List.range 8).flatMap (fun i => (List.range 128).map (fun j => (s.acc (accKey oper core a i j)).toNat))

/-- The scales of a scale block with the source tile as it stands, and the reads, or what stops `msca` (R238, R245). -/
def State.scalePlan (s : State) (o : Owner) (u : MatUser) (rd : Place → Byte) (d a : Nat) (va : Word) :
    Except MatStop (MatKind × List Part) :=
  let seat := s.seatOf u.oper u.core
  if d ≥ seat.accSize ∨ a ≥ seat.accSize then .error (.cause causeSHAPE 1 0)
  else if !aligned va 128 then .error (.cause causeMISALIGN 0 va)
  else match s.xlateEngine u ((List.range 5).map (fun i => va + BitVec.ofNat 64 (128 * i))) .read with
    | .error c => .error c
    | .ok xs =>
      let reads := xs.flatMap (fun x => (placesFrom x.1 128).map (fun p => (p, x.2)))
      if !s.allFetched o reads then .error (.needs reads)
      else match reads.find? (s.enginePoison o) with
      | some p => .error (.poison p.1)
      | none =>
        let bytes := reads.map (s.engineByte o rd)
        let word (i : Nat) : Nat := ofBytes ((bytes.drop (4 * i)).take 4)
        .ok (.scale d (s.accTile u.oper u.core a) ((List.range 8).map word) ((List.range 128).map (fun j => word (32 + j))),
          xs.map (fun p => { target := p.2, op := .load (placesFrom p.1 128) .none, kind := p.1.kind }))

/-- `msca` (R245): its scales are read as reads of the wave, and its source tile is taken as it stands once the instructions that
write it have completed, which later writes of the tile do not change (R236). -/
def execMsca (d a : BitVec 4) (b : BitVec 6) (s : State) : Result :=
  .next (
    if s.inTx then s.abandonHere 6 0 0
    else match s.scalePlan s.waveOwner s.matUser s.readByte d.toNat a.toNat (s.getS b) with
      | .error c => s.stopMat 0 c
      | .ok (_, parts) =>
        match s.forceParts parts with
        | none => s.stall
        | some s0 =>
          if s0.movedOn s then s0
          else
            let s1 := (s0.settleAccs s.tk.oper s.cur.core d.toNat 1).settleAccs s.tk.oper s.cur.core a.toNat 1
            match s1.scalePlan s1.waveOwner s1.matUser s1.readByte d.toNat a.toNat (s.getS b) with
            | .error _ => s.stall
            | .ok (k, _) => (s1.takeFresh.queueMat s.cur.core (s1.waveMat k)).advance)

/-! ## mrd, mwr, mzero (R246, R247) -/

/-- The elements that a position scalar names: for lane l of an accumulator tile (R246). -/
def State.accLane (s : State) (tile : Nat) (x : Word) (l : Nat) : Nat :=
  accKey s.tk.oper s.cur.core tile (fieldOf x 2 0) (32 * fieldOf x 4 3 + l)

/-- `mrd`: the elements of guarded lanes, zeroed when the position scalar says so (R246). -/
def execMrd (d : BitVec 6) (a : BitVec 4) (b : BitVec 6) (s : State) : Result :=
  let x := s.getS b
  .next (s.withRegs [d.setWidth 7] (
    if a.toNat ≥ s.seat.accSize then s.trap causeSHAPE 0 0 1
    else if fieldOf x 63 6 ≠ 0 then s.trap causeSHAPE 0 0 2
    else
      let s1 := s.settleAccs s.tk.oper s.cur.core a.toNat 1
      let s2 := s1.putRaw (d.setWidth 7) (fun l => s1.acc (s1.accLane a.toNat x l))
      if x.getLsbD 5 then
        let ks := s1.guarded.map (s1.accLane a.toNat x)
        let s3 := match s2.attempt with
          | some t => s2.setAttempt { t with
              alog := t.alog ++ [(accKey s.tk.oper s.cur.core a.toNat 0 0, ks.map (fun k => (k, s1.acc k)))] }
          | none => s2
        ks.foldl (fun t k => t.setAcc k 0) s3
      else s2))

/-- `mwr`: guarded lanes moved into an accumulator row (R246). -/
def execMwr (d : BitVec 4) (a b : BitVec 6) (s : State) : Result :=
  let x := s.getS b
  .next (s.withRegs [a.setWidth 7] (
    if s.inTx then s.abandonHere 6 0 0
    else if d.toNat ≥ s.seat.accSize then s.trap causeSHAPE 0 0 1
    else if fieldOf x 63 5 ≠ 0 then s.trap causeSHAPE 0 0 2
    else
      let s1 := s.settleAccs s.tk.oper s.cur.core d.toNat 1
      let v := s1.getV (a.setWidth 7)
      (s1.guarded.foldl (fun t l => t.setAcc (s1.accLane d.toNat x l) (laneOf v l)) s1).advance))

/-- The elements of a run of accumulator tiles dropped: they read as 0. -/
def State.zeroAccs (s : State) (oper core first n : Nat) : State :=
  let lo := accKey oper core first 0 0
  { s with accs := s.accs.filter (fun x => !(decide (lo ≤ x.1) && decide (x.1 < lo + 1024 * n))) }

/-- `mzero` (R247). -/
def execMzero (d : BitVec 4) (n : BitVec 5) (s : State) : Result :=
  .next (
    if s.inTx then s.abandonHere 6 0 0
    else if d.toNat + n.toNat > s.seat.accSize then s.trap causeSHAPE 0 0 1
    else ((s.settleAccs s.tk.oper s.cur.core d.toNat n.toNat).zeroAccs s.tk.oper s.cur.core d.toNat n.toNat).advance)

/-! ## Fills and swaps (R248 to R250) -/

/-- SHAPE 7 of `mldb` and `mswap`: the sets belong to a round, or the inactive set to another context (R238). -/
def State.setsTaken (s : State) (u : MatUser) : Bool :=
  let i := (s.bank u.core).inactive
  s.ownBank u.core || (i.st != 0 && !i.user.allows u)

/-- The causes of `mldb` in the order of R238. -/
def State.fillCause (s : State) (u : MatUser) (t : Nat) (x : Word) : Option MatStop :=
  let seat := s.seatOf u.oper u.core
  let e := s.tileOf u.core (seat.partBase + t)
  let (k, n) := arrShape (fieldOf x 17 16)
  let w := ((etypeOf e.etype).getD .i32).width
  let shape (c : Nat) : Option MatStop := some (.cause causeSHAPE c 0)
  if t ≥ seat.partSize then some (.cause causeTILESTATE 1 0)
  else if e.state = 0 then some (.cause causeTILESTATE 3 0)
  else if fieldOf x 31 18 ≠ 0 ∨ fieldOf x 63 44 ≠ 0 then shape 2
  else if fieldOf x 43 32 + n - 1 > e.rowsM1 ∨ k > e.rsec * 1024 / w then shape 3
  else if s.ownsBank u.core u.ctx then shape 6
  else if s.setsTaken u then shape 7
  else if (fmtOf e.etype).isNone then some (.cause causeFORMAT 4 0)
  else if e.stampV ∧ e.stamp ≠ e.span then some (.cause causeLAYOUT 0 e.base)
  else none

/-- The fill of an `mldb`, with what its bytes hold now, or what stops it (R248). -/
def State.fillPlan (s : State) (u : MatUser) (t : Nat) (x : Word) : Except MatStop Fill :=
  match s.fillCause u t x with
  | some c => .error c
  | none =>
    let e := s.tileOf u.core ((s.seatOf u.oper u.core).partBase + t)
    let (k, n) := arrShape (fieldOf x 17 16)
    let w := ((etypeOf e.etype).getD .i32).width
    if e.state = 1 then .error .waitTile
    else
      let rowVas := (List.range n).map (fun j => e.rowAddrs (fieldOf x 43 32 + j) 0 (k * w / 8))
      let secVas := distinctWords (rowVas.flatMap (fun r => r.map sectorVa))
      match s.xlateEngine u secVas .read with
      | .error c => .error c
      | .ok xs =>
        let secs := secVas.zip xs
        let reads := rowVas.flatMap (placesIn secs)
        if !s.allFetched s.waveOwner reads then .error (.needs reads)
        else .ok {
          oper := u.oper, ctx := u.ctx, tag := fieldOf x 15 0, arr := fieldOf x 17 16, etype := e.etype, k := k,
          rows := rowVas.map (fun r => (placesIn secs r).map (fun p => (p.1, p.2, s.engineByte s.waveOwner s.readByte p))),
          poisoned := distinct ((reads.filter (s.enginePoison s.waveOwner)).map (fun p => sectorOf p.1.key)) }

/-- `mldb` (R248): of the bank-state word STI, USEI and POISI change, the rest when the fill ends. -/
def execMldb (t b : BitVec 6) (s : State) : Result :=
  .next (
    if s.inTx then s.abandonHere 6 0 0
    else match s.fillPlan s.matUser t.toNat (s.getS b) with
      | .error c => s.stopMat t.toNat c
      | .ok f =>
        let bk := s.bank s.cur.core
        (s.takeFresh.changeBank s.cur.core { bk with
          fills := bk.fills ++ [f]
          inactive := { bk.inactive with st := 1, pois := 0, user := .context s.ctxId } }).advance)

/-- A byte of a fill, read at the end of the fill or at its beginning as the device chooses (R248).
Log entry 64 (DESIGN CHOICE, unsafe). -/
def State.fillByte (s : State) (x : Place × Target × Byte) : Byte :=
  match x.2.1 with
  | .chip _ => x.2.2
  | _ => if Config.readsLate s.fresh (sectorOf x.1.key) then s.mem.readByte x.1 else x.2.2

/-- A sector of a fill is read as poisoned, at the same instant as its bytes (R248). -/
def State.fillPoison (s : State) (f : Fill) (x : Place × Target × Byte) : Bool :=
  let early := f.poisoned.contains (sectorOf x.1.key)
  match x.2.1 with
  | .chip _ => early
  | _ => if Config.readsLate s.fresh (sectorOf x.1.key) then s.mem.poisoned x.1.key else early

/-- A group of 32 weights aligned and stored (R63); b1 weights are stored as bits. -/
def storeGroup (t : EType) (l : List Nat) : WeightGroup :=
  if t = .b1 then { w := l.map (fun (x : Nat) => (x : Int)), ew := 0, invalid := false }
  else match alignWeights12 t (l.map (valueOf t)) with
    | some g => { w := g.1, ew := g.2, invalid := false }
    | none => { w := List.replicate 32 0, ew := 0, invalid := true }

/-- The groups of the columns of a set. -/
def groupTable (t : EType) (cols : List (List Nat)) : Tab WeightGroup :=
  cols.zipIdx.flatMap (fun c => (groupsOf32 c.1 33).zipIdx.map (fun g => (c.2 * 32 + g.2, storeGroup t g.1)))

/-- MLDB_FILL_COMPLETE: the oldest queued fill of the core is done; STI becomes full when it is the last. A poisoned sector raises
POISI, and the end of a clean fill leaves it as it is (R248). -/
def execMldbFillComplete (core : Nat) (s : State) : Result :=
  let b := s.bank core
  .next (match b.fills with
    | [] => s
    | f :: rest =>
      let t := (etypeOf f.etype).getD .i8
      let cols := f.rows.map (fun r => elementsOf t.width 0 f.k (r.map s.fillByte))
      let bad := f.rows.any (fun r => r.any (s.fillPoison f))
      let set : BankSet := {
        st := if rest.isEmpty then 2 else 1, tag := f.tag, arr := f.arr, fmt := (fmtOf f.etype).getD 0,
        pois := if bad then 2 else b.inactive.pois, user := .context f.ctx, groups := groupTable t cols }
      s.takeFresh.changeBank core { b with fills := rest, inactive := set })

/-- The inactive set of a core made active (R249). -/
def State.swapBanks (s : State) (core : Nat) : State :=
  let s1 := s.completeThrough core (fun _ => true)
  let b := s1.bank core
  let u := b.inactive.user
  let counts := if b.swapsBy.any (fun x => x.1 == u) then
      b.swapsBy.map (fun x => if x.1 = u then (x.1, x.2 + 1) else x)
    else b.swapsBy ++ [(u, 1)]
  s1.changeBank core { b with
    active := b.inactive, inactive := BankSet.reset, swaps := b.swaps + 1, swapsBy := counts }

/-- An engine command of the executing fragment put into its attempt's buffer; a fifth ends the attempt (R220). -/
def State.bufferCmd (s : State) (c : Command) : State :=
  match s.attempt with
  | none => s
  | some a =>
    if a.cmds.length ≥ 4 then s.abandonHere 3 0 0
    else (s.setAttempt { a with cmds := a.cmds ++ [c] }).advance

/-- A command with nothing but its kind. -/
def State.plainCmd (s : State) (k : CmdKind) : Command :=
  { kind := k, dst := 0, tl := 0, regs := [], mr := s.fr.mr, pc := s.fr.pc, data := [],
    places := [] }

/-- `mswap` (R219, R249). -/
def execMswap (s : State) : Result :=
  let core := s.cur.core
  .next (
    if s.ownsBank core s.ctxId then s.trap causeSHAPE 0 0 6
    else if s.setsTaken s.matUser then s.trap causeSHAPE 0 0 7
    else if (s.bank core).inactive.st ≠ 2 then s.waitFor (.bankState core)
    else if s.inTx then
      let (s1, ok) := s.addRead (.bankState core) 0
      if ok then s1.bufferCmd (s1.plainCmd .mswap) else s1
    else (s.swapBanks core).advance)

/-- `mqry` (R250). -/
def execMqry (d : BitVec 6) (s : State) : Result :=
  let (s1, ok) := s.addRead (.bankState s.cur.core) 0
  .next (if ok then (s1.setS d (s.bankWord s.matUser)).advance else s1)

end Sys2Proof.Machine
end

