-- ==== Sys2Proof/Machine/Copy.lean ====
section
/-! DEFINITION. The copy engine: its commands and their entries, the accesses of a command, completion and its tile
steps, carried matrix instructions, failures, and the timeline counters (R110, R111, R253 to R270). -/

namespace Sys2Proof.Machine

/-- Cause COPY_FAULT (R83). -/
def causeCOPY : Nat := 0x50

/-! ## Timeline counters (R111, R264, R266, R267) -/

/-- One move of a counter: past a completed number, or into the error state before a failed one. -/
def Timeline.runOne (t : Timeline) : Timeline :=
  if t.done.contains (t.value + 1) then
    { t with value := t.value + 1, done := t.done.filter (fun k => decide (k ≠ t.value + 1)) }
  else if !t.error && t.fails.contains (t.value + 1) then { t with error := true, failed := t.value + 1 }
  else t

/-- The value moved as far as completed numbers go (R111). -/
def Timeline.run (t : Timeline) : Timeline := (List.range (t.done.length + 1)).foldl (fun u _ => u.runOne) t

/-- A number completed. -/
def Timeline.complete (t : Timeline) (n : Nat) : Timeline := ({ t with done := t.done ++ [n] } : Timeline).run

/-- A number failed: the error state at the lowest failed number that has not been cleared (R266, R267). -/
def Timeline.fail (t : Timeline) (n : Nat) : Timeline :=
  { t with error := true, failed := t.fails.foldl min n, fails := t.fails ++ [n] }

/-- The error cleared: the failed number counts as completed (R266). -/
def Timeline.clear (t : Timeline) : Timeline :=
  if t.error then
    ({ t with
        error := false, failed := 0, fails := t.fails.filter (fun k => decide (k ≠ t.failed)),
        done := if t.failed ≤ t.issued then t.done ++ [t.failed] else t.done } : Timeline).run
  else t

/-- The highest number of a counter (R264). -/
def maxNumber : Nat := 2 ^ 63 - 1

/-- A counter of what an operator holds on a core. -/
def State.counter (s : State) (oper core k : Nat) : Timeline := (s.seatOf oper core).counters.toList.getD k Timeline.reset

/-- A counter replaced; a change of its value or of its error state is a write of its word (R264). -/
def State.setCounter (s : State) (oper core k : Nat) (t : Timeline) : State :=
  let q := s.seatOf oper core
  let old := s.counter oper core k
  let s1 := s.setSeatOf oper core { q with counters := q.counters.setIfInBounds k t }
  if old.value = t.value ∧ old.error = t.error then s1 else s1.writeWord (.counter core q.slot k)

/-! ## Commands -/

/-- Block lengths by function (R253). -/
def copyLength (fn : Nat) : Nat := [4, 7, 7, 7, 4, 9].getD fn 4

/-- Word `i` of the block. -/
def CopyCmd.w (c : CopyCmd) (i : Nat) : Word := c.words.getD i 0

/-- Fields of the flags word (R255). -/
def finOf (w : Word) : Bool := w.getLsbD 31
/-- DTILE, which a `cscat` may not have (R255, R259). -/
def dtileOf (fn : Nat) (w : Word) : Bool := w.getLsbD 30 && fn != 3
/-- STILE, which a `cgath` and a `cfill` may not have (R255, R259). -/
def stileOf (fn : Nat) (w : Word) : Bool := w.getLsbD 29 && fn != 2 && fn != 4
/-- The index mode (R258). -/
def ixOf (w : Word) : Nat := fieldOf w 27 26
/-- The span code of the source side. -/
def sspanOf (w : Word) : Nat := fieldOf w 14 12
/-- The span code of the destination side. -/
def dspanOf (w : Word) : Nat := fieldOf w 10 8

/-- A tile word's handle and first row (R256). -/
def handleOf (w : Word) : Nat := fieldOf w 5 0
/-- The first row of a tile word. -/
def row0Of (w : Word) : Nat := fieldOf w 17 6

/-- A command of an executing wave with the tile words of its sides. -/
def tileWords (fn : Nat) (ws : List Word) : List Word :=
  (if stileOf fn (ws.getD 3 0) then [ws.getD 0 0] else []) ++ (if dtileOf fn (ws.getD 3 0) then [ws.getD 1 0] else [])

/-- The state words of the tiles of a command in the read set of an open attempt (R220). -/
def State.readTiles (s : State) (fn : Nat) (ws : List Word) : State × Bool :=
  s.addReads ((tileWords fn ws).map (fun w => (s.tileWord (handleOf w), 0)))

/-- The checks of R256 made in the wave at issue or at buffering, steps 1 to 4; none when they pass. In step 1 the source's tile word
is checked wholly before the destination's. A command of an attempt that acts as `retry` on a filling source has read the states of
both its tiles (R220). Log entry 99 (DESIGN CHOICE, unsafe). -/
def State.copyCheck (s : State) (fn : Nat) (ws : List Word) : Option State :=
  let fl := ws.getD 3 0
  let de := s.tileAt (handleOf (ws.getD 1 0))
  let se := s.tileAt (handleOf (ws.getD 0 0))
  match (tileWords fn ws).find? (fun w => !s.handleOk (handleOf w) || decide (fieldOf w 63 18 ≠ 0)) with
  | some w => some (s.trapTile (if s.handleOk (handleOf w) then 2 else 1))
  | none =>
    if dtileOf fn fl && de.state != 1 then some (s.trapTile 3)
    else if stileOf fn fl then
      if se.state = 0 then some (s.trapTile 3)
      else if se.stampV ∧ se.stamp ≠ sspanOf fl then some (s.trap causeLAYOUT se.base 0 0)
      else if se.state = 1 then
        let (s1, ok) := s.readTiles fn ws
        some (if ok then s1.waitFor (s.tileWord (handleOf (ws.getD 0 0))) else s1)
      else none
    else none

/-- The word that a `cpym` carries is one it may carry (R237, R261). -/
def carriedOk (w : BitVec 32) : Bool :=
  let fn := (w.extractLsb' 0 7).toNat
  let b := (w.extractLsb' 7 6).toNat
  let a := (w.extractLsb' 13 6).toNat
  let d := (w.extractLsb' 19 6).toNat
  w.extractLsb' 25 7 == 0x48 && decide (d < 16) &&
    (match fn with
    | 0 => b == 0
    | 1 => b == 0
    | 2 => b == 0
    | 3 => b == 0 && decide (a < 16)
    | 6 => a == 0 && decide (1 ≤ b ∧ b ≤ 16)
    | _ => false)

/-- Operators that hold a slot on a core: the installed slots of R254, among which the model counts one whose graph has been
removed and whose work still drains. Log entry 78 (DESIGN CHOICE, unsafe). -/
def State.seatedOn (s : State) (core : Nat) : List Nat :=
  (s.seats.filter (fun x => x.1 % 256 == core && (x.2.state == .installed || x.2.state == .draining))).map (·.1 / 256)

/-- Entries of an operator on a core. -/
def CopyRow.entries (r : CopyRow) (oper : Nat) : Nat := r.cmds.countP (fun c => c.oper == oper && c.status != .parked)

/-- An entry is free for a slot (R254). -/
def State.copyRoom (s : State) (oper core : Nat) : Bool :=
  let r := s.copyRow core
  let on := s.seatedOn core
  let g := min 16 (64 / max 1 on.length)
  decide (r.cmds.countP (fun c => c.oper == oper) < 16) &&
    (decide (r.entries oper < g) ||
      decide ((on.map (fun o => r.entries o - g)).foldl (· + ·) 0 < 64 - g * on.length))

/-- The record of a failed command (R267, R417). -/
def State.copyRecord (s : State) (core : Nat) (c : CopyCmd) (detail access second : Nat) (va : Word) : State :=
  s.report { FaultRecord.blank with
    cause := causeCOPY, detail := detail, core := core, ctx := c.ctx, va := va, slot := (s.seatOf c.oper core).slot,
    pc := c.pc, access := access, agent := 1, more6 := c.tl * 2 ^ 16 + second * 2 ^ 48, word7 := c.n }

/-- Accesses that come before the executing fragment's next in its program order. -/
def State.pastAccesses (s : State) : List Access := s.accesses.filter (fun a => a.precedes s.fr)

/-- Accesses that an engine command issued now with release order waits for: those before it in program order, as far as its
scope reaches, and at system scope every write and atomic of the wave at another device (R110, R113). -/
def State.releaseHolds (s : State) (scope : Nat) : List Nat :=
  ((s.pastAccesses.filter (fun a => !a.isRemote && match a.op with
      | .packet _ die => decide (scope ≥ 4 ∨ (scope = 3 ∧ die = s.cur.core / 32))
      | _ => true))
    ++ (if scope = 5 then s.accesses.filter (fun a =>
      a.ofWave && a.isRemote && a.op.isWrite && a.agent.waveKey == s.cur.waveKey) else [])).map (·.id)

/-- A command naming a tile-table entry counted in or out. -/
def State.countTile (s : State) (core : Nat) (add : Bool) (e : Nat) : State :=
  let t := s.tileOf core e
  s.setTile core e { t with inFlight := if add then t.inFlight + 1 else t.inFlight - 1 }

/-- The command that the executing fragment issues. -/
def State.newCopy (s : State) (fn : Nat) (c : Command) (n : Nat) (release : Bool) (scope : Nat) : CopyCmd :=
  let fl := c.regs.getD 3 0
  let dst := if dtileOf fn fl then some (s.entryOf (handleOf (c.regs.getD 1 0))) else none
  let past := s.pastAccesses
  { id := (s.copyRow s.cur.core).next, oper := s.tk.oper, ctx := s.ctxId, agent := s.cur, task := s.wv.task, pc := c.pc,
    tl := c.tl, n := n, fn := fn, words := c.regs, mr := c.mr,
    srcTile := if stileOf fn fl then some (s.entryOf (handleOf (c.regs.getD 0 0))) else none, dstTile := dst,
    status := .waiting, row := 0, sec := 0, listed := none, moved := false, poison := none, stamped := false,
    past := past.map (·.id),
    holds := if release then s.releaseHolds scope else [],
    prior := if dst.isSome then
      ((s.copyRow s.cur.core).cmds.filter (fun x => x.oper == s.tk.oper && x.dstTile == dst)).map (·.id) else [],
    carrying := false, carried := false }

/-- A command issued by the executing fragment: its number drawn, a ready source tile set to draining, its entry taken
(R254, R256, R264). With no number free it is not performed (DETAIL 11). Log entry 46 (DEDUCED, unsafe). -/
def State.copyIssue (s : State) (fn : Nat) (c : Command) (release : Bool) (scope : Nat) : State :=
  let oper := s.tk.oper
  let core := s.cur.core
  let t := s.counter oper core c.tl
  let n := t.issued + 1
  let x := s.newCopy fn c n release scope
  if t.issued ≥ maxNumber then (s.setCounter oper core c.tl (t.fail n)).copyRecord core x 11 0 0 0
  else
    let s1 := match x.srcTile with
      | some e => if (s.tileOf core e).state = 2 then s.setTileState core e 3 else s
      | none => s
    let s2 := s1.setCounter oper core c.tl { t with issued := n }
    let s3 := (distinct (x.srcTile.toList ++ x.dstTile.toList)).foldl (fun u e => u.countTile core true e) s2
    let r := s3.copyRow core
    s3.setCopies core { r with cmds := r.cmds ++ [x], next := r.next + 1 }

/-- A copy instruction (R253). Inside an attempt its checks and the reads of its tiles come before the room for a buffered command is
looked at (R220). Log entry 99 (DESIGN CHOICE, unsafe). -/
def State.copy (s : State) (fn : Nat) (b : BitVec 6) (t : BitVec 4) : State :=
  let ws := (upFrom b.toNat (copyLength fn)).map (fun i => s.getS (BitVec.ofNat 6 i))
  let c : Command := {
    kind := .copy fn, dst := 0, tl := t.toNat, regs := ws, mr := s.fr.mr, pc := s.fr.pc,
    data := [], places := [] }
  if fn = 5 ∧ !carriedOk ((ws.getD 7 0).setWidth 32) then s.trap causeILL 0 0 0
  else match s.copyCheck fn ws with
    | some s' => s'
    | none =>
      if s.inTx then
        let (s1, ok) := s.readTiles fn ws
        if ok then s1.bufferCmd c else s1
      else if !s.copyRoom s.tk.oper s.cur.core then s.stall
      else (s.copyIssue fn c (s.order ≥ 2) s.scope).advance

/-- `cpy` (R257). -/
def execCpy (b : BitVec 6) (t : BitVec 4) (s : State) : Result := .next (s.copy 0 b t)
/-- `cpy2d` (R258). -/
def execCpy2d (b : BitVec 6) (t : BitVec 4) (s : State) : Result := .next (s.copy 1 b t)
/-- `cgath` (R259). -/
def execCgath (b : BitVec 6) (t : BitVec 4) (s : State) : Result := .next (s.copy 2 b t)
/-- `cscat` (R259). -/
def execCscat (b : BitVec 6) (t : BitVec 4) (s : State) : Result := .next (s.copy 3 b t)
/-- `cfill` (R260). -/
def execCfill (b : BitVec 6) (t : BitVec 4) (s : State) : Result := .next (s.copy 4 b t)
/-- `cpym` (R261). -/
def execCpym (b : BitVec 6) (t : BitVec 4) (s : State) : Result := .next (s.copy 5 b t)

/-! ## The bytes of a command (R256 to R260) -/

/-- The tile of a side. -/
def State.sideTile (s : State) (core : Nat) (e : Option Nat) : Option TileEntry := e.map (s.tileOf core)

/-- Byte count of `cpy` and `cfill`, row bytes of the others. -/
def CopyCmd.size (c : CopyCmd) : Nat := (c.w 2).toNat

/-- The command is `cpy` or `cfill`. -/
def CopyCmd.linear (c : CopyCmd) : Bool := c.fn == 0 || c.fn == 4

/-- The command is `cgath` or `cscat`. -/
def CopyCmd.indexed (c : CopyCmd) : Bool := c.fn == 2 || c.fn == 3

/-- Rows of a command that works by rows. -/
def CopyCmd.rowCount (c : CopyCmd) : Nat := (c.w (if c.indexed then 5 else 4)).toNat

/-- Rows on the destination side: a linear command into memory has one, into a tile those its bytes reach. -/
def CopyCmd.rows (c : CopyCmd) (dst : Option TileEntry) : Nat :=
  if c.size = 0 then 0
  else if c.linear then
    match dst with
    | none => 1
    | some e => (c.size + e.rowBytes - 1) / e.rowBytes
  else c.rowCount

/-- A row on the destination side: the row number that Swz takes, where the row starts, and the end of its logical
bytes. -/
structure RowPlace where
  r : Nat
  start : Word
  len : Nat
  deriving DecidableEq, Repr

/-- Row `i` of a tile side. -/
def TileEntry.rowStart (e : TileEntry) (r : Nat) : Word := e.base + BitVec.ofNat 64 (r * e.rowBytes)

/-- Row `i` on the destination side. -/
def CopyCmd.destRow (c : CopyCmd) (dst : Option TileEntry) (listed : Word) (i : Nat) : RowPlace :=
  match dst with
  | some e =>
    let r := row0Of (c.w 1) + i
    { r := r, start := e.rowStart r, len := if c.linear then min e.rowBytes (c.size - i * e.rowBytes) else c.size }
  | none =>
    let start := match c.fn with
      | 1 => c.w 1 + BitVec.ofNat 64 i * c.w 6
      | 5 => c.w 1 + BitVec.ofNat 64 i * c.w 6
      | 2 => c.w 1 + BitVec.ofNat 64 (i * c.size)
      | 3 => listed
      | _ => c.w 1
    { r := i, start := start, len := c.size }

/-- The address of the source byte for byte `b` of row `i`. Log entry 9 (DESIGN CHOICE, unsafe). -/
def CopyCmd.sourceAddr (c : CopyCmd) (src dst : Option TileEntry) (listed : Word) (i b : Nat) : Word :=
  let span := sspanOf (c.w 3)
  if c.linear then
    let o := i * (dst.map TileEntry.rowBytes).getD 0 + b
    match src with
    | none => c.w 0 + BitVec.ofNat 64 o
    | some e =>
      let r := row0Of (c.w 0) + o / e.rowBytes
      e.rowStart r + BitVec.ofNat 64 (swz span r (o % e.rowBytes))
  else match src with
    | some e =>
      let r := row0Of (c.w 0) + i
      e.rowStart r + BitVec.ofNat 64 (swz span r b)
    | none =>
      let start := match c.fn with
        | 2 => listed
        | 3 => c.w 0 + BitVec.ofNat 64 (i * c.size)
        | _ => c.w 0 + BitVec.ofNat 64 i * c.w 5
      start + BitVec.ofNat 64 (swz span i b)

/-- The first sector of a row on the destination side, counted from the sector its start lies in, and how many it has. -/
def RowPlace.sectors (q : RowPlace) (span : Nat) : Nat × Nat :=
  let unit := 16 * 2 ^ span
  let last := (q.len + unit - 1) / unit * unit
  (0, (q.start.toNat % 128 + last + 127) / 128)

/-- The bytes of a row in one of its sectors: offset in the sector and logical byte of the row (R192). -/
def RowPlace.bytesIn (q : RowPlace) (span sec : Nat) : List (Nat × Nat) :=
  (List.range 128).filterMap (fun t =>
    let at' := 128 * sec + t
    if at' < q.start.toNat % 128 then none
    else
      let b := swz span q.r (at' - q.start.toNat % 128)
      if b < q.len then some (t, b) else none)

/-- The address of a row's sector. -/
def RowPlace.sectorAddr (q : RowPlace) (sec : Nat) : Word := sectorVa q.start + BitVec.ofNat 64 (128 * sec)

/-! ## Checks before any access (R257 to R260, R267) -/

/-- DETAIL 5: a reserved bit, a flag that the command may not have, or a limit exceeded. -/
def CopyCmd.malformed (c : CopyCmd) : Bool :=
  let fl := c.w 3
  let ss := sspanOf fl
  let ds := dspanOf fl
  let flags := decide (fieldOf fl 63 32 ≠ 0 ∨ fieldOf fl 25 15 ≠ 0 ∨ fl.getLsbD 11 = true ∨ fieldOf fl 7 0 ≠ 0)
    || (finOf fl && !fl.getLsbD 30) || (!c.indexed && ixOf fl != 0) || ixOf fl == 3
    || (c.fn == 4 && (fl.getLsbD 29 || ss != 0)) || (c.fn == 2 && fl.getLsbD 29) || (c.fn == 3 && fl.getLsbD 30)
  let spans := !c.linear && (decide (c.size % (16 * 2 ^ ss) ≠ 0 ∧ ss ≠ 0) || decide (c.size % (16 * 2 ^ ds) ≠ 0 ∧ ds ≠ 0))
  let limits := match c.fn with
    | 0 => decide (c.size ≥ 2 ^ 40)
    | 4 => decide (c.size ≥ 2 ^ 40)
    | 1 => decide (c.size > 2 ^ 20 ∨ c.rowCount > 65535)
    | 5 => decide (c.size > 2 ^ 20 ∨ c.rowCount > 65535 ∨ fieldOf (c.w 7) 63 32 ≠ 0
        ∨ (fieldOf (c.w 7) 6 0 = 6 ∧ c.w 8 ≠ 0))
    | _ => decide (c.rowCount > 4096 ∨ (c.w 4).toNat % [4, 8, 128, 1].getD (ixOf fl) 1 ≠ 0
        ∨ (ixOf fl ≠ 0 ∧ (c.w (if c.fn = 2 then 0 else 1) ≠ 0 ∨ c.w 6 ≠ 0)))
  let strides := (c.fn == 1 || c.fn == 5) && ((c.srcTile.isSome && c.w 5 != 0) || (c.dstTile.isSome && c.w 6 != 0))
  flags || spans || limits || strides

/-- DETAIL 6: a side lies outside its tile. -/
def CopyCmd.outside (c : CopyCmd) (e : TileEntry) (row0 : Nat) : Bool :=
  if c.linear then decide (row0 * e.rowBytes + c.size > (e.rowsM1 + 1) * e.rowBytes)
  else decide (c.size > e.rowBytes ∨ row0 + c.rowCount > e.rowsM1 + 1)

/-- The check that a command fails before any access, with the address its record names. -/
def State.copyRefused (s : State) (core : Nat) (c : CopyCmd) : Option (Nat × Word) :=
  if c.malformed then some (5, 0)
  else
    let out (e : Option Nat) (w : Word) : Option (Nat × Word) :=
      match s.sideTile core e with
      | some t => if c.outside t (row0Of w) then some (6, t.base) else none
      | none => none
    (out c.srcTile (c.w 0)).or (out c.dstTile (c.w 1))

/-! ## Ends of a command -/

/-- A command replaced in its core's list. -/
def State.putCopy (s : State) (core : Nat) (c : CopyCmd) : State :=
  let r := s.copyRow core
  s.setCopies core { r with cmds := r.cmds.map (fun x => if x.id = c.id then c else x) }

/-- A command taken off its core's list; a change to empty that waited for it takes effect (R25, R193, R254). -/
def State.dropCopy (s : State) (core : Nat) (c : CopyCmd) : State :=
  let r := s.copyRow core
  let s1 := s.setCopies core { r with cmds := r.cmds.filter (fun x => x.id != c.id) }
  (distinct (c.srcTile.toList ++ c.dstTile.toList)).foldl (fun u e =>
    let u1 := u.countTile core false e
    if (u1.tileOf core e).pendingEmpty && (u1.tileOf core e).inFlight == 0 then u1.emptyTile core e else u1) s1

/-- A command fails: the error state, the record, and its entry freed (R267). -/
def State.failCopy (s : State) (core : Nat) (c : CopyCmd) (detail access second : Nat) (va : Word) : State :=
  let s1 := match c.dstTile with
    | some e =>
      let t := s.tileOf core e
      s.setTile core e { t with failedFills := t.failedFills ++ [(c.id, c.tl, c.n)] }
    | none => s
  let s2 := s1.setCounter c.oper core c.tl ((s1.counter c.oper core c.tl).fail c.n)
  (s2.copyRecord core c detail access second va).dropCopy core c

/-! ## Accesses of a command (R110, R263, R268) -/

/-- Why a command's access is not made. -/
inductive CopyStop where
  | fail (detail access : Nat) (va : Word)
  | hostPage (page access : Nat) (va : Word)
  /-- A chip, or a die that is cut off as 4096 + d, to which no route has existed for the route timeout (R381, R382). -/
  | lost (chip access : Nat) (va : Word)
  /-- It waits for earlier accesses of its wave, for a route or for room in a window (R110, R379, R382). -/
  | held
  /-- It waits for bytes that it reads from another device (R112), the accesses before it having been performed (R110). -/
  | needs (forced : State) (reads : List (Place × Target))
  deriving DecidableEq, Repr

/-- The owner of a command's accesses to other devices (R113). -/
def CopyCmd.owner (c : CopyCmd) (core : Nat) : Owner :=
  { issuer := .copy c.id, agent := { c.agent with core := core }, task := c.task, ctx := c.ctx, pc := c.pc,
    thread := 0, before := [] }

/-- An address of a command translated (R267, R381, R382, R388). -/
def State.copyXlate (s : State) (core : Nat) (c : CopyCmd) (va : Word) (n : Need) : Except CopyStop (Place × Target) :=
  match s.translate c.oper core c.ctx va n with
  | .error (cause, _) =>
    .error (.fail (if cause = causeXLATE then (if n = .read then 1 else 2) else 3) n.code va)
  | .ok x =>
    match x.2 with
    | .chip k =>
      if s.unreachable.contains k then .error (.lost k n.code va)
      else if (s.portTo k).isNone then .error .held
      else .ok x
    | _ =>
      match s.cutDie core x with
      | some d => if s.unreachable.contains (4096 + d) then .error (.lost (4096 + d) n.code va) else .error .held
      | none => if x.1.isHost && !s.ats.contains (hostPage x.1) then .error (.hostPage (hostPage x.1) n.code va) else .ok x

/-- Sectors of a command translated, each with the address that a failure names. -/
def State.copyXlates (s : State) (core : Nat) (c : CopyCmd) (n : Need) :
    List (Word × Word) → Except CopyStop (List (Word × (Place × Target)))
  | [] => .ok []
  | (sec, name) :: rest =>
    match s.copyXlate core c sec n with
    | .error (.fail d a _) => .error (.fail d a name)
    | .error (.lost k a _) => .error (.lost k a name)
    | .error e => .error e
    | .ok x =>
      match s.copyXlates core c n rest with
      | .error e => .error e
      | .ok xs => .ok ((sec, x) :: xs)

/-- The sectors of some addresses, each with the least of the addresses in it. -/
def sectorsNamed (as : List Word) : List (Word × Word) :=
  (distinctWords (as.map sectorVa)).map (fun q =>
    (q, (as.filter (fun a => sectorVa a == q)).foldl (fun m a => if a.toNat < m.toNat then a else m) (q + 127)))

/-- Earlier accesses of the wave that a command waits for, or that touch bytes of its next access, performed; none when
one of them waits for another device, or when the command itself has written those bytes there and has had no answer (R101,
R110, R112). -/
def State.forcePast (s : State) (core : Nat) (c : CopyCmd) (keys : List Nat) : Option State :=
  let need := s.accesses.filter (fun a =>
    c.holds.contains a.id || ((c.past.contains a.id || (a.of (c.owner core) && a.op.isWrite))
      && a.op.keys.any (fun k => keys.contains k)))
  need.foldl (fun r a =>
    match r with
    | none => none
    | some t =>
      match t.accessOf a.id with
      | none => some t
      | some b =>
        if b.isOut then none
        else match t.forceFor b with
          | some u => some (u.performAccess b)
          | none => none) (some s)

/-- The byte of a command's read that comes from a place: memory's, or what another device has answered. -/
def State.copyByte (s : State) (o : Owner) (x : Place × Target) : Byte := s.engineByte o s.mem.readByte x

/-- The list entry of a row read: the row's address, or no row (R259). A poisoned sector of the list counts as a source sector that
is poisoned, and its entry is used as it stands (R268). Log entry 46 (DEDUCED, unsafe). Log entry 100 (DESIGN CHOICE, unsafe). -/
def State.copyList (s : State) (core : Nat) (c : CopyCmd) : Except CopyStop (State × CopyCmd) :=
  let ix := ixOf (c.w 3)
  let at' := c.w 4 + BitVec.ofNat 64 ([4, 8, 128].getD ix 4 * c.row)
  match s.copyXlates core c .read [(sectorVa at', at')] with
  | .error e => .error e
  | .ok xs =>
    let byte (o : Nat) : List (Place × Target) := placesIn xs [at' + BitVec.ofNat 64 o]
    let all := (List.range ([4, 8, 32].getD ix 4)).flatMap byte
    match s.forcePast core c (all.map (·.1.key)) with
    | none => .error .held
    | some s1 =>
      if !s1.allFetched (c.owner core) all then .error (.needs s1 all)
      else
      let num (o n : Nat) : Nat := ofBytes ((upFrom o n).flatMap (fun k => (byte k).map (s1.copyByte (c.owner core))))
      let base := c.w (if c.fn = 2 then 0 else 1)
      let a : Option Word := match ix with
        | 0 => some (base + BitVec.ofNat 64 (num 0 4) * c.w 6)
        | 1 => some (BitVec.ofNat 64 (num 0 8))
        | _ => if num 8 8 % 4 = 0 then none else some (BitVec.ofNat 64 (num 24 8))
      let bad := if (byte 0).any (s1.enginePoison (c.owner core)) then some (sectorVa at') else none
      let row := if a.isNone then c.row + 1 else c.row
      .ok ((s1.dropFetched (c.owner core)).takeFresh, { c with listed := some a, poison := c.poison.or bad, row := row, holds := [] })

/-- One sector of a row written from its source bytes (R256 to R263, R268). Log entry 9 (DESIGN CHOICE, unsafe). -/
def State.copyPiece (s : State) (core : Nat) (c : CopyCmd) (listed : Word) : Except CopyStop (State × CopyCmd) :=
  let src := s.sideTile core c.srcTile
  let dst := s.sideTile core c.dstTile
  let q := c.destRow dst listed c.row
  let span := dspanOf (c.w 3)
  let tb := q.bytesIn span c.sec
  let next : CopyCmd :=
    if c.sec + 1 < (q.sectors span).2 then { c with sec := c.sec + 1, holds := [] }
    else { c with sec := 0, row := c.row + 1, listed := none, holds := [] }
  if tb.isEmpty then .ok (s, { next with holds := c.holds })
  else
    let da := q.sectorAddr c.sec
    let sas := if c.fn = 4 then [] else tb.map (fun x => c.sourceAddr src dst listed c.row x.2)
    match s.copyXlates core c .read (sectorsNamed sas) with
    | .error e => .error e
    | .ok sx =>
      match s.copyXlates core c .write [(da, da + BitVec.ofNat 64 ((tb.map (·.1)).headD 0))] with
      | .error e => .error e
      | .ok dx =>
        let dp := placesIn dx (tb.map (fun x => da + BitVec.ofNat 64 x.1))
        let sp := placesIn sx sas
        let target := ((dx.map (·.2.2)).headD .here)
        match s.forcePast core c ((sp ++ dp).map (·.1.key)) with
        | none => .error .held
        | some s1 =>
          let o := c.owner core
          if !s1.allFetched o sp then .error (.needs s1 sp)
          else if !s1.windowRoom core target then .error .held
          else
          let bytes := if c.fn = 4 then
              tb.map (fun x => ((c.w 0).extractLsb' (8 * ((da + BitVec.ofNat 64 x.1).toNat % 8)) 8 : Byte))
            else sp.map (s1.copyByte o)
          let bad := (sp.zip sas).find? (fun x => s1.enginePoison o x.1)
          let s2 := (s1.dropFetched o).takeFresh.engineStore o target ((dp.map (·.1)).zip bytes) bad.isSome
          match bad with
          | some p =>
            let s3 := match target, dp with
              | .chip _, _ => s2
              | _, [] => s2
              | _, d :: _ => s2.poisonSector (s2.imagePlace d.1)
            .ok (s3, { next with moved := true, poison := c.poison.or (some (sectorVa p.2)) })
          | none => .ok (s2, { next with moved := true })

/-- A command has no row left. -/
def State.copyDone (s : State) (core : Nat) (c : CopyCmd) : Bool :=
  decide (c.rows (s.sideTile core c.dstTile) ≤ c.row)

/-- The next access of an active command. Log entry 9 (DESIGN CHOICE, unsafe). -/
def State.copyStep (s : State) (core : Nat) (c : CopyCmd) : Except CopyStop (State × CopyCmd) :=
  if c.indexed then
    match c.listed with
    | some (some a) => s.copyPiece core c a
    | _ => s.copyList core { c with listed := none }
  else s.copyPiece core c 0

/-- An active command can make an access now, or fails at it. -/
def State.copyCan (s : State) (core : Nat) (c : CopyCmd) : Bool :=
  c.status == .active && !s.copyDone core c &&
    match s.copyStep core c with
    | .ok _ => true
    | .error (.fail ..) => true
    | .error (.lost ..) => true
    | .error (.needs t xs) => !(t.unread (c.owner core) xs).isEmpty
    | .error _ => false

/-- LINK_DOWN with detail 3 for a context: a chip to which no route exists (R382). -/
def State.linkLost (s : State) (ctx chip : Nat) : State :=
  if chip < 4096 then
    s.report { FaultRecord.blank with cause := causeLINK, detail := 3, agent := 5, ctx := ctx, word7 := chip }
  else s

/-- A command fails at an access that cannot be delivered on any path (R267, R382). -/
def State.loseCopy (s : State) (core : Nat) (c : CopyCmd) (chip access : Nat) (va : Word) : State :=
  (s.failCopy core c 7 access 0 va).linkLost c.ctx chip

/-- Commands with accesses on their way to a chip to which no route has existed for the route timeout: they fail, and their
accesses are given up (R382). -/
def State.loseCopies (s : State) (chip : Nat) : State :=
  let held := s.accesses.filter (fun a => a.target == .chip chip)
  let on (core : Nat) (c : CopyCmd) : Option Access := held.find? (fun a => a.of (c.owner core))
  let all := s.copies.flatMap (fun x => x.2.cmds.filterMap (fun c => (on x.1 c).map (fun a => (x.1, c, a))))
  all.foldl (fun t x =>
    let u : State := { t with accesses := t.accesses.filter (fun a => !(a.of (x.2.1.owner x.1) && a.target == .chip chip)) }
    u.loseCopy x.1 x.2.1 chip x.2.2.op.code (((x.2.2.op.places.map (·.va)).headD 0))) s

/-- The host page that a command waits for, with the kind and the address of its access. -/
def State.copyPage (s : State) (core : Nat) (c : CopyCmd) : Option (Nat × Nat × Word) :=
  if c.status == .active && !s.copyDone core c then
    match s.copyStep core c with
    | .error (.hostPage p a va) => some (p, a, va)
    | _ => none
  else none

/-- A command moved to the end of its core's list, which is the order of service (R254). -/
def State.servedCopy (s : State) (core : Nat) (c : CopyCmd) : State :=
  let r := s.copyRow core
  s.setCopies core { r with cmds := r.cmds.filter (fun x => x.id != c.id) ++ [c] }

/-- COPY_SECTOR_ACCESS: the active command whose turn it is makes one access (R254, R263, R267). -/
def execCopySectorAccess (core n : Nat) (s : State) : Result :=
  .next (match (s.copyRow core).cmds.find? (s.copyCan core) with
    | none => s
    | some c =>
      if c.id ≠ n then s
      else match s.copyStep core c with
        | .ok (s1, c1) => s1.servedCopy core c1
        | .error (.fail d a va) => s.failCopy core c d a 0 va
        | .error (.lost k a va) => s.loseCopy core c k a va
        | .error (.needs t xs) => (t.askFor (c.owner core) xs).servedCopy core c
        | .error _ => s)

/-! ## Start (R254) -/

/-- The slot that a command belongs to. -/
def State.copySlot (s : State) (core : Nat) (c : CopyCmd) : Nat := (s.seatOf c.oper core).slot

/-- The waiting command that starts next: the oldest of the first slot, in rotation, that has one (R254). -/
def State.nextCopy (s : State) (core : Nat) : Option CopyCmd :=
  let r := s.copyRow core
  let waiting := r.cmds.filter (fun c => c.status == .waiting)
  (upFrom 1 8).findSome? (fun k =>
    (waiting.filter (fun c => s.copySlot core c == (r.lastSlot + k) % 8)).foldl (fun b c =>
      match b with
      | none => some c
      | some x => if c.id < x.id then some c else some x) none)

/-- COPY_COMMAND_START: a waiting command becomes active while fewer than four are, or fails at the checks made before any
access (R254, R267). -/
def execCopyCommandStart (core n : Nat) (s : State) : Result :=
  .next (match s.nextCopy core with
    | none => s
    | some c =>
      let r := s.copyRow core
      if c.id ≠ n ∨ r.cmds.countP (fun x => x.status == .active) ≥ 4 then s
      else
        let s1 := s.setCopies core { r with lastSlot := s.copySlot core c }
        match s1.copyRefused core c with
        | some (d, va) => s1.failCopy core c d 0 0 va
        | none => s1.putCopy core { c with status := .active })

/-! ## Completion (R262) -/

/-- The stamp that the completion of a command leaves on its destination tile. -/
def TileEntry.stampWith (e : TileEntry) (dspan : Nat) : TileEntry :=
  if !e.stampV ∨ dspan ≠ e.span then { e with stamp := dspan, stampV := true } else e

/-- A command completes: its number, its entry, its tiles. -/
def State.endCopy (s : State) (core : Nat) (c : CopyCmd) : State :=
  (s.setCounter c.oper core c.tl ((s.counter c.oper core c.tl).complete c.n)).dropCopy core c

/-- The tile steps of a command, and its end (R262): FIN waits for the earlier fills of the tile. -/
def State.finishCopy (s : State) (core : Nat) (c : CopyCmd) : State :=
  match c.dstTile with
  | none => s.endCopy core c
  | some e =>
    let s1 := if c.stamped then s
      else (s.setTile core e ((s.tileOf core e).stampWith (dspanOf (c.w 3)))).putCopy core { c with stamped := true }
    if !finOf (c.w 3) then s1.endCopy core c
    else if (s1.copyRow core).cmds.any (fun x => c.prior.contains x.id) then s1
    else if (s1.tileOf core e).failedFills.any (fun x => decide (x.1 < c.id)) then s1.failCopy core c 8 0 0 0
    else if (s1.tileOf core e).state = 1 then (s1.setTileState core e 2).endCopy core c
    else s1.endCopy core c

/-- COPY_COMMAND_COMPLETE: a command all of whose accesses have been performed, those at other devices acknowledged, and whose
carried instruction has completed, ends (R113, R262, R268). -/
def execCopyCommandComplete (core n : Nat) (s : State) : Result :=
  .next (match (s.copyRow core).cmds.find? (fun c => c.id == n) with
    | none => s
    | some c =>
      if c.status == .waiting || !s.copyDone core c || s.writesOut (c.owner core) then s
      else match c.poison with
        | some va => s.failCopy core c 4 1 0 va
        | none =>
          if c.fn = 5 ∧ !c.carried then s
          else if !c.moved && (s.copyRow core).cmds.any (fun x =>
            x.oper == c.oper && x.tl == c.tl && decide (x.n < c.n) && x.status != .parked) then s
          else s.finishCopy core c)

/-! ## Carried instructions (R251, R261) -/

/-- The user that a command's carried instruction acts for. -/
def State.copyUser (s : State) (core : Nat) (c : CopyCmd) : MatUser :=
  { oper := c.oper, core := core, ctx := c.ctx, boarded := (s.seatOf c.oper core).boarded }

/-- A carried instruction at what stops it: it parks, waits for a host page, or its command fails (R251, R261, R267). Where an
address of its own fails, the details of a source read are taken: 1 for a translation, 3 for a protection fault, with the first
failing address. Log entry 80 (DESIGN CHOICE, unsafe). -/
def State.stopCarried (s : State) (core : Nat) (c : CopyCmd) (m : MatStop) : State :=
  match m with
  | .cause cause detail _ => s.failCopy core c 9 0 (cause * 2 ^ 8 + detail) 0
  | .needs xs => s.askFor (c.owner core) xs
  | .waitTile => s.putCopy core { c with status := .parked }
  | .fail fails =>
    match fails with
    | x :: _ => s.failCopy core c (if x.1.1 = causeXLATE then 1 else 3) 1 0 x.2
    | [] => s
  | .hostPage .. => s
  | .poison p => s.failCopy core c 9 0 (causePOISON * 2 ^ 8) (sectorVa p.va)

/-- A carried instruction put on the matrix engine's queue. -/
def State.queueCarried (s : State) (core : Nat) (c : CopyCmd) (k : MatKind) : State :=
  let s2 := k.tiles.foldl (fun t d => t.settleAccs c.oper core d 1) s
  ((s2.dropFetched (c.owner core)).putCopy core { c with carrying := true }).takeFresh.queueMat core
    { oper := c.oper, ctx := c.ctx, agent := c.agent, task := c.task, carried := some c.id, kind := k }

/-- A carried instruction issued (R251). -/
def State.issueCarried (s : State) (core : Nat) (c : CopyCmd) : State :=
  let w := c.w 7
  let u := s.copyUser core c
  let d := fieldOf w 22 19
  let a := fieldOf w 18 13
  let form : Option ProductForm := match fieldOf w 6 0 with
    | 0 => some .mma
    | 1 => some .mmaz
    | 2 => some .mmab
    | _ => none
  match form with
  | some f =>
    match etypeOf (c.mr.extractLsb' 4 4).toNat with
    | none => s.stopCarried core c (.cause causeTYPE 0 0)
    | some et =>
      match s.productPlan (c.owner core) u s.mem.readByte f d a (c.w 8) et (c.mr.getLsbD 10) with
      | .error m => s.stopCarried core c m
      | .ok (k, _) => s.queueCarried core c k
  | none =>
    if fieldOf w 6 0 = 3 then
      let s1 := s.settleAccs c.oper core a 1
      match s1.scalePlan (c.owner core) u s1.mem.readByte d a (c.w 8) with
      | .error m => s.stopCarried core c m
      | .ok (k, _) => s1.queueCarried core c k
    else
      let n := fieldOf w 12 7
      if d + n > (s.seatOf c.oper core).accSize then s.stopCarried core c (.cause causeSHAPE 1 0)
      else ((s.settleAccs c.oper core d n).zeroAccs c.oper core d n).putCopy core { c with carrying := true, carried := true }

/-- CARRIED_INSTRUCTION_ISSUE: the copy part of a `cpym` has been performed and its instruction issues, or parks on a tile
that is filling; a parked one issues again (R261). -/
def execCarriedInstructionIssue (core n : Nat) (s : State) : Result :=
  .next (match (s.copyRow core).cmds.find? (fun c => c.id == n) with
    | none => s
    | some c =>
      if c.fn ≠ 5 ∨ (s.seatOf c.oper core).state = .saved ∨ c.status = .waiting ∨ c.carrying = true ∨ c.poison.isSome ∨ !s.copyDone core c
        ∨ s.writesOut (c.owner core) = true then s
      else match s.forcePast core { c with holds := c.past } [] with
        | some s1 => s1.issueCarried core c
        | none => s.issueCarried core c)

/-! ## tlrd and tlinc (R265, R266) -/

/-- `tlrd` (R265). -/
def execTlrd (d : BitVec 6) (t : BitVec 4) (sel : BitVec 1) (s : State) : Result :=
  let k := s.counter s.tk.oper s.cur.core t.toNat
  let (s1, ok) := s.addRead (.counter s.cur.core s.seat.slot t.toNat) 0
  .next (if ok then
      (s1.setS d (if sel = 0 then BitVec.ofNat 64 ((if k.error then 2 ^ 63 else 0) + k.value)
        else BitVec.ofNat 64 k.issued)).advance
    else s1)

/-- The next number taken for a command without accesses, which completes once every lower number has (R266); with no
number free the error state with DETAIL 11 (R264). It moves nothing and never waits, and so it takes no command entry of R254.
Log entry 79 (DESIGN CHOICE, unsafe). -/
def State.tlincIssue (s : State) (c : Command) : State :=
  let oper := s.tk.oper
  let core := s.cur.core
  let t := s.counter oper core c.tl
  let n := t.issued + 1
  if t.issued ≥ maxNumber then
    (s.setCounter oper core c.tl (t.fail n)).copyRecord core (s.newCopy 0 c n false 0) 11 0 0 0
  else
    (s.setCounter oper core c.tl (({ t with issued := n } : Timeline).complete n)).setS (BitVec.ofNat 6 c.dst)
      (BitVec.ofNat 64 n)

/-- A failed fill whose error has been cleared counts as completed (R262, R266). -/
def TileEntry.forgiveFill (e : TileEntry) (k n : Nat) : TileEntry :=
  { e with failedFills := e.failedFills.filter (fun x => !(x.2.1 == k && x.2.2 == n)) }

/-- An error of a counter cleared, and the fills it was for no longer counted as failed (R262, R266). -/
def State.clearCounter (s : State) (oper core k : Nat) : State :=
  let t := s.counter oper core k
  if t.error then
    let q := s.seatOf oper core
    let first := core * 64 + q.partBase
    let mend (j : Nat) (e : TileEntry) : TileEntry :=
      if first ≤ j ∧ j < first + q.partSize then e.forgiveFill k t.failed else e
    let s1 : State := { s with tiles := mapTab mend s.tiles }
    let s2 := s1.setCounter oper core k t.clear
    s2.writeWord (.counter core q.slot k)
  else s

/-- `tlinc.c` performed (R266). -/
def State.tlincClearIssue (s : State) (c : Command) : State :=
  let t := s.counter s.tk.oper s.cur.core c.tl
  (s.clearCounter s.tk.oper s.cur.core c.tl).setS (BitVec.ofNat 6 c.dst) (if t.error then BitVec.ofNat 64 t.failed else 0)

/-- The command of a `tlinc` or `tlinc.c`. -/
def State.tlincCmd (s : State) (k : CmdKind) (d : BitVec 6) (t : BitVec 4) : Command :=
  { s.plainCmd k with dst := d.toNat, tl := t.toNat }

/-- `tlinc` (R266): inside an attempt it is buffered (R220). -/
def execTlinc (d : BitVec 6) (t : BitVec 4) (s : State) : Result :=
  let c := s.tlincCmd .tlinc d t
  .next (if s.inTx then s.bufferCmd c else (s.tlincIssue c).advance)

/-- `tlinc.c` (R266): inside an attempt it is buffered (R220). -/
def execTlincC (d : BitVec 6) (t : BitVec 4) (s : State) : Result :=
  let c := s.tlincCmd .tlincClear d t
  .next (if s.inTx then s.bufferCmd c else (s.tlincClearIssue c).advance)

end Sys2Proof.Machine
end

