-- ==== Sys2Proof/Machine/Time.lean ====
section
/-! DEFINITION. What a fragment needs of its wave and its context to issue (R34), the charges and the refill of the joint budgets
(R35, R36), and the raising of a wave's class (R33). -/

namespace Sys2Proof.Machine

/-! ## Readiness (R34) -/

/-- A wave may issue: not held and not in the cycles of a `yield` (R34, R136, R147). -/
def State.waveOpen (s : State) (f : FragId) : Bool :=
  let w := s.wvOf f
  w.holds.isEmpty && (match w.yieldEnd with
    | some c => decide (c ≤ s.cycle)
    | none => true)

/-- The tasks of a context run: its drain window has not closed (R419), and no CTXDESTROY of it has begun (R399). -/
def Context.runs (c : Context) : Bool := !c.frozen && (c.state == .active || (c.state == .draining && !c.windowClosed))

/-- A fragment can issue: it exists on a core and is ready, its wave may issue, and no trap handler of another fragment runs
(R34, R144). Once the drain window of its context has closed, all that issues is what is left of a commit (R220, R419). -/
def State.canIssue (s : State) (f : FragId) : Bool :=
  decide (f.core < 256) && (findAt s.frags f.key).isSome
    && ((s.ctxOf (s.taskOf f).ctx).runs || !(s.frOf f).due.isEmpty) && (s.frOf f).status == .ready && s.waveOpen f
    && ((s.wvOf f).handler.isNone || (s.wvOf f).handler == some f.frag)

/-! ## Budgets (R35, R36) -/

/-- A bucket charged; nothing is kept against a limit of 0 (R35). -/
def Budget.charge (b : Budget) (res : Nat) (amount : Int) : Budget :=
  if b.limits.getD res 0 = 0 then b else { b with buckets := b.buckets.set res (b.buckets.getD res 0 - amount) }

/-- A context charged in one of its classes. -/
def State.chargeClass (s : State) (ctx cls res : Nat) (amount : Int) : State :=
  let c := s.ctxOf ctx
  if (findAt s.contexts ctx).isNone then s
  else s.setCtx ctx { c with
    budgets := c.budgets.setIfInBounds cls ((c.budgets.toList.getD cls Budget.reset).charge res amount) }

/-- A microsecond's limit added to each bucket, capped at four times the limit (R35). -/
def Budget.refill (b : Budget) : Budget :=
  { b with buckets := (List.range 3).map (fun r =>
      let l : Int := (b.limits.getD r 0 : Nat)
      if l = 0 then b.buckets.getD r 0 else min (4 * l) (b.buckets.getD r 0 + l)) }

/-- The budget gate of a class is open: every bucket whose limit is imposed stands at zero or above (R35). -/
def Budget.isOpen (b : Budget) : Bool :=
  (List.range 3).all (fun r => b.limits.getD r 0 == 0 || decide (0 ≤ b.buckets.getD r 0))

/-- The budget class that an operator names. -/
def State.budgetOf (s : State) (ctx cls : Nat) : Budget := (s.ctxOf ctx).budgets.toList.getD cls Budget.reset

/-- BUDGET_REFILL: a microsecond boundary that has passed and at which the buckets have not been refilled (R35).
Log entry 62 (DESIGN CHOICE, safe). -/
def execBudgetRefill (s : State) : Result :=
  .next (if s.cycle / 600 > s.refills then
      { s with
        refills := s.refills + 1
        contexts := mapTab (fun _ c => { c with budgets := c.budgets.map Budget.refill }) s.contexts }
    else s)

/-- A task exists: it has been fired and has not ended, nor been saved (R35). -/
def Task.exists (t : Task) : Bool := t.state == .queued || t.state == .running || t.state == .restoring

/-- Every task that exists charged a cycle of its class's core share (R35). -/
def State.chargeTasks (s : State) : State :=
  s.tasks.foldl (fun t x =>
    if x.2.exists then t.chargeClass x.2.ctx (getAt Operator.reset t.operators x.2.oper).bclass 0 1 else t) s

/-- An operator has tasks on a core, whose energy is estimated. -/
def State.hasTasks (s : State) (oper core : Nat) : Bool :=
  s.tasks.any (fun x => x.2.oper == oper && x.2.core == core && x.2.exists)

/-- An operator has commands in the copy engine of a core. -/
def State.hasCopies (s : State) (oper core : Nat) : Bool :=
  (getAt CopyRow.reset s.copies core).cmds.any (fun c => c.oper == oper)

/-- A cycle charged: the core share of tasks, the HBM traffic of the tasks and the copy commands of each slot, and the energy of its
tasks, in the slot's class (R35, R36). Log entry 10 (DESIGN CHOICE, safe). -/
def State.chargeCycle (s : State) : State :=
  let s1 := s.seats.foldl (fun t x =>
    let o := getAt Operator.reset t.operators (x.1 / 256)
    let tasks := s.hasTasks (x.1 / 256) (x.1 % 256)
    let t1 := if tasks || s.hasCopies (x.1 / 256) (x.1 % 256) then
        t.chargeClass o.ctx o.bclass 1 (Config.trafficCharge s.fresh x.1 : Nat)
      else t
    if tasks then t1.chargeClass o.ctx o.bclass 2 (Config.energyCharge s.fresh x.1 : Nat) else t1) s.chargeTasks
  s1.takeFresh

/-- WAVE_CLASS_RAISE: a wave that has been ready for a further 256 cycles without issuing rises by one class (R33). -/
def execWaveClassRaise (core wave : Nat) (s : State) : Result :=
  let f : FragId := { core := core, wave := wave, frag := 0 }
  let w := s.wvOf f
  .next (if (findAt s.waves f.waveKey).isSome ∧ 256 * (w.raised + 1) ≤ w.readyCycles ∧ w.roleClass + w.raised < 3 then
      s.setWvOf f { w with raised := w.raised + 1 }
    else s)

end Sys2Proof.Machine
end

