-- ==== Sys2Proof/Machine/Milk.lean ====
section
/-! DEFINITION. The milk round: descriptors and entries, boarding, passes, delivery, swaps, weight blocks and their
checks, and `mrstat` (R308 to R331). -/

namespace Sys2Proof.Machine

/-- Cause CHECKSUM (R83). -/
def causeCHECKSUM : Nat := 0x70
/-- Cause STREAM (R83). -/
def causeSTREAM : Nat := 0x71

/-! ## Descriptor and entries (R309 to R311) -/

/-- Bits [hi:lo] of an entry. -/
def entryField (e : BitVec 256) (hi lo : Nat) : Nat := bitsOf e.toNat hi lo

/-- SRC (R310). -/
def srcOf (e : BitVec 256) : Nat := entryField e 240 192
/-- KIND: an end-of-group entry. -/
def endsGroup (e : BitVec 256) : Bool := entryField e 63 62 == 1
/-- CREAM. -/
def creamOf (e : BitVec 256) : Bool := e.getLsbD 59
/-- CODED. -/
def codedOf (e : BitVec 256) : Bool := e.getLsbD 58
/-- FMT. -/
def entryFmt (e : BitVec 256) : Nat := entryField e 57 55
/-- ARR. -/
def entryArr (e : BitVec 256) : Nat := entryField e 54 53
/-- STOP. -/
def entryStop (e : BitVec 256) : Nat := entryField e 47 44

/-- The reserved fields of an entry are 0 and no other field is out of its range (R310, R410). -/
def entryOk (e : BitVec 256) : Bool :=
  decide (entryField e 255 241 = 0 ∧ entryField e 191 144 = 0 ∧ entryField e 86 64 = 0 ∧ entryField e 61 60 = 0
    ∧ entryField e 49 48 = 0 ∧ entryField e 43 0 = 0 ∧ entryField e 63 62 ≤ 1 ∧ entryFmt e ≤ 4)
  && (if endsGroup e then decide (srcOf e = 0 ∧ entryField e 52 50 = 0)
    else decide (entryField e 143 128 = 0 ∧ srcOf e % 128 = 0) && (!creamOf e || decide (srcOf e < 2 ^ 24)))

/-- The coding of an entry is one that its source and its format allow (R311). -/
def entryCoding (e : BitVec 256) : Bool := !(creamOf e && codedOf e) && !(decide (entryFmt e ≥ 3) && codedOf e)

/-- What every entry of a group carries alike: STOP, FMT, ARR, EXPV and EXPERT (R311). -/
def groupKey (e : BitVec 256) : Nat × Nat × Nat × Nat :=
  (entryStop e, entryFmt e, entryArr e, entryField e 95 87)

/-- Two neighbouring entries that one group joins are alike. -/
def groupsAlike : List (BitVec 256) → Bool
  | [] => true
  | [_] => true
  | a :: b :: r => (endsGroup a || groupKey a == groupKey b) && groupsAlike (b :: r)

/-- NENT of a descriptor (R309). -/
def descEntries (d : BitVec 512) : Nat := bitsOf d.toNat 175 160
/-- ENTRIES of a descriptor. -/
def descBase (d : BitVec 512) : Nat := bitsOf d.toNat 240 192
/-- ROUND of a descriptor. -/
def descRound (d : BitVec 512) : Nat := bitsOf d.toNat 5 0

/-- The descriptor passes the checks of R309. -/
def descOk (d : BitVec 512) : Bool :=
  let f (hi lo : Nat) : Nat := bitsOf d.toNat hi lo
  decide (f 511 400 = 0 ∧ f 255 241 = 0 ∧ f 191 176 = 0 ∧ f 159 144 = 0 ∧ f 127 112 = 0 ∧ f 95 7 = 0
    ∧ 1 ≤ descEntries d ∧ descEntries d ≤ 16384 ∧ descBase d % 32 = 0)

/-- The entries pass the checks of R311 that are not those of single fields. -/
def entriesOk (d : BitVec 512) (es : List (BitVec 256)) : Bool :=
  es.all (fun e => entryCoding e && d.getLsbD (384 + entryStop e)) && groupsAlike es
    && (match es.getLast? with
      | some e => endsGroup e
      | none => false)

/-- A round as its install leaves it (R308, R321). -/
def roundOf (ctx graph : Nat) (d : BitVec 512) (es : List (BitVec 256)) : Round :=
  { Round.reset with
    ctx := ctx, graph := graph, stopv := BitVec.ofNat 16 (bitsOf d.toNat 399 384), dwell := bitsOf d.toNat 143 128,
    passlim := bitsOf d.toNat 111 96, skipen := d.getLsbD 6, entries := es }

/-- A round by its number. -/
def State.roundAt (s : State) (n : Nat) : Option Round := findAt s.rounds n
/-- The state with a round replaced. -/
def State.setRound (s : State) (n : Nat) (r : Round) : State := { s with rounds := putAt s.rounds n r }

/-! ## Boarding (R312 to R315) -/

/-- A seat is one that counts: installed or draining. -/
def Seat.held (q : Seat) : Bool := q.state == .installed || q.state == .draining

/-- The seats boarded on a round. -/
def State.boardedOn (s : State) (n : Nat) : List (Nat × Seat) :=
  s.seats.filter (fun x => x.2.boarded == n + 1 && x.2.held)

/-- The operators boarded on a round. -/
def State.boarders (s : State) (n : Nat) : List Nat := distinct ((s.boardedOn n).map (fun x => x.1 / 256))

/-- The cores that a stop of a round serves (R312). -/
def State.servedBy (s : State) (n stop : Nat) : List Nat :=
  distinct (((s.boardedOn n).filter (fun x => x.2.stop == stop)).map (fun x => x.1 % 256))

/-- The contexts that may board a round: its owner and those admitted (R314, R402). A round whose graph has been removed stays
installed while an operator is boarded on it (R308). -/
def Round.admits (r : Round) (ctx : Nat) : Bool := r.ctx == ctx || r.shared.contains ctx

/-- The seats of an operator that count. -/
def State.seatsOf (s : State) (oper : Nat) : List (Nat × Seat) := s.seats.filter (fun x => x.1 / 256 == oper && x.2.held)

/-- A core of an operator's group is served by another round or stop, or the operator is boarded elsewhere (R314). -/
def State.boardClash (s : State) (oper n stop : Nat) : Bool :=
  (s.seatsOf oper).any (fun x =>
    (s.boardedSeats (x.1 % 256)).any (fun y => y.2.boarded != n + 1 || y.2.stop != stop))

/-- The seats of an operator boarded on a round at a stop. -/
def State.boardSeats (s : State) (oper n stop : Nat) : State :=
  { s with seats := mapTab (fun k q =>
      if k / 256 = oper ∧ q.held = true then { q with boarded := n + 1, stop := stop, leaving := false } else q) s.seats }

/-- `mrboard` for an operator of a context: the state and the status (R314). -/
def State.board (s : State) (oper ctx : Nat) (w : Word) : State × Nat :=
  let n := fieldOf w 5 0
  let stop := fieldOf w 11 8
  if oper = 0 then (s, 4)
  else if fieldOf w 63 12 ≠ 0 ∨ fieldOf w 7 6 ≠ 0 then (s, 3)
  else match s.roundAt n with
    | none => (s, 1)
    | some r =>
      if !r.admits ctx then (s, 1)
      else if !r.stopv.getLsbD stop then (s, 3)
      else if (s.seatsOf oper).any (fun x => x.2.boarded == n + 1 && x.2.stop == stop) then (s, 0)
      else if s.boardClash oper n stop then (s, 2)
      else (s.boardSeats oper n stop, 0)

/-- `mrleave`: the state and the status (R314). -/
def State.leaveRound (s : State) (oper : Nat) : State × Nat :=
  if oper = 0 ∨ !(s.seatsOf oper).any (fun x => x.2.boarded != 0) then (s, 4)
  else ({ s with seats := mapTab (fun k q =>
      if k / 256 = oper ∧ q.held = true ∧ q.boarded ≠ 0 then { q with leaving := true } else q) s.seats }, 0)

/-- `mrboard.t` for the executing task: the state and the status (R315). -/
def State.boardTask (s : State) (w : Word) : State × Nat :=
  let q := s.seat
  let b := s.bank s.cur.core
  if s.tk.oper = 0 then (s, 4)
  else if fieldOf w 63 16 ≠ 0 then (s, 3)
  else if q.boarded = 0 ∨ q.leaving then (s, 4)
  else if s.tk.aboard then (s, 0)
  else if b.inactive.st = 2 then (s, 5)
  else if b.active.st ≠ 2 ∨ !b.active.user.allows s.matUser ∨ b.active.tag ≠ fieldOf w 15 0 then (s, 6)
  else ({ s with tasks := putAt s.tasks s.wv.task { s.tk with aboard := true } }, 0)

/-- `mrleave.t` for the executing task: the state and the status (R315). -/
def State.leaveTask (s : State) : State × Nat :=
  if s.tk.oper = 0 ∨ s.seat.boarded = 0 then (s, 4)
  else ({ s with tasks := putAt s.tasks s.wv.task { s.tk with aboard := false } }, 0)

/-- A boarding command of the executing fragment performed: s[d] takes the status (R313). -/
def State.boardIssue (s : State) (c : Command) : State :=
  let x := match c.kind with
    | .mrboard => s.board s.tk.oper s.ctxId (c.regs.getD 0 0)
    | .mrboardTask => s.boardTask (c.regs.getD 0 0)
    | .mrleave => s.leaveRound s.tk.oper
    | _ => s.leaveTask
  x.1.setS (BitVec.ofNat 6 c.dst) (BitVec.ofNat 64 x.2)

/-- A boarding form: performed now, or buffered inside an attempt (R313, R219). -/
def State.boarding (s : State) (k : CmdKind) (d : BitVec 6) (regs : List Word) : State :=
  let c := { s.plainCmd k with dst := d.toNat, regs := regs }
  if s.inTx then s.bufferCmd c else (s.boardIssue c).advance

/-- `mrboard` (R314). -/
def execMrboard (d a : BitVec 6) (s : State) : Result := .next (s.boarding .mrboard d [s.getS a])
/-- `mrboard.t` (R315). -/
def execMrboardT (d a : BitVec 6) (s : State) : Result := .next (s.boarding .mrboardTask d [s.getS a])
/-- `mrleave` (R314). -/
def execMrleave (d : BitVec 6) (s : State) : Result := .next (s.boarding .mrleave d [])
/-- `mrleave.t` (R315). -/
def execMrleaveT (d : BitVec 6) (s : State) : Result := .next (s.boarding .mrleaveTask d [])

/-! ## mrstat (R328) -/

/-- The group that begins at the entry where a round stands is skipped: no core served, or its expert not active
(R316, R321). Log entry 47 (DEDUCED, unsafe). -/
def State.skips (s : State) (n : Nat) (r : Round) (e : BitVec 256) : Bool :=
  (s.servedBy n (entryStop e)).isEmpty || (r.skipen && e.getLsbD 87 && !r.latched.getLsbD (entryField e 95 88))

/-- A served core can take a group: the round has taken its sets over, and the inactive one is empty (R314, R317).
Log entry 47 (DEDUCED, unsafe). -/
def State.takesGroup (s : State) (core : Nat) : Bool := (s.bank core).own && (s.bank core).inactive.st == 0

/-- The round is held: its next group waits for a served core (R317). -/
def State.roundHeld (s : State) (n : Nat) (r : Round) : Bool :=
  match r.entries[r.pos]? with
  | none => false
  | some e => r.group.isNone && !s.skips n r e && !(s.servedBy n (entryStop e)).all s.takesGroup

/-- STATE (R328). -/
def State.roundState (s : State) (n : Nat) (r : Round) : Nat :=
  if r.stopped.isSome then 4 else if (s.boardedOn n).isEmpty then 1 else if s.roundHeld n r then 3 else 2

/-- The round word (R328). -/
def State.roundWord (s : State) (n : Nat) (r : Round) : Word :=
  BitVec.ofNat 64 (r.passes % 65536 * 2 ^ 48 + r.pos * 2 ^ 32 + s.roundState n r * 2 ^ 29 + r.ltag * 2 ^ 8
    + min 255 (s.boarders n).length)

/-- The boarding word of the executing wave (R328). -/
def State.boardingWord (s : State) : Word :=
  let q := s.seat
  BitVec.ofNat 64 ((if s.tk.aboard then 2 ^ 16 else 0)
    + (if q.boarded = 0 then 0 else 2 ^ 15 + (if q.leaving then 2 ^ 14 else 0) + q.stop * 2 ^ 8 + (q.boarded - 1)))

/-- What `mrstat` writes (R313, R328). -/
def State.mrstat (s : State) (x : Word) : Word :=
  let sel := fieldOf x 7 6
  let w := fieldOf x 9 8
  if s.tk.oper = 0 ∨ fieldOf x 63 10 ≠ 0 ∨ sel = 3 ∨ (w ≠ 0 ∧ sel ≠ 2) then 0
  else if sel = 1 then s.boardingWord
  else match s.roundAt (fieldOf x 5 0) with
    | none => 0
    | some r =>
      if !r.admits s.ctxId then 0
      else if sel = 0 then s.roundWord (fieldOf x 5 0) r
      else if r.skipen then r.latched.extractLsb' (64 * w) 64 else BitVec.allOnes 64

/-- `mrstat` (R328). -/
def execMrstat (d a : BitVec 6) (s : State) : Result := .next (s.setS d (s.mrstat (s.getS a))).advance

/-! ## Taking cores over and leaving them (R314) -/

/-- BOARD_CORE_TAKEOVER: a core that was not served has no fill queued and no product pending; its sets are emptied and
OWN becomes 1 (R314). -/
def execBoardCoreTakeover (core : Nat) (s : State) : Result :=
  let b := s.bank core
  .next (if (s.boardedSeats core).isEmpty || b.own || !b.fills.isEmpty || b.pend != 0 then s
    else s.changeBank core { b with active := BankSet.reset, inactive := BankSet.reset, own := true, ownSwap := none })

/-- A core left with no boarded slot: OWN becomes 0, its sets are emptied, and it receives nothing further of a group
under way (R312, R314). -/
def State.releaseCore (s : State) (core : Nat) : State :=
  if (s.boardedSeats core).isEmpty then
    let b := s.bank core
    let s1 : State := { s with rounds := mapTab (fun _ r =>
      { r with group := r.group.map (fun l => l.filter (· ≠ core)) }) s.rounds }
    if b.own then
      s1.changeBank core { b with active := BankSet.reset, inactive := BankSet.reset, own := false, ownSwap := none }
    else s1
  else s

/-- A slot of an operator detached from a core; where `keep` is set its round and stop stay in the save image (R314,
R329). -/
def State.detachSeat (s : State) (oper core : Nat) (keep : Bool) : State :=
  let q := s.seatOf oper core
  if q.boarded = 0 then s
  else (s.setSeatOf oper core
    (if keep && !q.leaving then q else { q with boarded := 0, stop := 0, leaving := false })).releaseCore core

/-- A task of an operator is aboard on a core. -/
def State.aboardOn (s : State) (core oper : Nat) : Bool :=
  s.tasks.any (fun x => x.2.core == core && x.2.oper == oper && x.2.aboard)

/-- SLOT_DETACH: a leaving slot with no task aboard on a core leaves it; the last one once the round has taken the core
over (R314). Log entry 47 (DEDUCED, unsafe). -/
def execSlotDetach (core slot : Nat) (s : State) : Result :=
  let oper := getAt 0 s.slotMap (core * 8 + slot)
  let q := s.seatOf oper core
  .next (if oper ≠ 0 ∧ q.held = true ∧ q.leaving = true ∧ q.boarded ≠ 0 ∧ !s.aboardOn core oper
      ∧ ((s.bank core).own = true ∨ (s.boardedSeats core).length > 1) then s.detachSeat oper core false
    else s)

/-! ## Passes and groups (R316 to R318) -/

/-- A round whose engine moves: an operator boarded and no fault to be replayed; with the entry it stands at. -/
def State.movingRound (s : State) (n : Nat) : Option (Round × BitVec 256) :=
  match s.roundAt n with
  | none => none
  | some r => if r.stopped.isSome || (s.boardedOn n).isEmpty then none else (r.entries[r.pos]?).map (fun e => (r, e))

/-- The round stands at the entry after one, and a pass ends with the last (R316). -/
def Round.past (r : Round) (k : Nat) : Round :=
  if k + 1 < r.entries.length then { r with pos := k + 1, sampled := [] }
  else { r with pos := 0, passes := r.passes + 1, latchDue := true, sampled := [] }

/-- The end-of-group entry of the group that begins at an entry. -/
def Round.groupEnd (r : Round) : Nat :=
  r.pos + ((findIndexOf endsGroup (r.entries.drop r.pos)).getD 0)

/-- The mask latched where a pass begins (R321). -/
def Round.latch (r : Round) : Round :=
  if r.pos = 0 ∧ r.latchDue = true then { r with latched := r.activity, activity := 0, latchDue := false } else r

/-- A group started on some cores: each one's inactive set is filling, for the boarded slots, and holds zero weights
(R317). -/
def State.beginGroup (s : State) (n : Nat) (r : Round) (cores : List Nat) : State :=
  let s1 := s.setRound n { r with group := some cores, since := none }
  cores.foldl (fun t c =>
    t.changeBank c { t.bank c with inactive := { (t.bank c).inactive with st := 1, pois := 0, user := .round n, groups := [] } }) s1

/-- GROUP_START: the first entry of a group is reached. A group that is skipped is passed; another starts once every
served core can take it, and waits till then (R316, R317, R321). -/
def execGroupStart (n : Nat) (s : State) : Result :=
  .next (match s.movingRound n with
    | none => s
    | some (r0, e) =>
      if r0.group.isSome then s
      else
        let r := r0.latch
        let cores := s.servedBy n (entryStop e)
        if r.since.isNone && s.skips n r e then s.setRound n (r.past r.groupEnd)
        else if cores.all s.takesGroup then s.beginGroup n r cores
        else s.setRound n { r with since := some (r.since.getD s.cycle) })

/-- The pass-over limit of a round in cycles; 0 for none (R309, R317). -/
def Round.limit (r : Round) : Nat := 1024 * (if r.passlim = 0 ∧ r.shared ≠ [] then 64 else r.passlim)

/-- PASS_OVER: the pass-over limit has run out and the group starts without the cores that cannot take it (R317). -/
def execPassOver (n : Nat) (s : State) : Result :=
  .next (match s.movingRound n with
    | none => s
    | some (r, e) =>
      match r.since with
      | none => s
      | some c =>
        if r.group.isSome ∨ r.limit = 0 ∨ s.cycle < c + r.limit then s
        else s.beginGroup n r ((s.servedBy n (entryStop e)).filter s.takesGroup))

/-- END_OF_GROUP_ENTRY: the sets of the group's cores are full and carry its tag (R317). -/
def execEndOfGroupEntry (n : Nat) (s : State) : Result :=
  .next (match s.movingRound n with
    | none => s
    | some (r, e) =>
      match r.group with
      | none => s
      | some cores =>
        if !endsGroup e then s
        else
          let tag := entryField e 143 128
          let s1 := s.setRound n { r.past r.pos with group := none, ltag := tag }
          cores.foldl (fun t c =>
            let b := t.bank c
            t.changeBank c { b with inactive :=
              { b.inactive with tag := tag, arr := entryArr e, fmt := entryFmt e, st := 2 } }) s1)

/-- DWELL of the round that serves a core. -/
def State.dwellOn (s : State) (core : Nat) : Nat :=
  match s.boardedSeats core with
  | [] => 0
  | x :: _ => ((s.roundAt (x.2.boarded - 1)).map (·.dwell)).getD 0

/-- ROUND_SWAP: the sets of a core that a round owns are swapped: the inactive one is full, no task is aboard, no product
is pending, and DWELL has passed (R318). -/
def execRoundSwap (core : Nat) (s : State) : Result :=
  let b := s.bank core
  .next (if b.own = true ∧ b.inactive.st = 2 ∧ !s.tasks.any (fun x => x.2.core == core && x.2.aboard) ∧ b.pend = 0
      ∧ (match b.ownSwap with
        | none => true
        | some c => decide (c + s.dwellOn core ≤ s.cycle)) = true then
      let s1 := s.swapBanks core
      s1.setBank core { s1.bank core with ownSwap := some s.cycle }
    else s)

/-- An expert's token has been routed: its bit in the activity mask of every round of the context (R321). -/
def State.noteExpert (s : State) (ctx expert : Nat) : State :=
  { s with rounds := mapTab (fun _ r =>
      if r.ctx = ctx then { r with activity := r.activity ||| BitVec.ofNat 256 (2 ^ (expert % 256)) } else r) s.rounds }

/-! ## Weight blocks (R323 to R327) -/

/-- RAWLEN of a format (R323). -/
def rawLength (fmt : Nat) : Nat := [8192, 16384, 16384, 32768, 2048].getD fmt 0

/-- CRC-32C of some bytes (R327). -/
def crc32c (bytes : List Byte) : Nat :=
  (bytes.foldl (fun c b =>
    (List.range 8).foldl (fun x _ => if x % 2 = 1 then (x / 2) ^^^ 0x82F63B78 else x / 2) (c ^^^ b.toNat)) 0xFFFFFFFF)
    ^^^ 0xFFFFFFFF

/-- The 16 code lengths of LENA or LENB. -/
def codeLengths (x : Nat) : List Nat := (List.range 16).map (fun v => bitsOf x (4 * v + 3) (4 * v))

/-- The lengths form a complete prefix code (R325). -/
def lengthsOk (ls : List Nat) : Bool :=
  let occ := ls.filter (· ≠ 0)
  decide (occ = [1]) || decide ((occ.map (fun l => 2 ^ (15 - l))).foldl (· + ·) 0 = 2 ^ 15)

/-- The canonical codes: length, code and symbol (R325). -/
def canonicalCodes (ls : List Nat) : List (Nat × Nat × Nat) :=
  ((upFrom 1 15).foldl (fun (acc : List (Nat × Nat × Nat) × Nat) len =>
    let r := (List.range 16).foldl (fun (a : List (Nat × Nat × Nat) × Nat) v =>
      if ls.getD v 0 = len then (a.1 ++ [(len, a.2, v)], a.2 + 1) else a) acc
    (r.1, 2 * r.2)) ([], 0)).1

/-- The bits of some bytes, bit 7 of each first (R325). -/
def bitsMsb (bytes : List Byte) : List Bool := bytes.flatMap (fun b => (List.range 8).map (fun i => b.getLsbD (7 - i)))

/-- Symbols read from a string of bits: those still wanted, the length and value of the code under way, and the symbols
read, latest first; none when the string does not decode exactly (R325). -/
def readSymbols (tab : List (Nat × Nat × Nat)) : List Bool → Nat → Nat → Nat → List Nat → Option (List Nat)
  | [], want, len, _, out => if want = 0 ∧ len = 0 then some out.reverse else none
  | b :: rest, want, len, code, out =>
    if want = 0 then
      if rest.length < 7 ∧ (b :: rest).all (fun x => !x) then some out.reverse else none
    else
      let len' := len + 1
      let code' := 2 * code + (if b then 1 else 0)
      match tab.find? (fun x => x.1 == len' && x.2.1 == code') with
      | some x => readSymbols tab rest (want - 1) 0 0 (x.2.2 :: out)
      | none => if len' ≥ 15 then none else readSymbols tab rest want len' code' out

/-- One stream decoded (R325). -/
def decodeStream (bytes : List Byte) (ls : List Nat) (want : Nat) : Option (List Nat) :=
  readSymbols (canonicalCodes ls) (bitsMsb bytes) want 0 0 []

/-- Bytes from pairs of nibbles, the low one first. -/
def nibblePairs : List Nat → List Byte
  | a :: b :: r => BitVec.ofNat 8 (a + 16 * b) :: nibblePairs r
  | _ => []

/-- The fields of a block header (R323). -/
structure BlockHeader where
  crc : Nat
  lenb : Nat
  lena : Nat
  hlen : Nat
  codedLen : Nat
  rawLen : Nat
  fmt : Nat
  codec : Nat
  reserved : Bool
  deriving DecidableEq, Repr

/-- The header that 64 bytes hold. -/
def headerOf (bytes : List Byte) : BlockHeader :=
  let x := ofBytes bytes
  { crc := bitsOf x 287 256, lenb := bitsOf x 255 192, lena := bitsOf x 191 128, hlen := bitsOf x 127 96,
    codedLen := bitsOf x 95 64, rawLen := bitsOf x 63 32, fmt := bitsOf x 15 8, codec := bitsOf x 7 0,
    reserved := decide (bitsOf x 511 288 ≠ 0 ∨ bitsOf x 31 16 ≠ 0) }

/-- The header fits the entry (R323, R327). -/
def BlockHeader.fits (h : BlockHeader) (e : BitVec 256) : Bool :=
  !h.reserved && decide (h.codec ≤ 1 ∧ h.fmt = entryFmt e ∧ h.rawLen = rawLength (entryFmt e)
    ∧ h.codec = (if codedOf e then 1 else 0) ∧ (h.codec = 0 → h.codedLen = h.rawLen)
    ∧ (h.codec = 1 → h.fmt < 3 ∧ creamOf e = false) ∧ h.hlen ≤ h.codedLen ∧ (h.fmt = 0 → h.hlen = 0 ∧ h.lenb = 0)
    ∧ (h.codec = 0 → h.lena = 0 ∧ h.lenb = 0 ∧ h.hlen = 0))

/-- The raw bytes of a block, or the detail of STREAM (R325, R327). -/
def BlockHeader.decode (h : BlockHeader) (coded : List Byte) : Except Nat (List Byte) :=
  let la := codeLengths h.lena
  let lb := codeLengths h.lenb
  if h.codec = 0 then .ok coded
  else if !lengthsOk la || (h.fmt != 0 && !lengthsOk lb) then .error 4
  else if h.fmt = 0 then
    match decodeStream coded la (2 * h.rawLen) with
    | some ns => .ok (nibblePairs ns)
    | none => .error 5
  else match decodeStream (coded.take h.hlen) la h.rawLen, decodeStream (coded.drop h.hlen) lb h.rawLen with
    | some hs, some ls => .ok (List.zipWith (fun a b => BitVec.ofNat 8 (16 * a + b)) hs ls)
    | _, _ => .error 5

/-- What the reading of a block comes to. -/
inductive BlockRead where
  /-- The raw bytes, and the bytes read. -/
  | good (raw : List Byte) (read : Nat)
  /-- Discarded: the cause, the detail, word 7 of the record, and the bytes read. -/
  | bad (cause detail word7 read : Nat)
  /-- A translation or protection fault. -/
  | fault
  /-- A host page must be asked for first. -/
  | hostPage (page : Nat)
  /-- Bytes of another device must be asked for, or are on their way. -/
  | remote (xs : List (Place × Target))
  deriving DecidableEq, Repr

/-- The elements read in order while none stops it. -/
def collect {α β : Type} (f : α → Except BlockRead β) : List α → Except BlockRead (List β)
  | [] => .ok []
  | x :: xs =>
    match f x with
    | .error e => .error e
    | .ok y =>
      match collect f xs with
      | .error e => .error e
      | .ok ys => .ok (y :: ys)

/-- The place of a sector of a context's address as the round reaches it (R326). -/
def State.hubPlace (s : State) (ctx : Nat) (va : Word) : Except BlockRead (Place × Target) :=
  match s.hubXlate ctx va .read with
  | .error _ => .error .fault
  | .ok x =>
    match x.2 with
    | .chip c => if s.unreachable.contains c then .error .fault else .ok x
    | _ => if x.1.isHost && !s.ats.contains (hostPage x.1) then .error (.hostPage (hostPage x.1)) else .ok x

/-- The sectors of an HBM block, by number from the header's on. -/
def State.hbmSector (s : State) (r : Round) (e : BitVec 256) (k : Nat) : Except BlockRead (Place × Target) :=
  s.hubPlace r.ctx (BitVec.ofNat 64 (srcOf e + 128 * k))

/-- The sectors of a cream block in a core's own vault (R326). -/
def State.creamSector (s : State) (r : Round) (core : Nat) (e : BitVec 256) (k : Nat) :
    Except BlockRead (Place × Target) :=
  let off := srcOf e + 128 * k
  if off < 2 ^ 24 then
    .ok ({ plainPlace (0x20000000000 + core * 2 ^ 24 + off) (s.ctxOf r.ctx).keyId with va := BitVec.ofNat 64 off }, .here)
  else .error .fault

/-- Who reads the blocks of a round. -/
def Round.owner (n : Nat) (r : Round) : Owner := hubOwner (.round n) r.ctx

/-- The places of a block's sectors, read from a core's vault or, for core 0xFFFF, through the context's tables (R326). -/
def State.blockSector (s : State) (r : Round) (e : BitVec 256) (core k : Nat) : Except BlockRead (Place × Target) :=
  if core = 0xFFFF then s.hbmSector r e k else s.creamSector r core e k

/-- A sector of a block as it was read at some moment, or as it stands now; with whether it is poisoned (R202, R326). -/
def State.sectorNow (s : State) (n : Nat) (r : Round) (e : BitVec 256) (core k : Nat) : Except BlockRead (List Byte × Bool) :=
  match r.sampled.find? (fun x => x.1 == core && x.2.1 == k) with
  | some x => .ok x.2.2
  | none =>
    match s.blockSector r e core k with
    | .error f => .error f
    | .ok x =>
      let xs := (List.range 128).map (fun i => (x.1.plus i, x.2))
      if !s.allFetched (Round.owner n r) xs then .error (.remote xs)
      else .ok (xs.map (s.engineByte (Round.owner n r) s.mem.readByte), xs.any (s.enginePoison (Round.owner n r)))

/-- `len` bytes of a block from an offset on, with whether a sector of them is poisoned. -/
def State.blockBytes (s : State) (n : Nat) (r : Round) (e : BitVec 256) (core first len : Nat) :
    Except BlockRead (List Byte × Bool) :=
  match collect (s.sectorNow n r e core) (upFrom (first / 128) ((first + len + 127) / 128 - first / 128)) with
  | .error f => .error f
  | .ok xs => .ok (((xs.flatMap (·.1)).drop (first % 128)).take len, xs.any (·.2))

/-- A block read, decoded and checked (R325 to R327). -/
def State.readBlock (s : State) (n : Nat) (r : Round) (e : BitVec 256) (core : Nat) : BlockRead :=
  match s.blockBytes n r e core 0 64 with
  | .error f => f
  | .ok (hb, true) => .bad causeSTREAM 2 0 hb.length
  | .ok (hb, false) =>
    let h := headerOf hb
    if !h.fits e then .bad causeSTREAM 3 0 64
    else match s.blockBytes n r e core 64 h.codedLen with
      | .error f => f
      | .ok (_, true) => .bad causeSTREAM 2 0 (64 + h.codedLen)
      | .ok (coded, false) =>
        match h.decode coded with
        | .error d => .bad causeSTREAM d 0 (64 + h.codedLen)
        | .ok raw =>
          if crc32c raw = h.crc then .good raw (64 + h.codedLen)
          else .bad causeCHECKSUM 0 (h.crc + crc32c raw * 2 ^ 32) (64 + h.codedLen)

/-- A sector of the block at which a round stands is read now: its contents before, or after, a write of software that meets the
read (R326). -/
def State.sampleSector (s : State) (n core k : Nat) : State :=
  match s.movingRound n with
  | none => s
  | some (r, e) =>
    let c := if creamOf e then core else 0xFFFF
    if r.group.isNone || endsGroup e || r.sampled.any (fun x => x.1 == c && x.2.1 == k) then s
    else match s.sectorNow n r e c k with
      | .ok x => s.setRound n { r with sampled := r.sampled ++ [(c, k, x)] }
      | .error (.remote xs) => s.askFor (Round.owner n r) xs
      | .error _ => s

/-- The first K index and the first column of a macro (R232). -/
def macroOrigin (arr m : Nat) : Nat × Nat :=
  let per := (arrShape arr).1 / 128
  (128 * (m % per), 128 * (m / per))

/-- The keys of the weight groups of a macro with the column and group of each (R232, R324). -/
def macroKeys (arr m : Nat) : List (Nat × Nat × Nat) :=
  let o := macroOrigin arr m
  (List.range 128).flatMap (fun c => (List.range 4).map (fun g => ((o.2 + c) * 32 + o.1 / 32 + g, c, g)))

/-- The element type of a weight format (R233). -/
def fmtType (fmt : Nat) : EType := (etypeOf ([9, 8, 4, 7, 10].getD fmt 4)).getD .i8

/-- The aligned groups of a block's raw bytes, by column and group (R63, R324). -/
def macroGroups (fmt : Nat) (raw : List Byte) : List (List WeightGroup) :=
  let t := fmtType fmt
  (List.range 128).map (fun c =>
    (groupsOf32 (elementsOf t.width 0 128 ((raw.drop (16 * t.width * c)).take (16 * t.width))) 5).map (storeGroup t))

/-- A macro of a set written with a block's weights (R317, R324). -/
def BankSet.fillMacro (b : BankSet) (arr m fmt : Nat) (raw : List Byte) : BankSet :=
  let gs := macroGroups fmt raw
  { b with groups := (macroKeys arr m).foldl (fun t k => putAt t k.1 ((gs.getD k.2.1 []).getD k.2.2 zeroGroup)) b.groups }

/-- A macro of a set left at zero weights, the set poisoned (R327). -/
def BankSet.spoilMacro (b : BankSet) (arr m : Nat) : BankSet :=
  { b with pois := 1, groups := b.groups.filter (fun x => !(macroKeys arr m).any (fun k => k.1 == x.1)) }

/-- The record of a block (R327, R417). -/
def State.blockRecord (s : State) (n : Nat) (r : Round) (e : BitVec 256) (core cause detail word7 : Nat) : State × Nat :=
  s.postRecord { FaultRecord.blank with
    cause := cause, detail := detail, core := core, ctx := r.ctx, va := BitVec.ofNat 64 (srcOf e),
    pc := BitVec.ofNat 64 (r.pos + entryField e 127 112 * 2 ^ 16 + entryField e 111 104 * 2 ^ 32
      + entryField e 103 96 * 2 ^ 40),
    agent := 3, more6 := n * 2 ^ 32, word7 := word7, others := if detail = 1 then [2 ^ 33 + n] else [] }

/-- The bytes of a block charged to the contexts boarded, in equal shares, each among its boarded slots (R36, R319). -/
def State.chargeRound (s : State) (n bytes : Nat) : State :=
  let seats := (s.boardedOn n).map (fun x => getAt Operator.reset s.operators (x.1 / 256))
  let ctxs := distinct (seats.map (·.ctx))
  seats.foldl (fun t o =>
    t.chargeClass o.ctx o.bclass 1 ((bytes / ctxs.length / seats.countP (fun q => q.ctx == o.ctx) : Nat) : Int)) s

/-- A block's outcome on some cores: its weights in their macro, or zeros and poison (R317, R327). -/
def State.fillCores (s : State) (e : BitVec 256) (raw : Option (List Byte)) (cores : List Nat) : State :=
  let m := entryField e 52 50
  cores.foldl (fun t c =>
    let b := t.bank c
    match raw with
    | some x => t.setBank c { b with inactive := b.inactive.fillMacro (entryArr e) m (entryFmt e) x }
    | none => t.changeBank c { b with inactive := b.inactive.spoilMacro (entryArr e) m }) s

/-- A round stopped at its entry by a fault that the front end may replay (R327). -/
def State.stopRound (s : State) (n : Nat) (r : Round) (e : BitVec 256) (core : Nat) : State :=
  let (s1, id) := s.blockRecord n r e core causeSTREAM 1 0
  (s1.setRound n { r with stopped := some id, sampled := [] }).dropFetched (Round.owner n r)

/-- A cream block on one core; none when it lies outside the vault. -/
def State.creamBlock (s : State) (n : Nat) (r : Round) (e : BitVec 256) (core : Nat) : Option State :=
  match s.readBlock n r e core with
  | .good raw _ => some (s.fillCores e (some raw) [core])
  | .bad cause detail w _ => some ((s.blockRecord n r e core cause detail w).1.fillCores e none [core])
  | _ => none

/-- A cream block on each of some cores in turn. -/
def State.creamBlocks (s : State) (n : Nat) (r : Round) (e : BitVec 256) : List Nat → State
  | [] => s.setRound n (r.past r.pos)
  | c :: rest =>
    match s.creamBlock n r e c with
    | some t => t.creamBlocks n r e rest
    | none => s.stopRound n r e c

/-- BLOCK_DELIVERY: the block at which a round stands is read, decoded, checked, and written into its macro of every core
of the group (R317, R323 to R327). -/
def execBlockDelivery (n : Nat) (s : State) : Result :=
  .next (match s.movingRound n with
    | none => s
    | some (r, e) =>
      match r.group with
      | none => s
      | some cores =>
        if endsGroup e then s
        else if creamOf e then s.creamBlocks n r e cores
        else match s.readBlock n r e 0xFFFF with
          | .good raw k =>
            (((s.chargeRound n k).fillCores e (some raw) cores).setRound n (r.past r.pos)).dropFetched (Round.owner n r)
          | .bad cause detail w k =>
            (((((s.chargeRound n k).blockRecord n r e 0xFFFF cause detail w).1).fillCores e none cores).setRound n
              (r.past r.pos)).dropFetched (Round.owner n r)
          | .fault => s.stopRound n r e 0xFFFF
          | .remote xs => s.askFor (Round.owner n r) xs
          | .hostPage _ => s)

/-- The host page that a round waits for. -/
def State.roundPage (s : State) (n : Nat) : Option Nat :=
  match s.movingRound n with
  | none => none
  | some (r, e) =>
    if r.group.isNone || endsGroup e || creamOf e then none
    else match s.readBlock n r e 0xFFFF with
      | .hostPage p => some p
      | _ => none

end Sys2Proof.Machine
end

