-- ==== Sys2Proof/Machine/Token.lean ====
section
/-! DEFINITION. The token engine: records and their ids, queues with store, spill and join area, the rows of record
blocks, the token instructions, and the skimmer (R332 to R363). -/

namespace Sys2Proof.Machine

/-- Cause QUEUE_SCOPE (R83). -/
def causeSCOPE : Nat := 0x80
/-- Cause RECORD (R83). -/
def causeRECORD : Nat := 0x81

/-! ## Records (R332 to R335) -/

/-- The id in a word 0. -/
def idOf (w0 : Word) : Nat := fieldOf w0 31 0
/-- HOPS of a word 0. -/
def hopsOf (w0 : Word) : Nat := fieldOf w0 47 40
/-- SLOT of a word 0. -/
def slotOfCopy (w0 : Word) : Nat := fieldOf w0 38 36
/-- COPY of a word 0. -/
def isCopy (w0 : Word) : Bool := w0.getLsbD 35
/-- DROPPED of a word 0. -/
def isDropped (w0 : Word) : Bool := w0.getLsbD 34
/-- CANCELLED of a word 0. -/
def isCancelled (w0 : Word) : Bool := w0.getLsbD 33

/-- A bit at a place. -/
def flagBit (b : Bool) (n : Nat) : Nat := if b then 2 ^ n else 0

/-- Word 0 of a live record (R332). -/
def mkWord0 (id hops slot : Nat) (copy dropped cancelled : Bool) : Word :=
  BitVec.ofNat 64 (min 255 hops * 2 ^ 40 + slot * 2 ^ 36 + flagBit copy 35 + flagBit dropped 34 + flagBit cancelled 33
    + 2 ^ 32 + id)

/-- Word 0 after a further push (R347). -/
def hopped (w0 : Word) : Word :=
  mkWord0 (idOf w0) (hopsOf w0 + 1) (slotOfCopy w0) (isCopy w0) (isDropped w0) (isCancelled w0)

/-- Word 0 of a cancelled record. -/
def cancelledWord (w0 : Word) : Word := w0 ||| BitVec.ofNat 64 (2 ^ 33)

/-- A header with CANC as the record's state has it (R335). -/
def stampHdr (w0 h : Word) : Word :=
  if isCancelled w0 then h ||| 64 else h &&& ~~~(64 : Word)

/-- A record as the device writes it: word 0 and HDR.CANC from its state (R335). -/
def stampRecord (w0 : Word) (r : List Word) : List Word := w0 :: stampHdr w0 (r.getD 1 0) :: r.drop 2

/-- KIND of a record. -/
def kindOf (r : List Word) : Nat := fieldOf (r.getD 1 0) 1 0
/-- SSLOT of a record. -/
def sslotOf (r : List Word) : Nat := fieldOf (r.getD 1 0) 31 8
/-- Length of the chunk that a record begins (R343). -/
def chunkLen (r : List Word) : Nat := fieldOf (r.getD 1 0) 5 3 + 1
/-- K of a record. -/
def slotsOf (r : List Word) : Nat := fieldOf (r.getD 4 0) 43 40
/-- DPARENT of a record. -/
def parentOf (r : List Word) : Nat := fieldOf (r.getD 4 0) 31 0
/-- STAT of an expert slot. -/
def statOf (r : List Word) (i : Nat) : Nat := fieldOf (r.getD (5 + i) 0) 23 16

/-- An expert slot word that R333 accepts. -/
def slotOk (x : Word) : Bool := decide (fieldOf x 31 24 = 0 ∧ fieldOf x 23 16 ≤ 3 ∧ fieldOf x 15 8 = 0)

/-- Words 4 to 12 are well formed (R333). -/
def bodyOk (r : List Word) : Bool :=
  decide (fieldOf (r.getD 4 0) 63 44 = 0 ∧ slotsOf r ≤ 8) && (List.range (slotsOf r)).all (fun i => slotOk (r.getD (5 + i) 0))

/-- The RECORD detail of a record that is not well formed (R333, R360). -/
def malformed (r : List Word) : Option Nat :=
  if kindOf r = 0 ∨ (r.getD 1 0).getLsbD 7 then some 2 else if bodyOk r then none else some 3

/-- The reserved bits of an expert slot word cleared (R332). -/
def clearReserved (x : Word) : Word := x &&& ~~~(BitVec.ofNat 64 (255 * 2 ^ 24))

/-- A record as bytes that the device writes: reserved fields are written 0, in the slots that no check examines too (R7,
R333). -/
def recordBytes (r : List Word) : List Byte :=
  (wordBytes (r.take 5 ++ ((r.drop 5).take 8).map clearReserved ++ r.drop 13)).take 128

/-! ## Records held, ids and cancellation (R335, R351) -/

/-- A record that the device holds: its context, its word 0, and its DPARENT. -/
structure Held where
  ctx : Nat
  w0 : Word
  parent : Nat
  deriving DecidableEq, Repr

/-- The records that a queue holds. -/
def TokenQueue.holds (q : TokenQueue) : List Held :=
  q.store.map (fun e => { ctx := q.ctx, w0 := e.record.getD 0 0, parent := parentOf e.record })
    ++ q.spill.map (fun e => { ctx := q.ctx, w0 := e.w0, parent := e.parent })
    ++ q.held.map (fun e => { ctx := q.ctx, w0 := e.w0, parent := e.parent })

/-- The place where row `r` of the record block of a handle begins (R188). -/
def rowKey (oper core t r : Nat) : Nat := scratchKey oper core (1024 * t + 128 * r)

/-- A place of an operator's record block. -/
def State.rowPlace (s : State) (oper core t r : Nat) : Place :=
  { key := rowKey oper core t r, keyId := (s.ctxOf (getAt Operator.reset s.operators oper).ctx).keyId, kind := 0,
    cached := false, home := 0, va := BitVec.ofNat 64 (windowBase + 255 * 2 ^ 24 + 1024 * t + 128 * r) }

/-- The operator and handle that an entry of a core belongs to. -/
def State.entryOwner (s : State) (core entry : Nat) : Option (Nat × Nat) :=
  ((s.seats.find? (fun x => x.1 % 256 == core && x.2.held && decide (x.2.partBase ≤ entry ∧ entry < x.2.partBase + x.2.partSize)))).map
    (fun x => (x.1 / 256, entry - x.2.partBase))

/-- Live rows of the tile tables with where their records stand: operator, core, handle and row. -/
def State.tileRows (s : State) : List (LiveRow × Nat × Nat × Nat) :=
  s.tiles.flatMap (fun x =>
    if x.2.live.isEmpty then []
    else match s.entryOwner (x.1 / 64) (x.1 % 64) with
      | some o => x.2.live.map (fun r => (r, o.1, x.1 / 64, o.2))
      | none => [])

/-- Live rows, those of saved slots among them (R362). -/
def State.liveRows (s : State) : List (LiveRow × Nat × Nat × Nat) :=
  s.tileRows ++ s.seats.flatMap (fun x => x.2.saved.flatMap (fun e => e.2.live.map (fun r => (r, x.1 / 256, x.1 % 256, e.1))))

/-- DPARENT of the record of a live row: as it stands in the row, or in the row's copy in a save image; where another device has
that, as it was saved (R116, R332). -/
def State.rowParent (s : State) (x : LiveRow × Nat × Nat × Nat) : Nat :=
  let ps := placesFrom { s.rowPlace x.2.1 x.2.2.1 x.2.2.2 x.1.row with key := rowKey x.2.1 x.2.2.1 x.2.2.2 x.1.row + 32 } 4
  if (s.imageChip (.load ps .none)).isSome then x.1.parent else ofBytes (ps.map (fun p => s.mem.readByte (s.imagePlace p)))

/-- Every record that the device holds in a state other than retired (R26, R335, R378). -/
def State.heldRecords (s : State) : List Held :=
  s.queues.flatMap (fun x => x.2.holds)
    ++ s.liveRows.map (fun x => { ctx := x.1.ctx, w0 := x.1.w0, parent := s.rowParent x })
    ++ (s.flights.filter (fun f => f.remote.isNone)).map (fun f =>
      { ctx := f.ctx, w0 := f.record.getD 0 0, parent := parentOf f.record })

/-- The live count of a context (R335). Log entry 48 (DEDUCED, unsafe). -/
def State.liveCount (s : State) (ctx : Nat) : Nat := s.heldRecords.countP (fun h => h.ctx == ctx)

/-- Some record of a context bears an id. -/
def State.borne (s : State) (ctx id : Nat) : Bool := s.heldRecords.any (fun h => h.ctx == ctx && idOf h.w0 == id)

/-- An id is cancelled and still borne (R351). -/
def State.idCancelled (s : State) (ctx id : Nat) : Bool :=
  s.heldRecords.any (fun h => h.ctx == ctx && idOf h.w0 == id && isCancelled h.w0)

/-- The next id of a context (R335). -/
def State.nextId (s : State) (ctx : Nat) : Nat :=
  let used := (s.heldRecords.filter (fun h => h.ctx == ctx)).map (fun h => idOf h.w0)
  let last := (s.ctxOf ctx).lastId
  (((List.range (used.length + 2)).map (fun i => (last + 1 + i) % 2 ^ 32)).find? (fun k => k != 0 && !used.contains k)).getD 0

/-- The ids of a context whose DPARENT chain reaches one of some ids. -/
def chainOf (hs : List Held) (ids : List Nat) : Nat → List Nat
  | 0 => ids
  | n + 1 =>
    chainOf hs (ids ++ distinct ((hs.filter (fun h => ids.contains h.parent && !ids.contains (idOf h.w0))).map
      (fun h => idOf h.w0))) n

/-! ## Queues (R336 to R343) -/

/-- A token queue. -/
def State.queue (s : State) (q : Nat) : TokenQueue := getAt TokenQueue.reset s.queues q
/-- The state with a queue replaced. -/
def State.setQueue (s : State) (q : Nat) (x : TokenQueue) : State := { s with queues := putAt s.queues q x }
/-- A queue replaced, which is a write of its words (R339). -/
def State.changeQueue (s : State) (q : Nat) (x : TokenQueue) : State := (s.setQueue q x).writeWord (.queueCount q)

/-- A core is within a queue's scope (R337). -/
def State.within (s : State) (q : TokenQueue) (core : Nat) : Bool :=
  match q.scope with
  | 1 => core == q.anchor
  | 2 => (getAt Group.reset s.groups q.anchor).members.contains core
  | 3 => core / 32 == q.anchor
  | _ => true

/-- A queue that a core may use for a context (R336, R337). -/
def State.queueOk (s : State) (ctx core q : Nat) : Bool :=
  match findAt s.queues q with
  | some x => x.ctx == ctx && s.within x core
  | none => false

/-- The chunks that the records of a store form: length and members, by place, in the order of their first records
(R343). -/
def chunksOf (store : List QueueEntry) : List (Nat × Nat × List Nat) :=
  store.zipIdx.foldl (fun acc x =>
    let r := x.1.record
    if kindOf r ≠ 1 then acc
    else
      let isOpen (c : Nat × Nat × List Nat) : Bool := c.1 == sslotOf r && decide (c.2.2.length < c.2.1)
      if acc.any isOpen then acc.map (fun c => if isOpen c then (c.1, c.2.1, c.2.2 ++ [x.2]) else c)
      else acc ++ [(sslotOf r, x.1.len.getD (chunkLen r), [x.2])]) []

/-- A chunk that is not complete in the store. -/
def openChunk (store : List QueueEntry) (sslot : Nat) : Option (Nat × Nat × List Nat) :=
  (chunksOf store).find? (fun c => c.1 == sslot && decide (c.2.2.length < c.2.1))

/-- A record put at the end of the store. -/
def TokenQueue.enter (q : TokenQueue) (r : List Word) (stamp : Nat) : TokenQueue :=
  if kindOf r = 1 ∧ (openChunk q.store (sslotOf r)).isNone then
    { q with
      store := q.store ++ [{ record := r, stamp := stamp, len := (q.nextLen.find? (fun x => x.1 == sslotOf r)).map (·.2) }]
      nextLen := q.nextLen.filter (fun x => x.1 != sslotOf r) }
  else { q with store := q.store ++ [{ record := r, stamp := stamp, len := none }] }

/-- A cancelled record retired at its refill: its chunk is one shorter (R343). -/
def TokenQueue.shorten (q : TokenQueue) (r : List Word) : TokenQueue :=
  if kindOf r ≠ 1 then q
  else match openChunk q.store (sslotOf r) with
    | some c =>
      { q with store := q.store.zipIdx.map (fun x =>
          if x.2 = c.2.2.headD 0 then { x.1 with len := some (c.2.1 - 1) } else x.1) }
    | none =>
      let l := ((q.nextLen.find? (fun x => x.1 == sslotOf r)).map (·.2)).getD (chunkLen r)
      let rest := q.nextLen.filter (fun x => x.1 != sslotOf r)
      { q with nextLen := if l > 1 then rest ++ [(sslotOf r, l - 1)] else rest }

/-- The virtual address of a place of a queue's spill area. -/
def TokenQueue.spillVa (q : TokenQueue) (pos : Nat) : Word := BitVec.ofNat 64 (q.spBase + 128 * pos)

/-- Who reads and writes a queue's spill area. -/
def State.queueOwner (s : State) (q : Nat) : Owner := hubOwner (.queue q) (s.queue q).ctx

/-- A spill access translated, or what stops it: a fault, or a host page that is asked for or has been refused (R340, R388). -/
def State.spillPlace (s : State) (q pos : Nat) (n : Need) : Except HubStop (Place × Target) :=
  let x := s.queue q
  match s.hubXlate x.ctx (x.spillVa pos) n with
  | .error e => .error (.fault e.1 e.2 (x.spillVa pos).toNat)
  | .ok p => match s.pageStop (.spill q) p with
    | some e => .error e
    | none => .ok p

/-- Why a push is not performed: its queue has no room, or its spill area is not written or read, or not yet (R340, R388). -/
inductive PushStop where
  | full
  | spill (e : HubStop)

/-- The status of a push that fails (R340), none where it waits. -/
def PushStop.status (e : PushStop) : Option Nat :=
  match e with
  | .full => some 1
  | .spill x => if x.fails then some 2 else none

/-- What a push that waits asks for: a host page of the spill area, or bytes of it that another device has (R112, R388). -/
def State.pushWaits (s : State) (q : Nat) (e : PushStop) : State :=
  match e with
  | .full => s
  | .spill x => s.askHub (.spill q) (s.queue q).ctx 2 x

/-- Places of the spill area that hold no record, from the place after the last spilled record on, going round (R338). -/
def TokenQueue.freePlaces (q : TokenQueue) : List Nat :=
  ((List.range q.spCap).map (fun i => (q.spillTail + i) % q.spCap)).filter (fun p => !(q.spill ++ q.held).any (fun e => e.pos == p))

/-- The first place of the spill area, from one on, that holds no record. -/
def TokenQueue.tailPlace (q : TokenQueue) : Nat :=
  if (q.spill ++ q.held).any (fun e => e.pos == q.spillTail) then q.freePlaces.headD q.spillTail else q.spillTail

/-- The spill area has no free place (R338). -/
def TokenQueue.spillFull (x : TokenQueue) : Bool := decide (x.spCap ≤ x.spill.length + x.held.length)

/-- A record put at the tail goes into the store (R338). -/
def TokenQueue.takesStore (x : TokenQueue) : Bool := x.spill.isEmpty && decide (x.store.length < x.cap)

/-- A record written to a place of a queue's spill area, or what stops that (R340). -/
def State.spillRecord (s : State) (q pos : Nat) (r : List Word) : Except HubStop State :=
  match s.spillPlace q pos .write with
  | .error e => .error e
  | .ok p => .ok (s.engineStore (s.queueOwner q) p.2 ((placesFrom p.1 128).zip (recordBytes r)))

/-- A record of the spill area read back, its state as the device keeps it, or what stops that: a fault, poison, a page, or bytes of
another device that have not come, for which an earlier write of the queue to that device must first be acknowledged (R112, R335,
R340). -/
def State.unspill (s : State) (q : Nat) (e : SpillEntry) : Except HubStop (List Word) :=
  match s.spillPlace q e.pos .read with
  | .error x => .error x
  | .ok p =>
    let o := s.queueOwner q
    let xs := (placesFrom p.1 128).map (fun y => (y, p.2))
    if s.writesOut o then .error (.fetch [])
    else if !s.allFetched o xs then .error (.fetch xs)
    else if xs.any (s.enginePoison o) then .error (.fault causePOISON 0 p.1.va.toNat)
    else .ok (stampRecord e.w0 (wordsOf (xs.map (s.engineByte o s.mem.readByte)) 16))

/-- What the device keeps of a record that it writes to a place of the spill area. -/
def State.spillEntry (s : State) (pos : Nat) (r : List Word) : SpillEntry :=
  { w0 := r.getD 0 0, parent := parentOf r, stamp := s.cycle, pos := pos }

/-- A record put at the tail of a queue: in the store, or in the spill (R338); or why not (R340). -/
def State.appendRecord (s : State) (q : Nat) (r : List Word) : Except PushStop State :=
  let x := s.queue q
  if x.takesStore then .ok (s.changeQueue q (x.enter r s.cycle))
  else if x.spillFull then .error .full
  else match s.spillRecord q x.tailPlace r with
    | .error e => .error (.spill e)
    | .ok s1 =>
      .ok (s1.changeQueue q { s1.queue q with
        spill := x.spill ++ [s.spillEntry x.tailPlace r], spillTail := (x.tailPlace + 1) % x.spCap })

/-- A copy of every slot that is routed in a copy that arrives is there (R341). -/
def joinDone (mates : List SpillEntry) (r : List Word) : Bool :=
  (List.range (slotsOf r)).all (fun i =>
    statOf r i != 1 || slotOfCopy (r.getD 0 0) == i || mates.any (fun e => slotOfCopy e.w0 == i))

/-- The record that the copies of a record merge into: the copy of the lowest slot, with whether any of them was cancelled
(R341). -/
def mergeCopies (first : List Word) (cancelled : Bool) : List Word :=
  let w := first.getD 0 0
  let w0 := mkWord0 (idOf w) (hopsOf w) 0 false (isDropped w) cancelled
  let slots := (List.range 8).map (fun i =>
    let x := first.getD (5 + i) 0
    if i < slotsOf first ∧ statOf first i = 1 then (x &&& ~~~(BitVec.ofNat 64 (255 * 2 ^ 16))) ||| BitVec.ofNat 64 (3 * 2 ^ 16)
    else x)
  stampRecord w0 (first.take 5 ++ slots ++ first.drop 13)

/-- The held copy of the lowest slot. -/
def lowestCopy : List SpillEntry → Option SpillEntry
  | [] => none
  | e :: rest =>
    match lowestCopy rest with
    | some x => if slotOfCopy x.w0 < slotOfCopy e.w0 then some x else some e
    | none => some e

/-- The copy of the lowest slot among the held ones and one that arrives, read back where it is held (R341). -/
def State.firstCopy (s : State) (q : Nat) (mates : List SpillEntry) (r : List Word) : Except HubStop (List Word) :=
  match lowestCopy mates with
  | some e => if slotOfCopy e.w0 < slotOfCopy (r.getD 0 0) then s.unspill q e else .ok r
  | none => .ok r

/-- The place of the spill area where a copy is held. Log entry 83 (DEDUCED, unsafe). -/
def State.holdPlace (s : State) (q : Nat) : Nat :=
  let free := (s.queue q).freePlaces
  free.getD (Config.choice s.fresh q % free.length) 0

/-- A routed copy held in the join area, at a free place of the spill area (R341). Log entry 83 (DEDUCED, unsafe). -/
def State.holdCopy (s : State) (q : Nat) (r : List Word) : Except PushStop State :=
  let x := s.queue q
  if x.spillFull then .error .full
  else match s.spillRecord q (s.holdPlace q) r with
    | .error e => .error (.spill e)
    | .ok s1 => .ok (s1.takeFresh.changeQueue q { s1.queue q with held := x.held ++ [s.spillEntry (s.holdPlace q) r] })

/-- The held copies of the record of a copy, and the queue without them (R341). -/
def TokenQueue.mates (x : TokenQueue) (r : List Word) : List SpillEntry × TokenQueue :=
  let same (e : SpillEntry) : Bool := idOf e.w0 == idOf (r.getD 0 0)
  (x.held.filter same, { x with held := x.held.filter (fun e => !same e) })

/-- A record pushed to a queue (R338, R340, R341): the state, or why the push is not performed.
Log entry 48 (DEDUCED, unsafe). -/
def State.pushQueue (s : State) (q : Nat) (r : List Word) : Except PushStop State :=
  let x := s.queue q
  if x.join && isCopy (r.getD 0 0) then
    let (mates, rest) := x.mates r
    if joinDone mates r then
      match s.firstCopy q mates r with
      | .error e => .error (.spill e)
      | .ok first =>
        ((s.dropFetched (s.queueOwner q)).setQueue q rest).appendRecord q
          (mergeCopies first (isCancelled (r.getD 0 0) || mates.any (fun e => isCancelled e.w0)))
    else s.holdCopy q r
  else s.appendRecord q r

/-- The place of the spill area that a push writes, if it writes one (R338, R341). -/
def State.pushPlace (s : State) (q : Nat) (r : List Word) : Option Nat :=
  let x := s.queue q
  let tail (y : TokenQueue) : Option Nat := if y.takesStore || y.spillFull then none else some y.tailPlace
  if x.join && isCopy (r.getD 0 0) then
    let (mates, rest) := x.mates r
    if joinDone mates r then tail rest else if x.spillFull then none else some (s.holdPlace q)
  else tail x

/-- The accesses of the spill areas of the asker of a queue are over: what it has been refused or has read is used up. -/
def State.endSpill (s : State) (q : Nat) : State := (s.endAsk (.spill q)).dropFetched (s.queueOwner q)

/-- The record of a push that is not performed (R340, R417). -/
def State.pushFailed (s : State) (q status : Nat) : State :=
  (if status = 1 then s else s.endSpill q).report { FaultRecord.blank with
    cause := if status = 1 then causeSPILLFULL else causeSPILLFAULT, detail := 0x20, ctx := (s.queue q).ctx, agent := 4,
    more6 := q * 2 ^ 20 }

/-- Pushes performed one after another; the queue of the first that is not, and why. -/
def State.pushRecords (s : State) : List (Nat × List Word) → Except (Nat × PushStop) State
  | [] => .ok s
  | (q, r) :: rest =>
    match s.pushQueue q r with
    | .ok t => t.pushRecords rest
    | .error e => .error (q, e)

/-- The writes of the spill area that some pushes make, as accesses of the program order of their wave (R110). -/
def State.pushParts (s : State) : List (Nat × List Word) → List Part
  | [] => []
  | (q, r) :: rest =>
    let mine := match s.pushPlace q r with
      | none => []
      | some pos => match s.spillPlace q pos .write with
        | .ok p => [{ target := p.2, op := .store ((placesFrom p.1 128).map (fun x => (x, 0))), kind := 2 }]
        | .error _ => []
    match s.pushQueue q r with
    | .ok t => mine ++ t.pushParts rest
    | .error _ => mine

/-- SPILL_REFILL: the oldest spilled record moves into the store, or is retired when it is cancelled (R338, R340); bytes of
another device, and a host page, are asked for first (R112, R388). -/
def execSpillRefill (q : Nat) (s : State) : Result :=
  let x := s.queue q
  .next (match x.spill with
    | [] => s
    | e :: rest =>
      if x.store.length ≥ x.cap then s
      else match s.unspill q e with
        | .error y => if y.fails then s.pushFailed q 2 else s.askHub (.spill q) x.ctx 1 y
        | .ok r =>
          let x1 := { x with spill := rest }
          (s.endSpill q).changeQueue q (if isCancelled e.w0 then x1.shorten r else x1.enter r e.stamp))

/-! ## Rows of a tile (R30, R343, R348) -/

/-- The record in a place of a store is cancelled. -/
def cancelledAt (store : List QueueEntry) (i : Nat) : Bool :=
  match store[i]? with
  | some e => isCancelled (e.record.getD 0 0)
  | none => false

/-- Places taken by rows, in row order, and places that leave the queue. -/
structure Picked where
  order : List Nat
  gone : List Nat
  deriving DecidableEq, Repr

/-- Places added, those of cancelled records leaving without a row. -/
def Picked.add (p : Picked) (store : List QueueEntry) (is : List Nat) : Picked :=
  { order := p.order ++ is.filter (fun i => !cancelledAt store i), gone := p.gone ++ is }

/-- Rows that the members of a chunk take. -/
def liveMembers (store : List QueueEntry) (is : List Nat) : Nat := is.countP (fun i => !cancelledAt store i)

/-- What a `tkpop` takes (R348): records in queue order, up to 8 rows, up to an ineligible record, or before a chunk that
does not fit. -/
def popPick (store : List QueueEntry) : Picked :=
  let cs := chunksOf store
  (store.zipIdx.foldl (fun (a : Picked × Bool) x =>
    if a.2 || a.1.gone.contains x.2 then a
    else if a.1.order.length ≥ 8 then (a.1, true)
    else if kindOf x.1.record ≠ 1 then (a.1.add store [x.2], false)
    else match cs.find? (fun c => c.2.2.contains x.2) with
      | some c =>
        if c.2.2.length < c.2.1 ∨ liveMembers store c.2.2 > 8 - a.1.order.length then (a.1, true)
        else (a.1.add store c.2.2, false)
      | none => (a.1, true)) ({ order := [], gone := [] }, false)).1

/-- Complete chunks of a store. -/
def wholeChunks (store : List QueueEntry) : List (List Nat) :=
  ((chunksOf store).filter (fun c => decide (c.2.1 ≤ c.2.2.length))).map (fun c => c.2.2)

/-- Step 3 of R30: whole chunks in queue order while the next one fits. -/
def placeChunks (store : List QueueEntry) (p : Picked) : List (List Nat) → Picked
  | [] => p
  | c :: rest => if liveMembers store c > 8 - p.order.length then p else placeChunks store (p.add store c) rest

/-- The place of the oldest prefill row of a store: the first of the members of whole chunks that take a row (R30, R343). -/
def oldestPrefill (store : List QueueEntry) : Option Nat :=
  ((wholeChunks store).flatten.filter (fun i => !cancelledAt store i)).foldl (fun b i => match b with
    | none => some i
    | some j => some (min i j)) none

/-- What a firing takes (R30). Log entry 48 (DEDUCED, unsafe). -/
def firePick (store : List QueueEntry) (timeout now : Nat) : Picked :=
  let cs := wholeChunks store
  let overdue (i : Nat) : Bool := decide (((store[i]?).map (·.stamp)).getD now + timeout < now)
  let start : Picked := { order := [], gone := [] }
  let first := cs.find? (fun c => (oldestPrefill store).any (fun i => c.contains i && overdue i))
  let (p1, rest) := match first with
    | some c => (start.add store c, cs.filter (· != c))
    | none => (start, cs)
  let p2 := store.zipIdx.foldl (fun (a : Picked) x =>
    if kindOf x.1.record = 1 ∨ a.order.length ≥ 8 then a else a.add store [x.2]) p1
  placeChunks store p2 rest

/-- Places of a store whose records are eligible and not cancelled (R29, R343). -/
def eligibleRows (store : List QueueEntry) : List Nat :=
  let whole := (wholeChunks store).flatten
  (store.zipIdx.filter (fun x => !cancelledAt store x.2 && (kindOf x.1.record != 1 || whole.contains x.2))).map (·.2)

/-- A store without some of its places. -/
def dropPlaces (store : List QueueEntry) (gone : List Nat) : List QueueEntry :=
  (store.zipIdx.filter (fun x => !gone.contains x.2)).map (·.1)

/-- The records in some places. -/
def recordsAt (store : List QueueEntry) (is : List Nat) : List (List Word) :=
  is.map (fun i => ((store[i]?).map (·.record)).getD [])

/-- The bytes of a record block that holds some records, rows without one being zero (R344). -/
def State.blockData (s : State) (oper core t : Nat) (rs : List (List Word)) : List (Place × Byte) :=
  (List.range 8).flatMap (fun r =>
    let bytes := match rs[r]? with
      | some x => recordBytes (stampRecord (x.getD 0 0) x)
      | none => List.replicate 128 0
    (placesFrom (s.rowPlace oper core t r) 128).zip bytes)

/-- The rows of an entry that some records make live, for a task (R344). -/
def State.makeLive (s : State) (core entry ctx task : Nat) (rs : List (List Word)) : State :=
  s.setTile core entry { s.tileOf core entry with
    live := rs.zipIdx.map (fun x => { row := x.2, w0 := x.1.getD 0 0, ctx := ctx }), liveTask := task }

/-- A row of an entry no longer live. -/
def State.dropRow (s : State) (core entry row : Nat) : State :=
  let e := s.tileOf core entry
  s.setTile core entry { e with live := e.live.filter (fun r => r.row != row) }

/-! ## Record addresses (R345) -/

/-- A live row as an instruction names it: its entry on the core, its handle and row, and the row's state. -/
structure RowRef where
  entry : Nat
  tile : Nat
  row : Nat
  live : LiveRow
  deriving DecidableEq, Repr

/-- The live row of the executing slot at a record address (R345). -/
def State.rowAt (s : State) (va : Word) : Option RowRef :=
  let base := windowBase + 255 * 2 ^ 24
  let off := va.toNat - base
  if va.toNat % 128 = 0 ∧ base ≤ va.toNat ∧ off < 1024 * s.seat.partSize then
    ((s.tileAt (off / 1024)).live.find? (fun r => r.row == off / 128 % 8)).map (fun r =>
      { entry := s.entryOf (off / 1024), tile := off / 1024, row := off / 128 % 8, live := r })
  else none

/-- The places of a row of the executing slot. -/
def State.rowPlaces (s : State) (r : RowRef) : List Place := placesFrom (s.rowPlace s.tk.oper s.cur.core r.tile r.row) 128

/-- The record of a live row: its bytes, with word 0 and HDR.CANC from its state (R335, R347). -/
def State.rowRecord (s : State) (r : RowRef) : List Word :=
  stampRecord r.live.w0 (wordsOf ((s.rowPlaces r).map s.readByte) 16)

/-- RECORD (R360). -/
def State.trapRecord (s : State) (va : Word) (detail : Nat) : State := s.trap causeRECORD va 0 detail

/-- The executing fragment suspended for a queue outside its scope, an open attempt abandoned first (R337). -/
def State.suspendScope (s : State) (q detail : Nat) : State :=
  let pc := s.fr.pc
  let s1 := if s.inTx then s.abandonHere 5 0 0 else s
  let (s2, id) := s1.postRecord { s1.waveRecord s1.cur causeSCOPE detail 0 0 with
    pc := pc, more6 := q * 2 ^ 20, suspended := [s1.cur] }
  s2.setFr { s2.fr with status := .suspended id }

/-- What precedes a release part at a scope performed; none when it must wait (R105, R342). -/
def State.releaseAt (s : State) (release : Bool) (scope : Nat) : Option State :=
  if s.inTx || !release then some s
  else s.forceFor { s.newAccess .here (.fence 0) 0 with scope := scope }

/-- What earlier accesses of the program order do to a row's record performed, so that the record is read as they leave it (R101,
R347). -/
def State.rowReady (s : State) (r : RowRef) : Option State :=
  s.forceParts [{ target := .here, op := .load (s.rowPlaces r) .none, kind := 2 }]

/-- What comes before some pushes of the executing fragment performed: what precedes their release, if they are one (R342), and
accesses to the bytes of the spill area that they write (R110). -/
def State.beforePush (s : State) (release : Bool) (scope : Nat) (rs : List (Nat × List Word)) : Option State :=
  match s.releaseAt release scope with
  | none => none
  | some t => if t.movedOn s then some t else t.forceParts (t.pushParts rs)

/-- The scope of a push that is a release at package scope, or at MR.scope where MR.order asks for more (R342). -/
def State.pushScope (s : State) : Nat := if s.order ≥ 2 ∧ s.scope = 5 then 5 else 4

/-! ## tknew, tkpush, tkfree, tkhdr (R346, R347, R349, R350) -/

/-- A record created from an image and pushed (R346): the state, and the id or 2^63 with the status; or what it waits for (R388). -/
def State.createRecord (s : State) (ctx q : Nat) (img : List Word) : Except PushStop (State × Nat) :=
  if s.liveCount ctx ≥ (s.ctxOf ctx).liveLimit then .ok (s, 2 ^ 63 + 3)
  else
    let id := s.nextId ctx
    let w0 := mkWord0 id 0 0 false false (parentOf img != 0 && s.idCancelled ctx (parentOf img))
    let s1 := s.setCtx ctx { s.ctxOf ctx with lastId := id }
    match s1.pushQueue q (stampRecord w0 img) with
    | .ok t => .ok (t, id)
    | .error e => match e.status with
      | some k => .ok (s1.pushFailed q k, 2 ^ 63 + k)
      | none => .error e

/-- `tknew` (R346). -/
def execTknew (d a b : BitVec 6) (s : State) : Result :=
  let va := s.getS a
  let q := (s.getS b).toNat
  .next (
    if s.inTx then s.abandonHere 6 0 0
    else if !aligned va 128 then s.trapMisaligned va 0
    else if q ≥ 4096 then s.trapRecord va 5
    else match s.waveRead va with
      | .error t => t
      | .ok (s1, bytes) =>
        let img := wordsOf bytes 16
        match malformed img with
        | some k => s.trapRecord va k
        | none =>
          if !s.queueOk s.ctxId s.cur.core q then s.suspendScope q 1
          else s1.after (s1.beforePush true s.pushScope [(q, stampRecord 0 img)]) (fun s2 =>
            match s2.createRecord s.ctxId q img with
            | .ok (s3, x) => (s3.setS d (BitVec.ofNat 64 x)).advance
            | .error e => (s2.pushWaits q e).stall))

/-- The record that a push of a live row hands on: one hop more (R347). -/
def State.rowSent (s : State) (r : RowRef) : List Word := stampRecord (hopped r.live.w0) (s.rowRecord r)

/-- A live row of the executing fragment's slot handed to a queue (R347): the state and the status, or what the push waits for
(R388). -/
def State.pushRow (s : State) (r : RowRef) (q : Nat) : Except PushStop (State × Nat) :=
  if isCancelled r.live.w0 then .ok (s.dropRow s.cur.core r.entry r.row, 0)
  else match s.pushQueue q (s.rowSent r) with
    | .ok t => .ok (t.dropRow s.cur.core r.entry r.row, 0)
    | .error e => match e.status with
      | some k => .ok (s.pushFailed q k, k)
      | none => .error e

/-- The address of the first sector of some writes that an attempt's write set has no entry for; 0 where it is a queue's words
that find none (R213, R215). -/
def Attempt.unfit (a : Attempt) (data : List TxWrite) : Word :=
  let secs := sectorsOf (data.map (·.place))
  let upTo (n : Nat) : List TxWrite :=
    data.filter (fun w => ((secs.take n).map (·.1)).contains (.sector (sectorOf w.place.key)))
  if a.writeEntries > 16 then 0
  else match (List.range secs.length).find? (fun i =>
      decide (({ a with writes := a.writes ++ upTo (i + 1) } : Attempt).writeEntries > 16)) with
    | some i => ((secs.map (·.2)).getD i 0)
    | none => 0

/-- An operation on a queue added to the attempt; the second part is false when the attempt ended (R215, R216, R361). -/
def State.addTokenOp (s : State) (o : TokenOp) (data : List (Place × Byte)) : State × Bool :=
  let (s1, ok) := s.txConflict ((.queueCount o.queueOf, 0) :: sectorsOf (data.map (·.1))) true
  if !ok then (s1, false)
  else
    let (s2, ok2) := s1.addRead (.queueCount o.queueOf) 0
    if !ok2 then (s2, false)
    else match s2.attempt with
      | none => (s2, false)
      | some a =>
        let ws : List TxWrite := data.map (fun x => { place := x.1, byte := some x.2 })
        let a1 := { a with tokenOps := a.tokenOps ++ [o] }
        let a2 := { a1 with writes := a1.writes ++ ws }
        if a2.writeEntries > 16 ∨ s2.noWay (data.map (·.1.key)) then (s2.abandonHere 3 0 (a1.unfit ws), false)
        else (s2.setAttempt a2, true)

/-- A queue as the executing fragment's attempt sees it, after what the attempt itself has done to it. -/
def State.queueView (s : State) (q : Nat) : TokenQueue :=
  match s.attempt with
  | none => s.queue q
  | some a => a.tokenOps.foldl (fun x o =>
      match o with
      | .pop k _ _ gone => if k = q then { x with store := dropPlaces x.store gone } else x
      | .push k e row _ =>
        if k = q then
          match (s.tileOf s.cur.core e).live.find? (fun r => r.row == row) with
          | some l =>
            let r : RowRef := { entry := e, tile := e - s.seat.partBase, row := row, live := l }
            match (s.setQueue q x).pushQueue q (s.rowSent r) with
            | .ok t => t.queue q
            | .error _ => x
          | none => x
        else x) (s.queue q)

/-- `tkpush` inside an attempt (R361). -/
def State.txPush (s : State) (r : RowRef) (q : Nat) (d : BitVec 6) : State :=
  let fits := if isCancelled r.live.w0 then .ok s else (s.setQueue q (s.queueView q)).pushQueue q (s.rowSent r)
  match fits with
  | .error e => match e.status with
    | some k => (s.pushFailed q k).waitFor (.queueCount q)
    | none => (s.pushWaits q e).stall
  | .ok _ =>
    let (s1, ok) := s.addTokenOp (.push q r.entry r.row d.toNat) []
    if ok then (s1.setS d 0).advance else s1

/-- `tkpush` (R347). -/
def execTkpush (d a b : BitVec 6) (s : State) : Result :=
  let va := s.getS a
  let q := (s.getS b).toNat
  .next (match s.rowAt va with
    | none => s.trapRecord va 1
    | some r =>
      if q ≥ 4096 then s.trapRecord va 5
      else if !s.queueOk s.ctxId s.cur.core q then s.suspendScope q 1
      else s.after (s.rowReady r) (fun s1 =>
        match malformed (s1.rowRecord r) with
        | some k => s1.trapRecord va k
        | none =>
          if s1.inTx then s1.txPush r q d
          else s1.after (s1.beforePush (s.order ≥ 2) s.scope (if isCancelled r.live.w0 then [] else [(q, s1.rowSent r)])) (fun s2 =>
            match s2.pushRow r q with
            | .ok (s3, k) => (s3.setS d (BitVec.ofNat 64 k)).advance
            | .error e => (s2.pushWaits q e).stall)))

/-- A token command of the executing fragment (R220). -/
def State.tokenCmd (s : State) (k : CmdKind) (d : BitVec 6) (regs : List Word) : Command :=
  { s.plainCmd k with dst := d.toNat, regs := regs }

/-- `tkfree` performed (R349). -/
def State.freeIssue (s : State) (c : Command) : State :=
  match s.rowAt (c.regs.getD 0 0) with
  | some r => s.dropRow s.cur.core r.entry r.row
  | none => s

/-- `tkfree` (R349): inside an attempt it is buffered (R361). -/
def execTkfree (a : BitVec 6) (s : State) : Result :=
  let c := s.tokenCmd .tkfree 0 [s.getS a]
  .next (if (s.rowAt (s.getS a)).isNone then s.trapRecord (s.getS a) 1
    else if s.inTx then s.bufferCmd c else (s.freeIssue c).advance)

/-- `tkhdr` (R350). -/
def execTkhdr (d a b : BitVec 6) (s : State) : Result :=
  let va := s.getS a
  let x := s.getS b
  .next (
    if s.inTx then s.abandonHere 6 0 0
    else match s.rowAt va with
      | none => s.trapRecord va 1
      | some r =>
        if x.getLsbD 7 then s.trapRecord va 2
        else
          let ps := ((s.rowPlaces r).drop 8).take 8
          let data := ps.zip (toBytes 8 (stampHdr r.live.w0 x).toNat)
          s.after (s.forceParts [{ target := .here, op := .store data, kind := 0 }]) (fun s1 =>
            let old := ofBytes (ps.map s1.readByte)
            ((s1.storeBytes (some s.cur) data).setS d (BitVec.ofNat 64 old)).advance))

/-! ## tkpop (R348) -/

/-- Rows that a pop of the attempt has placed in an entry and that are not live before its commit (R361). -/
def State.poppedHere (s : State) (entry : Nat) : Bool :=
  match s.attempt with
  | none => false
  | some a => a.tokenOps.any (fun o => match o with
    | .pop _ e _ _ => e == entry
    | _ => false)

/-- `tkpop` outside an attempt: cancelled records that it reaches are retired; with no other it waits (R227, R338). -/
def State.popNow (s : State) (t q : Nat) : State :=
  let x := s.queue q
  let p := popPick x.store
  let rs := recordsAt x.store p.order
  let taken (u : State) : State :=
    if p.gone.isEmpty then u else u.changeQueue q { x with store := dropPlaces x.store p.gone }
  if rs.isEmpty then (taken s).waitOn (.queueCount q)
  else
    let data := s.blockData s.tk.oper s.cur.core t rs
    s.after (s.forceParts [{ target := .here, op := .store data, kind := 0 }]) (fun s1 =>
      (((taken s1).storeBytes none data).makeLive s.cur.core (s.entryOf t) s.ctxId s.wv.task rs).advance)

/-- `tkpop` inside an attempt (R361). -/
def State.popTx (s : State) (t q : Nat) : State :=
  let x := s.queueView q
  let p := popPick x.store
  let rs := recordsAt x.store p.order
  if rs.isEmpty then s.waitFor (.queueCount q)
  else
    let (s1, ok) := s.addTokenOp (.pop q (s.entryOf t) p.order p.gone) (s.blockData s.tk.oper s.cur.core t rs)
    if ok then s1.advance else s1

/-- `tkpop` (R348). A queue operand with reserved bits set raises RECORD with TADDR 0, for it names no record address (R83).
Log entry 81 (DESIGN CHOICE, unsafe). -/
def execTkpop (t a : BitVec 6) (s : State) : Result :=
  let e := s.tileAt t.toNat
  let q := (s.getS a).toNat
  .next (
    if !s.handleOk t.toNat then s.trapTile 1
    else if e.task || !e.live.isEmpty || s.poppedHere (s.entryOf t.toNat) then s.trapTile 3
    else if q ≥ 4096 then s.trapRecord 0 5
    else if !s.queueOk s.ctxId s.cur.core q then s.suspendScope q 2
    else if s.inTx then s.popTx t.toNat q else s.popNow t.toNat q)

/-! ## Token operations of a commit (R361) -/

/-- Bytes 0 to 8 of a row, or of its copy in a save image, brought in line with a record's state (R116, R335, R352). A row whose
image another device has is so at its restore. -/
def State.stampRow (s : State) (oper core t row : Nat) (w0 : Word) : State :=
  let places := placesFrom (s.rowPlace oper core t row) 9
  if (s.imageChip (.load places .none)).isSome then s
  else
    let ps := places.map s.imagePlace
    let h := s.mem.readByte ((ps.drop 8).headD (plainPlace 0 0))
    s.storeBytes none (ps.zip (toBytes 8 w0.toNat ++ [if isCancelled w0 then h ||| 64 else h &&& 0xBF]))

/-- One operation of a committed attempt performed at the commit instant, at which no push waits. -/
def State.applyTokenOp (s : State) (o : TokenOp) : State :=
  match o with
  | .pop q entry order gone =>
    let x := s.queue q
    let rs := recordsAt x.store order
    (s.changeQueue q { x with store := dropPlaces x.store gone }).makeLive s.cur.core entry s.ctxId s.wv.task rs
  | .push q entry row dst =>
    match (s.tileOf s.cur.core entry).live.find? (fun r => r.row == row) with
    | none => s
    | some l =>
      match s.pushRow { entry := entry, tile := entry - s.seat.partBase, row := row, live := l } q with
      | .ok (s1, k) => if k = 0 then s1 else s1.setS (BitVec.ofNat 6 dst) (BitVec.ofNat 64 k)
      | .error _ => s

/-- The push among some operations that waits, with its queue (R388): the operations are then performed later. -/
def State.tokenStop (s : State) : List TokenOp → Option (Nat × PushStop)
  | [] => none
  | .pop q entry order gone :: rest => (s.applyTokenOp (.pop q entry order gone)).tokenStop rest
  | .push q entry row dst :: rest =>
    let stop := ((s.tileOf s.cur.core entry).live.find? (fun r => r.row == row)).bind (fun l =>
      match s.pushRow { entry := entry, tile := entry - s.seat.partBase, row := row, live := l } q with
      | .ok _ => none
      | .error e => some (q, e))
    stop.or ((s.applyTokenOp (.push q entry row dst)).tokenStop rest)

/-! ## tkcancel (R351, R352) -/

/-- A record marked when its id is one of some. -/
def markRecord (ids : List Nat) (r : List Word) : List Word :=
  if ids.contains (idOf (r.getD 0 0)) then stampRecord (cancelledWord (r.getD 0 0)) r else r

/-- A spilled record, or a copy held, marked. -/
def SpillEntry.mark (ids : List Nat) (e : SpillEntry) : SpillEntry :=
  if ids.contains (idOf e.w0) then { e with w0 := cancelledWord e.w0 } else e

/-- A queue's records marked. -/
def TokenQueue.mark (q : TokenQueue) (ids : List Nat) : TokenQueue :=
  { q with
    store := q.store.map (fun e => { e with record := markRecord ids e.record })
    spill := q.spill.map (SpillEntry.mark ids)
    held := q.held.map (SpillEntry.mark ids) }

/-- A queue holds, in its store or its spill, a record that is marked. -/
def TokenQueue.marks (q : TokenQueue) (ids : List Nat) : Bool :=
  q.store.any (fun e => ids.contains (idOf (e.record.getD 0 0)) && !isCancelled (e.record.getD 0 0))
    || q.spill.any (fun e => ids.contains (idOf e.w0) && !isCancelled e.w0)

/-- A live row marked. -/
def LiveRow.mark (ctx : Nat) (ids : List Nat) (r : LiveRow) : LiveRow :=
  if r.ctx = ctx ∧ ids.contains (idOf r.w0) then { r with w0 := cancelledWord r.w0 } else r

/-- The live rows of a context whose records bear one of some ids. -/
def State.rowsOf (s : State) (ctx : Nat) (ids : List Nat) : List (LiveRow × Nat × Nat × Nat) :=
  s.liveRows.filter (fun x => x.1.ctx == ctx && ids.contains (idOf x.1.w0))

/-- Records of a context with some ids marked wherever they are (R352). A record marked in a queue is removed there (R27), which
writes the queue's words: an attempt that has taken it ends (R339). Log entry 82 (DEDUCED, unsafe). -/
def State.markRecords (s : State) (ctx : Nat) (ids : List Nat) : State :=
  let marked := (s.queues.filter (fun x => x.2.ctx == ctx && x.2.marks ids)).map (·.1)
  let rows := s.rowsOf ctx ids
  let s1 : State := { s with
    queues := mapTab (fun _ q => if q.ctx = ctx then q.mark ids else q) s.queues
    tiles := mapTab (fun _ e => { e with live := e.live.map (LiveRow.mark ctx ids) }) s.tiles
    seats := mapTab (fun _ q => { q with saved := mapTab (fun _ e => { e with live := e.live.map (LiveRow.mark ctx ids) }) q.saved })
      s.seats
    flights := s.flights.map (fun f => if f.ctx = ctx ∧ f.remote.isNone then { f with record := markRecord ids f.record } else f) }
  marked.foldl (fun t q => t.writeWord (.queueCount q))
    (rows.foldl (fun t x => t.stampRow x.2.1 x.2.2.1 x.2.2.2 x.1.row (cancelledWord x.1.w0)) s1)

/-- The ids that a cancellation of one reaches: its own where a record bears it, and those of its descendants (R351). -/
def State.cancelled (s : State) (ctx id : Nat) : List Nat :=
  let hs := s.heldRecords.filter (fun h => h.ctx == ctx)
  if hs.any (fun h => idOf h.w0 == id) then chainOf hs [id] hs.length else []

/-- A record id cancelled with its descendants: the state and the number of records marked (R351). -/
def State.cancelId (s : State) (ctx id : Nat) : State × Nat :=
  let ids := s.cancelled ctx id
  if ids.isEmpty then (s, 0)
  else (s.markRecords ctx ids,
    min (2 ^ 32 - 1) ((s.heldRecords.filter (fun h => h.ctx == ctx)).countP (fun h => ids.contains (idOf h.w0))))

/-- `tkcancel` performed (R351). -/
def State.cancelIssue (s : State) (c : Command) : State :=
  let (s1, n) := s.cancelId s.ctxId (c.regs.getD 0 0).toNat
  s1.setS (BitVec.ofNat 6 c.dst) (BitVec.ofNat 64 n)

/-- The bytes of a row that a cancellation writes. -/
def State.markPlaces (s : State) (x : LiveRow × Nat × Nat × Nat) : List Place :=
  placesFrom (s.rowPlace x.2.1 x.2.2.1 x.2.2.2 x.1.row) 9

/-- What comes before the row writes of a `tkcancel` in the wave's program order performed (R110): accesses to the same bytes,
and with the release bit in MR.order every one. -/
def State.beforeCancel (s : State) (id : Nat) : Option State :=
  let ps := (s.rowsOf s.ctxId (s.cancelled s.ctxId id)).flatMap s.markPlaces
  match s.forceParts [{ target := .here, op := .store (ps.map (fun p => (p, 0))), kind := 2 }] with
  | none => none
  | some t => t.releaseAt (s.order ≥ 2) s.scope

/-- `tkcancel` (R351): inside an attempt it is buffered (R361). An id operand with reserved bits set raises RECORD with TADDR 0,
for it names no record address (R83). Log entry 81 (DESIGN CHOICE, unsafe). -/
def execTkcancel (d a : BitVec 6) (s : State) : Result :=
  let c := s.tokenCmd .tkcancel d [s.getS a]
  .next (if fieldOf (s.getS a) 63 32 ≠ 0 then s.trapRecord 0 5
    else if s.inTx then s.bufferCmd c
    else s.after (s.beforeCancel (s.getS a).toNat) (fun t => (t.cancelIssue c).advance))

/-! ## tkroute (R353, R354) -/

/-- An entry of a route block: expert, queue, gate. -/
structure RouteEntry where
  expert : Nat
  queue : Nat
  gate : Nat
  deriving DecidableEq, Repr

/-- K of a route block. -/
def routeCount (b : List Word) : Nat := fieldOf (b.getD 0 0) 19 16
/-- The fallback queue of a route block. -/
def routeFallback (b : List Word) : Nat := fieldOf (b.getD 0 0) 11 0

/-- The entries of a route block. -/
def routeEntries (b : List Word) : List RouteEntry :=
  (upFrom 1 (routeCount b)).map (fun i =>
    let w := b.getD i 0
    { expert := fieldOf w 15 0, queue := fieldOf w 27 16, gate := fieldOf w 63 32 })

/-- An expert's word (R353). -/
def State.expert (s : State) (ctx e : Nat) : BitVec 32 := getAt 0 (s.ctxOf ctx).experts e
/-- A routing counter (R353). -/
def State.routed (s : State) (ctx e : Nat) : Nat := getAt 0 (s.ctxOf ctx).counters e

/-- A route block is well formed, names no expert twice, and every expert exists (R354). -/
def State.routeOk (s : State) (ctx : Nat) (b : List Word) : Bool :=
  let k := routeCount b
  let es := routeEntries b
  decide (fieldOf (b.getD 0 0) 15 12 = 0 ∧ fieldOf (b.getD 0 0) 63 20 = 0 ∧ 1 ≤ k ∧ k ≤ 8)
    && (upFrom 1 k).all (fun i => fieldOf (b.getD i 0) 31 28 == 0)
    && (upFrom (k + 1) (15 - k)).all (fun i => b.getD i 0 == 0)
    && es.all (fun e => decide (e.expert < 256) && (s.expert ctx e.expert).getLsbD 31)
    && decide ((distinct (es.map (·.expert))).length = es.length)

/-- An expert is full: its limit is not 0 and its counter has reached it (R354). -/
def State.expertFull (s : State) (ctx e : Nat) : Bool :=
  let cap := bitsOf (s.expert ctx e).toNat 15 0
  cap != 0 && decide (cap ≤ s.routed ctx e)

/-- A record after routing: K, the slots and DROPPED (R354). -/
def routeRecord (r : List Word) (es : List RouteEntry) (dropped : List Nat) : List Word :=
  let w := r.getD 0 0
  let w0 := mkWord0 (idOf w) (hopsOf w) (slotOfCopy w) (isCopy w) (isDropped w || !dropped.isEmpty) (isCancelled w)
  let w4 := (r.getD 4 0 &&& ~~~(BitVec.ofNat 64 (15 * 2 ^ 40))) ||| BitVec.ofNat 64 (es.length * 2 ^ 40)
  let slots := (List.range 8).map (fun i => match es[i]? with
    | some e => BitVec.ofNat 64 (e.gate * 2 ^ 32 + (if dropped.contains i then 2 else 1) * 2 ^ 16 + e.expert)
    | none => (0 : Word))
  stampRecord w0 (r.take 4 ++ [w4] ++ slots ++ r.drop 13)

/-- A routed copy of a record for a slot (R354). -/
def copyFor (r : List Word) (i : Nat) : List Word :=
  let w := r.getD 0 0
  stampRecord (mkWord0 (idOf w) (hopsOf w) i true (isDropped w) (isCancelled w)) r

/-- Counters and activity masks after some experts have been routed to (R321, R353). -/
def State.countExperts (s : State) (ctx : Nat) (es : List Nat) : State :=
  es.foldl (fun t e =>
    (t.setCtx ctx { t.ctxOf ctx with
      counters := putAt (t.ctxOf ctx).counters e (min (2 ^ 32 - 1) (t.routed ctx e + 1)) }).noteExpert ctx e) s

/-- What a routing of a live row comes to (R354): the slots routed and dropped, the record as its block keeps it, and what is
pushed where. -/
structure RoutePlan where
  through : List Nat
  dropped : List Nat
  base : List Word
  targets : List (Nat × List Word)

/-- The routing of a live row by a block (R354). -/
def State.routePlan (s : State) (r : RowRef) (b : List Word) : RoutePlan :=
  let es := routeEntries b
  let dropped := (List.range es.length).filter (fun i => s.expertFull s.ctxId ((es[i]?).map (·.expert) |>.getD 0))
  let through := (List.range es.length).filter (fun i => !dropped.contains i)
  let base := routeRecord (s.rowRecord r) es dropped
  let sent := stampRecord (hopped (base.getD 0 0)) base
  { through := through, dropped := dropped, base := base,
    targets := if through.isEmpty then [(routeFallback b, sent)]
      else through.map (fun i => (((es[i]?).map (·.queue)).getD 0, copyFor sent i)) }

/-- A live row routed (R354): the state and the result word; or the queue of a push that waits, and for what (R388). -/
def State.routeRow (s : State) (r : RowRef) (b : List Word) : Except (Nat × PushStop) (State × Nat) :=
  let ctx := s.ctxId
  let p := s.routePlan r b
  if isCancelled r.live.w0 then .ok (s.dropRow s.cur.core r.entry r.row, 0)
  else match s.pushRecords p.targets with
    | .error (q, e) => match e.status with
      | some k => .ok (s.pushFailed q k, 1)
      | none => .error (q, e)
    | .ok t =>
      if s.liveCount ctx + (p.targets.length - 1) > (s.ctxOf ctx).liveLimit then .ok (s, 2)
      else
        let t1 := t.countExperts ctx (p.through.map (fun i => (((routeEntries b)[i]?).map (·.expert)).getD 0))
        let t2 := t1.storeBytes none (((s.rowPlaces r).drop 32).zip (wordBytes ((p.base.drop 4).take 9)))
        .ok (t2.dropRow s.cur.core r.entry r.row,
          (p.dropped.foldl (fun m i => m + 2 ^ i) 0) * 2 ^ 16 + p.targets.length * 2 ^ 8)

/-- `tkroute` performed (R354), or the state in which it waits. -/
def State.routeIssue (s : State) (c : Command) : Except State State :=
  match s.rowAt (c.regs.getD 0 0) with
  | none => .ok (s.setS (BitVec.ofNat 6 c.dst) 0)
  | some r =>
    match s.routeRow r (wordsOf c.data 16) with
    | .ok (s1, x) => .ok (s1.setS (BitVec.ofNat 6 c.dst) (BitVec.ofNat 64 x))
    | .error (q, e) => .error (s.pushWaits q e)

/-- `tkroute` (R354): inside an attempt it is buffered, its block and row in the read set. -/
def execTkroute (d a b : BitVec 6) (s : State) : Result :=
  let va := s.getS a
  let ba := s.getS b
  .next (
    if !aligned ba 128 then s.trapMisaligned ba 0
    else match s.rowAt va with
      | none => s.trapRecord va 1
      | some r =>
        match s.waveRead ba with
        | .error t => t
        | .ok (s1, bytes) =>
          let blk := wordsOf bytes 16
          if !s.routeOk s.ctxId blk then s.trapRecord va 4
          else match (routeFallback blk :: (routeEntries blk).map (·.queue)).find? (fun q => !s.queueOk s.ctxId s.cur.core q) with
            | some q => s.suspendScope q 1
            | none =>
              s1.after (s1.rowReady r) (fun s2 =>
                match malformed (s2.rowRecord r) with
                | some k => s2.trapRecord va k
                | none =>
                  let c := { s2.tokenCmd .tkroute d [va] with data := bytes }
                  if s2.inTx then
                    let secs := sectorsOf (s.rowPlaces r)
                    let (s3, ok) := s2.txConflict secs false
                    if !ok then s3
                    else
                      let (s4, ok4) := s3.addReads secs
                      if ok4 then s4.bufferCmd c else s4
                  else
                    let rs := if isCancelled r.live.w0 then [] else (s2.routePlan r blk).targets
                    s2.after (s2.beforePush true s.pushScope rs) (fun s3 =>
                      match s3.routeIssue c with
                      | .ok t => t.advance
                      | .error t => t.stall)))

/-! ## tkcnt (R355) -/

/-- The routing counters of a context as bytes. -/
def State.counterBytes (s : State) (ctx : Nat) : List Byte := (List.range 256).flatMap (fun e => toBytes 4 (s.routed ctx e))

/-- The stores of a snapshot. -/
def snapshotParts (xs : List (Place × Target)) (bytes : List Byte) : List Part :=
  xs.zipIdx.map (fun x => {
    target := x.1.2, op := .store ((placesFrom x.1.1 128).zip ((bytes.drop (128 * x.2)).take 128)), kind := x.1.1.kind })

/-- The counters cleared and their sum written (R355). -/
def State.clearCounts (s : State) (d : BitVec 6) : State :=
  let sum := (List.range 256).foldl (fun n e => n + s.routed s.ctxId e) 0
  (s.setCtx s.ctxId { s.ctxOf s.ctxId with counters := [] }).setS d (BitVec.ofNat 64 sum)

/-- `tkcnt` performed at a commit (R355). -/
def State.countIssue (s : State) (c : Command) : State :=
  ((snapshotParts c.places (s.counterBytes s.ctxId)).foldl (State.issuePart false) s).clearCounts (BitVec.ofNat 6 c.dst)

/-- `tkcnt` (R355): inside an attempt it is buffered, its sectors translated. -/
def execTkcnt (d a : BitVec 6) (s : State) : Result :=
  let va := s.getS a
  .next (
    if !aligned va 128 then s.trapMisaligned va 0
    else match s.xlateAll ((List.range 8).map (fun k => va + BitVec.ofNat 64 (128 * k))) .write with
      | .error t => t
      | .ok xs =>
        if s.inTx then s.bufferCmd { s.tokenCmd .tkcnt d [va] with places := xs }
        else
          let t := s.issueParts (snapshotParts xs (s.counterBytes s.ctxId))
          if t.wentOn s then t.clearCounts d else t)

/-! ## comb (R356) -/

/-- a / b in fp32 rounded to nearest (R47 to R49, R356). -/
def fDiv (a b : Nat) : Nat × Flags :=
  let x := unpackFloat 23 a
  let y := unpackFloat 23 b
  let nv := if x.isSignalling || y.isSignalling then flagNV else 0
  match x, y with
  | .nan _, _ => (defaultNaN 23, nv)
  | _, .nan _ => (defaultNaN 23, nv)
  | .inf _, .inf _ => (defaultNaN 23, flagNV)
  | .inf n, .fin k _ _ => (infFloat 23 (n != k), 0)
  | .fin n _ _, .inf k => (signBit 23 (n != k), 0)
  | .fin n m e, .fin k m2 e2 =>
    if m2 = 0 then (if m = 0 then (defaultNaN 23, flagNV) else (infFloat 23 (n != k), flagDZ))
    else if m = 0 then (signBit 23 (n != k), 0)
    else
      let num := m * 2 ^ 64
      roundFloat 23 .rne (n != k) (num / m2) (e - e2 - 64) (decide (num % m2 ≠ 0))

/-- The gates that `comb` uses, and the flags; none when every output is +0 (R356). -/
def combGates (rn : Bool) (gs : List Nat) : Option (List Nat) × Flags :=
  if rn then
    let (sum, f) := gs.foldl (fun (a : Nat × Flags) g =>
      let x := fAdd 23 .rne a.1 g
      (x.1, a.2 ||| x.2)) (0, 0)
    if gs.isEmpty ∨ isZeroFloat 23 sum then (none, f)
    else
      let qs := gs.map (fun g => fDiv g sum)
      (some (qs.map (·.1)), qs.foldl (fun a q => a ||| q.2) f)
  else (some gs, 0)

/-- One output element of `comb`: bf16 bits and flags (R356). -/
def combElement (mode : Rounding) (terms : List (Nat × Nat)) : Nat × Flags :=
  let (acc, f) := terms.foldl (fun (a : Nat × Flags) t =>
    let x := fFma 23 .rne false false t.1 (t.2 * 2 ^ 16) a.1
    (x.1, a.2 ||| x.2)) (0, 0)
  let (y, g) := packFloat 7 mode (unpackFloat 23 acc)
  (y, f ||| g)

/-- The bytes of the output row and the flags (R356). -/
def combRow (rn : Bool) (mode : Rounding) (n : Nat) (gates : List Nat) (rows : List (List Byte)) : List Byte × Flags :=
  match combGates rn gates with
  | (none, f) => (List.replicate (2 * n) 0, f)
  | (some gs, f) =>
    let cols := rows.map (fun r => elementsOf 16 0 n r)
    let out := (List.range n).map (fun i => combElement mode (gs.zip (cols.map (fun c => c.getD i 0))))
    (out.flatMap (fun x => toBytes 2 x.1), out.foldl (fun a x => a ||| x.2) f)

/-- The least of some addresses that is not aligned to a sector. -/
def leastMisaligned (as : List Word) : Option Word :=
  (as.filter (fun a => !aligned a 128)).foldl (fun m a => match m with
    | none => some a
    | some b => if a.toNat < b.toNat then some a else some b) none

/-- Sectors of a run of bytes from an address on. -/
def sectorRun (va : Word) (n : Nat) : List Word := (List.range (n / 128)).map (fun k => va + BitVec.ofNat 64 (128 * k))

/-- `comb` and `comb.rn` once the record has been read (R356). -/
def State.combRows (s : State) (rn : Bool) (dst rows : Word) (n : Nat) (r : List Word) : State :=
  let used := (List.range (slotsOf r)).filter (fun i => statOf r i == 1 || statOf r i == 3)
  let vas := used.map (fun i => sectorRun (rows + BitVec.ofNat 64 (2 * n * i)) (2 * n))
  match s.xlateAll vas.flatten .read with
  | .error t => t
  | .ok src =>
    match s.xlateAll (sectorRun dst (2 * n)) .write with
    | .error t => t
    | .ok out =>
      match s.waveBytes src with
      | .error t => t
      | .ok (s1, bytes) =>
        let gates := used.map (fun i => fieldOf (r.getD (5 + i) 0) 63 32)
        let (row, f) := combRow rn s.rounding n gates (used.zipIdx.map (fun x => (bytes.drop (2 * n * x.2)).take (2 * n)))
        let t := s1.issueParts (snapshotParts out row)
        if t.wentOn s then t.raiseFlags f else t

/-- `comb` and `comb.rn` (R356). -/
def State.comb (s : State) (rn : Bool) (d a b : BitVec 6) : State :=
  let dst := s.getS d
  let ra := s.getS a
  let rows := s.getS b
  let nw := s.getS (b + 1)
  let n := fieldOf nw 15 0
  if s.inTx then s.abandonHere 6 0 0
  else match leastMisaligned [ra, rows, dst] with
    | some x => s.trapMisaligned x 0
    | none =>
      if fieldOf nw 63 16 ≠ 0 ∨ n < 64 ∨ n > 8192 ∨ n % 64 ≠ 0 then s.trapRecord ra 5
      else match s.waveRead ra with
        | .error t => t
        | .ok (s1, bytes) =>
          let r := wordsOf bytes 16
          if (r.getD 1 0).getLsbD 7 || !bodyOk r then s.trapRecord ra 3 else s1.combRows rn dst rows n r

/-- `comb` (R356). -/
def execComb (d a b : BitVec 6) (s : State) : Result := .next (s.comb false d a b)
/-- `comb.rn` (R356). -/
def execCombRn (d a b : BitVec 6) (s : State) : Result := .next (s.comb true d a b)

/-! ## The skimmer (R357 to R359) -/

/-- The chain of a core. -/
def State.chain (s : State) (core : Nat) : Chain := getAt Chain.reset s.chains core
/-- The state with a core's chain replaced. -/
def State.setChain (s : State) (core : Nat) (c : Chain) : State := { s with chains := putAt s.chains core c }

/-- The key of a score: its place among the reals, −0 as +0, every NaN below −∞ (R357). Log entry 49 (DEDUCED, unsafe). -/
def scoreKey (x : Lane) : Int :=
  if (unpackFloat 23 x.toNat).isNaN then -(2 ^ 40 : Int)
  else if isZeroFloat 23 x.toNat then 0
  else floatKey 23 x.toNat

/-- A pair ranks above another (R357). Log entry 49 (DEDUCED, unsafe). -/
def ranksAbove (a b : Lane × Lane) : Bool :=
  decide (scoreKey b.1 < scoreKey a.1) || (scoreKey a.1 == scoreKey b.1 && decide (a.2.toNat < b.2.toNat))

/-- A pair put in its place among pairs in rank order. Log entry 49 (DEDUCED, unsafe). -/
def insertPair (x : Lane × Lane) : List (Lane × Lane) → List (Lane × Lane)
  | [] => [x]
  | y :: r => if ranksAbove x y then x :: y :: r else y :: insertPair x r

/-- A pair fed to a chain of k cells (R357). -/
def Chain.feed (c : Chain) (x : Lane × Lane) : Chain := { c with pairs := (insertPair x c.pairs).take c.k }

/-- The chain as the executing wave finds it, when it may have it: its own, with pairs of its own that were saved fed
back, or one without an owner (R358). -/
def State.chainFor (s : State) : Option Chain :=
  let c := s.chain s.cur.core
  let me := (s.cur.waveKey, s.wv.task)
  if c.owner.isNone || c.owner == some me then
    some (match s.wv.savedChain with
      | some (k, ps) => { owner := some me, k := k, pairs := ps, lastPut := c.lastPut }
      | none => c)
  else none

/-- A request for the chain: it waits while another wave owns the chain (R34, R358). -/
def State.skim (s : State) (f : Chain → State → State) : State :=
  if s.inTx then s.abandonHere 6 0 0
  else match s.chainFor with
    | some c => (f c ((s.setFr { s.fr with skimWait := none }).setWv { s.wv with savedChain := none })).advance
    | none => (s.setFr { s.fr with skimWait := some (s.fr.skimWait.getD s.cycle) }).stall

/-- `skput` (R358). -/
def execSkput (k : BitVec 4) (a b : BitVec 6) (s : State) : Result :=
  let va := s.getV (a.setWidth 7)
  let vb := s.getV (b.setWidth 7)
  .next (s.withRegs [a.setWidth 7, b.setWidth 7] (s.skim (fun c t =>
    let c1 : Chain := { c with
      owner := some (s.cur.waveKey, s.wv.task), k := if c.k = 0 then k.toNat else c.k, lastPut := s.cycle }
    t.setChain s.cur.core (s.guarded.foldl (fun x l => x.feed (laneOf va l, laneOf vb l)) c1))))

/-- `skdrain` (R359). -/
def execSkdrain (d : BitVec 6) (s : State) : Result :=
  let d0 : BitVec 7 := d.setWidth 7
  .next (s.withRegs [d0, d0 + 1] (s.skim (fun c t =>
    let cell (l : Nat) : Lane × Lane := c.pairs.getD l (0x7FC00000, 0xFFFFFFFF)
    let t1 := t.setV d0 (withLanes (t.getV d0) s.guarded (fun l => (cell l).1))
    let t2 := t1.setV (d0 + 1) (withLanes (t1.getV (d0 + 1)) s.guarded (fun l => (cell l).2))
    t2.setChain s.cur.core { Chain.reset with lastPut := (s.chain s.cur.core).lastPut })))

/-- The owner's pairs and k put aside in its wave, and the chain emptied (R358). -/
def State.saveChain (s : State) (core : Nat) : State :=
  let c := s.chain core
  match c.owner with
  | none => s
  | some o =>
    let w := getAt Wave.reset s.waves o.1
    ({ s with waves := putAt s.waves o.1 { w with savedChain := some (c.k, c.pairs) } }).setChain core
      { Chain.reset with lastPut := c.lastPut }

/-- SKIMMER_HANDOVER: a request has waited 256 cycles in which the owner has put nothing: the owner's chain is saved and
the requester owns it (R358). -/
def execSkimmerHandover (core : Nat) (f : FragId) (s : State) : Result :=
  let c := s.chain core
  .next (match c.owner, (s.frOf f).skimWait with
    | some o, some since =>
      if f.core = core ∧ o.1 ≠ f.waveKey ∧ since + 256 ≤ s.cycle ∧ c.lastPut + 256 ≤ s.cycle then
        let s1 := s.saveChain core
        s1.setChain core { Chain.reset with owner := some (f.waveKey, (s.wvOf f).task), lastPut := c.lastPut }
      else s
    | _, _ => s)

/-- The chain of a core emptied and released when its owner's task ends (R358). -/
def State.endChain (s : State) (core task : Nat) : State :=
  match (s.chain core).owner with
  | some o => if o.2 = task then s.setChain core { Chain.reset with lastPut := (s.chain core).lastPut } else s
  | none => s

/-! ## Task end (R362) -/

/-- Rows still live in the entries that a task filled or popped retired, with a record for each (R26, R362); rows saved with a
slot are not among them. -/
def State.endRows (s : State) (core task : Nat) : State :=
  let rows := s.tileRows.filter (fun x => decide (x.2.2.1 = core) &&
    (s.tileOf core ((s.seatOf x.2.1 core).partBase + x.2.2.2)).liveTask == task)
  let t := getAt Task.reset s.tasks task
  let s1 := rows.foldl (fun u x => u.report { FaultRecord.blank with
    cause := causeRECORD, detail := 6, core := core, ctx := x.1.ctx,
    va := (u.rowPlace x.2.1 core x.2.2.2 x.1.row).va, task := t.number, slot := (u.seatOf x.2.1 core).slot, agent := 4,
    word7 := idOf x.1.w0 }) s
  { s1 with tiles := mapTab (fun k e =>
      if k / 64 = core ∧ e.liveTask = task then { e with live := [], liveTask := 0 } else e) s1.tiles }

end Sys2Proof.Machine
end

