-- ==== Sys2Proof/Machine/Bridge.lean ====
section
/-! DEFINITION. The bridge engine: the fabric codec, packet streams and their allowances, `pksend`, the arrival of packets,
requests and answers of other chips, links and bridges that go down, and `tick` (R112 to R114, R364 to R386). -/

namespace Sys2Proof.Machine

/-- Cause ALLOWANCE (R83). -/
def causeALLOWANCE : Nat := 0x91
/-- Cause REMOTE_ABSENT (R83). -/
def causeABSENT : Nat := 0x92

/-! ## The fabric codec (R371) -/

/-- The low bits of a number, from bit 0 up. -/
def natBits : Nat → Nat → List Bool
  | 0, _ => []
  | n + 1, x => (x % 2 == 1) :: natBits n (x / 2)

/-- The number whose bits, from bit 0 up, are given. -/
def bitsNat : List Bool → Nat
  | [] => 0
  | b :: r => (if b then 1 else 0) + 2 * bitsNat r

/-- Bits packed from bit 0 of the first byte upward, padded with zeros to whole bytes. -/
def packBits (bs : List Bool) : List Byte :=
  (List.range ((bs.length + 7) / 8)).map (fun i => BitVec.ofNat 8 (bitsNat ((bs.drop (8 * i)).take 8)))

/-- The exponent field of a bf16 value. -/
def codecExp (v : Nat) : Nat := v / 128 % 256
/-- The sign and fraction byte of a bf16 value. -/
def codecRest (v : Nat) : Nat := v / 32768 * 128 + v % 128
/-- A bf16 value from its exponent field and its sign and fraction byte. -/
def codecJoin (x m : Nat) : Nat := m / 128 * 32768 + x * 128 + m % 128

/-- The bf16 values of a group of 64 bytes. -/
def codecValues (bytes : List Byte) : List Nat := (List.range 32).map (fun i => ofBytes ((bytes.drop (2 * i)).take 2))

/-- The base B of a group, none when every exponent field is 0xFF. -/
def codecBase (xs : List Nat) : Option Nat :=
  match xs.filter (· != 0xFF) with
  | [] => none
  | e :: r => some ((e :: r).foldl max 0 - 6)

/-- The bits of an exponent field under a base. -/
def codeExp (base x : Nat) : List Bool :=
  if base ≤ x ∧ x ≤ base + 6 then natBits 3 (x - base) else natBits 3 7 ++ natBits 8 x

/-- A group sent raw. -/
def rawGroup (bytes : List Byte) : List Byte := 0xFF#8 :: bytes.take 64

/-- CodeGroup. -/
def codeGroup (bytes : List Byte) : List Byte :=
  let vs := codecValues bytes
  match codecBase (vs.map codecExp) with
  | none => rawGroup bytes
  | some b =>
    let coded := BitVec.ofNat 8 b :: (packBits (vs.flatMap (fun v => codeExp b (codecExp v)))
      ++ vs.map (fun v => BitVec.ofNat 8 (codecRest v)))
    if coded.length > 64 then rawGroup bytes else coded

/-- Exponent fields read from bits under a base: the fields and the number of bits taken. -/
def readExps (base : Nat) : Nat → List Bool → List Nat × Nat
  | 0, _ => ([], 0)
  | n + 1, bs =>
    let k := bitsNat (bs.take 3)
    if k = 7 then
      let (xs, u) := readExps base n (bs.drop 11)
      (bitsNat ((bs.drop 3).take 8) :: xs, u + 11)
    else
      let (xs, u) := readExps base n (bs.drop 3)
      ((base + k) :: xs, u + 3)

/-- The group that coded bytes begin with, decoded, and the bytes after it. -/
def decodeGroup (coded : List Byte) : List Byte × List Byte :=
  match coded with
  | [] => ([], [])
  | b :: rest =>
    if b = 0xFF#8 then (rest.take 64, rest.drop 64)
    else
      let (xs, used) := readExps b.toNat 32 (rest.flatMap (fun x => natBits 8 x.toNat))
      let ms := (rest.drop ((used + 7) / 8)).take 32
      ((xs.zip ms).flatMap (fun x => toBytes 2 (codecJoin x.1 x.2.toNat)), rest.drop ((used + 7) / 8 + 32))

/-- A row coded in groups of 64 bytes, a shorter tail raw. -/
def codeRow (bytes : List Byte) : List Byte :=
  (List.range (bytes.length / 64)).flatMap (fun g => codeGroup ((bytes.drop (64 * g)).take 64))
    ++ bytes.drop (64 * (bytes.length / 64))

/-! ## Packets (R372, R374) -/

/-- QUEUE of a destination word. -/
def dstQueue (w : Word) : Nat := fieldOf w 11 0
/-- DCHIP of a destination word. -/
def dstChip (w : Word) : Nat := fieldOf w 23 12
/-- BF of a destination word. -/
def dstCoded (w : Word) : Bool := w.getLsbD 24
/-- RLEN64 of a destination word. -/
def dstRows (w : Word) : Nat := fieldOf w 41 32

/-- The header of a packet for a destination word and row address, in a context. -/
def packetHeader (w drowa : Word) (ctx : Nat) : List Byte :=
  toBytes 8 (dstQueue w + dstChip w * 2 ^ 12 + flagBit (dstCoded w) 24 + dstRows w * 2 ^ 32 + ctx * 2 ^ 48)
    ++ toBytes 8 (if dstRows w = 0 then 0 else drowa.toNat)

/-- A packet without its padding. -/
def packetBody (w drowa : Word) (ctx : Nat) (record : List Word) (row : List Byte) : List Byte :=
  packetHeader w drowa ctx ++ recordBytes record ++ (if dstCoded w then codeRow row else row)

/-- Flits of a number of bytes. -/
def flitsOf (n : Nat) : Nat := (n + 63) / 64

/-- A packet padded to whole flits. -/
def packetBytes (w drowa : Word) (ctx : Nat) (record : List Word) (row : List Byte) : List Byte :=
  let b := packetBody w drowa ctx record row
  b ++ List.replicate (64 * flitsOf b.length - b.length) 0

/-- The flits of a packet for a destination word with a row. -/
def packetFlits (w : Word) (row : List Byte) : Nat :=
  flitsOf (144 + (if dstCoded w then (codeRow row).length else row.length))

/-! ## Streams and allowances (R368) -/

/-- The number of a stream: sending context and core, destination chip, die and context. Log entry 28 (DEDUCED, unsafe). -/
def streamKey (ctx core chip die dstCtx : Nat) : Nat := (((ctx * 256 + core) * 4096 + chip) * 16 + die) * 65536 + dstCtx

/-- The chip that a stream goes to. -/
def streamChip (k : Nat) : Nat := k / 2 ^ 20 % 4096
/-- The die that a stream goes to. -/
def streamDie (k : Nat) : Nat := k / 2 ^ 16 % 16

/-- The stream that a declaration for another chip belongs to. -/
def StreamDecl.key (d : StreamDecl) : Nat := streamKey d.ctx d.core d.chip d.die d.dstCtx

/-- The open packet stream of a context on a core to the home die of a queue of a chip (R368, R375).
Log entry 28 (DEDUCED, unsafe). -/
def State.streamTo (s : State) (ctx core chip q : Nat) : Option Nat :=
  let mine := s.streams.filter (fun d => d.ctx == ctx && d.core == core && d.chip == chip)
  if chip = s.chip then
    match findAt s.queues q with
    | none => none
    | some x =>
      if mine.any (fun d => match findAt s.queues d.queue with
        | some y => y.home == x.home && y.ctx == x.ctx
        | none => false) then some (streamKey ctx core chip x.home x.ctx) else none
  else if (getAt [] s.routes chip).isEmpty then none
  else match mine.find? (fun d => d.queue == q) with
    | some d => if s.opened.contains d.key then some d.key else none
    | none => none

/-- The allowance word of a stream. -/
def State.allowance (s : State) (k : Nat) : Nat := 1024 - getAt 0 s.inUse k

/-- Flits taken from an allowance or given back, a write of its word. -/
def State.useFlits (s : State) (k n : Nat) : State :=
  ({ s with inUse := putAt s.inUse k n } : State).writeWord (.allowance k)

/-- STREAM_OPEN_REPORT: the destination reports that a graph owning the queue is installed, whether or not a graph has declared
the stream yet (R368). -/
def execStreamOpenReport (stream : Nat) (s : State) : Result :=
  .next (if streamChip stream = s.chip ∨ s.opened.contains stream then s else { s with opened := s.opened ++ [stream] })

/-- STREAM_CLOSE_REPORT: the destination reports that the queue has been removed (R368). -/
def execStreamCloseReport (stream : Nat) (s : State) : Result :=
  .next { s with opened := s.opened.filter (· != stream) }

/-! ## pksend (R373 to R376) -/

/-- The row of a packet read by the executing wave, in pieces of 64 bytes (R375): the state and the bytes, or the state in which it
does not go on. -/
def State.packetRow (s : State) (row : Word) (n : Nat) : Except State (State × List Byte) :=
  match s.xlateAll ((List.range n).map (fun k => row + BitVec.ofNat 64 (64 * k))) .read with
  | .error t => .error t
  | .ok xs => s.waveBytes xs 64

/-- A number that no packet has. -/
def State.nextPacket (s : State) : Nat :=
  s.accesses.foldl (fun m a => match a.op with
    | .packet n _ => max m (n + 1)
    | _ => m) (s.flights.foldl (fun m f => max m (f.id + 1)) 1)

/-- The stream that a buffered or issuing `pksend` has found. -/
def Command.stream (c : Command) : Nat := (c.regs.getD 3 0).toNat

/-- The access that a packet is, for its order: its release part by the MR of its `pksend`. -/
def State.packetAccess (s : State) (c : Command) (n : Nat) : Access :=
  let chip := dstChip (c.regs.getD 1 0)
  { s.newAccess (if chip = s.chip then .here else .chip chip) (.packet n (streamDie c.stream)) 0 with
    release := c.mr.getLsbD 15, scope := (c.mr.extractLsb' 11 3).toNat, pc := c.pc, sent := true }

/-- There is room for a packet to another chip, in the window of its pair and in the wave's outstanding-acknowledgement
counter (R113, R379). -/
def State.packetRoom (s : State) (chip : Nat) : Bool :=
  decide (chip = s.chip) || (decide (s.unacked (s.cur.core / 32) chip < 8192) && decide (s.wv.acks < 64))

/-- A packet sent on a stream with its flits (R375). One to another chip takes a sequence number and leaves through the port that
leads there, and the record is retired (R378, R379). -/
def State.sendPacket (s : State) (c : Command) (r : RowRef) : State :=
  let dw := c.regs.getD 1 0
  let drowa := c.regs.getD 2 0
  let k := c.stream
  let n := s.nextPacket
  let f := packetFlits dw c.data
  let img := stampRecord (hopped r.live.w0) (s.rowRecord r)
  let rec' := if dstRows dw = 0 then img else img.set 3 drowa
  let a := s.packetAccess c n
  let s1 := (s.useFlits k (getAt 0 s.inUse k + f)).dropRow s.cur.core r.entry r.row
  if dstChip dw = s.chip then
    ({ s1 with flights := s1.flights ++ [{
        id := n, wave := s.cur.waveKey, core := s.cur.core, remote := none, stream := k, flits := f, queue := dstQueue dw, ctx := k % 65536,
        rowAddr := drowa.toNat, row := c.data, record := rec', rowDone := false, stopped := none }] } : State).sendAccess a
  else
    let s2 := s1.sendAccess a
    let s3 := s2.setWv { s2.wv with acks := s2.wv.acks + 1 }
    match s3.accessOf a.id with
    | some b => { s3 with replies := s3.replies ++ [
        .packet (dstChip dw) (b.agent.core / 32) b.port b.seq (packetBytes dw drowa (k % 65536) rec' c.data)] }
    | none => s3

/-- A `pksend` that a commit issues can be performed now: what its release waits for is performed, and there is room and
allowance (R220, R376). -/
def State.pksendReady (s : State) (c : Command) : Option State :=
  match s.rowAt (c.regs.getD 0 0) with
  | none => some s
  | some r =>
    if isCancelled r.live.w0 then some s
    else if s.allowance c.stream < packetFlits (c.regs.getD 1 0) c.data
      ∨ !s.packetRoom (dstChip (c.regs.getD 1 0)) then none
    else s.forceFor (s.packetAccess c s.nextPacket)

/-- A `pksend` performed at a commit (R376). Log entry 50 (DEDUCED, unsafe). -/
def State.pksendIssue (s : State) (c : Command) : State :=
  match s.rowAt (c.regs.getD 0 0) with
  | none => s.setS (BitVec.ofNat 6 c.dst) 0
  | some r =>
    if isCancelled r.live.w0 then (s.dropRow s.cur.core r.entry r.row).setS (BitVec.ofNat 6 c.dst) 1
    else (s.sendPacket c r).setS (BitVec.ofNat 6 c.dst) 0

/-- `pksend` once the stream is known (R375, R376). -/
def State.pksendOn (s : State) (d : BitVec 6) (va dw drowa : Word) (r : RowRef) (k : Nat) : State :=
  if !s.inTx && isCancelled r.live.w0 then ((s.dropRow s.cur.core r.entry r.row).setS d 1).advance
  else match s.packetRow ((s.rowRecord r).getD 3 0) (dstRows dw) with
    | .error t => t
    | .ok (s1, bytes) =>
      let c := { s.tokenCmd .pksend d [va, dw, drowa, BitVec.ofNat 64 k] with data := bytes }
      if s.inTx then
        let (s2, ok) := s1.addRead (.allowance k) 0
        if !ok then s2 else if s2.allowance k < packetFlits dw bytes then s2.actRetry.waitAllowance k else s2.bufferCmd c
      else if s.allowance k < packetFlits dw bytes then (s.waitOn (.allowance k)).waitAllowance k
      else if !s.packetRoom (dstChip dw) then s.stall
      else s1.after (s1.forceFor (s1.packetAccess c s1.nextPacket)) (fun t => ((t.sendPacket c r).setS d 0).advance)

/-- `pksend` (R375, R386). -/
def execPksend (d a b : BitVec 6) (s : State) : Result :=
  let va := s.getS a
  let dw := s.getS b
  let drowa := s.getS (b + 1)
  .next (match s.rowAt va with
    | none => s.trapRecord va 1
    | some r =>
      if fieldOf dw 31 25 ≠ 0 ∨ fieldOf dw 63 42 ≠ 0 ∨ dstRows dw > 960 then s.trapRecord va 5
      else if dstRows dw ≠ 0 ∧ (fieldOf drowa 5 0 ≠ 0 ∨ fieldOf drowa 63 49 ≠ 0) then s.trapMisaligned drowa 0
      else s.after (s.rowReady r) (fun s1 =>
        let row := (s1.rowRecord r).getD 3 0
        if dstRows dw ≠ 0 ∧ fieldOf row 5 0 ≠ 0 then s1.trapMisaligned row 0
        else match malformed (s1.rowRecord r), s1.streamTo s.ctxId s.cur.core (dstChip dw) (dstQueue dw) with
          | some k, _ => s1.trapRecord va k
          | none, none => s1.trap causeABSENT 0 0 0
          | none, some k => s1.pksendOn d va dw drowa r k))

/-! ## Sequence windows (R379) -/

/-- The number that a pair of chip and die sends to this chip has been performed: it is one of those kept above the lowest that has
not, or lies below that. Log entry 101 (DEDUCED, unsafe). -/
def SeqWindow.has (w : SeqWindow) (seq : Nat) : Bool :=
  w.done.contains seq || decide ((seq + 2 ^ 32 - w.low) % 2 ^ 32 ≥ 2 ^ 31)

/-- A window that moves on past numbers performed. -/
def SeqWindow.settle (w : SeqWindow) : Nat → SeqWindow
  | 0 => w
  | n + 1 =>
    if w.done.contains w.low then
      ({ w with low := (w.low + 1) % 2 ^ 32, done := w.done.filter (· != w.low) } : SeqWindow).settle n
    else w

/-- A number performed, with the result of an atomic, none where it found poison, which is kept for when the number comes again. -/
def SeqWindow.perform (w : SeqWindow) (seq : Nat) (result : Option (Option Nat)) : SeqWindow :=
  let r := match result with
    | some x => putAt w.results seq x
    | none => w.results
  ({ w with done := w.done ++ [seq], results := r } : SeqWindow).settle (w.done.length + 1)

/-- The row of a pair of chip and source die. -/
def pairKey (chip die : Nat) : Nat := chip * 16 + die

/-- The window of a pair. -/
def State.window (s : State) (k : Nat) : SeqWindow := getAt SeqWindow.reset s.peerSeq k
/-- A number of a pair performed. -/
def State.performSeq (s : State) (k seq : Nat) (result : Option (Option Nat)) : State :=
  { s with peerSeq := putAt s.peerSeq k ((s.window k).perform seq result) }
/-- An answer to the outside world. -/
def State.reply (s : State) (r : Reply) : State := { s with replies := s.replies ++ [r] }

/-! ## Arrival of packets (R377, R378) -/

/-- The access that a packet of this chip is. -/
def State.accessOfPacket (s : State) (n : Nat) : Option Access :=
  s.accesses.find? (fun a => !a.isRemote && (match a.op with
    | .packet m _ => m == n
    | _ => false))

/-- Two packets of one wave of one task. -/
def State.sameSender (s : State) (f g : Flight) : Bool :=
  f.wave == g.wave && (s.accessOfPacket f.id).map (·.task) == (s.accessOfPacket g.id).map (·.task)

/-- An earlier packet of the same wave to the same queue of this chip is still on its way (R378). -/
def State.heldBehind (s : State) (f : Flight) : Bool :=
  f.remote.isNone && s.flights.any (fun g => g.remote.isNone && decide (g.id < f.id) && g.queue == f.queue && s.sameSender f g)

/-- The checks of step 1 (R336, R337). -/
def State.packetOk (s : State) (f : Flight) : Bool :=
  match findAt s.queues f.queue with
  | some x => x.ctx == f.ctx && (if f.remote.isSome then x.scope == 5 else s.within x f.core)
  | none => false

/-- A packet that the destination has finished with (R377): its flits are on their way back, and it is acknowledged. -/
def State.endFlight (s : State) (f : Flight) : State :=
  let s1 : State := { s with flights := s.flights.filter (fun g => g.id != f.id) }
  match f.remote with
  | some (pair, seq) => (s1.performSeq pair seq none).reply (.remote (pair / 16) (pair % 16) (some seq) [] false f.flits)
  | none =>
    let s2 := match s1.accessOfPacket f.id with
      | some a => s1.dropAccess a.id
      | none => s1
    { s2 with returns := s2.returns ++ [(f.stream, f.flits)] }

/-- The places of a packet's row, by pieces of 64 bytes. -/
def State.flightPlaces (s : State) (f : Flight) : List (Word × Except (Nat × Nat) (Place × Target)) :=
  (List.range (f.row.length / 64)).map (fun k =>
    let va := BitVec.ofNat 64 (f.rowAddr + 64 * k)
    (va, s.hubXlate f.ctx va .write))

/-- The first fault of a packet's row. Log entry 50 (DEDUCED, unsafe). -/
def flightFault (xs : List (Word × Except (Nat × Nat) (Place × Target))) : Option (Word × Nat × Nat) :=
  xs.findSome? (fun x => match x.2 with
    | .error e => some (x.1, e)
    | .ok _ => none)

/-- The host page that a packet's row waits for. -/
def State.flightPage (s : State) (f : Flight) : Option Nat :=
  if f.rowDone then none
  else (s.flightPlaces f).findSome? (fun x => match x.2 with
    | .ok y => if y.1.isHost && y.2 == .here && !s.ats.contains (hostPage y.1) then some (hostPage y.1) else none
    | .error _ => none)

/-- A packet of the list changed. -/
def State.setFlight (s : State) (f : Flight) : State :=
  { s with flights := s.flights.map (fun g => if g.id = f.id then f else g) }

/-- A packet held in receive space by a fault of its row (R377). -/
def State.stopFlight (s : State) (f : Flight) (va : Word) (cause detail : Nat) : State :=
  let (s1, id) := s.postRecord { FaultRecord.blank with
    cause := cause, detail := detail, ctx := f.ctx, va := va, page := s.pageOf hubCore f.ctx va, access := 2, agent := 5, others := [2 ^ 34 + f.id] }
  s1.setFlight { f with stopped := some id }

/-- The device as it writes the row of a packet, and the die that it writes from: that of the queue (R377). -/
def Flight.owner (f : Flight) : Owner := hubOwner (.flight f.id) f.ctx

/-- The die of a packet's queue. -/
def State.flightDie (s : State) (f : Flight) : Nat := (s.queue f.queue).home

/-- No path joins the die that a packet comes from to that of its queue, or that die to a place of its row (R381). -/
def State.flightCut (s : State) (f : Flight) : Bool :=
  (s.cutBetween (if f.remote.isSome then 8 else f.core / 32) (s.flightDie f)).isSome
    || (!f.rowDone && (s.flightPlaces f).any (fun x => match x.2 with
      | .ok y => (s.cutDie (32 * s.flightDie f) y).isSome
      | .error _ => false))

/-- There is room for the writes of a packet's row that go to other chips (R379). -/
def State.flightRoom (s : State) (f : Flight) : Bool :=
  let far := (s.flightPlaces f).filterMap (fun x => match x.2 with
    | .ok (_, .chip c) => some c
    | _ => none)
  far.all (fun c => decide (s.unacked (hubCore / 32) c + far.countP (· == c) ≤ 8192))

/-- Accesses that come before a packet of this chip in the program order of its wave and reach bytes that its arrival writes performed;
none when one waits for another device (R101, R110). -/
def State.forceFlight (s : State) (f : Flight) (parts : List Part) : Option State :=
  match if f.remote.isSome then none else s.accessOfPacket f.id with
  | none => some s
  | some a => parts.foldl (fun r p => r.bind (fun t =>
      t.forceFor { a with target := p.target, op := p.op, kind := 2, acquire := false, release := false })) (some s)

/-- The writes of a packet's row. -/
def State.flightParts (s : State) (f : Flight) : List Part :=
  if f.rowDone then []
  else (s.flightPlaces f).filterMap (fun x => match x.2 with
    | .ok y => some { target := y.2, op := .store ((placesFrom y.1 64).map (fun p => (p, 0))), kind := 2 }
    | .error _ => none)

/-- The row of a packet written (R377). -/
def State.writeRow (s : State) (f : Flight) : State :=
  ((s.flightPlaces f).zipIdx.foldl (fun t x => match x.1.2 with
    | .ok y => t.engineStore f.owner y.2 ((placesFrom y.1 64).zip ((f.row.drop (64 * x.2)).take 64))
    | .error _ => t) s).setFlight { f with rowDone := true }

/-- The record of a packet as it enters its queue (R378), or none when the live-record limit of its context holds it. -/
def State.arrivalRecord (s : State) (f : Flight) : Option (State × List Word) :=
  if f.remote.isNone then some (s, f.record)
  else if s.liveCount f.ctx ≥ (s.ctxOf f.ctx).liveLimit then none
  else
    let id := s.nextId f.ctx
    let w := f.record.getD 0 0
    let parent := parentOf f.record
    let w0 := mkWord0 id (hopsOf w) (slotOfCopy w) (isCopy w) (isDropped w) (parent != 0 && s.idCancelled f.ctx parent)
    some (s.setCtx f.ctx { s.ctxOf f.ctx with lastId := id }, stampRecord w0 f.record)

/-- Steps 3 and 4 of an arrival (R377). -/
def State.pushFlight (s : State) (f : Flight) : State :=
  match s.arrivalRecord f with
  | none => s.report { FaultRecord.blank with
      cause := causeSPILLFULL, detail := 0x30, ctx := f.ctx, agent := 5, more6 := f.queue * 2 ^ 20 }
  | some (s1, r) =>
    let s2 : State := { s1 with flights := s1.flights.filter (fun g => g.id != f.id) }
    match s2.forceFlight f (s2.pushParts [(f.queue, r)]) with
    | none => s
    | some s3 => match s3.pushQueue f.queue r with
      | .ok t => t.endFlight f
      | .error e => match e.status with
        | some k => s.pushFailed f.queue k
        | none => s.pushWaits f.queue e

/-- A packet discarded by the checks of its queue (R337, R377). Log entry 50 (DEDUCED, unsafe). -/
def State.discardFlight (s : State) (f : Flight) : State :=
  (s.report { FaultRecord.blank with
    cause := causeSCOPE, detail := if f.remote.isSome then 3 else 1, core := if f.remote.isSome then 0xFFFF else f.core,
    ctx := f.ctx, pc := ((s.accessOfPacket f.id).map (·.pc)).getD 0, agent := 5, more6 := f.queue * 2 ^ 20 }).endFlight f

/-- A packet in receive space taken as far as it goes (R377): its record is pushed once its row is written, at another device
once that is acknowledged. -/
def State.runFlight (s : State) (f : Flight) : State :=
  if f.stopped.isSome || s.heldBehind f then s
  else if !s.packetOk f then s.discardFlight f
  else if s.flightCut f then s
  else if f.rowDone then (if s.writesOut f.owner then s else s.pushFlight f)
  else match flightFault (s.flightPlaces f) with
    | some (va, cause, detail) => s.stopFlight f va cause detail
    | none =>
      if (s.flightPage f).isSome || !s.flightRoom f then s
      else match s.forceFlight f (s.flightParts f) with
        | none => s
        | some s0 =>
          let s1 := s0.writeRow f
          if s1.writesOut f.owner then s1 else s1.pushFlight { f with rowDone := true }

/-- The flits of a packet from another chip (R372). -/
def Packet.flits (p : Packet) : Nat := flitsOf (144 + (if p.coded then (codeRow p.rowBytes).length else p.rowBytes.length))

/-- PACKET_ARRIVAL: a packet of this chip reaches its destination, or one of another chip comes in, which is performed at
most once; one that is held in receive space is tried again (R377, R379). -/
def execPacketArrival (src : PacketSource) (s : State) : Result :=
  .next (match src with
    | .onChip n =>
      match s.flights.find? (fun f => f.id == n) with
      | some f => s.runFlight f
      | none => s
    | .offChip chip die seq p =>
      let pair := pairKey chip die
      if (s.window pair).has seq then s.reply (.remote chip die (some seq) [] false 0)
      else if s.flights.any (fun f => f.remote == some (pair, seq)) then s
      else
        let f : Flight := {
          id := s.nextPacket, wave := 0, core := 0, remote := some (pair, seq), stream := 0, flits := Packet.flits p, queue := p.queue,
          ctx := p.ctx, rowAddr := p.rowAddr.toNat, row := p.rowBytes, record := p.record, rowDone := false, stopped := none }
        ({ s with flights := s.flights ++ [f] } : State).runFlight f)

/-- ALLOWANCE_RETURN: flits of a packet that its destination has finished with return to the sender (R368). -/
def execAllowanceReturn (stream n : Nat) (s : State) : Result :=
  .next (
    if streamChip stream = s.chip then
      if s.returns.contains (stream, n) then
        ({ s with returns := s.returns.erase (stream, n) } : State).useFlits stream (getAt 0 s.inUse stream - n)
      else s
    else if n ≠ 0 ∧ n ≤ getAt 0 s.inUse stream then s.useFlits stream (getAt 0 s.inUse stream - n)
    else s)

/-- ALLOWANCE_WAIT_EXPIRY: a wave has waited for an allowance for 2^20 cycles in all (R369). -/
def execAllowanceWaitExpiry (f : FragId) (s : State) : Result :=
  .next (match (s.frOf f).allowWait with
    | some (k, since) =>
      if getAt 0 (s.wvOf f).waited k + (s.cycle - since) ≥ 2 ^ 20 then
        s.report { s.waveRecord f causeALLOWANCE 0 0 0 with agent := 5, word7 := streamDie k, stream := k }
      else s
    | none => s)

/-! ## Requests and answers of other chips (R112 to R114, R379) -/

/-- The places of a request. -/
def requestPlaces (r : RemoteRequest) : List Place :=
  (upFrom r.pa (match r.op with
    | .read n => n
    | .write d _ => d.length
    | .atomic _ n _ _ _ => n)).map (fun k => plainPlace k r.keyId)

/-- The effect of a request and what it answers: bytes, poison, and the result of an atomic to be kept; a write of what was read from a
poisoned sector poisons its own (R202, R268, R379). -/
def State.serve (s : State) (r : RemoteRequest) : State × List Byte × Bool × Option (Option Nat) :=
  let ps := requestPlaces r
  let bad := ps.any (fun p => s.mem.poisoned p.key)
  match r.op with
  | .read _ => (s, ps.map s.mem.readByte, bad, none)
  | .write d poisoned =>
    let s1 := s.storeBytes none ((ps.zip d).filterMap (fun x => x.2.map (fun b => (x.1, b))))
    (match poisoned, ps with
      | true, p :: _ => s1.poisonSector p
      | _, _ => s1, [], false, none)
  | .atomic op n x y ret =>
    if bad then (s, [], true, some none)
    else
      let (t, old) := s.runAtomic none op ps x y
      (t, if ret then toBytes n old else [], false, some (some old))

/-- What is answered to a request that has been performed before: of an atomic the result of its first performance, poison where it
found that (R379). -/
def State.answerAgain (s : State) (r : RemoteRequest) (pair seq : Nat) : State :=
  match r.op with
  | .atomic _ n _ _ ret =>
    match findAt (s.window pair).results seq with
    | some (some old) => s.reply (.remote r.chip r.die (some seq) (if ret then toBytes n old else []) false 0)
    | some none => s.reply (.remote r.chip r.die (some seq) [] true 0)
    | none => s.reply (.remote r.chip r.die (some seq) [] false 0)
  | _ => s.reply (.remote r.chip r.die (some seq) [] false 0)

/-- REMOTE_REQUEST_ARRIVAL: a request of another chip is performed, one with a sequence number at most once (R379); one for a die
that is cut off is held on its way (R381). -/
def execRemoteRequestArrival (r : RemoteRequest) (s : State) : Result :=
  let ps := requestPlaces r
  .next (
    if !ps.all (fun p => localOk p.key) || ps.any (fun p => (s.cutDie hubCore (p, .here)).isSome) then s
    else match r.seq with
      | none =>
        let (t, data, bad, _) := s.serve r
        t.reply (.remote r.chip r.die none data bad 0)
      | some seq =>
        let pair := pairKey r.chip r.die
        if (s.window pair).has seq then s.answerAgain r pair seq
        else
          let (t, data, bad, result) := s.serve r
          (t.performSeq pair seq result).reply (.remote r.chip r.die (some seq) data bad 0))

/-- The count of outstanding acknowledgements lowered for an access that its wave counts (R113). -/
def State.acked (s : State) (a : Access) : State :=
  if a.ofWave ∧ (s.wvOf a.agent).task = a.task ∧ !a.op.returns then
    s.setWvOf a.agent { s.wvOf a.agent with acks := (s.wvOf a.agent).acks - 1 }
  else s

/-- The bytes of an answer at the places of an access. -/
def AccessOp.answerBytes (o : AccessOp) (data : List Byte) : List Byte :=
  o.places.map (fun p => data.getD (p.key - o.extent.1) 0)

/-- Bytes of another device kept for the instruction or the engine that has asked for them (R112, R202). -/
def State.keepFetched (s : State) (a : Access) (data : List Byte) (poisoned : Bool) : State :=
  match a.target with
  | .chip c =>
    { s with fetched := s.fetched ++ (a.op.places.zip (a.op.answerBytes data)).map (fun x =>
        { issuer := a.issuer, agent := a.agent, task := a.task, chip := c, key := x.1.key, byte := x.2, poisoned := poisoned }) }
  | _ => s

/-- An access of a wave or an engine answered by another chip (R112, R113, R202). -/
def State.answered (s : State) (a : Access) (data : List Byte) (poisoned : Bool) : State :=
  let s0 := (s.dropAccess a.id).acked a
  let s1 :=
    if a.op.dest = .fetch then s0.keepFetched a data poisoned
    else if !a.ofWave then s0
    else if a.op.isRead && poisoned then
      let va := (a.op.places.headD (plainPlace 0 0)).va
      if a.op.returns then s0.accessPoison a va else s0.latePoison a va
    else match a.op with
      | .load _ dst => s0.answer a (dst.split (a.op.answerBytes data))
      | .atomic _ _ _ _ true _ => s0.answer a [ofBytes data]
      | _ => s0
  (s1.afterAccess a).sendHeld

/-- REMOTE_RESPONSE: another chip answers an access of this one: read data, an old value or an acknowledgement (R112,
R113). An answer that does not hold what the request asks for is none. Log entry 85 (DESIGN CHOICE, unsafe). -/
def execRemoteResponse (n : Nat) (data : List Byte) (poisoned : Bool) (s : State) : Result :=
  .next (match s.accessOf n with
    | none => s
    | some a =>
      if !a.isRemote || !a.sent || a.failed || (!poisoned && data.length != a.op.answerSize) then s
      else s.answered a data poisoned)

/-! ## Links and bridges that go down (R380 to R382) -/

/-- A route to a chip exists (R366, R380). Log entry 44 (DEDUCED, unsafe). -/
def State.routeUp (s : State) (chip : Nat) : Bool := (getAt [] s.routes chip).any (fun p => !s.portsDown.contains p)

/-- Chips to which no route exists and dies that are cut off, each with the tick since which it has been so; one to which
a route or a path exists is no longer unreachable (R381, R382). -/
def State.noteRoutes (s : State) : State :=
  let named := s.routes.map (·.1) ++ (s.routeLost.map (·.1)).filter (fun c => decide (c < 4096))
  let lost := named.filter (fun c => !s.routeUp c) ++ ((List.range 8).filter s.isolated).map (4096 + ·)
  { s with
    routeLost := lost.foldl (fun t c => putAt t c (getAt s.tick s.routeLost c)) []
    unreachable := s.unreachable.filter (fun c => if c < 4096 then !s.routeUp c else s.isolated (c - 4096)) }

/-- An access or a packet to another chip sent again through the port that leads there now, or held where there is none: it keeps
its sequence number (R379, R380). -/
def State.resend (s : State) (a : Access) : State :=
  match a.target with
  | .chip c =>
    let b := { a with port := s.portTo c }
    let s1 : State := { s with accesses := s.accesses.map (fun x => if x.id = a.id then b else x) }
    if b.port.isNone then s1
    else if b.op.isPacket then
      match s1.replies.reverse.findSome? (fun r => match r with
        | .packet ch die _ seq data => if ch = c ∧ die = a.agent.core / 32 ∧ seq = a.seq then some data else none
        | _ => none) with
      | some data => s1.reply (.packet c (a.agent.core / 32) b.port a.seq data)
      | none => s1
    else s1.reply (b.request c)
  | _ => s

/-- The accesses and packets to other chips that went through a port, or are held for want of one, sent again (R380, R382). -/
def State.resendFrom (s : State) (port : Option Nat) : State :=
  (s.accesses.filter (fun a => a.isRemote && a.sent && !a.failed && a.port == port)).foldl State.resend s

/-- PORT_DOWN: a port that goes down is reported and used no more; what was sent through it and is not acknowledged is resent on
the next route (R380). -/
def execPortDown (port : Nat) (s : State) : Result :=
  .next (
    if port ≥ 12 ∨ s.portsDown.contains port then s
    else ((({ s with portsDown := s.portsDown ++ [port] } : State).noteRoutes).report { FaultRecord.blank with
      cause := causeLINK, detail := 1, agent := 5, more6 := port * 2 ^ 44 }).resendFrom (some port))

/-- PORT_RESTORE: the front end puts a port back into use, and what was held for want of a route goes out (R380, R382). -/
def execPortRestore (port : Nat) (s : State) : Result :=
  .next (({ s with portsDown := s.portsDown.filter (· != port) } : State).noteRoutes.resendFrom none)

/-- A fragment that waits for an answer from a chip that cannot be reached stays suspended at its instruction (R382). -/
def Frag.cutOff (f : Frag) (mine : List Access) (chip : Nat) : Frag :=
  if mine.isEmpty then f
  else match f.status with
    | .awaiting n got => if mine.any (fun a => a.id == n) then { f with status := .unreachable chip got } else f
    | .fetching => { f with status := .unreachable chip [] }
    | _ => f

/-- The accesses held for a chip fail, with a record for each context that has one among them (R382). -/
def State.failChip (s : State) (chip : Nat) : State :=
  let s0 := s.loseCopies chip
  let held := s0.accesses.filter (fun a => a.target == .chip chip && a.sent && !a.failed)
  let s1 : State := { s0 with
    accesses := s0.accesses.map (fun a => if a.target == .chip chip && a.sent then { a with failed := true } else a)
    frags := mapTab (fun k f => f.cutOff (held.filter (fun a => a.ofFrag (fragIdOf k) && a.op.returns)) chip) s0.frags
    unreachable := if s0.unreachable.contains chip then s0.unreachable else s0.unreachable ++ [chip] }
  (distinct (held.map (·.ctx))).foldl (fun t c => t.linkLost c chip) s1

/-- ROUTE_TIMEOUT: no route to a chip has existed for the route timeout, and the accesses held for it fail; or a die has
been cut off for as long, counted as chip 4096 + d, and those held for it do; a chip that the route table has never named has never
had a route (R381, R382). Log entry 44 (DEDUCED, unsafe). -/
def execRouteTimeout (chip : Nat) (s : State) : Result :=
  let since := (findAt s.routeLost chip).or (if chip < 4096 ∧ (findAt s.routes chip).isNone then some 0 else none)
  .next (match since with
    | none => s
    | some t =>
      if t + s.routeTimeout > s.tick then s
      else if chip ≥ 4096 then
        (s.failChip chip).report { FaultRecord.blank with cause := causeLINK, detail := 5, agent := 5, core := (chip - 4096) * 32 }
      else s.failChip chip)

/-! ## The tick (R383, R384) -/

/-- `tick` (R384). -/
def execTick (d : BitVec 6) (s : State) : Result :=
  .next (s.setS d (BitVec.ofNat 64 (s.coreTick s.cur.core))).advance

/-- Nanoseconds after which the tick may be moved by one (R383). -/
def slewPeriod : Nat := 1000

/-- The tick after some nanoseconds: it is slewed toward the root's by at most 1 ns for each microsecond and never goes back, and is
in line once it is within 2 (R383). Log entry 50 (DEDUCED, unsafe). -/
def State.runTick (s : State) (ns : Nat) : State :=
  let moves := min ((s.slewed + ns) / slewPeriod) s.tickOff.natAbs
  let up : Int := if 0 ≤ s.tickOff then (moves : Int) else -(moves : Int)
  let off := s.tickOff - up
  { s with
    tick := ((s.tick + ns : Nat) + up).toNat % 2 ^ 64
    tickOff := off
    slewed := if off = 0 then 0 else (s.slewed + ns) % slewPeriod
    synced := decide (off.natAbs ≤ 2) }

/-- TICK_SYNC: the root chip's tick arrives: how far it is ahead is known, and while that is more than 2 the device reports so and
brings its own into line (R383). -/
def execTickSync (t : BitVec 64) (s : State) : Result :=
  let off : Int := (t.toNat : Int) - s.tick
  let s1 : State := { s with tickOff := off, slewed := if s.tickOff = 0 then 0 else s.slewed, synced := decide (off.natAbs ≤ 2) }
  .next (if s1.synced then s1 else s1.report { FaultRecord.blank with cause := causeLINK, detail := 2, agent := 5 })

end Sys2Proof.Machine
end

