-- ==== Sys2Proof/Machine/Transcend.lean ====
section
/-! DEFINITION. `vfrcp`, `vfrsq`, `vfexp2` and `vflog2` (R166): the exact result rounded once. A reciprocal and a
reciprocal root are found by exact integer division and root. A power and a logarithm of a value that is not an exact
case are irrational: they are enclosed to more than 200 bits, which decides every rounding of fp32 and bf16. -/

namespace Sys2Proof.Machine

/-- The root below, bit by bit from bit `n` − 1, of a number below 2 ^ (2 * `n`). -/
def rootBits : Nat → Nat → Nat → Nat
  | 0, _, r => r
  | n + 1, x, r => rootBits n x (if (r + 2 ^ n) * (r + 2 ^ n) ≤ x then r + 2 ^ n else r)

/-- The greatest number whose square is at most `x`. -/
def rootOf (x : Nat) : Nat := rootBits (Nat.log2 x / 2 + 1) x 0

/-- 1 / x (R166). -/
def fRcp (fb : Nat) (mode : Rounding) (a : Nat) : Nat × Flags :=
  match unpackFloat fb a with
  | .nan s => (defaultNaN fb, if s then flagNV else 0)
  | .inf n => (signBit fb n, 0)
  | .fin n m e =>
    if m = 0 then (infFloat fb n, flagDZ)
    else
      let k : Nat := 96
      roundFloat fb mode n (2 ^ k / m) (-e - (k : Int)) (decide (2 ^ k % m ≠ 0))

/-- 1 / √x (R166). -/
def fRsq (fb : Nat) (mode : Rounding) (a : Nat) : Nat × Flags :=
  match unpackFloat fb a with
  | .nan s => (defaultNaN fb, if s then flagNV else 0)
  | .inf n => if n then (defaultNaN fb, flagNV) else (0, 0)
  | .fin n m e =>
    if m = 0 then (infFloat fb n, flagDZ)
    else if n then (defaultNaN fb, flagNV)
    else
      let r := ((-e) % 2).toNat
      let u := (-e) / 2
      let t : Nat := 96
      let num := 2 ^ (2 * t + r)
      let q := num / m
      let root := rootOf q
      roundFloat fb mode false root (u - (t : Int)) (decide (num % m ≠ 0 ∨ root * root ≠ q))

/-- The fraction bits of the fixed-point enclosures. -/
def fixBits : Nat := 288

/-- The sum over `k` of z ^ (2k + 1) / (2k + 1), `n` terms, `p` being z ^ (2k + 1) and `zz` being z², in fixed point. -/
def oddSeries : Nat → Nat → Nat → Nat → Nat
  | 0, _, _, _ => 0
  | n + 1, k, p, zz => p / (2 * k + 1) + oddSeries n (k + 1) ((p * zz) >>> fixBits) zz

/-- 2 × atanh (num / den) in fixed point, for num / den at most 1 / 3. -/
def twiceAtanh (num den : Nat) : Nat :=
  let z := (num <<< fixBits) / den
  2 * oddSeries 96 0 z ((z * z) >>> fixBits)

/-- ln 2 = 2 × atanh (1 / 3) in fixed point. Log entry 58 (UNVERIFIED, unsafe). -/
def lnTwo : Nat := twiceAtanh 1 3

/-- The sum over `k` of y ^ k / k!, `n` terms, `t` being the term, in fixed point. -/
def expSeries : Nat → Nat → Nat → Nat → Nat
  | 0, _, _, _ => 0
  | n + 1, k, t, y => t + expSeries n (k + 1) (((t * y) >>> fixBits) / (k + 1)) y

/-- 2 ^ x (R166). Log entry 58 (UNVERIFIED, unsafe). -/
def fExp2 (fb : Nat) (mode : Rounding) (a : Nat) : Nat × Flags :=
  match unpackFloat fb a with
  | .nan s => (defaultNaN fb, if s then flagNV else 0)
  | .inf n => if n then (0, 0) else (infFloat fb false, 0)
  | .fin neg m e =>
    if e + (Nat.log2 m : Int) ≥ 10 ∧ m ≠ 0 then
      roundFloat fb mode false 1 (if neg then -400 else 400) false
    else
      let x := scaledInt neg m e (min e 0)
      let den : Int := 2 ^ (-(min e 0)).toNat
      let n := x / den
      let frac := (x % den).toNat
      if frac = 0 then roundFloat fb mode false 1 n false
      else
        let f := (frac <<< fixBits) / den.toNat
        let y := (f * lnTwo) >>> fixBits
        roundFloat fb mode false (expSeries 80 0 (2 ^ fixBits) y) (n - (fixBits : Int)) true

/-- log2 x (R166). Log entry 58 (UNVERIFIED, unsafe). -/
def fLog2 (fb : Nat) (mode : Rounding) (a : Nat) : Nat × Flags :=
  match unpackFloat fb a with
  | .nan s => (defaultNaN fb, if s then flagNV else 0)
  | .inf n => if n then (defaultNaN fb, flagNV) else (infFloat fb false, 0)
  | .fin neg m e =>
    if m = 0 then (infFloat fb true, flagDZ)
    else if neg then (defaultNaN fb, flagNV)
    else
      let k := Nat.log2 m
      let n := e + (k : Int)
      if m = 2 ^ k then
        if n = 0 then (0, 0) else packFloat fb mode (.fin (decide (n < 0)) n.natAbs 0)
      else
        let l := (twiceAtanh (m - 2 ^ k) (m + 2 ^ k) <<< fixBits) / lnTwo
        let v := n * 2 ^ fixBits + (l : Int)
        roundFloat fb mode (decide (v < 0)) v.natAbs (-(fixBits : Int)) true

end Sys2Proof.Machine
end

