-- ==== Sys2Proof/Machine/Graph.lean ====
section
/-! DEFINITION. Graph images of the churns: their header, route plane and opcode plane, the checks made at load, and the
operations of the elements (R272 to R281, R285, R286). -/

namespace Sys2Proof.Machine

/-! ## Images (R275 to R278) -/

/-- `n` bytes of an image from an offset. -/
def slice (data : List Byte) (off n : Nat) : List Byte := (data.drop off).take n

/-- `n` bytes of an image as a number. -/
def numAt (data : List Byte) (off n : Nat) : Nat := ofBytes (slice data off n)

/-- The header of an image as a number (R275). -/
def imageHead (data : List Byte) : Nat := numAt data 0 64

/-- The image holds a route plane. -/
def headRoute (h : Nat) : Bool := h.testBit 12
/-- The image holds an opcode plane. -/
def headOpc (h : Nat) : Bool := h.testBit 13
/-- SIZE. -/
def headSize (h : Nat) : Nat := bitsOf h 31 16

/-- The route plane's bytes. -/
def routeBytes (data : List Byte) : List Byte :=
  slice data (bitsOf (imageHead data) 111 96) (bitsOf (imageHead data) 127 112)

/-- The 26 entries of the opcode plane (R277). -/
def planeOf (data : List Byte) : List (List Byte) :=
  (List.range 26).map (fun p => slice data (bitsOf (imageHead data) 143 128 + 32 * p) 32)

/-- A link word's fields (R276). -/
def linkOf (w : Nat) : ChurnLink :=
  { src := bitsOf w 21 16, dst := bitsOf w 13 8, input := bitsOf w 1 0, slots := bitsOf w 30 28, init := w.testBit 31,
    iv := BitVec.ofNat 32 (bitsOf w 63 32) }

/-- The link words of a route plane that lie within it. -/
def linkWords (rb : List Byte) : List Nat :=
  (List.range (min (numAt rb 0 2) ((rb.length - 8) / 8))).map (fun i => numAt rb (8 + 8 * i) 8)

/-- Table-unit records with their data, as far as the bytes reach, and whether they run past them. -/
def recordsFrom : Nat → List Byte → List (Nat × List Byte) × Bool
  | 0, _ => ([], false)
  | n + 1, bs =>
    if bs.length < 8 then ([], true)
    else
      let w := numAt bs 0 8
      let len := bitsOf w 44 32
      let body := bs.drop 8
      if body.length < (len + 7) / 8 * 8 then ([(w, body.take len)], true)
      else
        let (rs, cut) := recordsFrom n (body.drop ((len + 7) / 8 * 8))
        ((w, body.take len) :: rs, cut)

/-- The table-unit records of a route plane. -/
def routeRecords (rb : List Byte) : List (Nat × List Byte) × Bool :=
  recordsFrom (numAt rb 2 2) (rb.drop (8 + 8 * numAt rb 0 2))

/-- OP of an entry. -/
def entryOp (e : List Byte) : Nat := (e.getD 0 0).toNat
/-- MOD of an entry. -/
def entryMod (e : List Byte) : Nat := (e.getD 1 0).toNat
/-- The entry of a position. -/
def entryAt (plane : List (List Byte)) (pos : Nat) : List Byte := plane.getD pos (List.replicate 32 0)

/-- How many inputs an operation uses (R279). -/
def opInputs (op : Nat) : Nat :=
  match op with
  | 0 => 0 | 1 => 1 | 5 => 3 | 0x0D => 3 | 0x0E => 1 | 0x0F => 1 | 0x12 => 3 | 0x15 => 1 | 0x16 => 1 | 0x17 => 1
  | 0x20 => 1 | 0x21 => 1
  | _ => if op ≤ 0x14 then 2 else 3

/-- The latency of an operation (R279). -/
def opLatency (op : Nat) : Nat :=
  match op with
  | 1 => 1 | 4 => 3 | 5 => 3 | 6 => 1 | 7 => 1 | 8 => 1 | 0x0D => 1 | 0x12 => 3 | 0x15 => 4 | 0x16 => 4
  | 0 => 0 | 0x20 => 0 | 0x21 => 0
  | _ => 2

/-! ## Checks at load (R285, R286) -/

/-- The stage of a producing endpoint; the sources and address generators count as the stage before the first. Stages
here are counted from 1. -/
def stageFrom (p : Nat) : Nat := if p < 24 then p / 4 + 1 else 0
/-- The stage of a consuming endpoint. -/
def stageTo (p : Nat) : Nat := if p < 24 then p / 4 + 1 else 7
/-- A link runs backward (R278). -/
def ChurnLink.backward (l : ChurnLink) : Bool := decide (l.dst < 40 ∧ stageTo l.dst ≤ stageFrom l.src)

/-- An endpoint number that exists (R278). -/
def endpointOk (p : Nat) : Bool := decide (p < 26 ∨ (32 ≤ p ∧ p ≤ 35) ∨ p = 40 ∨ p = 41)

/-- Reserved bits of the header (R275). -/
def headReserved (h : Nat) : Bool :=
  decide (bitsOf h 511 160 ≠ 0 ∨ bitsOf h 95 92 ≠ 0 ∨ bitsOf h 87 86 ≠ 0 ∨ bitsOf h 79 76 ≠ 0 ∨ bitsOf h 15 14 ≠ 0)

/-- Check 1. -/
def badShape (h : Nat) (swap : Bool) : Bool :=
  decide (bitsOf h 7 0 ≠ 1 ∨ headSize h < 64 ∨ headSize h > 8192 ∨ headSize h % 64 ≠ 0) || headReserved h
    || decide (bitsOf h 159 144 ≠ (if headOpc h then 832 else 0)) || (!headRoute h && bitsOf h 127 112 != 0)
    || decide (bitsOf h 143 128 % 32 ≠ 0 ∨ bitsOf h 111 96 % 8 ≠ 0)
    || (headOpc h && decide (bitsOf h 143 128 + bitsOf h 159 144 > headSize h))
    || (headRoute h && decide (bitsOf h 111 96 + bitsOf h 127 112 > headSize h))
    || (if swap then headRoute h || !headOpc h else !(headRoute h && headOpc h))

/-- The header fields that `xswap` must leave as they are (R300). -/
def keptFields (h : Nat) : List Nat :=
  [bitsOf h 71 64, bitsOf h 73 72, bitsOf h 74 74, bitsOf h 75 75, bitsOf h 81 80, bitsOf h 83 82, bitsOf h 85 84,
   bitsOf h 89 88, bitsOf h 91 90]

/-- The same fields of a loaded image. -/
def ChurnImage.kept (g : ChurnImage) : List Nat :=
  [g.lat, g.srcs, g.dst2.toNat, g.strm.toNat, g.fa, g.fb, g.fd, g.f0, g.f1]

/-- Check 2. -/
def badHeader (h slot : Nat) (old : Option ChurnImage) : Bool :=
  decide (bitsOf h 11 8 ≠ slot ∨ bitsOf h 73 72 = 0 ∨ bitsOf h 71 64 < 2 ∨ bitsOf h 71 64 > 127 ∨ bitsOf h 47 32 = 0
    ∨ bitsOf h 63 48 = 0)
    || [bitsOf h 81 80, bitsOf h 83 82, bitsOf h 85 84, bitsOf h 89 88, bitsOf h 91 90].any (fun f => decide (f > 1))
    || (match old with
      | some g => keptFields h != g.kept
      | none => false)

/-- Check 3: endpoints, ports, inputs. -/
def badLinks (srcs : Nat) (dst2 : Bool) (plane : List (List Byte)) (ls : List ChurnLink) : Bool :=
  let used (p : Nat) : Bool := decide (entryOp (entryAt plane p) ≠ 0)
  let dests := if dst2 then [40, 41] else [40]
  ls.any (fun l =>
    !endpointOk l.src || !endpointOk l.dst || decide (l.src ≥ 40 ∨ (32 ≤ l.dst ∧ l.dst < 40))
      || (l.src == 33 && decide (srcs < 2)) || (l.src == 34 && decide (srcs < 3)) || (l.dst == 41 && !dst2)
      || (decide (l.src < 26) && !used l.src) || (decide (l.dst < 26) && !used l.dst)
      || decide (l.input ≥ (if l.dst ≥ 40 then 1 else opInputs (entryOp (entryAt plane l.dst))))
      || decide (1 < ls.countP (fun m => m.dst == l.dst && m.input == l.input)))
    || (List.range 26).any (fun p => used p && !ls.any (fun l => l.dst == p && l.input == 0))
    || dests.any (fun p => ls.countP (fun l => l.dst == p) != 1)

/-- Links without those that no cycle of them can hold: one whose producer takes in none of them. -/
def peelLinks (ls : List ChurnLink) : Nat → List ChurnLink
  | 0 => ls
  | n + 1 => peelLinks (ls.filter (fun l => ls.any (fun m => m.dst == l.src))) n

/-- Check 4: a cycle of links without slots. -/
def badCycle (ls : List ChurnLink) : Bool := !(peelLinks (ls.filter (fun l => l.slots == 0)) 30).isEmpty

/-- The greatest latency of a chain that ends at a position, for positions in order (R286). -/
def chainTo (plane : List (List Byte)) (ls : List ChurnLink) : Tab Nat :=
  (List.range 24).foldl (fun t p =>
    if entryOp (entryAt plane p) = 0 then t
    else putAt t p (opLatency (entryOp (entryAt plane p)) +
      ((ls.filter (fun l => l.dst == p)).map (fun l => getAt 0 t l.src)).foldl max 0)) []

/-- Check 5. -/
def badLatency (lat : Nat) (plane : List (List Byte)) (ls : List ChurnLink) : Bool :=
  let free := ls.all (fun l => !l.backward) && entryOp (entryAt plane 24) == 0 && entryOp (entryAt plane 25) == 0
  let t := chainTo plane ls
  free && decide (lat < 2 + ((ls.filter (fun l => decide (l.dst ≥ 40))).map (fun l => getAt 0 t l.src)).foldl max 0)

/-- Check 6. -/
def badRecord (w : Nat) : Bool :=
  decide (bitsOf w 2 0 > 5 ∨ bitsOf w 27 16 % 8 ≠ 0 ∨ bitsOf w 44 32 % 8 ≠ 0 ∨ bitsOf w 44 32 < 8
    ∨ bitsOf w 27 16 + bitsOf w 44 32 > 4096)

/-- Check 7 for an entry at a position. -/
def badEntry (pos : Nat) (e : List Byte) : Bool :=
  let op := entryOp e
  let mod := entryMod e
  if pos ≥ 24 then
    if op = 0 then decide (mod ≠ 0 ∨ numAt e 8 8 ≥ 2 ^ 49 ∨ numAt e 28 4 ≠ 0)
    else decide ((op ≠ 0x20 ∧ op ≠ 0x21) ∨ mod > 1 ∨ numAt e 2 2 = 0 ∨ numAt e 4 2 = 0 ∨ numAt e 6 2 = 0
      ∨ numAt e 8 8 ≥ 2 ^ 49 ∨ numAt e 28 4 ≠ 0)
  else
    decide (op > 0x17 ∨ numAt e 2 2 ≠ 0 ∨ numAt e 12 4 ≠ 0) ||
      (match op with
      | 0x0C => decide (mod / 16 ≠ 0 ∨ mod % 8 > 5)
      | 0x15 => decide (mod > 1)
      | 0x17 => decide (mod > 5)
      | _ => mod != 0)

/-- Check 8. -/
def badWords (rb : List Byte) : Bool :=
  decide (rb.length < 8 + 8 * numAt rb 0 2 ∨ numAt rb 4 4 ≠ 0) || (routeRecords rb).2
    || (linkWords rb).any (fun w => decide (bitsOf w 30 28 > 4 ∨ bitsOf w 27 22 ≠ 0 ∨ bitsOf w 15 14 ≠ 0 ∨ bitsOf w 7 2 ≠ 0))
    || (routeRecords rb).1.any (fun r => decide (bitsOf r.1 15 3 ≠ 0 ∨ bitsOf r.1 31 28 ≠ 0 ∨ bitsOf r.1 63 45 ≠ 0))

/-- The first failing check of R285 among details 1 to 8, or 0; `old` is the loaded image of an `xswap`. -/
def imageDetail (data : List Byte) (slot : Nat) (swap : Bool) (old : Option ChurnImage) : Nat :=
  let h := imageHead data
  let plane := planeOf data
  let rb := routeBytes data
  let route : Option (List ChurnLink) := if swap then old.map (·.links) else some ((linkWords rb).map linkOf)
  if badShape h swap then 1
  else if badHeader h slot (if swap then old else none) then 2
  else
    let d := match route with
      | none => 0
      | some ls =>
        if badLinks (bitsOf h 73 72) (h.testBit 74) plane ls then 3
        else if badCycle ls then 4
        else if badLatency (bitsOf h 71 64) plane ls then 5
        else if !swap && (routeRecords rb).1.any (fun r => badRecord r.1) then 6
        else 0
    if d ≠ 0 then d
    else if (List.range 26).any (fun p => badEntry p (entryAt plane p)) then 7
    else if !swap && badWords rb then 8
    else 0

/-- The image that a load installs (R299). -/
def loadedImage (data : List Byte) : ChurnImage :=
  let h := imageHead data
  let rb := routeBytes data
  { lat := bitsOf h 71 64, srcs := bitsOf h 73 72, dst2 := h.testBit 74, strm := h.testBit 75, fa := bitsOf h 81 80,
    fb := bitsOf h 83 82, fd := bitsOf h 85 84, f0 := bitsOf h 89 88, f1 := bitsOf h 91 90, rv := bitsOf h 47 32,
    ov := bitsOf h 63 48, ovp := 0, links := (linkWords rb).map linkOf,
    units := (routeRecords rb).1.map (fun r => (bitsOf r.1 2 0, bitsOf r.1 27 16, r.2)), plane := planeOf data,
    prev := [], mism := false }

/-! ## Operations (R272, R279 to R281) -/

/-- A byte of a table unit: a record's, or 0 (R276). -/
def ChurnImage.unitByte (g : ChurnImage) (unit off : Nat) : Byte :=
  g.units.foldl (fun b r => if r.1 = unit ∧ r.2.1 ≤ off ∧ off < r.2.1 + r.2.2.length then r.2.2.getD (off - r.2.1) 0 else b) 0

/-- The table unit that a position reaches (R272). -/
def unitOf (pos : Nat) : Nat :=
  let s := pos / 4
  if (s + pos % 4) % 2 = 0 then s else (s + 5) % 6

/-- An approximation as the element delivers it (R281). -/
def approximate (r : Nat × Flags) : Nat × Flags :=
  if r.2 &&& flagOF ≠ 0 then ((r.1 / 2 ^ 31) * 2 ^ 31 + 255 * 2 ^ 23, flagOF ||| flagNX)
  else
    let v := r.1
    let special := decide ((v / 2 ^ 23) % 256 = 255)
    let cut := if special then v else v / 16 * 16
    if cut ≠ v ∨ r.2 &&& flagNX ≠ 0 then
      (cut, flagNX ||| (r.2 &&& flagNV) ||| (if (cut / 2 ^ 23) % 256 = 0 then flagUF else 0))
    else (v, r.2)

/-- `exp2` (R281). -/
def churnExp2 (scaled : Bool) (c0 x : Nat) : Nat × Flags :=
  let (y, f) := if scaled then fMul 23 .rne x c0 else (x, 0)
  let (r, g) := approximate (fExp2 23 .rz y)
  (r, f ||| g)

/-- The six relations of `cmp`, from less-than and equality. -/
def relationOf (code : Nat) (lt eq gt : Bool) : Bool :=
  match code with
  | 0 => eq | 1 => !eq | 2 => lt | 3 => lt || eq | 4 => gt | _ => gt || eq

/-- The relations of `cmp` on fp32 (R51). -/
def floatRelation (code x y : Nat) : Bool × Flags :=
  match code with
  | 0 => fEq 23 x y
  | 1 => (!(fEq 23 x y).1, (fEq 23 x y).2)
  | 2 => fLt 23 x y
  | 3 => fLe 23 x y
  | 4 => fLt 23 y x
  | _ => fLe 23 y x

/-- `cvt` (R280). -/
def churnConvert (mod : Nat) (mode : Rounding) (x : Nat) : Nat × Flags :=
  match mod % 16 with
  | 0 => convert .fp32 .bf16 mode false x
  | 1 => convert .bf16 .fp32 mode false (x % 2 ^ 16)
  | 2 => convert .fp32 .cm8 mode false x
  | 3 => convert .cm8 .fp32 mode false (x % 256)
  | 4 => convert .fp32 .cm4 mode false x
  | _ => convert .cm4 .fp32 mode false (x % 16)

/-- The result of an element on one half (R279). -/
def ChurnImage.element (g : ChurnImage) (e : List Byte) (pos : Nat) (mode : Rounding) (x y z : Nat) : Nat × Flags :=
  let mod := entryMod e
  let byte (j : Nat) : Nat := (x >>> (8 * j)) % 256
  match entryOp e with
  | 0x01 => (x, 0)
  | 0x02 => ((x + y) % 2 ^ 32, 0)
  | 0x03 => (wrapTo 32 ((x : Int) - y), 0)
  | 0x04 => (x * y % 2 ^ 32, 0)
  | 0x05 => ((x * y + z) % 2 ^ 32, 0)
  | 0x06 => (x &&& y, 0)
  | 0x07 => (x ||| y, 0)
  | 0x08 => (x ^^^ y, 0)
  | 0x09 => ((x <<< (y % 32)) % 2 ^ 32, 0)
  | 0x0A => (x >>> (y % 32), 0)
  | 0x0B => (wrapTo 32 (signedOf 32 x >>> (y % 32)), 0)
  | 0x0C =>
    let (r, f) := if mod.testBit 3 then floatRelation (mod % 8) x y
      else (relationOf (mod % 8) (decide (signedOf 32 x < signedOf 32 y)) (x == y) (decide (signedOf 32 y < signedOf 32 x)), 0)
    (r.toNat, f)
  | 0x0D => (if z ≠ 0 then x else y, 0)
  | 0x0E =>
    ((List.range 4).foldl (fun a j =>
      a + (if byte j ≥ 128 then 0 else (e.getD (16 + byte j % 16) 0).toNat) * 2 ^ (8 * j)) 0, 0)
  | 0x0F => (ofBytes ((List.range 4).map (fun k => g.unitByte (unitOf pos) (bitsOf x 11 2 * 4 + k))), 0)
  | 0x10 => fAdd 23 mode x y
  | 0x11 => fMul 23 mode x y
  | 0x12 => fFma 23 mode false false x y z
  | 0x13 => fMin 23 x y
  | 0x14 => fMax 23 x y
  | 0x15 => churnExp2 (mod.testBit 0) (numAt e 4 4) x
  | 0x16 => approximate (fRcp 23 .rz x)
  | _ => churnConvert mod mode x

/-! ## Ports (R274) -/

/-- The two bf16 elements of a lane word widened, with their flags (R59). -/
def widenPair (w : Lane) : (Nat × Flags) × (Nat × Flags) :=
  (convert .bf16 .fp32 .rne false (w.toNat % 2 ^ 16), convert .bf16 .fp32 .rne false (w.toNat / 2 ^ 16))

/-- A lane word as the halves of a token (R59, R274). -/
def tokenOf (fmt : Nat) (w : Lane) : Lane × Lane :=
  if fmt = 0 then (w, 0) else (BitVec.ofNat 32 (widenPair w).1.1, BitVec.ofNat 32 (widenPair w).2.1)

/-- The flags that the forming of a token raises (R59). -/
def tokenFlags (fmt : Nat) (w : Lane) : Flags := if fmt = 0 then 0 else (widenPair w).1.2 ||| (widenPair w).2.2

/-- A token as a lane word, with the flags of its rounding. -/
def laneFrom (fmt : Nat) (mode : Rounding) (t : Lane × Lane) : Lane × Flags :=
  if fmt = 0 then (t.1, 0)
  else
    let (b0, f0) := convert .fp32 .bf16 mode false t.1.toNat
    let (b1, f1) := convert .fp32 .bf16 mode false t.2.toNat
    (BitVec.ofNat 32 (b0 + b1 * 2 ^ 16), f0 ||| f1)

end Sys2Proof.Machine
end

