-- ==== Sys2Proof/Machine/Churn.lean ====
section
/-! DEFINITION. The churns: tokens and markers on links, the firing of elements and address generators, invocations, the
custom opcodes, completion, quiescence and parking (R272 to R305). -/

namespace Sys2Proof.Machine

/-- Cause UNLOADED (R83). -/
def causeUNLOADED : Nat := 0x60
/-- Cause GRAPH_INVALID (R83). -/
def causeGRAPH : Nat := 0x61
/-- Cause AG_FAULT (R83). -/
def causeAG : Nat := 0x62
/-- Cause VERSION (R83). -/
def causeVERSION : Nat := 0x63

/-! ## Links (R273, R283) -/

/-- The item is a token. -/
def LinkItem.isToken (i : LinkItem) : Bool := match i with
  | .token .. => true
  | .marker _ => false

/-- The item counts among the tokens that a churn holds: all but the resting token of an INIT link. -/
def LinkItem.counts (i : LinkItem) : Bool := match i with
  | .token _ _ _ rest => !rest
  | .marker _ => true

/-- The opcode version of an item. -/
def LinkItem.version (i : LinkItem) : Nat := match i with
  | .token _ _ v _ => v
  | .marker v => v

/-- The halves of an item. -/
def LinkItem.halves (i : LinkItem) : Lane × Lane := match i with
  | .token a b _ _ => (a, b)
  | .marker _ => (0, 0)

/-- Links that end at a position, with their numbers. -/
def ChurnImage.into (g : ChurnImage) (pos : Nat) : List (ChurnLink × Nat) := g.links.zipIdx.filter (fun x => x.1.dst == pos)
/-- Links that begin at a position, with their numbers. -/
def ChurnImage.outOf (g : ChurnImage) (pos : Nat) : List (ChurnLink × Nat) := g.links.zipIdx.filter (fun x => x.1.src == pos)
/-- Links into a position without INIT. -/
def ChurnImage.plainInto (g : ChurnImage) (pos : Nat) : List (ChurnLink × Nat) := (g.into pos).filter (fun x => !x.1.init)

/-- The contents of a link in a lane copy. -/
def Net.q (n : Net) (l c : Nat) : List LinkItem := getAt [] n.queues (l * 16 + c)
/-- The contents of a link replaced. -/
def Net.setQ (n : Net) (l c : Nat) (x : List LinkItem) : Net := { n with queues := putAt n.queues (l * 16 + c) x }
/-- Markers that a position has passed in a lane copy. -/
def Net.passedAt (n : Net) (pos c : Nat) : Nat := getAt 0 n.passed (pos * 16 + c)
/-- Firings of a position since its last marker. -/
def Net.firedAt (n : Net) (pos c : Nat) : Nat := getAt 0 n.fired (pos * 16 + c)
/-- Markers that an INIT link has given up. -/
def Net.poppedAt (n : Net) (l c : Nat) : Nat := getAt 0 n.popped (l * 16 + c)

/-- The head of a link is a token. -/
def Net.tokenHead (n : Net) (l c : Nat) : Bool := ((n.q l c).head?.map LinkItem.isToken).getD false
/-- The head of a link is a marker. -/
def Net.markHead (n : Net) (l c : Nat) : Bool := ((n.q l c).head?.map (fun i => !i.isToken)).getD false

/-- An INIT link holds what the ended invocations left, before the token of the present one (R290). -/
def Net.stale (n : Net) (c : Nat) (x : ChurnLink × Nat) : Bool :=
  x.1.init && decide (n.poppedAt x.2 c < n.passedAt x.1.dst c) && !(n.q x.2 c).isEmpty

/-- An input holds a valid token of the present invocation. -/
def Net.ready (n : Net) (c : Nat) (x : ChurnLink × Nat) : Bool :=
  n.tokenHead x.2 c && (!x.1.init || n.poppedAt x.2 c == n.passedAt x.1.dst c)

/-- A link has a free slot for what `p` sends; one without slots has it when its consumer can fire with it (R283). -/
def Net.room (n : Net) (g : ChurnImage) (c p : Nat) : Nat → ChurnLink × Nat → Bool
  | 0, x => decide ((n.q x.2 c).length < x.1.slots)
  | fuel + 1, x =>
    if x.1.slots > 0 then decide ((n.q x.2 c).length < x.1.slots)
    else (n.q x.2 c).isEmpty && (decide (x.1.dst ≥ 24) ||
      ((g.into x.1.dst).all (fun k => k.1.src == p || n.ready c k) && (g.outOf x.1.dst).all (n.room g c x.1.dst fuel)))

/-- Every link that leaves a position has a free slot. -/
def Net.roomOut (n : Net) (g : ChurnImage) (c p : Nat) : Bool := (g.outOf p).all (n.room g c p 26)

/-- The token that an INIT link holds at rest (R276, R290). -/
def ChurnImage.restToken (g : ChurnImage) (l : ChurnLink) : LinkItem := .token l.iv l.iv g.ov true

/-- An item sent on every link that leaves a position; behind a marker an INIT link holds its first token again. -/
def Net.send (n : Net) (g : ChurnImage) (c p : Nat) (i : LinkItem) : Net :=
  (g.outOf p).foldl (fun m x =>
    m.setQ x.2 c (m.q x.2 c ++ i :: (if x.1.init && !i.isToken then [g.restToken x.1] else []))) n

/-- The head of a link taken off. -/
def Net.pop (n : Net) (c l : Nat) : Net := n.setQ l c ((n.q l c).drop 1)

/-- A churn with a route plane just made active (R283). -/
def ChurnImage.freshNet (g : ChurnImage) (ctx slot : Nat) : Net :=
  { ctx := ctx, slot := slot,
    queues := g.links.zipIdx.foldl (fun t x => if x.1.init then
        (List.range 16).foldl (fun u c => putAt u (x.2 * 16 + c) [g.restToken x.1]) t else t) [],
    pend := [], passed := [], fired := [], popped := [], outs := [], outMarks := [], invs := [], nextInv := 0,
    ags := [AgState.reset, AgState.reset] }

/-- The token count: tokens and markers held in links and elements (R304). -/
def Net.tokens (n : Net) : Nat :=
  n.queues.foldl (fun k x => k + x.2.countP LinkItem.counts) 0 + n.pend.foldl (fun k x => k + x.2.length) 0

/-- A token or marker of an opcode version remains. -/
def Net.holdsVersion (n : Net) (v : Nat) : Bool :=
  n.queues.any (fun x => x.2.any (fun i => i.counts && i.version == v)) || n.pend.any (fun x => x.2.any (fun i => i.version == v))

/-! ## Invocations (R282, R287) -/

/-- An invocation by its number. -/
def Net.inv (n : Net) (k : Nat) : Option Invocation := n.invs.find? (fun i => i.num == k)

/-- The open invocation of a churn. -/
def Net.openInv (n : Net) : Option Invocation := n.invs.find? (fun i => !i.marked)

/-- The `xop` that firing `k` of an element belongs to (R282). -/
def Invocation.xopOf (i : Invocation) (k : Nat) : Option XopRec := (i.xops[k / 2]?).or i.xops.getLast?

/-- The lane that firing `k` in lane copy `c` belongs to. -/
def Invocation.laneAt (i : Invocation) (k c : Nat) : Nat := if k < 2 * i.xops.length ∧ k % 2 = 0 then c else 16 + c

/-- An invocation replaced. -/
def Net.setInv (n : Net) (i : Invocation) : Net := { n with invs := n.invs.map (fun j => if j.num = i.num then i else j) }

/-- Flags of firing `k` kept with its invocation. -/
def Net.keepFlags (n : Net) (num k c : Nat) (f : Flags) : Net :=
  if f = 0 then n
  else { n with
    invs := n.invs.map (fun i => if i.num = num then { i with flags := modAt 0 i.flags (k * 16 + c) (· ||| f) } else i) }

/-- The opcode version that an element uses: its invocation's, else the current one (R296). -/
def Net.versionAt (n : Net) (g : ChurnImage) (num : Nat) : Nat := ((n.inv num).map (·.ov)).getD g.ov

/-- The opcode plane of a version. -/
def ChurnImage.planeFor (g : ChurnImage) (v : Nat) : List (List Byte) := if v = g.ov then g.plane else g.prev

/-- The rounding mode that a firing uses: the one its `xop` recorded (R280). -/
def Net.modeAt (n : Net) (num k : Nat) : Rounding :=
  match (n.inv num).bind (fun i => i.xopOf k) with
  | some x => roundingOf x.round
  | none => .rne

/-! ## Steps of an element in a lane copy (R283, R290) -/

/-- What a step of the network does besides changing links. -/
structure NetEffect where
  net : Net
  mism : Bool
  /-- Flags of a firing: invocation, number of the firing, lane copy. -/
  flags : Option (Nat × Nat × Nat × Flags)

/-- A step that changes links alone. -/
def Net.only (n : Net) : NetEffect := { net := n, mism := false, flags := none }

/-- An element can fire. -/
def Net.canFire (n : Net) (g : ChurnImage) (c pos : Nat) : Bool :=
  !(g.into pos).isEmpty && (g.into pos).all (n.ready c) && n.roomOut g c pos

/-- The links whose markers an element waits for: those without INIT, or all where it has no other. -/
def ChurnImage.markInputs (g : ChurnImage) (pos : Nat) : List (ChurnLink × Nat) :=
  if (g.plainInto pos).isEmpty then g.into pos else g.plainInto pos

/-- A marker can pass a position. -/
def Net.canPass (n : Net) (g : ChurnImage) (c pos : Nat) : Bool :=
  !(g.into pos).isEmpty && (g.markInputs pos).all (fun x => n.markHead x.2 c)

/-- A token that stands ahead of the marker on one input while another input has its marker at the head (R290). -/
def Net.lateToken (n : Net) (g : ChurnImage) (c pos : Nat) : Option (ChurnLink × Nat) :=
  if (g.markInputs pos).any (fun x => n.markHead x.2 c) then (g.markInputs pos).find? (fun x => n.tokenHead x.2 c) else none

/-- What an INIT link holds of ended invocations given up, one item (R290). -/
def Net.dropStale (n : Net) (c : Nat) (x : ChurnLink × Nat) : Net :=
  let m := n.pop c x.2
  if n.markHead x.2 c then { m with popped := putAt m.popped (x.2 * 16 + c) (n.poppedAt x.2 c + 1) } else m

/-- A marker passes a position in a lane copy. -/
def Net.pass (n : Net) (g : ChurnImage) (c pos : Nat) : Net :=
  let v := (((g.markInputs pos).head?.map (fun x => (n.q x.2 c).head?)).join.map LinkItem.version).getD g.ov
  let m := (g.markInputs pos).foldl (fun k x =>
    let k1 := k.pop c x.2
    if x.1.init then { k1 with popped := putAt k1.popped (x.2 * 16 + c) (k1.poppedAt x.2 c + 1) } else k1) n
  ({ m with
      passed := putAt m.passed (pos * 16 + c) (m.passedAt pos c + 1)
      fired := putAt m.fired (pos * 16 + c) 0 } : Net).send g c pos (.marker v)

/-- The head of the link into an input, or the constant that stands for an input without one (R279). -/
def Net.operand (n : Net) (g : ChurnImage) (c pos input : Nat) (const : Nat) : Lane × Lane :=
  match (g.into pos).find? (fun x => x.1.input == input) with
  | some x => ((n.q x.2 c).head?.map LinkItem.halves).getD (0, 0)
  | none => (BitVec.ofNat 32 const, BitVec.ofNat 32 const)

/-- An element fires (R279, R283). -/
def Net.fire (n : Net) (g : ChurnImage) (c pos : Nat) : NetEffect :=
  let num := n.passedAt pos c
  let k := n.firedAt pos c
  let v := n.versionAt g num
  let e := entryAt (g.planeFor v) pos
  let mode := n.modeAt num k
  let x := n.operand g c pos 0 0
  let y := n.operand g c pos 1 (numAt e 4 4)
  let z := n.operand g c pos 2 (numAt e 8 4)
  let (r0, f0) := g.element e pos mode x.1.toNat y.1.toNat z.1.toNat
  let (r1, f1) := g.element e pos mode x.2.toNat y.2.toNat z.2.toNat
  let m := (g.into pos).foldl (fun u l => u.pop c l.2) n
  let m1 : Net := { m with fired := putAt m.fired (pos * 16 + c) (k + 1) }
  { net := (m1.send g c pos (.token (BitVec.ofNat 32 r0) (BitVec.ofNat 32 r1) v false)).keepFlags num k c (f0 ||| f1),
    mism := false, flags := some (num, k, c, f0 ||| f1) }

/-- A step of a compute position in a lane copy, if it has one. -/
def Net.elementStep (n : Net) (g : ChurnImage) (c pos : Nat) : Option NetEffect :=
  match (g.into pos).find? (n.stale c) with
  | some x => some (n.dropStale c x).only
  | none =>
    if n.canFire g c pos then some (n.fire g c pos)
    else if n.canPass g c pos then some (n.pass g c pos).only
    else match n.lateToken g c pos with
      | some x => some { net := n.pop c x.2, mism := true, flags := none }
      | none => none

/-- What a source holds that its links have not taken. -/
def Net.pendAt (n : Net) (ep c : Nat) : List LinkItem := getAt [] n.pend ((ep - 32) * 16 + c)

/-- A source hands its next item to its links (R274, R283). -/
def Net.sourceStep (n : Net) (g : ChurnImage) (c ep : Nat) : Option NetEffect :=
  match n.pendAt ep c with
  | [] => none
  | i :: rest =>
    if i.isToken && !n.roomOut g c ep then none
    else some (({ n with pend := putAt n.pend ((ep - 32) * 16 + c) rest } : Net).send g c ep i).only

/-- The tokens that an invocation has put out at a port in a lane copy. -/
def Net.outsAt (n : Net) (num port c : Nat) : List (Lane × Lane) := getAt [] n.outs ((num * 2 + port) * 16 + c)

/-- Markers that have reached a port in a lane copy. -/
def Net.marksAt (n : Net) (port c : Nat) : Nat := getAt 0 n.outMarks (port * 16 + c)

/-- A destination takes the next item of its link (R291). -/
def Net.destStep (n : Net) (g : ChurnImage) (c ep : Nat) : Option NetEffect :=
  let port := ep - 40
  match (g.into ep).head? with
  | none => none
  | some x =>
    match n.q x.2 c with
    | [] => none
    | i :: _ =>
      let num := n.marksAt port c
      let m := n.pop c x.2
      let have' := n.outsAt num port c
      if i.isToken then
        some ({ m with outs := putAt m.outs ((num * 2 + port) * 16 + c) (have' ++ [i.halves]) } : Net).only
      else
        let beats := ((n.inv num).map (fun v => 2 * v.xops.length)).getD 0
        some { net := { m with outMarks := putAt m.outMarks (port * 16 + c) (num + 1) }, mism := decide (have'.length ≠ beats),
               flags := none }

/-- The step of a position, source or destination in a lane copy. -/
def Net.step (n : Net) (g : ChurnImage) (c pos : Nat) : Option NetEffect :=
  if pos < 24 then n.elementStep g c pos
  else if 32 ≤ pos ∧ pos ≤ 35 then n.sourceStep g c pos
  else if pos = 40 ∨ pos = 41 then n.destStep g c pos
  else none

/-! ## Rows of State -/

/-- The churns of a core. -/
def State.churnRow (s : State) (core : Nat) : ChurnRow := getAt ChurnRow.reset s.churns core
/-- The churns of a core replaced. -/
def State.setChurnRow (s : State) (core : Nat) (r : ChurnRow) : State := { s with churns := putAt s.churns core r }
/-- A churn. -/
def State.churn (s : State) (core i : Nat) : Churn := (s.churnRow core).churns.toList.getD i Churn.reset
/-- A churn replaced. -/
def State.setChurn (s : State) (core i : Nat) (c : Churn) : State :=
  let r := s.churnRow core
  s.setChurnRow core { r with churns := r.churns.setIfInBounds i c }
/-- The contents of a churn replaced. -/
def State.setNet (s : State) (core i : Nat) (n : Net) : State := s.setChurn core i { s.churn core i with net := some n }

/-- The row number of a custom slot of a context on a core. -/
def imageKey (core ctx slot : Nat) : Nat := (ctx * 256 + core) * 16 + slot
/-- A loaded custom slot. -/
def State.image (s : State) (core ctx slot : Nat) : Option ChurnImage := findAt s.images (imageKey core ctx slot)
/-- A custom slot loaded. -/
def State.setImage (s : State) (core ctx slot : Nat) (g : ChurnImage) : State :=
  { s with images := putAt s.images (imageKey core ctx slot) g }
/-- MISM set (R302). -/
def State.setMism (s : State) (core : Nat) (n : Net) : State :=
  match s.image core n.ctx n.slot with
  | some g => s.setImage core n.ctx n.slot { g with mism := true }
  | none => s

/-- The wave that issued an `xop` still exists. -/
def State.xopWave (s : State) (x : XopRec) : Bool :=
  (findAt s.waves x.agent.waveKey).isSome && (s.wvOf x.agent).task == x.task

/-- Flags ORed into FSTAT of the wave of an `xop`. -/
def State.xopFlags (s : State) (x : XopRec) (f : Flags) : State :=
  if s.xopWave x then s.setWvOf x.agent { s.wvOf x.agent with fstat := (s.wvOf x.agent).fstat ||| f } else s

/-- Flags of a firing that comes after its `xop` has completed. -/
def State.lateFlags (s : State) (n : Net) (e : Option (Nat × Nat × Nat × Flags)) : State :=
  match e with
  | none => s
  | some (num, k, c, f) =>
    match n.inv num with
    | none => s
    | some i =>
      match i.xopOf k with
      | some x =>
        if x.done && (decide (k < 2 * i.xops.length) || i.marked) && x.guarded.contains (i.laneAt k c) then s.xopFlags x f
        else s
      | none => s

/-- The contents of a churn after a step that has freed slots: its return count rises (R304). -/
def State.moveNet (s : State) (core i : Nat) (n : Net) : State :=
  s.setChurn core i { s.churn core i with net := some n, returns := (s.churn core i).returns + 1 }

/-- The effect of a step of a churn's network. -/
def State.netStep (s : State) (core i : Nat) (n : Net) (e : NetEffect) : State :=
  let s1 := (s.moveNet core i e.net).lateFlags e.net e.flags
  if e.mism then s1.setMism core n else s1

/-- CHURN_ELEMENT_FIRE: a position of a churn makes its next step in a lane copy: it fires, discards, or a marker passes
it; a source or a destination moves one item (R279 to R284, R290, R291). -/
def execChurnElementFire (core churn copy pos : Nat) (s : State) : Result :=
  .next (match (s.churn core churn).net with
    | none => s
    | some n =>
      match s.image core n.ctx n.slot with
      | none => s
      | some g =>
        if copy ≥ 16 ∨ churn ≥ 4 then s
        else match n.step g copy pos with
          | some e => s.netStep core churn n e
          | none => s)

/-! ## Address generators (R292 to R294) -/

/-- The lane copies. -/
def copies16 : List Nat := List.range 16

/-- The address of an address generator's next step (R292). -/
def agAddress (e : List Byte) (a : AgState) : Word :=
  addOffset (addOffset (addOffset (BitVec.ofNat 64 (numAt e 8 8)) (a.i0 * signedOf 32 (numAt e 16 4)))
    (a.i1 * signedOf 32 (numAt e 20 4))) (a.i2 * signedOf 32 (numAt e 24 4))

/-- The loop counters after a step: the inner inside the middle inside the outer. -/
def AgState.next (a : AgState) (e : List Byte) : AgState :=
  if a.i0 + 1 < numAt e 4 2 then { a with i0 := a.i0 + 1 }
  else if a.i1 + 1 < numAt e 6 2 then { a with i0 := 0, i1 := a.i1 + 1 }
  else { a with i0 := 0, i1 := 0, i2 := a.i2 + 1 }

/-- The steps have run out. -/
def AgState.over (a : AgState) (e : List Byte) : Bool := decide (numAt e 2 2 ≤ a.i2)

/-- An address generator of a churn. -/
def Net.ag (n : Net) (k : Nat) : AgState := n.ags.getD k AgState.reset
/-- An address generator replaced. -/
def Net.setAg (n : Net) (k : Nat) (a : AgState) : Net := { n with ags := n.ags.set k a }

/-- One token taken in every lane copy and one sent, and the firing counted. -/
def Net.agMove (n : Net) (g : ChurnImage) (pos v : Nat) (out : Option (Nat → Lane × Lane)) : Net :=
  copies16.foldl (fun m c =>
    let m1 := (g.into pos).foldl (fun u l => u.pop c l.2) m
    let m2 : Net := { m1 with fired := putAt m1.fired (pos * 16 + c) (m1.firedAt pos c + 1) }
    match out with
    | some f => m2.send g c pos (.token (f c).1 (f c).2 v false)
    | none => m2) n

/-- The number under which an address generator stands in a fault record. -/
def agNumber (core churn ag : Nat) : Nat := 2 ^ 32 + (core * 4 + churn) * 2 + ag

/-- The record of an address generator's fault (R294, R417). -/
def agRecord (s : State) (core churn ag : Nat) (n : Net) (a : AgState) (x : Option XopRec) (va : Word) (write : Bool)
    (detail : Nat) : FaultRecord :=
  let f := (x.map (·.agent)).getD { core := core, wave := 0, frag := 0 }
  let t := s.taskOf f
  { FaultRecord.blank with
    cause := causeAG, detail := detail, core := core, ctx := n.ctx, va := va,
    slot := if t.oper = 0 then 0xFF else (s.seatOf t.oper core).slot, pc := (x.map (·.pc)).getD 0,
    access := if write then 2 else 1, agent := 2, more6 := churn * 2 ^ 40,
    word7 := a.i0 + a.i1 * 2 ^ 16 + a.i2 * 2 ^ 32, others := if detail ≤ 2 then [agNumber core churn ag] else [] }

/-- An address generator at a fault: it stops with its counters kept, or abandons the rest of its invocation (R294). -/
def State.agFault (s : State) (core churn ag : Nat) (n : Net) (x : Option XopRec) (va : Word) (write : Bool)
    (detail : Nat) : State :=
  let a := n.ag ag
  let (s1, id) := s.postRecord (agRecord s core churn ag n a x va write detail)
  if detail ≤ 2 then s1.setNet core churn (n.setAg ag { a with stopped := some id })
  else (s1.setNet core churn (n.setAg ag { a with abandoned := true })).setMism core n

/-- Earlier accesses of an `xop`'s wave that its access waits for, performed (R101, R110, R293). -/
def State.forceXop (s : State) (x : Option XopRec) (keys : List Nat) : Option State :=
  match x with
  | none => some s
  | some r =>
    let need := s.accesses.filter (fun a =>
      r.holds.contains a.id || (r.past.contains a.id && a.op.keys.any (fun k => keys.contains k)))
    need.foldl (fun q a => q.bind (fun t =>
      match t.accessOf a.id with
      | none => some t
      | some b => if b.isOut then none else (t.forceFor b).map (fun u => u.performAccess b))) (some s)

/-- Who makes the accesses of an address generator: the wave of the `xop` that they belong to (R293). -/
def agOwner (core churn ag : Nat) (n : Net) (x : Option XopRec) : Owner :=
  let f := (x.map (·.agent)).getD { core := core, wave := 0, frag := 0 }
  { hubOwner (.generator churn ag) n.ctx with agent := f, task := (x.map (·.task)).getD 0, pc := (x.map (·.pc)).getD 0 }

/-- The access is one of an address generator of a churn. -/
def Access.ofChurn (a : Access) (core churn : Nat) : Bool :=
  match a.issuer with
  | .generator c _ => c == churn && a.agent.core == core
  | _ => false

/-- The reply count: requests of a churn's address generators that have not been answered (R304). -/
def State.replyCount (s : State) (core churn : Nat) : Nat := s.accesses.countP (fun a => a.ofChurn core churn)

/-- Flags of one firing in each lane copy kept with its invocation, and reported where its `xop` has completed (R282). -/
def State.agFlags (s : State) (n : Net) (num k : Nat) (f : Nat → Flags) : State × Net :=
  copies16.foldl (fun (r : State × Net) c =>
    ((r.1).lateFlags r.2 (some (num, k, c, f c)), r.2.keepFlags num k c (f c))) (s, n)

/-- The words that an address generator writes, each with its flags, to the places of its step (R49, R274, R292). -/
def agWords (n : Net) (g : ChurnImage) (pos num fmt c : Nat) : Lane × Flags :=
  laneFrom fmt (n.modeAt num (n.firedAt pos 0)) (n.operand g c pos 0 0)

/-- The places where an address generator's step is made: its address, and the 64 bytes from it on. -/
def agPlaces (va : Word) : List Word := (upFrom 0 64).map (fun k => va + BitVec.ofNat 64 k)

/-- One step of an address generator at an address that it reads or writes (R292). It waits for a page, for a path, for earlier
accesses of its wave, and for bytes of another device (R112, R293, R381, R382). -/
def State.agAccess (s : State) (core churn ag : Nat) (n : Net) (g : ChurnImage) (e : List Byte) : State :=
  let pos := 24 + ag
  let a := n.ag ag
  let num := n.passedAt pos 0
  let k := n.firedAt pos 0
  let v := n.versionAt g num
  let x := (n.inv num).bind (fun i => i.xopOf k)
  let va := agAddress e a
  let write := entryOp e == 0x21
  let fmt := entryMod e % 2
  let oper := ((x.map (fun r => (s.taskOf r.agent).oper)).getD 0)
  let vas := agPlaces va
  let secs := distinctWords (vas.map sectorVa)
  let o := agOwner core churn ag n x
  if !aligned va 4 then s.agFault core churn ag n x va write 4
  else
    match s.xlateEngine { oper := oper, core := core, ctx := n.ctx, boarded := 0 } secs (if write then .write else .read) with
    | .error (.fail ((w, _) :: _)) => s.agFault core churn ag n x va write (if w.1 = causeXLATE then 1 else 2)
    | .error _ => s
    | .ok xs =>
      let ps := placesIn (secs.zip xs) vas
      let targets := (xs.map (·.2)).eraseDups
      if xs.any (fun p => (s.cutDie core p).isSome) || (s.accesses.any (fun b => b.of o && b.op.isWrite
          && b.op.keys.any (fun k => (ps.map (·.1.key)).contains k))) then s
      else match s.forceXop x (ps.map (·.1.key)) with
      | none => s
      | some s1 =>
        if !write && !s1.allFetched o ps then s1.askFor o ps
        else if ps.any (s1.enginePoison o) then (s1.dropFetched o).agFault core churn ag n x va write 3
        else if write then
          if targets.any (fun t => !s1.windowRoom core t) then s1
          else
            let data := ps.zip (copies16.flatMap (fun c => toBytes 4 (agWords n g pos num fmt c).1.toNat))
            let s2 := targets.foldl (fun t q =>
              t.engineStore o q ((data.filter (fun d => d.1.2 == q)).map (fun d => (d.1.1, d.2)))) s1
            let (s3, n1) := s2.agFlags (n.agMove g pos v none) num k (fun c => (agWords n g pos num fmt c).2)
            s3.moveNet core churn (n1.setAg ag (a.next e))
        else
          let bytes := ps.map (s1.engineByte o s1.mem.readByte)
          let word (c : Nat) : Lane := BitVec.ofNat 32 (ofBytes ((bytes.drop (4 * c)).take 4))
          let (s3, n1) := (s1.dropFetched o).agFlags (n.agMove g pos v (some (fun c => tokenOf fmt (word c)))) num k
            (fun c => tokenFlags fmt (word c))
          s3.moveNet core churn (n1.setAg ag (a.next e))

/-- AG_STEP: an address generator makes its next step in all lane copies at once: an access, a zero or a discard after its
counts or behind a fault, a discard before a marker, or the passing of a marker (R290, R292, R294). -/
def execAgStep (core churn ag : Nat) (s : State) : Result :=
  .next (match (s.churn core churn).net with
    | none => s
    | some n =>
      match s.image core n.ctx n.slot with
      | none => s
      | some g =>
        let pos := 24 + ag
        let a := n.ag ag
        let e := entryAt (g.planeFor (n.versionAt g (n.passedAt pos 0))) pos
        if ag ≥ 2 ∨ churn ≥ 4 ∨ entryOp e = 0 ∨ a.stopped.isSome then s
        else match copies16.findSome? (fun c => ((g.into pos).find? (n.stale c)).map (fun x => (c, x))) with
          | some (c, x) => s.moveNet core churn (n.dropStale c x)
          | none =>
            if copies16.all (fun c => (g.into pos).all (n.ready c) && n.roomOut g c pos) then
              if a.over e || a.abandoned then
                let out := if entryOp e = 0x20 then some (fun (_ : Nat) => ((0 : Lane), (0 : Lane))) else none
                (s.moveNet core churn (n.agMove g pos (n.versionAt g (n.passedAt pos 0)) out)).setMism core n
              else s.agAccess core churn ag n g e
            else if copies16.all (fun c => n.canPass g c pos) then
              s.moveNet core churn ((copies16.foldl (fun m c => m.pass g c pos) n).setAg ag AgState.reset)
            else match copies16.findSome? (fun c =>
                if copies16.any (fun b => (g.into pos).any (fun x => n.markHead x.2 b)) then
                  ((g.into pos).find? (fun x => n.tokenHead x.2 c)).map (fun x => (c, x))
                else none) with
              | some (c, x) => (s.moveNet core churn (n.pop c x.2)).setMism core n
              | none => s)

/-! ## Quiescence and parking (R289, R304) -/

/-- An `xop` of the churn has not completed: it waits for tokens, or those that have come have not been written (R298). -/
def Net.unfinished (n : Net) : Bool := n.invs.any (fun i => i.xops.any (fun x => !x.done))

/-- A churn is quiescent (R304). An `xop` that has not completed counts among its tokens. Log entry 84 (DEDUCED, unsafe). -/
def Churn.quiescent (c : Churn) : Bool :=
  decide (2 ≤ c.rounds ∧ c.returns = 0) && (c.net.all (fun n => n.tokens == 0 && !n.unfinished))

/-- A churn that may take another slot's route plane: quiescent, and no wave's stream is open on it (R288, R289, R307). -/
def Churn.free (c : Churn) : Bool := c.quiescent && c.net.all (fun n => n.openInv.isNone)

/-- The lowest free churn of a core. -/
def State.freeChurn (s : State) (core : Nat) : Option Nat := (List.range 4).find? (fun i => (s.churn core i).free)

/-- A parked invocation loaded back into a churn (R289). -/
def State.unpark (s : State) (core i : Nat) (n : Net) : State :=
  let r := s.churnRow core
  (s.setChurnRow core { r with parked := r.parked.filter (fun m => m != n) }).setChurn core i
    { net := some n, returns := 0, rounds := 0, lastXop := s.cycle }

/-- QUIESCENCE_ROUND: the detector samples the three counters of a churn, and signals of freed slots have arrived by the next
round; a parked invocation whose marker has been injected is loaded back into a churn found free (R289, R304).
Log entry 84 (DEDUCED, unsafe). -/
def execQuiescenceRound (core churn : Nat) (s : State) : Result :=
  let c := s.churn core churn
  let empty := c.net.all (fun n => n.tokens == 0 && !n.unfinished) && c.returns == 0 && s.replyCount core churn == 0
  let s1 := if churn < 4 then
      s.setChurn core churn { c with returns := 0, rounds := if empty then min 2 (c.rounds + 1) else 0 }
    else s
  .next (if churn < 4 ∧ (s1.churn core churn).free = true then
      match (s1.churnRow core).parked.find? (fun n => n.openInv.isNone) with
      | some n => s1.unpark core churn n
      | none => s1
    else s1)

/-! ## The save area of a context (R408, R419) -/

/-- The slots of a context. -/
def State.ctxSeats (s : State) (ctx : Nat) : Tab Seat :=
  s.seats.filter (fun x => (getAt Operator.reset s.operators (x.1 / 256)).ctx == ctx)

/-- The cores on which a context has a slot. -/
def State.ctxCores (s : State) (ctx : Nat) : List Nat := distinct ((s.ctxSeats ctx).map (fun x => x.1 % 256))

/-- Where the part of a core begins in the save area of a context: 64 KiB for the context, and 2.25 MiB for each core (R408).
Log entry 25 (DESIGN CHOICE, unsafe). -/
def State.savePart (s : State) (ctx core : Nat) : Nat :=
  (s.ctxOf ctx).saveBase.toNat + 65536 + 2359296 * ((s.ctxCores ctx).filter (fun c => decide (c < core))).length

/-- What of the part of a core does not hold scratchpad lines, by sectors: its last 256 KiB. Log entry 25 (DESIGN CHOICE, unsafe). -/
def State.saveRest (s : State) (ctx core : Nat) : List Nat :=
  (List.range 2048).map (fun j => s.savePart ctx core + 2097152 + 128 * j)

/-- Where a sector of the save area lies, or what stops its being written: a fault, or a host page that is asked for or has been
refused (R388, R408). -/
def State.savePlace (s : State) (ctx va : Nat) : Except HubStop (Place × Target) :=
  match s.hubXlate ctx (BitVec.ofNat 64 va) .write with
  | .error e => .error (.fault e.1 e.2 va)
  | .ok x => match s.pageStop (.save ctx) x with
    | some e => .error e
    | none => .ok x

/-- What the writing of some sectors of the save area waits for: a host page, or the replay of the record of one that the host has
refused (R388, R417). -/
def State.saveStop (s : State) (ctx : Nat) (vas : List Nat) : Option HubStop :=
  vas.findSome? (fun va => match s.savePlace ctx va with
    | .error (.fault ..) => none
    | .error e => some e
    | .ok _ => none)

/-- Sectors of the save area written with what the device keeps in them, which is its own (R408); one whose address leads nowhere is
left out. Log entry 25 (DESIGN CHOICE, unsafe). -/
def State.saveFree (s : State) (ctx : Nat) (vas : List Nat) : State :=
  vas.foldl (fun t va => match t.savePlace ctx va with
    | .ok x => t.engineStore ((AskOwner.save ctx).owner ctx) x.2 ((placesFrom x.1 128).map (fun q => (q, Config.savedByte s.fresh q.key)))
    | .error _ => t) s.takeFresh

/-- The churn whose open invocation has been idle longest, and for 1,024 cycles (R289). -/
def State.idlest (s : State) (core : Nat) : Option Nat :=
  (List.range 4).foldl (fun b i =>
    let c := s.churn core i
    if (c.net.bind Net.openInv).isSome ∧ c.lastXop + 1024 ≤ s.cycle then
      match b with
      | none => some i
      | some j => if c.lastXop < (s.churn core j).lastXop then some i else some j
    else b) none

/-- STREAM_PARK: an idle stream invocation is parked while an `xop` of the core has waited 1,024 cycles for a churn
and no reply to its address generators is outstanding: its state goes to the save area of its context (R289), for a host page of
which the device asks first (R388). -/
def execStreamPark (core churn : Nat) (s : State) : Result :=
  let starved := s.frags.any (fun x => (fragIdOf x.1).core == core && (match x.2.churnWait with
    | some c => decide (c + 1024 ≤ s.cycle)
    | none => false))
  .next (if starved ∧ s.idlest core = some churn ∧ s.replyCount core churn = 0 then
      match (s.churn core churn).net with
      | some n =>
        match s.saveStop n.ctx (s.saveRest n.ctx core) with
        | some e => s.askHub (.save n.ctx) n.ctx 2 e
        | none =>
          let s1 := s.saveFree n.ctx (s.saveRest n.ctx core)
          let r := s1.churnRow core
          (s1.setChurnRow core { r with parked := r.parked ++ [n] }).setChurn core churn Churn.reset
      | none => s
    else s)

/-! ## Markers (R287) -/

/-- Sources that inject into links. -/
def ChurnImage.sources (g : ChurnImage) : List Nat := [32, 33, 34, 35].filter (fun p => !(g.outOf p).isEmpty)

/-- Items added to what the sources hold. -/
def Net.inject (n : Net) (g : ChurnImage) (f : Nat → Nat → List LinkItem) : Net :=
  g.sources.foldl (fun m ep => copies16.foldl (fun k c =>
    { k with pend := putAt k.pend ((ep - 32) * 16 + c) (k.pendAt ep c ++ f ep c) }) m) n

/-- A marker injected into the open invocation. -/
def Net.mark (n : Net) (g : ChurnImage) : Net :=
  match n.openInv with
  | none => n
  | some i => (n.setInv { i with marked := true }).inject g (fun _ _ => [.marker i.ov])

/-- Flags of firings beyond the beats of an invocation that has ended go to its last `xop` (R282). -/
def State.endFlags (s : State) (n : Net) : State :=
  match n.openInv with
  | none => s
  | some i =>
    match i.xops.getLast? with
    | none => s
    | some x =>
      if x.done then
        i.flags.foldl (fun t e => if e.1 / 16 ≥ 2 * i.xops.length ∧ x.guarded.contains (16 + e.1 % 16) then t.xopFlags x e.2
          else t) s
      else s

/-- Markers injected into the open invocations of a core, parked ones too, that satisfy a test. -/
def State.markStreams (s : State) (core : Nat) (p : Net → Bool) : State :=
  let markOne (s : State) (n : Net) : Net :=
    match s.image core n.ctx n.slot with
    | some g => if p n then n.mark g else n
    | none => n
  let all := ((List.range 4).filterMap (fun i => (s.churn core i).net)) ++ (s.churnRow core).parked
  let s1 := (all.filter p).foldl (fun t n => t.endFlags n) s
  let s2 := (List.range 4).foldl (fun t i =>
    match (t.churn core i).net with
    | some n => if p n && n.openInv.isSome then t.setChurn core i { t.churn core i with net := some (markOne t n), rounds := 0 } else t
    | none => t) s1
  let r := s2.churnRow core
  if r.parked.isEmpty then s2 else s2.setChurnRow core { r with parked := r.parked.map (markOne s2) }

/-- The wave owns the open invocation. -/
def Net.ownedBy (n : Net) (waveRow task : Nat) : Bool :=
  match n.openInv with
  | some i => i.owner == waveRow && i.task == task
  | none => false

/-- The open invocations of a wave ended: as its task ends, or as it is saved (R287). -/
def State.endStreams (s : State) (f : FragId) : State := s.markStreams f.core (fun n => n.ownedBy f.waveKey (s.wvOf f).task)

/-! ## Nets of a slot -/

/-- The churn holds a slot. -/
def Churn.has (c : Churn) (ctx slot : Nat) : Bool :=
  match c.net with
  | some n => n.ctx == ctx && n.slot == slot
  | none => false

/-- The nets of a slot on a core, parked ones too. -/
def State.netsOf (s : State) (core ctx slot : Nat) : List Net :=
  (((List.range 4).filterMap (fun i => (s.churn core i).net)) ++ (s.churnRow core).parked).filter
    (fun n => n.ctx == ctx && n.slot == slot)

/-- Every churn that holds tokens of a slot is quiescent (R299, R301, R302, R304). -/
def State.slotQuiet (s : State) (core ctx slot : Nat) : Bool :=
  (List.range 4).all (fun i => !(s.churn core i).has ctx slot || (s.churn core i).quiescent)

/-- The parked invocations of a slot (R289). -/
def State.parkedOf (s : State) (core ctx slot : Nat) : List Net :=
  (s.churnRow core).parked.filter (fun n => n.ctx == ctx && n.slot == slot)

/-- The churns that hold a slot give up its route plane, and what is parked of it is gone. -/
def State.clearSlot (s : State) (core ctx slot : Nat) : State :=
  let s1 := (List.range 4).foldl (fun t i => if (t.churn core i).has ctx slot then t.setChurn core i Churn.reset else t) s
  if (s1.parkedOf core ctx slot).isEmpty then s1
  else
    let r := s1.churnRow core
    s1.setChurnRow core { r with parked := r.parked.filter (fun n => !(n.ctx == ctx && n.slot == slot)) }

/-- OLD: tokens of the previous opcode plane remain (R302). -/
def State.oldTokens (s : State) (core ctx slot : Nat) (g : ChurnImage) : Bool :=
  g.ovp != 0 && (s.netsOf core ctx slot).any (fun n => n.holdsVersion g.ovp)

/-! ## xload and xswap (R299, R300) -/

/-- The places of the sectors that an image of `size` bytes covers. -/
def imageSectors (va : Word) (size : Nat) : List Word :=
  (List.range (max 1 ((size + 127) / 128))).map (fun i => va + BitVec.ofNat 64 (128 * i))

/-- The image that an `xload` or `xswap` reads: its header first, to find its size (R299). -/
def State.readImage (s : State) (va : Word) : Except State (State × List Byte) :=
  if !aligned va 128 then .error (s.trapMisaligned va 0)
  else match s.waveRead va with
    | .error t => .error t
    | .ok (s1, head) =>
      match s1.xlateAll (imageSectors va (headSize (ofBytes (head.take 64)))) .read with
      | .error t => .error t
      | .ok xs =>
        match s1.waveBytes xs with
        | .error t => .error t
        | .ok (s2, bytes) => .ok (s2, bytes.take (max 64 (headSize (ofBytes (bytes.take 64)))))

/-- Custom slots that a context has loaded on a core. -/
def State.loadedSlots (s : State) (core ctx : Nat) : Nat :=
  s.images.countP (fun x => decide ((ctx * 256 + core) * 16 ≤ x.1 ∧ x.1 < (ctx * 256 + core) * 16 + 16))

/-- Table-store entries reserved for a context on a core (R295). -/
def State.storeEntries (s : State) (core ctx : Nat) : Nat := getAt 0 s.churnRes (ctx * 256 + core)

/-- GRAPH_INVALID with a detail (R285). -/
def State.trapGraph (s : State) (va : Word) (detail : Nat) : State := s.trap causeGRAPH va 0 detail

/-- `xload` (R299). A parked invocation of the slot that still has tokens is loaded back first, where a churn is free, so that they
finish under the old image; one that has none ends with it, as an open one in a churn does. Log entry 88 (DEDUCED, unsafe). -/
def execXload (x : BitVec 4) (a : BitVec 6) (s : State) : Result :=
  let va := s.getS a
  let core := s.cur.core
  let ctx := s.ctxId
  let slot := x.toNat
  .next (if s.inTx then s.abandonHere 6 0 0
    else match s.readImage va with
      | .error s' => s'
      | .ok (s1, data) =>
        let old := s1.image core ctx slot
        let d := imageDetail data slot false none
        if d ≠ 0 then s1.trapGraph va d
        else if s1.loadedSlots core ctx - (if old.isSome then 1 else 0) ≥ s1.storeEntries core ctx then s1.trapGraph va 9
        else match (s1.parkedOf core ctx slot).find? (fun n => n.tokens != 0 || n.unfinished), s1.freeChurn core with
        | some n, some i => (s.unpark core i n).stall
        | some _, none => s.stall
        | none, _ =>
        if old.isSome && !s1.slotQuiet core ctx slot then s.stall
        else ((s1.clearSlot core ctx slot).setImage core ctx slot (loadedImage data)).advance)

/-- `xswap` (R300). -/
def execXswap (x : BitVec 4) (a : BitVec 6) (s : State) : Result :=
  let va := s.getS a
  let core := s.cur.core
  let ctx := s.ctxId
  let slot := x.toNat
  .next (if s.inTx then s.abandonHere 6 0 0
    else match s.readImage va with
      | .error s' => s'
      | .ok (s1, data) =>
        let d := imageDetail data slot true (s1.image core ctx slot)
        if d ≠ 0 then s1.trapGraph va d
        else match s1.image core ctx slot with
          | none => s1.trap causeVERSION 0 0 3
          | some g =>
            let new := loadedImage data
            if new.rv ≠ g.rv then s1.trap causeVERSION 0 0 1
            else if s1.oldTokens core ctx slot g then s1.trap causeVERSION 0 0 2
            else if new.ov = g.ov then s1.trap causeVERSION 0 0 4
            else
              let s2 := if g.strm then s1.markStreams core (fun n => n.ctx == ctx && n.slot == slot) else s1
              let g2 := (s2.image core ctx slot).getD g
              (s2.setImage core ctx slot { g2 with
                ov := new.ov, ovp := g.ov, plane := new.plane, prev := g.plane }).advance)

/-! ## xdrop, xmark, xqry (R301, R302) -/

/-- `xdrop`: every open invocation of the slot gets its marker, and the slot empties once its churns are quiescent; a parked
invocation is loaded back where a churn is free (R289, R301). -/
def execXdrop (x : BitVec 4) (s : State) : Result :=
  let core := s.cur.core
  let ctx := s.ctxId
  let slot := x.toNat
  .next (if s.inTx then s.abandonHere 6 0 0
    else match s.image core ctx slot with
      | none => s.advance
      | some _ =>
        let s1 := s.markStreams core (fun n => n.ctx == ctx && n.slot == slot)
        let s2 := match (s1.parkedOf core ctx slot).head?, s1.freeChurn core with
          | some n, some i => s1.unpark core i n
          | _, _ => s1
        if s2.slotQuiet core ctx slot && (s2.parkedOf core ctx slot).isEmpty then
          let s3 := s2.clearSlot core ctx slot
          ({ s3 with images := dropAt s3.images (imageKey core ctx slot) } : State).advance
        else s2.stall)

/-- The parked invocation that the executing wave owns in a slot. -/
def State.ownParked (s : State) (slot : Nat) : Option Net :=
  (s.churnRow s.cur.core).parked.find? (fun n => n.ctx == s.ctxId && n.slot == slot && n.ownedBy s.cur.waveKey s.wv.task)

/-- `xmark` (R301): a parked invocation of the wave is loaded back first (R289). -/
def execXmark (x : BitVec 4) (s : State) : Result :=
  let core := s.cur.core
  let own (n : Net) : Bool := n.ctx == s.ctxId && n.slot == x.toNat && n.ownedBy s.cur.waveKey s.wv.task
  .next (if s.inTx then s.abandonHere 6 0 0
    else match s.ownParked x.toNat, s.freeChurn core with
      | none, _ => (s.markStreams core own).advance
      | some n, some i => ((s.unpark core i n).markStreams core own).advance
      | some _, none => s.stall)

/-- The state word of a slot (R302). -/
def State.slotWord (s : State) (core ctx slot : Nat) (g : ChurnImage) : Word :=
  let old := s.oldTokens core ctx slot g
  let quiet := s.slotQuiet core ctx slot
  let agf := (s.netsOf core ctx slot).any (fun n => n.ags.any (fun a => a.abandoned || a.stopped.isSome))
  BitVec.ofNat 64 (g.rv * 2 ^ 48 + g.ov * 2 ^ 32 + (if old then g.ovp * 2 ^ 16 + 2 ^ 13 else 0) + 2 ^ 15
    + (if g.strm then 2 ^ 14 else 0) + (if quiet then 2 ^ 12 else 0) + (if agf then 2 ^ 11 else 0)
    + (if g.mism then 2 ^ 10 else 0) + (if g.dst2 then 2 ^ 9 else 0) + g.srcs * 2 ^ 7 + g.lat)

/-- `xqry` (R302). -/
def execXqry (d : BitVec 6) (x : BitVec 4) (s : State) : Result :=
  .next (s.setS d (match s.image s.cur.core s.ctxId x.toNat with
    | some g => s.slotWord s.cur.core s.ctxId x.toNat g
    | none => 0)).advance

/-! ## xop (R298, R307) -/

/-- The `xop`s of a core that have not completed. -/
def State.pendingXops (s : State) (core : Nat) : List XopRec :=
  (((List.range 4).filterMap (fun i => (s.churn core i).net)) ++ (s.churnRow core).parked).flatMap
    (fun n => n.invs.flatMap (fun i => i.xops.filter (fun x => !x.done)))

/-- The `xop`s of a wave that have not completed. -/
def State.waveXops (s : State) (f : FragId) : List XopRec :=
  (s.pendingXops f.core).filter (fun x => x.agent.waveKey == f.waveKey && x.task == (s.wvOf f).task)

/-- The executing wave has an `xop` whose destination is among some registers (R298). -/
def State.xopBusy (s : State) (regs : List Nat) : Bool :=
  (s.waveXops s.cur).any (fun x => x.regs.any (fun r => regs.contains r))

/-- Where an `xop` of the executing wave goes (R288, R289, R307): a churn, and whether it takes the route plane there, or
what is parked. -/
def State.chooseChurn (s : State) (slot : Nat) (g : ChurnImage) : Option (Nat × Option (Option Net)) :=
  let core := s.cur.core
  let holds (i : Nat) : Bool := (s.churn core i).has s.ctxId slot
  let free := s.freeChurn core
  let own := (List.range 4).find? (fun i => holds i && ((s.churn core i).net.any (fun n => n.ownedBy s.cur.waveKey s.wv.task)))
  match g.strm, own, s.ownParked slot with
  | true, some i, _ => some (i, none)
  | true, none, some n => free.map (fun i => (i, some (some n)))
  | _, _, _ =>
    match (List.range 4).find? (fun i => holds i && (s.churn core i).net.all (fun n => n.openInv.isNone)) with
    | some i => some (i, none)
    | none => free.map (fun i => (i, some none))

/-- The record of the `xop` that the executing fragment issues. -/
def State.newXop (s : State) (d : Nat) (dst2 : Bool) : XopRec :=
  let past := s.pastAccesses
  { id := (s.churnRow s.cur.core).nextXop, agent := s.cur, task := s.wv.task, pc := s.fr.pc,
    regs := if dst2 then [d, d + 1] else [d], guarded := s.guarded, round := (s.fr.mr.extractLsb' 8 2).toNat,
    past := past.map (·.id),
    holds := if s.order ≥ 2 then s.releaseHolds s.scope else [], done := false }

/-- The `xop` entered in its invocation: the open one of a stream, else a new one. -/
def Net.addXop (n : Net) (g : ChurnImage) (x : XopRec) (owner task : Nat) : Net :=
  match n.openInv with
  | some i => n.setInv { i with xops := i.xops ++ [x] }
  | none =>
    { n with
      invs := n.invs ++ [{
        num := n.nextInv, owner := owner, task := task, ov := g.ov, marked := !g.strm, xops := [x], flags := [] }]
      nextInv := n.nextInv + 1 }

/-- The tokens of the two beats of an `xop` at a source in a lane copy (R274, R298). -/
def State.beatTokens (s : State) (g : ChurnImage) (d a b : BitVec 7) (imm : BitVec 4) (ep c : Nat) : List LinkItem :=
  let lane (l : Nat) : Lane × Lane :=
    match ep with
    | 32 => tokenOf g.fa (laneOf (s.getV a) l)
    | 33 => tokenOf g.fb (laneOf (s.getV b) l)
    | 34 => tokenOf g.fd (laneOf (s.getV d) l)
    | _ => (imm.setWidth 32, imm.setWidth 32)
  let item (l : Nat) : LinkItem := .token (lane l).1 (lane l).2 g.ov false
  [item c, item (16 + c)] ++ (if g.strm then [] else [.marker g.ov])

/-- The flags that forming the tokens of a lane raises (R59, R274). -/
def State.beatFlags (s : State) (g : ChurnImage) (d a b : BitVec 7) (l : Nat) : Flags :=
  let f (ep fmt : Nat) (r : BitVec 7) : Flags := if g.sources.contains ep then tokenFlags fmt (laneOf (s.getV r) l) else 0
  f 32 g.fa a ||| f 33 g.fb b ||| f 34 g.fd d

/-- The flags of the tokens of the latest `xop` of an invocation kept with it. -/
def State.noteBeats (s : State) (g : ChurnImage) (d a b : BitVec 7) (n : Net) : Net :=
  match n.invs.find? (fun i => i.xops.any (fun x => x.id == (s.churnRow s.cur.core).nextXop)) with
  | none => n
  | some i => (List.range 32).foldl (fun m l =>
      m.keepFlags i.num (2 * (i.xops.length - 1) + l / 16) (l % 16) (s.beatFlags g d a b l)) n

/-- `xopN` (R298, R303). -/
def execXop (n : BitVec 4) (d a b : BitVec 7) (imm : BitVec 4) (s : State) : Result :=
  let core := s.cur.core
  let slot := n.toNat
  .next (s.withRegs [a, b, d] (
    match s.image core s.ctxId slot with
    | none => s.trapEntry s.cur causeUNLOADED 1 s.fr.pc 0 (s.tinfoWord 0) 0
    | some g =>
      if g.dst2 ∧ d.toNat + 1 ≥ 8 * s.wv.rblk then s.trap causeREGRANGE 0 0 0
      else if s.inTx && (entryOp (entryAt g.plane 24) != 0 || entryOp (entryAt g.plane 25) != 0) then s.abandonHere 6 0 0
      else match s.chooseChurn slot g with
        | none =>
          (s.setFr { s.fr with churnWait := some (s.fr.churnWait.getD s.cycle) }).stall
        | some (i, load) =>
          let s1 := s.setFr { s.fr with churnWait := none }
          let s2 := match load with
            | none => s1
            | some none => s1.setChurn core i { Churn.reset with net := some (g.freshNet s.ctxId slot) }
            | some (some p) => s1.unpark core i p
          let net := ((s2.churn core i).net).getD (g.freshNet s.ctxId slot)
          let x := s.newXop d.toNat g.dst2
          let net1 := (s.noteBeats g d a b (net.addXop g x s.cur.waveKey s.wv.task)).inject g (s.beatTokens g d a b imm)
          let s3 := s2.setChurn core i { s2.churn core i with net := some net1, rounds := 0, lastXop := s.cycle }
          let r := s3.churnRow core
          (s3.setChurnRow core { r with nextXop := r.nextXop + 1 }).advance))

/-! ## Completion (R282, R291, R293) -/

/-- The ports that a graph declares. -/
def ChurnImage.ports (g : ChurnImage) : List Nat := if g.dst2 then [0, 1] else [0]

/-- The destination tokens of an `xop`, the `j`-th of its invocation, have arrived, or the marker has. -/
def Net.arrived (n : Net) (g : ChurnImage) (num j : Nat) : Bool :=
  g.ports.all (fun p => copies16.all (fun c => decide (2 * j + 2 ≤ (n.outsAt num p c).length ∨ num < n.marksAt p c)))

/-- The address generators have made the steps of an `xop`'s beats. -/
def Net.agsDone (n : Net) (g : ChurnImage) (num j : Nat) : Bool :=
  [24, 25].all (fun p => entryOp (entryAt (g.planeFor (n.versionAt g num)) p) == 0
    || decide (num < n.passedAt p 0) || (n.passedAt p 0 == num && decide (2 * j + 2 ≤ n.firedAt p 0)))

/-- No element can still make a step that belongs to an `xop`'s beats or to what came before. -/
def Net.settled (n : Net) (g : ChurnImage) (num j : Nat) : Bool :=
  copies16.all (fun c =>
    (List.range 24).all (fun p =>
      decide (num < n.passedAt p c) || (n.passedAt p c == num && decide (2 * j + 2 ≤ n.firedAt p c))
        || (n.elementStep g c p).isNone)
    && g.sources.all (fun p => (n.sourceStep g c p).isNone))

/-- The flags of an `xop`'s beats in guarded lanes (R282). -/
def Invocation.flagsOf (i : Invocation) (x : XopRec) (j : Nat) : Flags :=
  let last := i.marked && j + 1 == i.xops.length
  i.flags.foldl (fun f e =>
    let k := e.1 / 16
    if (k / 2 = j ∨ (last = true ∧ 2 * j + 2 ≤ k)) ∧ x.guarded.contains (i.laneAt k (e.1 % 16)) then f ||| e.2 else f) 0

/-- What an `xop` writes to a lane of a port; none where the marker came first. -/
def Net.laneOut (n : Net) (g : ChurnImage) (num j port : Nat) (mode : Rounding) (l : Nat) : Option (Lane × Flags) :=
  ((n.outsAt num port (l % 16))[2 * j + l / 16]?).map (laneFrom (if port = 0 then g.f0 else g.f1) mode)

/-- A port's register written in the guarded lanes of an `xop` (R298). -/
def State.writePort (s : State) (n : Net) (g : ChurnImage) (num j : Nat) (x : XopRec) (port : Nat) : State :=
  let mode := roundingOf x.round
  let w := s.wvOf x.agent
  let d := x.regs.getD port 0
  let v := withLanes (w.v.toList.getD d zeroReg) x.guarded (fun l => ((n.laneOut g num j port mode l).map (·.1)).getD 0)
  let f := x.guarded.foldl (fun f l => f ||| ((n.laneOut g num j port mode l).map (·.2)).getD 0) (0 : Flags)
  s.setWvOf x.agent { w with
    v := w.v.setIfInBounds d v, tx := w.noteV x.agent.frag d v, fstat := w.fstat ||| f }

/-- An `xop` of a churn completes. -/
def State.finishXop (s : State) (core i : Nat) (n : Net) (g : ChurnImage) (v : Invocation) (j : Nat) (x : XopRec) : State :=
  let s1 := if s.xopWave x then
      (g.ports.foldl (fun t p => t.writePort n g v.num j x p) s).xopFlags x (v.flagsOf x j)
    else s
  let n1 := n.setInv { v with xops := v.xops.set j { x with done := true } }
  let s2 := s1.setNet core i (if n1.tokens = 0 ∧ n1.openInv.isNone ∧ n1.invs.all (fun u => u.xops.all (·.done)) ∧
      n1.ags.all (fun a => a == AgState.reset) then g.freshNet n.ctx n.slot else n1)
  if x.guarded.any (fun l => g.ports.any (fun p => (n.laneOut g v.num j p .rne l).isNone)) then s2.setMism core n else s2

/-- An `xop` of a churn by its number: its invocation and its place there. -/
def Net.findXop (n : Net) (id : Nat) : Option (Invocation × Nat × XopRec) :=
  n.invs.findSome? (fun v => (v.xops.zipIdx.find? (fun x => x.1.id == id && !x.1.done)).map (fun x => (v, x.2, x.1)))

/-- XOP_COMPLETE: an `xop` whose destination tokens have arrived, and whose accesses have been performed, writes its
registers and reports its flags (R282, R291, R293, R298). -/
def execXopComplete (core n : Nat) (s : State) : Result :=
  .next ((List.range 4).foldl (fun t i =>
    match (t.churn core i).net with
    | none => t
    | some net =>
      match t.image core net.ctx net.slot, net.findXop n with
      | some g, some (v, j, x) =>
        if net.arrived g v.num j && net.agsDone g v.num j && net.settled g v.num j && t.replyCount core i == 0 then t.finishXop core i net g v j x else t
      | _, _ => t) s)

end Sys2Proof.Machine
end

