-- ==== Sys2Proof/Machine/Special.lean ====
section
/-! DEFINITION. The special registers and their reading and writing with `srd` and `swr` (R15, R77 to R82, R133, R137,
R146, R228). -/

namespace Sys2Proof.Machine

/-- FRAG: the live fragments, the stack entries of the executing one, their number and its id (R133). -/
def State.fragWord (s : State) : Word :=
  let live := s.fragsOf s.cur.core s.cur.wave
  BitVec.ofNat 64 (live.foldl (fun m k => m + 2 ^ k) 0 * 2 ^ 16 + (s.wv.entriesOf s.cur.frag).length * 2 ^ 8
    + live.length * 2 ^ 4 + s.cur.frag)

/-- DBG (R146). -/
def Wave.dbgWord (w : Wave) : Word :=
  BitVec.ofNat 64 (flagBit (!w.holds.isEmpty) 2 + flagBit w.dbgHold 1 + flagBit w.dbgSS 0)

/-- Special register `idx`; none for the indexes that name no register (R80). -/
def State.special (s : State) (idx : Nat) : Option Word :=
  match idx with
  | 0 => some (BitVec.ofNat 64 s.cur.wave)
  | 1 => some (BitVec.ofNat 64 (s.tk.number % 65536))
  | 2 => some (BitVec.ofNat 64 s.cur.core)
  | 3 => some (BitVec.ofNat 64 (s.cur.core / 32))
  | 4 => some (BitVec.ofNat 64 s.chip)
  | 5 => some (BitVec.ofNat 64 s.seat.slot)
  | 6 => some (BitVec.ofNat 64 s.wv.roleClass)
  | 7 => some (s.fr.lmask.setWidth 64)
  | 8 => some (s.fr.mr.setWidth 64)
  | 9 => some (s.wv.fstat.setWidth 64)
  | 10 => some s.wv.tcause
  | 11 => some s.wv.tpc
  | 12 => some s.wv.taddr
  | 13 => some s.wv.tinfo
  | 14 => some s.wv.tvec
  | 15 => some s.wv.dbgWord
  | 16 => some (BitVec.ofNat 64 s.wv.rblk)
  | 17 => some (BitVec.ofNat 64 s.tk.age)
  | 18 => some (s.fr.depth.setWidth 64)
  | 19 => some s.fragWord
  | 20 => some s.txstat
  | _ => none

/-- An access of FSTAT waits for the wave's pending `xop`s, and finds its pending matrix instructions completed (R53,
R298). -/
def State.flagsReady (s : State) : Bool := (s.waveXops s.cur).isEmpty

/-- `srd` (R137). -/
def execSrd (d idx : BitVec 6) (s : State) : Result :=
  .next (
    if idx.toNat = 9 ∧ !s.flagsReady then s.stall
    else
      let s1 := if idx.toNat = 9 then s.settleFlags else s
      match s1.special idx.toNat with
      | some x => (s1.setS d x).advance
      | none => s.trap causeILL 0 0 0)

/-- The value of MR that `swr` may write: no reserved bit set, a scope below 6 (R78). -/
def mrWritable (x : Word) : Bool := decide (fieldOf x 63 16 = 0 ∧ fieldOf x 13 11 < 6)

/-- The value of TCAUSE that `swr` may write: its reserved bits 0 (R81, R137). -/
def tcauseWritable (x : Word) : Bool := decide (fieldOf x 63 57 = 0 ∧ fieldOf x 31 24 = 0 ∧ fieldOf x 14 10 = 0)

/-- TCAUSE after a `swr`: ACTIVE is kept (R137). -/
def tcauseAfter (old x : Word) : Word :=
  (x &&& ~~~(BitVec.ofNat 64 (2 ^ 15))) ||| (old &&& BitVec.ofNat 64 (2 ^ 15))

/-- A value of TVEC with a bit set outside [48:8] (R82). Log entry 51 (DEDUCED, unsafe). -/
def badTvec (x : Word) : Bool := decide (fieldOf x 63 49 ≠ 0 ∨ fieldOf x 7 0 ≠ 0)

/-- `swr` of a register that may be written; none where it raises ILL. Log entry 51 (DEDUCED, unsafe). -/
def State.writeSpecial (s : State) (idx : Nat) (x : Word) : Option State :=
  match idx with
  | 8 => if mrWritable x then some (s.setFr { s.fr with mr := x.setWidth 25 }) else none
  | 9 => some (s.settleFlags.setWv { s.settleFlags.wv with fstat := x.setWidth 5 })
  | 10 => if tcauseWritable x then some (s.setWv { s.wv with tcause := tcauseAfter s.wv.tcause x }) else none
  | 11 => some (s.setWv { s.wv with tpc := x })
  | 12 => some (s.setWv { s.wv with taddr := x })
  | 13 => some (s.setWv { s.wv with tinfo := x })
  | 14 => if badTvec x then none else some (s.setWv { s.wv with tvec := x })
  | 15 => if fieldOf x 63 3 = 0 then some (s.setWv { s.wv with dbgHold := x.getLsbD 1, dbgSS := x.getLsbD 0 }) else none
  | _ => none

/-- `swr`: an RO register raises ILL, TVEC in an ordinary context PRIV, which comes after ILL (R74, R80, R84, R137). -/
def execSwr (a idx : BitVec 6) (s : State) : Result :=
  let x := s.getS a
  .next (
    if idx.toNat = 14 ∧ s.ctxId ≠ 0 ∧ !badTvec x then s.trap causePRIV 0 0 0
    else if idx.toNat = 9 ∧ !s.flagsReady then s.stall
    else match s.writeSpecial idx.toNat x with
      | some t => t.advance
      | none => s.trap causeILL 0 0 0)

end Sys2Proof.Machine
end

