-- ==== Sys2Proof/Machine/Commit.lean ====
section
/-! DEFINITION. The commit of a transaction: what precedes it, the publication of its writes, its token operations, and the
issue of the engine commands it has buffered (R205, R210, R212, R218, R220, R361, R376). -/

namespace Sys2Proof.Machine

/-- One buffered command issued, or the state in which it waits: for room, a swap for the inactive set to be full, a push for what it
asks for (R220, R249, R254, R376, R388).
Log entry 46 (DEDUCED, unsafe). Log entry 52 (DEDUCED, safe). -/
def State.issueCmd (s : State) (c : Command) : Except State State :=
  match c.kind with
  | .copy fn => if s.copyRoom s.tk.oper s.cur.core then .ok (s.copyIssue fn c true 4) else .error s
  | .tlinc => .ok (s.tlincIssue c)
  | .tlincClear => .ok (s.tlincClearIssue c)
  | .tkfree => .ok (s.freeIssue c)
  | .tkroute => s.routeIssue c
  | .tkcancel => .ok (s.cancelIssue c)
  | .tkcnt => .ok (s.countIssue c)
  | .mrboard => .ok (s.boardIssue c)
  | .mrboardTask => .ok (s.boardIssue c)
  | .mrleave => .ok (s.boardIssue c)
  | .mrleaveTask => .ok (s.boardIssue c)
  | .pksend => match s.pksendReady c with
    | some t => .ok (t.pksendIssue c)
    | none => .error s
  | .mswap => if (s.bank s.cur.core).inactive.st = 2 ∧ !s.setsTaken s.matUser then .ok (s.swapBanks s.cur.core) else .error s

/-- Commands of a commit issued in program order, up to one that waits (R220, R254). Log entry 52 (DEDUCED, safe). -/
def State.issueDue (s : State) : Nat → State
  | 0 => s
  | n + 1 =>
    match s.fr.due with
    | [] => s
    | c :: rest =>
      match (s.setFr { s.fr with due := rest }).issueCmd c with
      | .ok t => t.issueDue n
      | .error t => t.setFr { t.fr with due := c :: rest }

/-- The bytes that an attempt wrote published at one instant (R212); those of scratchpad lines that have been released are
discarded and reported (R95, R190). -/
def State.publish (s : State) (a : Attempt) : State :=
  let data := a.writes.filterMap (fun w => w.byte.map (fun b => (w.place, b)))
  let s1 := s.storeBytes (some s.cur) (data.filter (fun d => s.linePinned d.1.key))
  if data.all (fun d => s.linePinned d.1.key) then s1
  else
    (onePerPage smallPage ((data.filter (fun d => !s.linePinned d.1.key)).map (fun d => ((causePROT, 7), d.1.va)))).foldl
      (fun t x => t.report { t.waveRecord t.cur causePROT 7 2 x.2 with reportOnly := true }) s1

/-- A fragment after the commit of its attempt with some buffered commands (R207, R212, R228).
Log entry 53 (DEDUCED, unsafe). -/
def Frag.committed (f : Frag) (due : List Command) : Frag :=
  { f with
    pc := f.pc + 4, due := due, ageValid := false, attempts := 0, txStatus := 0, txCode := 0, wake := 0, txAddr1 := 0,
    txAddr2 := 0 }

/-- The sectors that an attempt has written, each with its virtual address. -/
def Attempt.wroteSectors (a : Attempt) : List (Watch × Word) :=
  sectorsOf ((a.writes.filter (fun w => w.byte.isSome)).map (·.place))

/-- A commit (R212): every access before the attempt is performed first (R218). Its writes meet attempts that have read one of
their sectors since as any transactional write does (R216, R217). Log entry 53 (DEDUCED, unsafe). -/
def State.commit (s : State) : State :=
  let s0 := s.drain s.cur
  if s0.movedOn s then s0
  else
  let (s1, won) := match s0.attempt with
    | some a => s0.txConflict a.wroteSectors true
    | none => (s0, false)
  match if won then s1.attempt else none with
  | none => s1
  | some a =>
    let s2 := (s1.setWv { s1.wv with tx := none }).publish a
    let s3 := a.tokenOps.foldl State.applyTokenOp s2
    (s3.setFr (s3.fr.committed a.cmds)).issueDue (a.cmds.length + 1)

/-- The fragment holds divergence-stack entries pushed in the attempt (R212). -/
def State.pushedInTx (s : State) (a : Attempt) : Bool :=
  (s.wv.entriesOf s.cur.frag).any (fun e => decide (a.checkpoint.stackMark ≤ e.num))

/-- A packet of the executing fragment's program order is on its way to a queue of this device, which the package scope of a commit
covers (R107, R218). -/
def State.packetOut (s : State) : Bool := s.accesses.any (fun a => a.precedes s.fr && a.op.isPacket && !a.isRemote)

/-- `tend` (R205, R208, R210, R212). A commit whose pushes need a host page of a spill area, or bytes of it that another device has,
asks for them and is made when they have come (R112, R388). -/
def execTend (s : State) : Result :=
  .next (match s.attempt with
    | none => s.trap causeNEST 0 0 0
    | some a =>
      if a.depth > 1 then
        (s.setAttempt { a with depth := a.depth - 1, alts := a.alts.filter (fun x => decide (x.depth ≠ a.depth)) }).advance
      else if s.pushedInTx a then s.trap causeTXILLEGAL 0 0 0
      else if s.packetOut then s.stall
      else match s.tokenStop a.tokenOps with
        | some (q, e) => (s.pushWaits q e).stall
        | none => s.commit)

end Sys2Proof.Machine
end

