-- ==== Sys2Proof/Machine/TaskEnd.lean ====
section
/-! DEFINITION. `exit` and the end of fragments, waves and tasks (R25, R131, R142, R287, R315, R358, R362). -/

namespace Sys2Proof.Machine

/-- A fragment that goes on with its top stack entry (R131). -/
def Frag.takeEntry (f : Frag) (e : StackEntry) : Frag :=
  { f with
    pc := if e.parked.isSome then e.pc + 4 else e.pc, lmask := e.lmask, depth := e.depth, mr := e.mr }

/-- The tile of a task: TASK cleared, and empty once no command names it (R25, R191). -/
def State.endTile (s : State) (t : Task) : State :=
  let e := s.tileOf t.core t.tile
  if e.task then (s.setTile t.core t.tile { e with task := false }).emptyTile t.core t.tile else s

/-- The waves of a task and their fragments removed, with every block they hold returned (R25, R142). -/
def State.dropWaves (s : State) (t : Task) : State :=
  let keys := t.waves.map (fun w => t.core * 64 + w)
  let blocks := keys.foldl (fun n k => n + (getAt Wave.reset s.waves k).rblk) 0
  let s1 : State := { s with
    frags := s.frags.filter (fun x => !keys.contains (x.1 / 8))
    waves := s.waves.filter (fun x => !keys.contains x.1)
    fetched := s.fetched.filter (fun x => x.issuer != .wave || !keys.contains x.agent.waveKey) }
  s1.returnBlocks t.core blocks

/-- A task taken off the list, or, while accesses of its waves are on their way, kept as one that has ended. -/
def State.dropTask (s : State) (key : Nat) (t : Task) : State :=
  if s.accesses.any (fun a => a.task == key) then
    { s with tasks := putAt s.tasks key { t with state := .ended, waves := [], aboard := false } }
  else { s with tasks := dropAt s.tasks key }

/-- A task ends (R25): its live rows are retired, its skimmer chain is emptied, its tile becomes empty, its slots and blocks
return, and its context's progress period begins again (R421). -/
def State.endTask (s : State) (key : Nat) : State :=
  let t := getAt Task.reset s.tasks key
  let s1 := ((s.endRows t.core key).endChain t.core key).endTile t
  let s2 := (s1.dropWaves t).dropTask key t
  s2.setCtx t.ctx { s2.ctxOf t.ctx with progressAt := s2.tick }

/-- A wave all of whose fragments have ended. -/
def State.waveOver (s : State) (core wave : Nat) : Bool := (s.fragsOf core wave).isEmpty

/-- The last fragment of a wave has ended: its open invocation gets its marker (R287), and the task ends with its last
wave (R25). -/
def State.endWave (s : State) (f : FragId) : State :=
  let key := (s.wvOf f).task
  let t := getAt Task.reset s.tasks key
  let s1 := s.endStreams f
  if t.waves.all (fun w => s1.waveOver t.core w) then s1.endTask key else s1

/-- The executing fragment ends (R131). -/
def State.endFragment (s : State) : State :=
  let s1 : State := { s with frags := dropAt s.frags s.cur.key }
  if s1.waveOver s.cur.core s.cur.wave then s1.endWave s.cur else s1

/-- `exit` (R131, R219). -/
def execExit (s : State) : Result :=
  .next (
    if s.inTx then s.trap causeTXILLEGAL 0 0 0
    else match s.wv.entriesOf s.cur.frag with
      | e :: _ =>
        let s1 := s.setWv (s.wv.pop s.cur.frag)
        s1.setFr (s1.fr.takeEntry e)
      | [] => s.endFragment)

end Sys2Proof.Machine
end

