-- ==== Sys2Proof/Machine/Launch.lean ====
section
/-! DEFINITION. From queue to running task: pail firing, and the start of a task, fired or placed again after a restore
(R20 to R24, R29 to R32, R191, R422). -/

namespace Sys2Proof.Machine

/-! ## Pail firing (R27, R29 to R31) -/

/-- The operator that a queue feeds: there is no other, an operator that is being removed keeping its queue until its last slot is
free (R16, `State.inputOk`). -/
def State.feeds (s : State) (q : Nat) : Option (Nat × Operator) :=
  s.operators.find? (fun x => x.2.inq == q && x.2.ctx == (s.queue q).ctx)

/-- The entries of an operator's partition on a core into which a pail may fire (R29). -/
def State.openEntries (s : State) (oper core : Nat) : List Nat :=
  let q := s.seatOf oper core
  (upFrom q.partBase q.partSize).filter (fun e =>
    let t := s.tileOf core e
    t.state == 0 && !t.pendingEmpty && t.live.isEmpty)

/-- The pail of an operator on a core is ready (R29). -/
def State.pailReady (s : State) (oper core : Nat) (o : Operator) : Bool :=
  (s.seatOf oper core).state == .installed && !(s.openEntries oper core).isEmpty
    && (s.budgetOf o.ctx o.bclass).isOpen

/-- The pail that a queue serves next: on the lowest core above the last one served, wrapping round (R29). -/
def State.nextPail (s : State) (oper : Nat) (o : Operator) (last : Nat) : Option Nat :=
  (upFrom 1 256).findSome? (fun k =>
    let c := (last + k) % 256
    if o.members.contains c && s.pailReady oper c o then some c else none)

/-- A queue has 8 eligible rows, or one that has waited longer than the timeout (R29). -/
def State.firingDue (s : State) (x : TokenQueue) (timeout : Nat) : Bool :=
  let rows := eligibleRows x.store
  decide (8 ≤ rows.length) ||
    rows.any (fun i => match x.store[i]? with
      | some e => decide (e.stamp + timeout < s.cycle)
      | none => false)

/-- The address of the task tile of an entry of a partition, as far as BASE has bits for it (R191, R411).
Log entry 98 (DEDUCED, unsafe). -/
def Operator.tileBase (o : Operator) (j : Nat) : Word :=
  (o.tbase + BitVec.ofNat 64 (j * (fieldOf o.tshape 26 15 + 1) * (128 * fieldOf o.tshape 14 0))) &&& BitVec.ofNat 64 (2 ^ 49 - 1)

/-- A number that no task has had. Log entry 6 (DESIGN CHOICE, safe). -/
def State.nextTask (s : State) : Nat := s.lastTask + 1

/-- The progress period of a context begins as its first task comes into being (R421). Log entry 33 (DEDUCED, unsafe). -/
def State.startProgress (s : State) (ctx : Nat) : State :=
  if s.tasks.any (fun x => x.2.ctx == ctx && x.2.state != .ended) then s
  else s.setCtx ctx { s.ctxOf ctx with progressAt := s.tick }

/-- A firing of a queue into an entry of an operator on a core (R27, R30, R191): the records leave the queue, the block and
its live rows are written, the entry fills, and the task waits to start. Log entry 54 (DESIGN CHOICE, safe). -/
def State.fire (s : State) (q oper core entry : Nat) (o : Operator) : State :=
  let x := s.queue q
  let p := firePick x.store o.timeout s.cycle
  let rs := recordsAt x.store p.order
  let j := entry - (s.seatOf oper core).partBase
  let key := s.nextTask
  let s1 := s.changeQueue q { x with store := dropPlaces x.store p.gone, lastCore := core }
  if rs.isEmpty then s1
  else
    let s2 := (s1.storeBytes none (s1.blockData oper core j rs)).makeLive core entry o.ctx key rs
    let s3 := (s2.setTile core entry ((s2.tileOf core entry).define (o.tileBase j) o.tshape true)).writeWord (.tile core entry)
    { s3 with
      contexts := (s3.startProgress o.ctx).contexts
      lastTask := key
      tasks := putAt s3.tasks key { Task.reset with
        core := core, oper := oper, ctx := o.ctx, state := .queued, tile := entry, rows := rs.length, fired := s3.cycle }
      fresh := s3.fresh + 1 }

/-- PAIL_FIRING: a queue that is due hands one tile to the next ready pail (R29, R30).
Log entry 54 (DESIGN CHOICE, safe). -/
def execPailFiring (q : Nat) (s : State) : Result :=
  .next (match findAt s.queues q, s.feeds q with
    | some x, some (oper, o) =>
      match s.nextPail oper o x.lastCore with
      | some core =>
        let es := s.openEntries oper core
        if s.firingDue x o.timeout then s.fire q oper core (es.getD (Config.choice s.fresh q % es.length) 0) o else s
      | none => s
    | _, _ => s)

/-! ## Task start (R22 to R24, R32) -/

/-- The wave slots of a core that no wave holds. -/
def State.freeSlots (s : State) (core : Nat) : List Nat :=
  (List.range 64).filter (fun w => (findAt s.waves (core * 64 + w)).isNone)

/-- Some of the numbers of a list, as the device chooses them, each once. Log entry 54 (DESIGN CHOICE, safe). -/
def chooseFrom (fresh : Nat) : Nat → List Nat → List Nat
  | 0, _ => []
  | n + 1, l =>
    match l with
    | [] => []
    | x :: _ =>
      let k := l.getD (Config.choice fresh n % l.length) x
      k :: chooseFrom fresh n (l.filter (· ≠ k))

/-- Waves that a gang has, and the blocks that it needs (R24). -/
def Operator.gang (o : Operator) : Nat × Nat :=
  o.roles.foldl (fun n r => (n.1 + r.waves, n.2 + r.waves * r.regs)) (0, 0)

/-- Where the saved waves of a task stand in the tables: rows of a core that does not exist.
Log entry 55 (DESIGN CHOICE, safe). -/
def savedCore (task : Nat) : Nat := 1024 + task

/-- What a task needs to start: wave slots and blocks; of a saved task, what its waves held (R422). -/
def State.needs (s : State) (key : Nat) (t : Task) : Nat × Nat :=
  if t.state = .restoring then
    t.waves.foldl (fun n w => (n.1 + 1, n.2 + (getAt Wave.reset s.waves (savedCore key * 64 + w)).rblk)) (0, 0)
  else (getAt Operator.reset s.operators t.oper).gang

/-- A task fits its core: it finds its wave slots and blocks (R24, R422). The manual names no others, so the fragments of a saved
task come back with their waves even where the 128 register files of the core that R127 counts are in use.
Log entry 86 (DESIGN CHOICE, unsafe). -/
def State.fits (s : State) (key : Nat) (t : Task) : Bool :=
  let n := s.needs key t
  decide (n.1 ≤ (s.freeSlots t.core).length ∧ n.2 ≤ (s.coreOf t.core).freeBlocks)

/-- The start queue of a core, in firing order (R32). -/
def State.startQueue (s : State) (core : Nat) : List (Nat × Task) :=
  let l := s.tasks.filter (fun x => x.2.core == core && (x.2.state == .queued || x.2.state == .restoring)
    && (s.ctxOf x.2.ctx).runs)
  l.foldl (fun acc x =>
    let before := acc.takeWhile (fun y => decide (y.2.fired ≤ x.2.fired))
    before ++ x :: acc.drop before.length) []

/-- The task that starts next on a core (R32). -/
def State.nextStart (s : State) (core : Nat) : Option (Nat × Task) :=
  let q := s.startQueue core
  match q with
  | [] => none
  | x :: _ =>
    if x.2.fired + 4096 ≤ s.cycle then (if s.fits x.1 x.2 then some x else none)
    else q.find? (fun y => s.fits y.1 y.2)

/-- The scalars of a wave at task start (R22). -/
def startScalars (t : Task) (handle : Nat) (r : Role) (index : Nat) : Vector Word 64 :=
  Vector.ofFn (fun i => match i.val with
    | 1 => BitVec.ofNat 64 handle
    | 2 => r.arg
    | 3 => BitVec.ofNat 64 index
    | 4 => BitVec.ofNat 64 (windowBase + 255 * 2 ^ 24 + 1024 * handle)
    | 5 => BitVec.ofNat 64 t.rows
    | 63 => r.stkBase + BitVec.ofNat 64 ((index + 1) * r.stkSize)
    | _ => 0)

/-- The predicates of a wave at task start (R22). -/
def startPreds : Vector Lane 8 := Vector.ofFn (fun i => if i.val = 0 then BitVec.allOnes 32 else 0)

/-- A wave of a task begun in a slot of its core (R22, R23, R82). Log entry 11 (DESIGN CHOICE, unsafe). -/
def State.beginWave (s : State) (key : Nat) (t : Task) (w : Nat) (r : Role) (index : Nat) : State :=
  let f : FragId := { core := t.core, wave := w, frag := 0 }
  let handle := t.tile - (s.seatOf t.oper t.core).partBase
  let s1 := s.setWvOf f { Wave.reset with
    task := key, roleClass := r.cls, rblk := r.regs, tvec := (s.ctxOf t.ctx).tvec }
  s1.setFrOf f { Frag.reset with
    pc := r.entry, mr := r.mrInit, s := startScalars t handle r index, p := startPreds, thread := s1.nextThread }

/-- The waves of a gang: role by role, each with its index in the role. -/
def gangWaves (roles : List Role) : List (Role × Nat) := roles.flatMap (fun r => (List.range r.waves).map (fun i => (r, i)))

/-- Blocks of the ordinary pool granted to a gang (R24, R142). -/
def State.grant (s : State) (core n : Nat) : State :=
  let c := s.coreOf core
  s.setCore core { c with freeBlocks := c.freeBlocks - n, lastStart := some s.cycle }

/-- A fired task started (R22 to R24). -/
def State.startFired (s : State) (key : Nat) (t : Task) : State :=
  let o := getAt Operator.reset s.operators t.oper
  let slots := chooseFrom s.fresh o.gang.1 (s.freeSlots t.core)
  let c := s.coreOf t.core
  let t1 : Task := { t with state := .running, number := c.taskCount % 65536, age := s.cycle, waves := slots }
  let s1 := (s.takeFresh.setCore t.core { c with taskCount := c.taskCount + 1 }).grant t.core o.gang.2
  let s2 : State := { s1 with tasks := putAt s1.tasks key t1 }
  (slots.zip (gangWaves o.roles)).foldl (fun u x => u.beginWave key t1 x.1 x.2.1 x.2.2) s2

/-- A fragment of a wave that has moved to another row. -/
def FragId.moved (f : FragId) (old new : FragId) : FragId :=
  if f.core = old.core ∧ f.wave = old.wave then { new with frag := f.frag } else f

/-- An invocation whose wave has moved. -/
def Net.moved (n : Net) (old new : FragId) : Net :=
  { n with invs := n.invs.map (fun i => { i with
      owner := if i.owner = old.waveKey then new.waveKey else i.owner
      xops := i.xops.map (fun x => { x with agent := FragId.moved x.agent old new }) }) }

/-- A record that names fragments of a wave that has moved. -/
def FaultRecord.moved (r : FaultRecord) (old new : FragId) : FaultRecord :=
  { r with suspended := r.suspended.map (fun f => FragId.moved f old new) }

/-- A wave moved to another row of the table, with its fragments, and everything that names them. -/
def State.moveWave (s : State) (old new : FragId) : State :=
  let w := s.wvOf old
  let fs := s.frags.filter (fun x => x.1 / 8 == old.waveKey)
  let mv (f : FragId) : FragId := FragId.moved f old new
  let ag := fun (a : Access) => { a with agent := mv a.agent }
  let ft := fun (x : Fetched) => { x with agent := mv x.agent }
  let cm := fun (c : CopyCmd) => { c with agent := mv c.agent }
  let mt := fun (o : MatOp) => { o with agent := mv o.agent }
  let nt := fun (n : Net) => Net.moved n old new
  let ch := fun (c : Chain) => match c.owner with
    | some o => if o.1 = old.waveKey then { c with owner := some (new.waveKey, o.2) } else c
    | none => c
  { s with
    waves := putAt (dropAt s.waves old.waveKey) new.waveKey w
    frags := fs.foldl (fun t x => putAt (dropAt t x.1) (new.waveKey * 8 + x.1 % 8) x.2) s.frags
    records := s.records.map (fun r => r.moved old new)
    accesses := s.accesses.map ag
    fetched := s.fetched.map ft
    copies := mapTab (fun _ r => { r with cmds := r.cmds.map cm }) s.copies
    banks := mapTab (fun _ b => { b with queue := b.queue.map mt }) s.banks
    churns := mapTab (fun _ r => { r with churns := r.churns.map (fun c => { c with net := c.net.map nt }), parked := r.parked.map nt }) s.churns
    chains := mapTab (fun _ c => ch c) s.chains
    flights := s.flights.map (fun f => if f.wave = old.waveKey then { f with wave := new.waveKey } else f) }

/-- A saved task placed again: its waves at wave slots that are free, its number and age kept (R15, R422).
Log entry 55 (DESIGN CHOICE, safe). -/
def State.startSaved (s : State) (key : Nat) (t : Task) : State :=
  let slots := chooseFrom s.fresh t.waves.length (s.freeSlots t.core)
  let s1 := s.takeFresh.grant t.core (s.needs key t).2
  let newHold (h : Nat) : Nat := (((t.waves.zip slots).find? (fun x => x.1 == h)).map (·.2)).getD h
  let s2 := (t.waves.zip slots).foldl (fun u x =>
    let f : FragId := { core := t.core, wave := x.2, frag := 0 }
    let v := u.moveWave { core := savedCore key, wave := x.1, frag := 0 } f
    v.setWvOf f { v.wvOf f with holds := (v.wvOf f).holds.map newHold }) s1
  { s2 with tasks := putAt s2.tasks key { t with state := .running, waves := slots } }

/-- TASK_START: the oldest task of a core's start queue that fits starts, at most one in a cycle (R24, R32, R422). -/
def execTaskStart (core : Nat) (s : State) : Result :=
  .next (
    if (s.coreOf core).lastStart = some s.cycle then s
    else match s.nextStart core with
      | some (key, t) => if t.state = .restoring then s.startSaved key t else s.startFired key t
      | none => s)

end Sys2Proof.Machine
end

