-- ==== Sys2Proof/Machine/Removal.lean ====
section
/-! DEFINITION. Tasks discarded, graphs removed, slots freed, and the end of a context (R17, R26, R368, R399, R407, R417,
R420, R421). What must wait for work in flight is finished by `State.sweep`. -/

namespace Sys2Proof.Machine

/-- Cause PREEMPT_DEADLINE (R83). -/
def causeDEADLINE : Nat := 0xA1
/-- Cause WATCHDOG (R83). -/
def causeWATCHDOG : Nat := 0xA0
/-- Cause CONTEXT_LOST (R83). -/
def causeLOST : Nat := 0xA2

/-! ## Discarding tasks (R420) -/

/-- The core under which the waves of a task stand in the tables. -/
def Task.rowCore (key : Nat) (t : Task) : Nat :=
  if t.state = .saved ∨ t.state = .restoring then savedCore key else t.core

/-- The rows of a task's waves. -/
def Task.rows' (key : Nat) (t : Task) : List Nat := t.waves.map (fun w => t.rowCore key * 64 + w)

/-- A record that no longer names fragments of some waves. -/
def FaultRecord.without (r : FaultRecord) (keys : List Nat) : FaultRecord :=
  { r with suspended := r.suspended.filter (fun f => !keys.contains f.waveKey) }

/-- The waves of a task removed with their fragments, what they wait for, and their blocks (R420). -/
def State.removeWaves (s : State) (key : Nat) (t : Task) : State :=
  let keys := t.rows' key
  let blocks := keys.foldl (fun n k => n + (getAt Wave.reset s.waves k).rblk) 0
  let s1 : State := { s with
    frags := s.frags.filter (fun x => !keys.contains (x.1 / 8))
    waves := s.waves.filter (fun x => !keys.contains x.1)
    records := s.records.map (fun r => r.without keys)
    fetched := s.fetched.filter (fun x => x.issuer != .wave || x.task != key)
    accesses := s.accesses.filter (fun a => !(a.task == key && (a.op.returns || a.failed))) }
  if t.state = .running then s1.returnBlocks t.core blocks else s1

/-- The live rows that a task's entries hold (R344). -/
def State.taskRows (s : State) (key : Nat) : Nat :=
  s.tiles.foldl (fun n x => n + if x.2.liveTask = key then x.2.live.length else 0) 0
    + s.seats.foldl (fun n x => x.2.saved.foldl (fun m e => m + if e.2.liveTask = key then e.2.live.length else 0) n) 0

/-- An entry without the live rows of a task. -/
def TileEntry.retire (e : TileEntry) (key : Nat) : TileEntry :=
  if e.liveTask = key then { e with live := [], liveTask := 0 } else e

/-- The live rows of a task retired (R26). -/
def State.retireRows (s : State) (key : Nat) : State :=
  { s with
    tiles := mapTab (fun _ e => e.retire key) s.tiles
    seats := mapTab (fun _ q => { q with saved := mapTab (fun _ e => e.retire key) q.saved }) s.seats }

/-- A task discarded: its waves are removed and their attempts with them, its live rows retired, its skimmer chain and its
tile emptied (R417, R420). -/
def State.discardTask (s : State) (key : Nat) : State :=
  let t := getAt Task.reset s.tasks key
  let s1 := ((s.removeWaves key t).retireRows key).endChain t.core key
  let s2 := if t.state = .saved ∨ t.state = .ended then s1 else s1.endTile t
  if t.state = .ended then s2 else s2.dropTask key t

/-- The tasks of a context. -/
def State.tasksOf (s : State) (ctx : Nat) : List Nat := (s.tasks.filter (fun x => x.2.ctx == ctx)).map (·.1)

/-- Tasks discarded one after another. -/
def State.discardTasks (s : State) (keys : List Nat) : State := keys.foldl State.discardTask s

/-- The churns of a context give up what they hold, without markers, and nothing of it stays parked (R420). -/
def State.dropNets (s : State) (ctx : Nat) : State :=
  { s with churns := mapTab (fun _ r => { r with
      churns := r.churns.map (fun c => if c.net.any (fun n => n.ctx == ctx) then Churn.reset else c)
      parked := r.parked.filter (fun n => n.ctx != ctx) }) s.churns }

/-! ## Removing graphs (R26, R308, R368, R399) -/

/-- A token queue removed with its records (R26, R336); its watchers are told. -/
def State.removeQueue (s : State) (q : Nat) : State :=
  let x := s.queue q
  let s1 := (({ s with queues := dropAt s.queues q } : State).writeWord (.queueCount q)).endAsk (.spill q)
  if x.scope = 5 then s1.reply (.queueReport q x.ctx x.home false) else s1

/-- The queues of some graphs of a context removed. -/
def State.removeQueues (s : State) (ctx : Nat) (p : Nat → Bool) : State :=
  ((s.queues.filter (fun x => x.2.ctx == ctx && p x.2.graph)).map (·.1)).foldl State.removeQueue s

/-- A seat of a removed operator begins to drain (R17); a saved one has nothing left to do. -/
def Seat.drain (q : Seat) : Seat := if q.state = .installed then { q with state := .draining } else q

/-- Graphs of a context removed: their queues, rounds and streams go, and their operators' slots are freed as their work
ends (R399, R407). Log entry 30 (DEDUCED, unsafe). -/
def State.removeGraphs (s : State) (ctx : Nat) (p : Nat → Bool) : State :=
  let s1 := s.removeQueues ctx p
  let ops := (s1.operators.filter (fun x => x.2.ctx == ctx && p x.2.graph)).map (·.1)
  { s1 with
    operators := mapTab (fun k o => if ops.contains k then { o with removed := true } else o) s1.operators
    seats := mapTab (fun k q => if ops.contains (k / 256) then q.drain else q) s1.seats
    rounds := mapTab (fun _ r => if r.ctx = ctx ∧ p r.graph = true then { r with gone := true } else r) s1.rounds
    streams := s1.streams.filter (fun d => !(d.ctx == ctx && p d.graph))
    throttles := s1.throttles.filter (fun t => !(t.ctx == ctx && p t.graph)) }

/-- A REMOVE of a graph begins: its slots drain, and nothing of it is gone yet (R17, R398, R399). -/
def State.leaveGraph (s : State) (ctx graph : Nat) : State :=
  let ops := s.graphOps ctx graph
  { s with
    operators := mapTab (fun k o => if ops.contains k then { o with leaving := true } else o) s.operators
    seats := mapTab (fun k q => if ops.contains (k / 256) then q.drain else q) s.seats }

/-! ## Freeing slots (R17, R234, R295, R305) -/

/-- An operator's work on a core has ended. -/
def State.seatIdle (s : State) (oper core : Nat) : Bool :=
  s.tasks.all (fun x => !(x.2.oper == oper && x.2.core == core))
    && (s.copyRow core).cmds.all (fun c => c.oper != oper || c.status == .parked)
    && (s.bank core).queue.all (fun o => o.oper != oper)

/-- What each graph with a slot on a core asks of the core's table store; the largest for a context (R295). -/
def State.storeDemand (s : State) (core ctx : Nat) : Nat :=
  s.seats.foldl (fun m x =>
    let o := getAt Operator.reset s.operators (x.1 / 256)
    if x.1 % 256 = core ∧ o.ctx = ctx then max m (getAt 0 s.churnReqs ((ctx * 65536 + o.graph) * 256 + core)) else m) 0

/-- The context has no slot on a core. -/
def State.noSeat (s : State) (core ctx : Nat) (p : SlotState → Bool) : Bool :=
  s.seats.all (fun x => x.1 % 256 != core || (getAt Operator.reset s.operators (x.1 / 256)).ctx != ctx || !p x.2.state)

/-- What a context keeps on a core, once no slot of it is there (R234, R305): its images, its reservation, and what its
churns hold. -/
def State.leaveCore (s : State) (core ctx : Nat) : State :=
  let r := s.churnRow core
  let s1 := s.setChurnRow core { r with
    churns := r.churns.map (fun c => if c.net.any (fun n => n.ctx == ctx) then Churn.reset else c)
    parked := r.parked.filter (fun n => n.ctx != ctx) }
  { s1 with
    images := s1.images.filter (fun x => decide (x.1 / 16 ≠ ctx * 256 + core))
    churnRes := dropAt s1.churnRes (ctx * 256 + core) }

/-- A scratchpad byte or accumulator element of an operator on a core. -/
def ofSeat (oper core key : Nat) : Bool :=
  decide (scratchKey oper core 0 ≤ key ∧ key < scratchKey oper core 0 + 2 ^ 23)

/-- A slot freed on a core with everything that is the slot's (R17). -/
def State.freeSeat (s : State) (oper core : Nat) : State :=
  let q := s.seatOf oper core
  let ctx := (getAt Operator.reset s.operators oper).ctx
  let s1 := (s.setSeatOf oper core { q with state := .free }).detachSeat oper core false
  let r := s1.copyRow core
  let s2 := if r.cmds.any (fun c => c.oper == oper) then s1.setCopies core { r with cmds := r.cmds.filter (fun c => c.oper != oper) } else s1
  let s3 : State := { s2 with
    seats := dropAt s2.seats (seatKey oper core)
    slotMap := if q.held = true ∨ q.state = .lost then dropAt s2.slotMap (core * 8 + q.slot) else s2.slotMap
    tiles := if q.held = true ∨ q.state = .lost then
        s2.tiles.filter (fun x => !(x.1 / 64 == core && decide (q.partBase ≤ x.1 % 64 ∧ x.1 % 64 < q.partBase + q.partSize)))
      else s2.tiles
    accs := s2.accs.filter (fun x => decide (x.1 / 16384 ≠ oper * 256 + core))
    mem := { s2.mem with
      bytes := s2.mem.bytes.filter (fun x => !ofSeat oper core x.1)
      poison := s2.mem.poison.filter (fun p => !ofSeat oper core (p * 128)) } }
  let s4 := if s3.noSeat core ctx (fun x => x == .installed || x == .draining) then s3.emptySets core ctx else s3
  if s4.noSeat core ctx (fun _ => true) then s4.leaveCore core ctx
  else { s4 with churnRes := putAt s4.churnRes (ctx * 256 + core) (s4.storeDemand core ctx) }

/-- The slots of removed operators that have nothing left to do freed. -/
def State.freeSeats (s : State) : State :=
  s.seats.foldl (fun t x =>
    if (getAt Operator.reset t.operators (x.1 / 256)).removed && t.seatIdle (x.1 / 256) (x.1 % 256) then
      t.freeSeat (x.1 / 256) (x.1 % 256)
    else t) s

/-- The slot of an operator is held on some core. -/
def State.seated (s : State) (oper : Nat) : Bool := s.seats.any (fun x => x.1 / 256 == oper)

/-- Removed operators without a slot dropped, and with the last of a graph what it asked for. -/
def State.dropOperators (s : State) : State :=
  let ops := s.operators.filter (fun x => !x.2.removed || s.seated x.1)
  { s with
    operators := ops
    churnReqs := s.churnReqs.filter (fun x => ops.any (fun o => o.2.ctx * 65536 + o.2.graph == x.1 / 256)) }

/-- Rounds whose graph is gone dropped once every operator has left them (R308, R402). -/
def State.dropRounds (s : State) : State :=
  let out := (s.rounds.filter (fun x => x.2.gone && (s.boardedOn x.1).isEmpty)).map (·.1)
  out.foldl (fun t n => t.forgetUser (.round n)) { s with rounds := s.rounds.filter (fun x => !out.contains x.1) }

/-! ## The end of a context (R388, R399, R417, R421) -/

/-- Launches of a context given up: those that have started are dropped, the others end as their queue's command does.
Log entry 41 (DEDUCED, unsafe). -/
def State.dropLaunches (s : State) (ctx : Nat) (p : Nat → Bool) : State :=
  { s with launches := s.launches.filter (fun l => !(l.started && l.ctx == ctx && p l.graph)) }

/-- A context's tasks, graphs and queues given up, with the state that it enters (R417, R421). -/
def State.endContext (s : State) (ctx : Nat) (st : CtxState) : State :=
  let s1 := (s.discardTasks (s.tasksOf ctx)).dropNets ctx
  let s2 := (s1.removeGraphs ctx (fun _ => true)).dropLaunches ctx (fun _ => true)
  let s3 : State := { s2 with records := s2.records.map (fun r => if r.ctx = ctx then { r with answered := true } else r) }
  s3.setCtx ctx { s3.ctxOf ctx with state := st }

/-- A context terminated (R417). Log entry 31 (DEDUCED, unsafe). -/
def State.terminate (s : State) (ctx : Nat) : State := s.endContext ctx .terminated

/-- A context lost: its slots are lost, then free (R421). -/
def State.loseContext (s : State) (ctx : Nat) : State :=
  let s1 := s.endContext ctx .lost
  { s1 with seats := mapTab (fun k q =>
      if (getAt Operator.reset s1.operators (k / 256)).ctx = ctx ∧ q.state ≠ .saved then { q with state := .lost } else q) s1.seats }

/-- A context with nothing of it left removed: its id and its key id are free (R399). The service context begins anew. -/
def State.forgetContext (s : State) (ctx : Nat) : State :=
  { s.forgetUser (.context ctx) with
    contexts := if ctx = 0 then putAt s.contexts 0 Context.service else dropAt s.contexts ctx
    tlb := s.tlb.filter (fun t => t.ctx != ctx)
    walks := s.walks.filter (fun w => w.ctx != ctx)
    asks := s.asks.filter (fun a => a.ctx != ctx)
    records := s.records.filter (fun r => r.ctx != ctx || !r.wasRead)
    rounds := mapTab (fun _ r => { r with shared := r.shared.filter (· ≠ ctx) }) s.rounds
    sharedKeys := s.sharedKeys.filter (fun k => (k.2.1 != ctx && (findAt s.contexts k.2.1).isSome)
      || (k.2.2 != ctx && (findAt s.contexts k.2.2).isSome)) }

/-- Nothing of a context is left in the device. -/
def State.contextEmpty (s : State) (ctx : Nat) : Bool :=
  s.operators.all (fun x => x.2.ctx != ctx) && s.rounds.all (fun x => x.2.ctx != ctx)

/-- A context to be destroyed: terminated, its host queues stopped, the operators of other contexts off its rounds (R388,
R399). Log entry 31 (DEDUCED, unsafe). -/
def State.destroy (s : State) (ctx : Nat) : State :=
  let s1 := s.terminate ctx
  let away := s1.seats.filter (fun x => x.2.boarded != 0 && (match s1.roundAt (x.2.boarded - 1) with
    | some r => r.ctx == ctx
    | none => false))
  let s2 := away.foldl (fun t x => t.detachSeat (x.1 / 256) (x.1 % 256) false) s1
  let qs := (s2.hostQueues.filter (fun x => x.1 != 0 && x.2.ctx == ctx && x.2.st != 0)).map (·.1)
  let s3 := qs.foldl (fun t q => (t.stopQueue q 2).writeStatus q) s2
  s3.setCtx ctx { s3.ctxOf ctx with destroying := true, frozen := false }

/-- Contexts being destroyed of which nothing is left removed. -/
def State.dropContexts (s : State) : State :=
  s.contexts.foldl (fun t x => if x.2.destroying && t.contextEmpty x.1 then t.forgetContext x.1 else t) s

/-- Tasks that have ended and whose accesses have all been performed taken off the list. Log entry 30 (DEDUCED, unsafe). -/
def State.reap (s : State) : State :=
  let ended := fun (x : Nat × Task) => x.2.state == .ended && s.accesses.all (fun a => a.task != x.1)
  if s.tasks.any ended then { s with tasks := s.tasks.filter (fun x => !ended x) } else s

/-- What waits for work in flight finished where the work has ended: slots freed, graphs, rounds and contexts gone; the firmware pair
does it, and not while it resets (R405). Log entry 30 (DEDUCED, unsafe). -/
def State.sweep (s : State) : State :=
  if s.ras.recovering then s
  else if s.operators.any (fun x => x.2.removed) || s.rounds.any (fun x => x.2.gone) || s.contexts.any (fun x => x.2.destroying) then
    s.reap.freeSeats.dropOperators.dropRounds.dropContexts
  else s.reap

end Sys2Proof.Machine
end

