-- ==== Sys2Proof/Machine/Save.lean ====
section
/-! DEFINITION. Pre-emption and restore: draining, the saving of tasks and slots, the deadline and the two watchdogs, the
placing of saved slots, and the replay of fault records (R17, R116, R229, R230, R270, R305, R329, R362, R417 to R422). -/

namespace Sys2Proof.Machine

/-- Microseconds as ticks. -/
def ticks (us : Nat) : Nat := 1000 * us

/-! ## Draining (R419) -/

/-- A context moved to draining with every installed slot of it (R17, R419). -/
def State.preemptContext (s : State) (ctx : Nat) : State :=
  let c := s.ctxOf ctx
  let s1 := s.setCtx ctx { c with state := .draining, preemptAt := s.tick, windowClosed := false, forced := false }
  { s1 with seats := mapTab (fun k q =>
      if (getAt Operator.reset s1.operators (k / 256)).ctx = ctx then q.drain else q) s1.seats }

/-- DRAIN_WINDOW_CLOSE: the drain window of a context is over; from here on its tasks issue nothing more (R419). -/
def execDrainWindowClose (ctx : Nat) (s : State) : Result :=
  let c := s.ctxOf ctx
  .next (
    if c.state = .draining ∧ c.windowClosed = false ∧ c.preemptAt + ticks c.drain ≤ s.tick then
      s.setCtx ctx { c with windowClosed := true }
    else s)

/-! ## Saving tasks (R229, R329, R358, R419) -/

/-- A sleeping fragment as the restore wakes it (R229, R230). -/
def State.wakeSaved (s : State) (f : FragId) (handler : Bool) : State :=
  let s1 := s.endAllowWait f
  let x := s1.frOf f
  s1.setFrOf f { x with status := .ready, wake := if handler then 4 else x.wake, txStatus := if handler then 0 else x.txStatus }

/-- A fragment as it is saved: an open attempt of it abandoned with status 7, a sleeper as the restore wakes it (R229,
R230). -/
def State.saveFrag (s : State) (f : FragId) : State :=
  let s1 := match (s.wvOf f).tx with
    | some a => if a.owner = f.frag then s.abandon f 7 0 (s.frOf f).pc 0 else s
    | none => s
  let x := s1.frOf f
  match x.status with
  | .asleep _ handler _ => s1.wakeSaved f handler
  | .backoff _ handler => s1.wakeSaved f handler
  | _ => s1.setFrOf f { x with churnWait := none, skimWait := none }

/-- The fragments of a task. -/
def State.taskFrags (s : State) (t : Task) : List FragId :=
  t.waves.flatMap (fun w => (s.fragsOf t.core w).map (fun k => { core := t.core, wave := w, frag := k }))

/-- A task that has not been placed since the last restore saved again: it is aboard no longer, and was so under the tag of the active
set (R329). -/
def State.saveWaiting (s : State) (key : Nat) (t : Task) : State :=
  { s with tasks := putAt s.tasks key { t with
      state := .saved, aboard := false, savedTag := if t.aboard then some (s.bank t.core).active.tag else t.savedTag } }

/-- A running task saved whole: its fragments, its chain, whether it was aboard and under which tag; its waves leave their
slots and give back their blocks (R229, R329, R358).
Log entry 25 (DESIGN CHOICE, unsafe). Log entry 55 (DESIGN CHOICE, safe). -/
def State.saveTask (s : State) (key : Nat) : State :=
  let t := getAt Task.reset s.tasks key
  if t.state = .restoring then s.saveWaiting key t
  else
  let s1 := (s.taskFrags t).foldl State.saveFrag s
  let s2 := match (s1.chain t.core).owner with
    | some o => if o.2 = key then s1.saveChain t.core else s1
    | none => s1
  let blocks := t.waves.foldl (fun n w => n + (getAt Wave.reset s2.waves (t.core * 64 + w)).rblk) 0
  let s3 := t.waves.foldl (fun u w =>
    u.moveWave { core := t.core, wave := w, frag := 0 } { core := savedCore key, wave := w, frag := 0 }) s2
  let s4 := s3.returnBlocks t.core blocks
  { s4 with tasks := putAt s4.tasks key { t with
      state := .saved, aboard := false, savedTag := if t.aboard then some (s4.bank t.core).active.tag else none } }

/-- The tasks of a context that have waves. -/
def State.running (s : State) (ctx : Nat) : List Nat :=
  (s.tasks.filter (fun x => x.2.ctx == ctx && (x.2.state == .running || x.2.state == .restoring))).map (·.1)

/-! ## Saving slots (R17, R116, R270, R305, R362) -/

/-- The sectors of the save area for the scratchpad lines of a slot: the slots of a core one after another.
Log entry 25 (DESIGN CHOICE, unsafe). -/
def State.imageSectors (s : State) (oper core : Nat) : List Nat :=
  let q := s.seatOf oper core
  let ctx := (getAt Operator.reset s.operators oper).ctx
  let before := (s.ctxSeats ctx).foldl (fun n x => if x.1 % 256 = core ∧ x.2.slot < q.slot then n + x.2.lines else n) 0
  (List.range (4 * q.lines)).map (fun j => s.savePart ctx core + 512 * before + 128 * j)

/-- Where the sectors of the scratchpad lines of a slot lie in the save area, and the device that has each. One that the save area
does not hold stays with the device (R116). Log entry 25 (DESIGN CHOICE, unsafe). -/
def State.imagePlaces (s : State) (oper core : Nat) : List (Place × Target) :=
  let ctx := (getAt Operator.reset s.operators oper).ctx
  (s.imageSectors oper core).zipIdx.map (fun v => match s.savePlace ctx v.1 with
    | .ok x => x
    | .error _ => (plainPlace (scratchKey oper core (128 * v.2)) 0, .here))

/-- A sector copied from one place to another with its poison mark (R116, R202, R268). -/
def State.copySector (s : State) (o : Owner) (src dst : Place × Target) : State :=
  let bad := s.enginePoison o src
  let bytes := (placesFrom src.1 128).map (fun p => s.engineByte o s.mem.readByte (p, src.2))
  let s1 := s.engineStore o dst.2 ((placesFrom dst.1 128).zip bytes) bad
  if bad && dst.2 == .here then s1.poisonSector dst.1 else s1

/-- The device as it saves and restores a context. -/
def saveOwner (ctx : Nat) : Owner := (AskOwner.save ctx).owner ctx

/-- The sectors of a slot's lines that its image holds, each with its place in the scratchpad. -/
def imagePairs (oper core : Nat) (image : List (Place × Target)) : List ((Place × Target) × (Place × Target)) :=
  (image.zipIdx.filter (fun x => !x.1.1.isScratch)).map (fun x =>
    (x.1, (plainPlace (scratchKey oper core (128 * x.2)) 0, .here)))

/-- The scratchpad lines of a slot copied to its image, and given up (R17, R116). -/
def State.saveLines (s : State) (ctx oper core : Nat) (image : List (Place × Target)) : State :=
  let out := imagePairs oper core image
  let s1 := out.foldl (fun t x => t.copySector (saveOwner ctx) x.2 x.1) s
  let gone := out.map (fun x => sectorOf x.2.1.key)
  { s1 with mem := { s1.mem with
      bytes := s1.mem.bytes.filter (fun x => !gone.contains (sectorOf x.1))
      poison := s1.mem.poison.filter (fun p => !gone.contains p) } }

/-- The scratchpad lines of a slot loaded from its image, arrivals included (R116). -/
def State.loadLines (s : State) (ctx oper core : Nat) (image : List (Place × Target)) : State :=
  (imagePairs oper core image).foldl (fun t x => t.copySector (saveOwner ctx) x.1 x.2) s

/-- The sectors of the save area that a save writes for other things than scratchpad lines (R408, R419). -/
def State.saveSectors (s : State) (ctx : Nat) : List Nat :=
  (List.range 512).map (fun j => (s.ctxOf ctx).saveBase.toNat + 128 * j) ++ (s.ctxCores ctx).flatMap (s.saveRest ctx)

/-- An access that has been issued to a line whose save image another device has is made there, and sent when it may be (R112,
R116). -/
def State.moveAccess (s : State) (a : Access) : State :=
  match s.imageChip a.op with
  | none => s
  | some c =>
    let b := { a with target := .chip c, op := s.atImage a.op, sent := false }
    let s1 : State := { s with accesses := s.accesses.map (fun x => if x.id = a.id then b else x) }
    if a.ofWave && !a.op.returns then s1.setWvOf a.agent { s1.wvOf a.agent with acks := (s1.wvOf a.agent).acks + 1 } else s1

/-- Where a byte of an image at a device lies in the scratchpad lines of its slot. -/
def linePlace (oper core : Nat) (image : List (Place × Target)) (x : Target) (p : Place) : Option Place :=
  (image.zipIdx.find? (fun v => v.1.2 == x && decide (v.1.1.key ≤ p.key ∧ p.key < v.1.1.key + 128))).map (fun v =>
    { plainPlace (scratchKey oper core (128 * v.2 + (p.key - v.1.1.key))) 0 with va := p.va })

/-- An access that has been held on its way to an image is made at the line again, which has been restored (R116). -/
def State.homeAccess (oper core : Nat) (image : List (Place × Target)) (s : State) (a : Access) : State :=
  match if a.isRemote && !a.sent then a.op.places.head?.bind (linePlace oper core image a.target) else none with
  | none => s
  | some _ =>
    let waits := match (s.frOf a.agent).status with
      | .awaiting .. => a.op.returns
      | _ => false
    let b := { a with
      target := .here, op := a.op.mapPlaces (fun p => (linePlace oper core image a.target p).getD p), sent := waits }
    let s1 : State := { s with accesses := s.accesses.map (fun x => if x.id = a.id then b else x) }
    if a.ofWave && !a.op.returns then s1.setWvOf a.agent { s1.wvOf a.agent with acks := (s1.wvOf a.agent).acks - 1 } else s1

/-- A slot saved on a core: its scratchpad lines and its tile-table entries go into its image, it is detached from its round, and its
index, entries and accumulator tiles are free; what is on its way to its lines goes to the image (R17, R116, R329, R362).
Log entry 25 (DESIGN CHOICE, unsafe). -/
def State.saveSeat (s : State) (oper core : Nat) : State :=
  let places := s.imagePlaces oper core
  let q := { s.seatOf oper core with image := places }
  let mine (k : Nat) : Bool := k / 64 == core && decide (q.partBase ≤ k % 64 ∧ k % 64 < q.partBase + q.partSize)
  let entries := (s.tiles.filter (fun x => mine x.1)).map (fun x => (x.1 % 64 - q.partBase, { x.2 with
    live := x.2.live.map (fun r => { r with parent := s.rowParent (r, oper, core, x.1 % 64 - q.partBase) }) }))
  let s0 := s.saveLines (getAt Operator.reset s.operators oper).ctx oper core places
  let s1 := (s0.setSeatOf oper core { q with state := .saved, saved := entries }).detachSeat oper core true
  let s2 : State := { s1 with
    tiles := s1.tiles.filter (fun x => !mine x.1)
    slotMap := dropAt s1.slotMap (core * 8 + q.slot) }
  (s2.accesses.foldl State.moveAccess s2).sendHeld

/-- The draining slots of a context, by their rows. -/
def State.drainingSeats (s : State) (ctx : Nat) : List Nat :=
  (s.seats.filter (fun x => x.2.state == .draining && (getAt Operator.reset s.operators (x.1 / 256)).ctx == ctx
    && !(getAt Operator.reset s.operators (x.1 / 256)).removed)).map (·.1)

/-- Every draining slot of a context saved; on each core the sets that only the context may use are emptied and its churns
are given up (R234, R304, R305). Log entry 25 (DESIGN CHOICE, unsafe). -/
def State.saveSeats (s : State) (ctx : Nat) : State :=
  let rows := s.drainingSeats ctx
  let s1 := rows.foldl (fun t k => t.saveSeat (k / 256) (k % 256)) (s.saveFree ctx (s.saveSectors ctx))
  (distinct (rows.map (· % 256))).foldl (fun t c => t.emptySets c ctx) (s1.dropNets ctx)

/-- Work of a context that a save waits for: matrix instructions, fills, `xop`s, answers of accesses, commands of a commit
(R252, R270, R298, R419). Log entry 33 (DEDUCED, unsafe). -/
def State.saveHeld (s : State) (ctx : Nat) : Bool :=
  let keys := s.tasksOf ctx
  let frags := s.frags.filter (fun x => keys.contains (getAt Wave.reset s.waves (x.1 / 8)).task)
  s.banks.any (fun x => x.2.queue.any (fun o => o.ctx == ctx) || x.2.fills.any (fun f => f.ctx == ctx))
    || s.churns.any (fun x => (s.pendingXops x.1).any (fun p => keys.contains p.task))
    || s.accesses.any (fun a => keys.contains a.task && (a.final.isSome || (a.op.returns && !a.failed)))
    || frags.any (fun x => !x.2.due.isEmpty)
    || keys.any (fun k => (getAt Task.reset s.tasks k).waves.any (fun w =>
      (getAt Wave.reset s.waves ((getAt Task.reset s.tasks k).core * 64 + w)).holds.any (fun h => decide (64 ≤ h))))

/-- A copy command, a matrix instruction or a fill of a context is on its way (R252, R270, R420). -/
def State.copyHeld (s : State) (ctx : Nat) : Bool :=
  s.copies.any (fun x => x.2.cmds.any (fun c => c.ctx == ctx && c.status != .parked))
    || s.banks.any (fun x => x.2.queue.any (fun o => o.ctx == ctx) || x.2.fills.any (fun f => f.ctx == ctx))

/-- The contents of the churns and the parked invocations of a context, with their cores. -/
def State.netsIn (s : State) (ctx : Nat) : List (Nat × Net) :=
  s.churns.flatMap (fun x => ((x.2.churns.toList.filterMap (·.net)) ++ x.2.parked).filterMap (fun n =>
    if n.ctx = ctx then some (x.1, n) else none))

/-- Every churn that holds something of a context is quiescent, and nothing of it is parked (R304). -/
def State.netsQuiet (s : State) (ctx : Nat) : Bool :=
  s.churns.all (fun x => x.2.churns.toList.all (fun c => !c.net.any (fun n => n.ctx == ctx) || c.quiescent)
    && x.2.parked.all (fun n => n.ctx != ctx))

/-- The saved state of a context reached (R419). Log entry 17 (DESIGN CHOICE, unsafe). -/
def State.becomeSaved (s : State) (ctx : Nat) : State :=
  let s0 := s.takeFresh
  let s1 := (((s0.running ctx).foldl State.saveTask s0).saveSeats ctx).endAsk (.save ctx)
  (s1.setCtx ctx { s1.ctxOf ctx with state := .saved }).contextEvent ctx 0xFFFF (Config.eventWord s.fresh 1).toNat 0 5 []

/-! ## Placing saved slots (R17, R187, R422) -/

/-- What is taken on the cores while slots are placed: by core the slot indexes, the tile-table entries, the accumulator
tiles, and the pinned lines as index and number. -/
structure Taken where
  slots : List (Nat × Nat)
  entries : List (Nat × Nat × Nat)
  accs : List (Nat × Nat × Nat)
  lines : List (Nat × Nat × Nat)

/-- What the slots in place take (R16, R187, R235). -/
def State.placesTaken (s : State) : Taken :=
  let live := s.seats.filter (fun x => x.2.state == .installed || x.2.state == .draining || x.2.state == .lost)
  { slots := live.map (fun x => (x.1 % 256, x.2.slot))
    entries := live.map (fun x => (x.1 % 256, x.2.partBase, x.2.partSize))
    accs := live.map (fun x => (x.1 % 256, x.2.accBase, x.2.accSize))
    lines := live.map (fun x => (x.1 % 256, x.2.slot, x.2.lines)) }

/-- The first run of `n` numbers below `limit` that no taken run of a core meets. -/
def freeRun (limit n : Nat) (taken : List (Nat × Nat × Nat)) (core : Nat) : Option Nat :=
  if n = 0 then some 0
  else (List.range (limit + 1 - n)).find? (fun b =>
    taken.all (fun t => t.1 != core || decide (b + n ≤ t.2.1 ∨ t.2.1 + t.2.2 ≤ b)))

/-- No L1 set of a core would hold more than 12 pinned ways with some lines of a slot index added (R187). -/
def linesFit (taken : List (Nat × Nat × Nat)) (core slot n : Nat) : Bool :=
  let here := (core, slot, n) :: taken.filter (fun t => t.1 == core)
  (List.range 256).all (fun set =>
    decide (here.foldl (fun k t => k + (List.range t.2.2).countP (fun i => (i + 32 * t.2.1) % 256 == set)) 0 ≤ 12))

/-- Where a slot stands on a core: its row, its index, the first of its tile-table entries and of its accumulator tiles. -/
structure Spot where
  row : Nat
  slot : Nat
  part : Nat
  acc : Nat

/-- What one operator needs on its cores: the row of each seat with its size in entries, accumulator tiles and lines. -/
abbrev Need' : Type := List (Nat × Nat × Nat × Nat)

/-- An operator placed at a slot index on each of its cores, if it fits on all (R16, R422). -/
def Taken.place (t : Taken) (slot : Nat) : Need' → Option (Taken × List Spot)
  | [] => some (t, [])
  | (row, p, a, n) :: rest =>
    let core := row % 256
    if t.slots.contains (core, slot) || !linesFit t.lines core slot n then none
    else match freeRun 64 p t.entries core, freeRun 16 a t.accs core with
      | some b, some d =>
        let u : Taken := {
          slots := (core, slot) :: t.slots, entries := (core, b, p) :: t.entries, accs := (core, d, a) :: t.accs
          lines := (core, slot, n) :: t.lines }
        (u.place slot rest).map (fun x => (x.1, { row := row, slot := slot, part := b, acc := d } :: x.2))
      | _, _ => none

/-- Operators placed at slot indexes free for each, trying the indexes in turn, so that all are placed (R422). -/
def Taken.placeAll (t : Taken) : List Need' → Option (List Spot)
  | [] => some []
  | o :: rest => (List.range 8).findSome? (fun i =>
    match t.place i o with
    | some (u, spots) => (u.placeAll rest).map (fun r => spots ++ r)
    | none => none)

/-- What the saved slots of a context need, operator by operator. -/
def State.savedNeeds (s : State) (ctx : Nat) : List Need' :=
  let rows := s.seats.filter (fun x => x.2.state == .saved && (getAt Operator.reset s.operators (x.1 / 256)).ctx == ctx
    && !(getAt Operator.reset s.operators (x.1 / 256)).removed)
  (distinct (rows.map (fun x => x.1 / 256))).map (fun o =>
    (rows.filter (fun x => x.1 / 256 == o)).map (fun x => (x.1, x.2.partSize, x.2.accSize, x.2.lines)))

/-- Copy commands of an operator that name entries of a partition that has moved. -/
def CopyCmd.rebase (c : CopyCmd) (oper old new : Nat) : CopyCmd :=
  if c.oper = oper then
    { c with srcTile := c.srcTile.map (fun e => e - old + new), dstTile := c.dstTile.map (fun e => e - old + new) }
  else c

/-- The cancelled rows among some entries of a partition stamped again, so that rows restored from an image that another device had
read as their records are (R335, R352). -/
def State.stampSaved (s : State) (oper core : Nat) (entries : Tab TileEntry) : State :=
  entries.foldl (fun t e => (e.2.live.filter (fun r => isCancelled r.w0)).foldl (fun u r => u.stampRow oper core e.1 r.row r.w0) t) s

/-- A saved slot placed: its lines are loaded from its image, and its entries, its task tiles and its parked commands come back at its
new partition; what was held on its way to the image goes to the lines (R116, R270, R362, R422). A task that is to be placed, or had
been fired and not placed when its context was saved, stands in its core's start queue as one fired at the restore, behind those fired
meanwhile. Log entry 102 (DESIGN CHOICE, unsafe). -/
def State.restoreSeat (s : State) (p : Spot) : State :=
  let oper := p.row / 256
  let core := p.row % 256
  let q := s.seatOf oper core
  let old := q.partBase
  let s1 := q.saved.foldl (fun t e => t.setTile core (p.part + e.1) e.2) s
  let r := s1.copyRow core
  let s2 := if r.cmds.any (fun c => c.oper == oper) then
      s1.setCopies core { r with cmds := r.cmds.map (fun c => c.rebase oper old p.part) } else s1
  let s3 := (s2.loadLines (getAt Operator.reset s.operators oper).ctx oper core q.image).setSeatOf oper core { q with
    state := .installed, slot := p.slot, partBase := p.part, accBase := p.acc, saved := [], image := [], boarded := 0, stop := 0,
    leaving := false }
  let s4 : State := { s3 with
    slotMap := putAt s3.slotMap (core * 8 + p.slot) oper
    tasks := mapTab (fun _ t =>
      if t.oper = oper ∧ t.core = core ∧ (t.state = .saved ∨ t.state = .queued) then
        { t with tile := t.tile - old + p.part, state := if t.state = .saved then .restoring else t.state, fired := s.cycle }
      else t) s3.tasks }
  (s4.accesses.foldl (State.homeAccess oper core q.image) s4).stampSaved oper core q.saved

/-- Operators of a context boarded again where they were, as `mrboard` would, and their tasks aboard where the active set
is the one they were aboard (R329). -/
def State.reboard (s : State) (ctx : Nat) (was : List (Nat × Nat × Nat)) : State :=
  let s1 := was.foldl (fun t o => (t.board o.1 ctx (BitVec.ofNat 64 (o.2.1 - 1 + 256 * o.2.2))).1) s
  { s1 with tasks := mapTab (fun _ t =>
      if t.ctx = ctx ∧ t.savedTag.isSome then
        let b := (s1.bank t.core).active
        let q := s1.seatOf t.oper t.core
        let user : MatUser := { oper := t.oper, core := t.core, ctx := ctx, boarded := q.boarded }
        { t with
          aboard := q.boarded != 0 && b.st == 2 && b.user.allows user && t.savedTag == some b.tag, savedTag := none }
      else t) s1.tasks }

/-- The operators of a context whose saved slots hold a round and stop. -/
def State.boardedSaved (s : State) (ctx : Nat) : List (Nat × Nat × Nat) :=
  (s.seats.filter (fun x => x.2.state == .saved && x.2.boarded != 0
    && (getAt Operator.reset s.operators (x.1 / 256)).ctx == ctx)).foldl (fun l x =>
      let o := (x.1 / 256, x.2.boarded, x.2.stop)
      if l.contains o then l else l ++ [o]) []

/-! ## Replay (R181, R294, R327, R377, R417) -/

/-- A record that REPLAY and KILL may name (R327, R414, R417). Log entry 32 (DEDUCED, unsafe). -/
def FaultRecord.replayable (r : FaultRecord) : Bool :=
  !r.reportOnly && !r.answered &&
    (r.cause == causeXLATE || (r.cause == causePROT && r.detail != 7) || (r.cause == causeAG && decide (r.detail = 1 ∨ r.detail = 2))
      || (r.cause == causeSTREAM && r.detail == 1) || r.cause == causeSPILLFAULT)

/-- A fragment suspended on a record that has been replayed executes its instruction again. -/
def State.unsuspend (s : State) (f : FragId) : State :=
  match (s.frOf f).status with
  | .suspended _ => s.setFrOf f { s.frOf f with status := .ready }
  | _ => s

/-- A round, a packet, or an address generator of a core, wherever its network is now, suspended on a record goes on (R289, R294,
R327, R377). -/
def State.resumeOther (s : State) (rec n : Nat) : State :=
  if n ≥ 2 ^ 34 then
    let s1 : State := { s with flights := s.flights.map (fun f =>
      if f.id = n - 2 ^ 34 ∧ f.stopped = some rec then { f with stopped := none } else f) }
    match s1.flights.find? (fun f => f.id == n - 2 ^ 34) with
    | some f => s1.runFlight f
    | none => s1
  else if n ≥ 2 ^ 33 then
    { s with rounds := mapTab (fun k r =>
        if k = n - 2 ^ 33 ∧ r.stopped = some rec then { r with stopped := none } else r) s.rounds }
  else if n ≥ 2 ^ 32 then
    let core := (n - 2 ^ 32) / 8
    let free (m : Net) : Net :=
      { m with ags := m.ags.map (fun a => if a.stopped = some rec then { a with stopped := none } else a) }
    let r := s.churnRow core
    s.setChurnRow core { r with
      churns := r.churns.map (fun c => { c with net := c.net.map free }), parked := r.parked.map free }
  else s

/-- A record replayed: everything suspended on it goes on, a page refused to the save of the context being asked for again (R388,
R417). Log entry 32 (DEDUCED, unsafe). -/
def State.replayRecord (s : State) (id : Nat) : State :=
  match s.records.find? (fun r => r.id == id) with
  | none => s
  | some r =>
    let s1 : State := { s with
      records := s.records.map (fun x =>
        let y := { x with suspended := x.suspended.filter (fun f => !r.suspended.contains f) }
        if x.id = id then { y with answered := true, deferred := false } else y)
      asks := s.asks.filter (fun a => !(a.refused && a.owner == .save r.ctx && a.va == r.va))
      throttles := s.throttles.filter (fun t => t.why != .fault id) }
    r.others.foldl (fun t n => t.resumeOther id n) (r.suspended.foldl State.unsuspend s1)

/-- Replays that have waited for a restore performed (R417). -/
def State.replayDeferred (s : State) (ctx : Nat) : State :=
  ((s.records.filter (fun r => r.ctx == ctx && r.deferred)).map (·.id)).foldl State.replayRecord s

/-! ## RESTORE (R422) -/

/-- The saved slots of a context, as operator, core and image. -/
def State.savedImages (s : State) (ctx : Nat) : List (Nat × Nat × List (Place × Target)) :=
  (s.seats.filter (fun x => x.2.state == .saved && (getAt Operator.reset s.operators (x.1 / 256)).ctx == ctx)).map (fun x =>
    (x.1 / 256, x.1 % 256, x.2.image))

/-- What a restore waits for: a host page of its images, accesses on their way to them, and their bytes where another device has them
(R112, R116, R388). -/
def State.restoreStop (s : State) (ctx : Nat) : Option HubStop :=
  let firsts := (s.savedImages ctx).flatMap (fun x => (imagePairs x.1 x.2.1 x.2.2).map (·.1))
  let bytes := firsts.flatMap (fun x => (placesFrom x.1 128).map (fun p => (p, x.2)))
  let o := saveOwner ctx
  match firsts.findSome? (s.pageStop (.save ctx)) with
  | some e => some e
  | none =>
    if s.accesses.any (fun a => a.isRemote && a.sent && a.op.isWrite
        && bytes.any (fun b => b.2 == a.target && a.op.keys.contains b.1.key)) then some (.fetch [])
    else if s.allFetched o bytes then none
    else some (.fetch bytes)

/-- A saved context restored: all its slots or none (R422). Log entry 25 (DESIGN CHOICE, unsafe). -/
def State.restoreContext (s : State) (ctx : Nat) : Option State :=
  match s.placesTaken.placeAll (s.savedNeeds ctx) with
  | none => none
  | some spots =>
    let was := s.boardedSaved ctx
    let s1 := spots.foldl State.restoreSeat s
    let s2 := s1.setCtx ctx { s1.ctxOf ctx with state := .active, windowClosed := false, progressAt := s.tick, turnSaved := false }
    some ((((s2.endAsk (.save ctx)).reboard ctx was).replayDeferred ctx).sendHeld)

/-! ## The save made (R419 to R421) -/

/-- The turn of the run list is a context's that was saved at the end of a turn, and it is restored, or what that waits for is asked for
(R388, R404). -/
def State.resumeTurn (s : State) : State :=
  match s.runList with
  | none => s
  | some l =>
    match l.entries[l.pos]? with
    | none => s
    | some e =>
      let c := s.ctxOf e.ctx
      if c.state = .saved ∧ c.turnSaved = true then
        match s.restoreContext e.ctx, s.restoreStop e.ctx with
        | none, _ => s
        | some _, some x => s.askHub (.save e.ctx) e.ctx 1 x
        | some t, none => t
      else s

/-- The next part of a save that can be made (R419): once the work it waits for has ended, markers into the open stream
invocations of the context; once its churns are quiescent, its copy commands have ended and the host pages that it writes are there,
its tasks and slots saved (R388). -/
def State.saveStep (s : State) (ctx : Nat) : State :=
  let c := s.ctxOf ctx
  if !c.forced && s.saveHeld ctx then s
  else if !c.forced && (s.netsIn ctx).any (fun n => n.2.openInv.isSome) then
    (distinct ((s.netsIn ctx).map (·.1))).foldl (fun t core => t.markStreams core (fun n => n.ctx == ctx)) s
  else if (!c.forced && !s.netsQuiet ctx) || s.copyHeld ctx then s
  else match s.saveStop ctx (s.saveSectors ctx ++ (s.drainingSeats ctx).flatMap (fun k => s.imageSectors (k / 256) (k % 256))) with
    | some e => s.askHub (.save ctx) ctx 2 e
    | none => (s.becomeSaved ctx).resumeTurn

/-- PREEMPT_SAVE_COMPLETE: a context whose window has closed, or that has no task left, is saved as far as it can be, and in
the end becomes saved (R419). -/
def execPreemptSaveComplete (ctx : Nat) (s : State) : Result :=
  let c := s.ctxOf ctx
  .next (
    if c.state = .draining ∧ (c.windowClosed = true ∨ s.tasksOf ctx = []) then s.saveStep ctx else s)

/-- The slots of a context reset (R420): its tasks discarded, tokens of its churns discarded, its tile-table entries
emptied. Log entry 31 (DEDUCED, unsafe). -/
def State.forceReset (s : State) (ctx : Nat) : State :=
  let s1 := (s.discardTasks (s.tasksOf ctx)).dropNets ctx
  let s2 := (s1.drainingSeats ctx).foldl (fun t k =>
    let q := t.seatOf (k / 256) (k % 256)
    (upFrom q.partBase q.partSize).foldl (fun u e =>
      if (u.tileOf (k % 256) e).state = 0 ∧ (u.tileOf (k % 256) e).task = false then u
      else (u.setTile (k % 256) e { u.tileOf (k % 256) e with task := false }).emptyTile (k % 256) e) t) s1
  s2.setCtx ctx { s2.ctxOf ctx with forced := true, windowClosed := true }

/-- PREEMPT_DEADLINE_EXPIRY: a context is not saved at its deadline: the record gives the live rows retired, and its slots
are reset (R420). -/
def execPreemptDeadlineExpiry (ctx : Nat) (s : State) : Result :=
  let c := s.ctxOf ctx
  .next (
    if c.state = .draining ∧ c.forced = false ∧ c.preemptAt + ticks c.deadline ≤ s.tick then
      let rows := (s.tasksOf ctx).foldl (fun n k => n + s.taskRows k) 0
      (s.forceReset ctx).report { FaultRecord.blank with
        cause := causeDEADLINE, ctx := ctx, agent := 6, word7 := rows }
    else s)

/-- SAVE_PERIOD_EXPIRY: the save is abandoned and the context is lost (R421). -/
def execSavePeriodExpiry (ctx : Nat) (s : State) : Result :=
  let c := s.ctxOf ctx
  .next (
    if c.state = .draining ∧ c.preemptAt + ticks c.savePeriod ≤ s.tick then
      ((s.loseContext ctx).report { FaultRecord.blank with cause := causeLOST, ctx := ctx, agent := 6 }).sweep
    else s)

/-- WATCHDOG_EXPIRY: none of the tasks of an active context has ended in its progress period (R421).
Log entry 33 (DEDUCED, unsafe). -/
def execWatchdogExpiry (ctx : Nat) (s : State) : Result :=
  let c := s.ctxOf ctx
  .next (
    if ctx ≠ 0 ∧ c.state = .active ∧ (findAt s.contexts ctx).isSome ∧ s.tasks.any (fun x => x.2.ctx == ctx && x.2.state != .ended)
        ∧ c.progressAt + ticks c.progress ≤ s.tick then
      ((s.terminate ctx).report { FaultRecord.blank with cause := causeWATCHDOG, ctx := ctx, agent := 6 }).sweep
    else s)

/-- FAULT_PERIOD_EXPIRY: a replayable record has stood unanswered for the fault period of its context, which is terminated
(R417). -/
def execFaultPeriodExpiry (rec : Nat) (s : State) : Result :=
  .next (match s.records.find? (fun r => r.id == rec) with
    | none => s
    | some r =>
      let c := s.ctxOf r.ctx
      if r.replayable = true ∧ r.deferred = false ∧ c.faultPeriod ≠ 0 ∧ r.arisen + ticks c.faultPeriod ≤ s.tick then
        (s.terminate r.ctx).sweep
      else s)

/-- FAULT_RECORD_READ: the front end reads the records that a die has posted, 8 standing for what belongs to no die: each
becomes an event, their merging ends, and records that waited for room are posted (R201, R414, R417). -/
def execFaultRecordRead (die : Nat) (s : State) : Result :=
  let of8 (r : FaultRecord) : Bool := if r.core / 32 = 2047 then die == 8 else r.core / 32 == die
  let new := s.records.filter (fun r => of8 r && r.posted && !r.wasRead)
  let s1 := new.foldl (fun t r => t.postEvent (t.faultQueue r.ctx) r.words) s
  let throttle (r : FaultRecord) : Option Throttle :=
    let q := r.more6 / 2 ^ 20 % 4096
    if (r.cause = causeSPILLFULL ∨ r.cause = causeSPILLFAULT) ∧ r.agent ≠ 0 then
      (findAt s.queues q).map (fun x => {
        queue := q, ctx := r.ctx, graph := x.graph
        why := if r.cause = causeSPILLFAULT then .fault r.id else if r.detail = 0x30 then .liveLimit else .full })
    else none
  let room := 1024
  let wait := (s.records.filter (fun r => of8 r && !r.posted)).map (·.id)
  .next { s1 with
    throttles := s1.throttles ++ (new.filterMap throttle).filter (fun t => !s1.throttles.contains t)
    records := s1.records.map (fun r =>
      if of8 r && r.posted then { r with wasRead := true }
      else if (wait.take room).contains r.id then { r with posted := true }
      else r) }

end Sys2Proof.Machine
end

