-- ==== Sys2Proof/Machine/Registers.lean ====
section
/-! DEFINITION. BAR0: the registers and what writing them does, firmware and configuration loads, the admin queue, doorbells
and MSI-X messages (R388 to R391, R395 to R398, R425). -/

namespace Sys2Proof.Machine

/-! ## Host queues that start and stop (R391, R396 to R398) -/

/-- A queue stopped as lapped (3) or for a bad sequence (4): the event gives HQ_CONS and the doorbell value, and the status block
follows it (R396, R397). Log entry 18 (DEDUCED, unsafe). -/
def State.stopRing (s : State) (q st : Nat) : State :=
  let s1 := s.stopQueue q st
  let h := s1.hq q
  s1.postEvent q [eventWord1 0xFFFF h.ctx st 0 4, BitVec.ofNat 64 h.cons, BitVec.ofNat 64 h.dbVal, 0, 0, 0, 0]

/-- A queue whose doorbell has lapped it stops (R396). -/
def State.lapRing (s : State) (q : Nat) : State :=
  let h := s.hq q
  if h.st = 1 ∧ h.cons + 2 ^ h.logN < h.dbVal then s.stopRing q 3 else s

/-- A queue created: it runs from SEQ 0, its status block is written, and then the events that its number still holds (R391,
R397). -/
def State.createQueue (s : State) (q : Nat) (h : HostQueue) : State :=
  let held := (s.hq q).held
  ((s.setHq q { h with st := 1, held := held }).writeStatus q).flushEvents q held

/-- A doorbell written (R391, R395, R396); what follows from it waits while the firmware pair resets (R405).
Log entry 18 (DEDUCED, unsafe). Log entry 24 (DEDUCED, unsafe). -/
def State.ringDoorbell (s : State) (q : Nat) (v : Word) : State :=
  let h := s.hq q
  if h.st = 0 ∨ v.toNat ≤ h.dbVal then s
  else
    let s1 := s.setHq q { h with dbVal := v.toNat }
    if s.ras.recovering then s1 else s1.lapRing q

/-- HQ_EVHEAD written: held events enter the ring as far as it has room, once the firmware pair runs (R391, R397, R405). -/
def State.ackEvents (s : State) (q : Nat) (v : Word) : State :=
  let h := s.hq q
  if h.st = 0 ∨ v.toNat < h.evHead then s
  else
    let s1 := s.setHq q { h with evHead := v.toNat }
    if s.ras.recovering then s1 else s1.flushEvents q h.held

/-- HQ_DOORBELL: a write to a queue's doorbell (R395). Log entry 24 (DEDUCED, unsafe). -/
def execHqDoorbell (q : Nat) (v : Word) (s : State) : Result := .next (s.ringDoorbell q v)

/-- HQ_EVHEAD: the host says which events it has consumed (R397). -/
def execHqEvhead (q : Nat) (v : Word) (s : State) : Result := .next (s.ackEvents q v)

/-- MSIX_MESSAGE: a vector's message that is due is sent, once its moderation interval has passed since the last (R397).
Log entry 23 (DEDUCED, unsafe). -/
def execMsixMessage (vector : Nat) (s : State) : Result :=
  let open' := match findAt s.msixLast vector with
    | some t => decide (t + ticks (Config.moderation vector % 1001) ≤ s.tick)
    | none => true
  .next (
    if s.msixDue.contains vector && open' then
      ({ s with
        msixDue := s.msixDue.filter (· ≠ vector)
        msixLast := putAt s.msixLast vector s.tick } : State).reply (.msix vector)
    else s)

/-! ## Loads and bring-up (R390, R425) -/

/-- FWSTAT reads 3 or 4: writes to the load registers are ignored (R390). -/
def Control.busy (c : Control) : Bool := c.fwstat == 3 || c.fwstat == 4

/-- A load begins: 1 of firmware, 2 of a configuration block. -/
def State.startLoad (s : State) (kind : Nat) : State :=
  let c := s.control
  if c.busy then s else { s with control := { c with loading := kind, resume := c.fwstat, fwstat := 3, loads := c.loads + 1 } }

/-- FW_LOAD: FW_GO = 1 (R425). -/
def execFwLoad (s : State) : Result := .next (s.startLoad 1)

/-- CONFIG_LOAD: FW_GO = 2 (R425). Log entry 19 (DESIGN CHOICE, unsafe). -/
def execConfigLoad (s : State) : Result := .next (s.startLoad 2)

/-- FW_LOAD_COMPLETE: both signatures of the image verify and bring-up begins, or FWSTAT reads 2 (R425). -/
def execFwLoadComplete (ok : Bool) (version : Word) (s : State) : Result :=
  let c := s.control
  .next (
    if c.fwstat = 3 ∧ c.loading = 1 then
      { s with control :=
          if ok then { c with loading := 0, fwstat := 4, fwVersion := version, image := c.loads } else { c with loading := 0, fwstat := 2 } }
    else s)

/-- CONFIG_LOAD_COMPLETE: the block is accepted, or rejected alone (R425). Log entry 19 (DESIGN CHOICE, unsafe). -/
def execConfigLoadComplete (ok : Bool) (s : State) : Result :=
  let c := s.control
  .next (
    if c.fwstat = 3 ∧ c.loading = 2 then
      { s with control := { c with
        loading := 0, fwstat := c.resume, cfgstat := if ok then 1 else 2
        blocks := if ok then c.blocks ++ [c.loads] else c.blocks } }
    else s)

/-! ## The admin queue (R390, R391, R393) -/

/-- The sizes of two rings are within their limits (R393). -/
def ringSizesOk (n m : Nat) : Bool := decide (4 ≤ n ∧ n ≤ 16 ∧ 4 ≤ m ∧ m ≤ 16)

/-- Queue 0 as the AQ registers give it. -/
def Control.adminQueue (c : Control) : HostQueue :=
  { HostQueue.reset with
    logN := fieldOf c.aqSize 4 0, logM := fieldOf c.aqSize 12 8, vector := fieldOf c.aqSize 26 16, cmdBase := c.aqCmd.toNat,
    evBase := c.aqEv.toNat, stbBase := c.aqStb.toNat }

/-- AQ_EN set: queue 0 is created and runs; events that have waited for it are written (R390, R391, R397).
Log entry 20 (DESIGN CHOICE, unsafe). -/
def State.enableAdmin (s : State) : State :=
  let c := s.control
  let h := c.adminQueue
  if c.fwstat = 1 ∧ c.aqEnabled = false ∧ ringSizesOk h.logN h.logM = true then
    ({ s with control := { c with aqEnabled := true } } : State).createQueue 0 h
  else s

/-- AQ_EN cleared: queue 0 stops (R390). Log entry 20 (DESIGN CHOICE, unsafe). -/
def State.disableAdmin (s : State) : State :=
  if s.control.aqEnabled then
    (({ s with control := { s.control with aqEnabled := false } } : State).stopQueue 0 2).writeStatus 0
  else s

/-- AQ_ENABLE (R390). -/
def execAqEnable (s : State) : Result := .next s.enableAdmin

/-- AQ_DISABLE (R390). -/
def execAqDisable (s : State) : Result := .next s.disableAdmin

/-! ## Reading and writing BAR0 (R6, R7, R389 to R392, R398) -/

/-- FWSTAT (R390). -/
def Control.fwstatWord (c : Control) : Word := BitVec.ofNat 64 (c.fwstat + c.cfgstat * 2 ^ 8)

/-- A register of the device-control block (R390). -/
def State.controlReg (s : State) (off : Nat) : Word :=
  let c := s.control
  match off with
  | 0x00 => 0x12800001
  | 0x08 => BitVec.ofNat 64 (s.chip % 4096 + (if c.degraded then 4096 else 0) + (if c.failed then 8192 else 0))
  | 0x10 => c.fwAddr
  | 0x18 => c.fwLen
  | 0x28 => c.fwstatWord
  | 0x30 => c.fwVersion
  | 0x40 => c.aqCmd
  | 0x48 => c.aqEv
  | 0x50 => c.aqStb
  | 0x58 => c.aqSize
  | 0x60 => if c.aqEnabled then 1 else 0
  | _ => 0

/-- A word of a queue's configuration block (R398). -/
def State.queueReg (s : State) (q word : Nat) : Word :=
  match findAt s.hostQueues q with
  | none => 0
  | some h =>
    match word with
    | 0 => h.stateWord
    | 1 => BitVec.ofNat 64 h.cons
    | 2 => BitVec.ofNat 64 h.evPost
    | 3 => BitVec.ofNat 64 h.dbVal
    | k => Config.queueCopy k [h.cmdBase, h.evBase, h.stbBase, h.logN, h.logM, h.vector, h.ctx, q]

/-- What 8 bytes of BAR0 at an aligned offset read (R389 to R392, R398).
Log entry 22 (DESIGN CHOICE, safe). Log entry 23 (DEDUCED, unsafe). -/
def State.barRead (s : State) (off : Nat) : Word :=
  if off < 0x100000 then s.controlReg off
  else if off < 0x200000 then s.queueReg ((off - 0x100000) / 128) (off % 128 / 8)
  else if off < 0x208000 then getAt 0 s.control.msixTable ((off - 0x200000) / 8)
  else if off < 0x208100 then
    BitVec.ofNat 64 ((List.range 64).foldl (fun n b =>
      if s.msixDue.contains ((off - 0x208000) / 8 * 64 + b) then n + 2 ^ b else n) 0)
  else if 0x210000 ≤ off ∧ off < 0x218000 then getAt 0 s.control.apertures ((off - 0x210000) / 8)
  else 0

/-- A load register written, unless a load or bring-up is under way (R390). Log entry 19 (DESIGN CHOICE, unsafe). -/
def State.setLoad (s : State) (f : Control → Control) : State :=
  if s.control.busy then s else { s with control := f s.control }

/-- A register of queue 0 written, unless AQ_EN is 1 (R390). -/
def State.setAdmin (s : State) (f : Control → Control) : State :=
  if s.control.aqEnabled then s else { s with control := f s.control }

/-- A register of the device-control block written (R390). -/
def State.setControlReg (s : State) (off : Nat) (v : Word) : State :=
  match off with
  | 0x10 => s.setLoad (fun c => { c with fwAddr := v })
  | 0x18 => s.setLoad (fun c => { c with fwLen := v })
  | 0x20 => if v = 1 then s.startLoad 1 else if v = 2 then s.startLoad 2 else s
  | 0x40 => s.setAdmin (fun c => { c with aqCmd := v })
  | 0x48 => s.setAdmin (fun c => { c with aqEv := v })
  | 0x50 => s.setAdmin (fun c => { c with aqStb := v })
  | 0x58 => s.setAdmin (fun c => { c with aqSize := v &&& 0x07FF1F1F })
  | 0x60 => if v.getLsbD 0 then s.enableAdmin else s.disableAdmin
  | _ => s

/-- The bits of a word of an aperture-table entry that are not 0 (R392). -/
def apertureMask (word : Nat) : Word :=
  if word % 2 = 0 then BitVec.ofNat 64 ((2 ^ 19 - 1) * 2 ^ 30 + 1) else 0xFFFF

/-- A register of BAR0 written whole (R389 to R392). Log entry 21 (DESIGN CHOICE, unsafe). -/
def State.barWrite (s : State) (off : Nat) (v : Word) : State :=
  if off < 0x100000 then s.setControlReg off v
  else if 0x200000 ≤ off ∧ off < 0x208000 then
    { s with control := { s.control with msixTable := putAt s.control.msixTable ((off - 0x200000) / 8) v } }
  else if 0x210000 ≤ off ∧ off < 0x218000 then
    let k := (off - 0x210000) / 8
    { s with control := { s.control with apertures := putAt s.control.apertures k (v &&& apertureMask k) } }
  else if 0x1000000 ≤ off ∧ off < 0x3000000 then
    match off % 4096 with
    | 0 => s.ringDoorbell ((off - 0x1000000) / 4096) v
    | 8 => s.ackEvents ((off - 0x1000000) / 4096) v
    | _ => s
  else s

/-- A write of 4 bytes to BAR0: the low half of a register is kept, and the register is written with the high half (R389).
Log entry 21 (DESIGN CHOICE, unsafe). -/
def State.halfWrite (s : State) (off : Nat) (v : Word) : State :=
  let low := BitVec.ofNat 32 v.toNat
  if off % 8 = 0 then { s with control := { s.control with halves := putAt s.control.halves off low } }
  else
    let kept := match findAt s.control.halves (off - 4) with
      | some x => x
      | none => BitVec.ofNat 32 (s.barRead (off - 4)).toNat
    let s1 : State := { s with control := { s.control with halves := dropAt s.control.halves (off - 4) } }
    s1.barWrite (off - 4) (BitVec.ofNat 64 (low.toNat * 2 ^ 32 + kept.toNat))

/-- REGISTER_WRITE: the host writes 8 bytes, or 4, of BAR0 (R389). -/
def execRegisterWrite (off size : Nat) (v : Word) (s : State) : Result :=
  .next (
    if size = 8 ∧ off % 8 = 0 then s.barWrite off v
    else if size = 4 ∧ off % 4 = 0 then s.halfWrite off v
    else s)

/-! ## Resets (R388, R425) -/

/-- The device after its power has come on, or a cold reset: the state of reset, with what belongs to the outside world, and
no byte of memory known any more (R97, R425). -/
def State.restart (s : State) : State :=
  { State.reset with
    inputs := s.inputs, fresh := s.fresh + 1, hostWorks := s.hostWorks, replies := s.replies, hostAtomics := s.hostAtomics
    mem := s.mem.clearedBut ofHost }

/-- POWER_ON: the boot ROM starts the hub and waits for firmware (R425). Log entry 45 (DEDUCED, unsafe). -/
def execPowerOn (s : State) : Result := .next s.restart

/-- COLD_RESET: as at power-on, a new push of firmware is needed (R425). Log entry 45 (DEDUCED, unsafe). -/
def execColdReset (s : State) : Result := .next s.restart

/-- FLR: every context ends as CTXDESTROY ends it and every queue stops; memory and firmware stay (R388).
Log entry 20 (DESIGN CHOICE, unsafe). -/
def execFlr (s : State) : Result :=
  let s1 := (s.contexts.map (·.1)).foldl State.destroy s
  let s2 := (s1.hostQueues.map (·.1)).foldl (fun t q =>
    if (t.hq q).st = 0 ∨ (t.hq q).st = 2 then t else (t.stopQueue q 2).writeStatus q) s1
  .next ({ s2 with control := { s2.control with aqEnabled := false } } : State).sweep

end Sys2Proof.Machine
end

