-- ==== Sys2Proof/Machine/HostAccess.lean ====
section
/-! DEFINITION. What the host does to the device's memory and the device to the host's: accesses through BAR2, and the answers
to page requests (R115, R202, R388, R392). -/

namespace Sys2Proof.Machine

/-! ## BAR2 (R392) -/

/-- What an access through BAR2 needs of its page. -/
def HostAccess.need (a : HostAccess) : Need :=
  match a with
  | .read _ => .read
  | .write _ => .write
  | .atomic .. => .atomic

/-- Its length in bytes. -/
def HostAccess.size (a : HostAccess) : Nat :=
  match a with
  | .read n => n
  | .write d => d.length
  | .atomic _ n _ _ => n

/-- A PCIe request: within the payload and read-request limits of the port, and for an atomic one of the AtomicOps on 4 or 8
aligned bytes (R115, R388). Log entry 34 (DEDUCED, unsafe). -/
def HostAccess.ok (a : HostAccess) (off : Nat) : Bool :=
  match a with
  | .read n => decide (n ≤ 4096)
  | .write d => decide (d.length ≤ 512)
  | .atomic op n _ _ => hostAtomicOk op && decide ((n = 4 ∨ n = 8) ∧ off % n = 0)

/-- An aperture: the context and the virtual base, if it is valid and the context exists (R392). -/
def State.aperture (s : State) (i : Nat) : Option (Nat × Nat) :=
  let w := getAt 0 s.control.apertures (2 * i)
  let ctx := fieldOf (getAt 0 s.control.apertures (2 * i + 1)) 15 0
  if s.control.everReady && decide (i < 2048) && w.getLsbD 0 && (findAt s.contexts ctx).isSome then some (ctx, fieldOf w 48 30 * 2 ^ 30)
  else none

/-! ## The front end's own accesses by virtual address (R388, R392, R400) -/

/-- The sectors of `n` bytes translated for a context: the place and target of each byte, or what stops the access. -/
def State.hubBytes (s : State) (who : AskOwner) (ctx va n : Nat) (need : Need) : Except HubStop (List (Place × Target)) :=
  let secs := upFrom (va / 128) ((va + n + 127) / 128 - va / 128)
  let xs := secs.map (fun q => (q, s.hubXlate ctx (BitVec.ofNat 64 (128 * q)) need))
  match xs.findSome? (fun x => match x.2 with
    | .error e => some (HubStop.fault e.1 e.2 (max va (128 * x.1)))
    | .ok _ => none) with
  | some e => .error e
  | none =>
    let firsts := xs.filterMap (fun x => match x.2 with
      | .ok y => some y
      | .error _ => none)
    match firsts.findSome? (s.pageStop who) with
    | some e => .error e
    | none => .ok (((firsts.flatMap (fun x => (placesFrom x.1 128).map (fun p => (p, x.2)))).drop (va % 128)).take n)

/-- `n` bytes at a virtual address of a context read, or what stops the reading; poison does, and a failed host read (R202, R403,
R410). -/
def State.hubRead (s : State) (who : AskOwner) (ctx va n : Nat) : Except HubStop (List Byte) :=
  match s.hubBytes who ctx va n .read with
  | .error e => .error e
  | .ok xs =>
    if !s.allFetched (who.owner ctx) xs then .error (.fetch xs)
    else if xs.any (s.enginePoison (who.owner ctx)) || (!s.hostWorks && xs.any (fun x => x.1.isHost && x.2 == .here)) then
      .error (.fault causePOISON 0 va)
    else .ok (xs.map (s.engineByte (who.owner ctx) s.mem.readByte))

/-- The bytes that a write of the front end at a virtual address goes to; a failed host write stops it (R403, R412). -/
def State.hubWrites (s : State) (who : AskOwner) (ctx va n : Nat) : Except HubStop (List (Place × Target)) :=
  match s.hubBytes who ctx va n .write with
  | .error e => .error e
  | .ok xs => if !s.hostWorks && xs.any (fun x => x.1.isHost && x.2 == .here) then .error (.fault causePROT 2 va) else .ok xs

/-- Bytes stored by an agent that belongs to no core, each run of one target by itself. -/
def State.hubStore (s : State) (o : Owner) (xs : List (Place × Target)) (data : List Byte) : State :=
  let all := xs.zip data
  (distinctTargets xs).foldl (fun t tg =>
    t.engineStore o tg ((all.filter (fun x => decide (x.1.2 = tg))).map (fun x => (x.1.1, x.2)))) s
where
  /-- The targets of some places, each once. -/
  distinctTargets (xs : List (Place × Target)) : List Target :=
    xs.foldl (fun acc x => if acc.contains x.2 then acc else acc ++ [x.2]) []

/-- An atomic of the host on bytes of another chip: sent, and answered when the old value has come back (R112, R115); the second part
says whether it is done. -/
def State.hostRemoteAtomic (s : State) (o : Owner) (off chip : Nat) (xs : List (Place × Target)) (op : AtomicOp) (x y : Word) :
    State × Bool :=
  if s.fetchOut o then (s, false)
  else if (s.unread o xs).isEmpty then
    (s.reply (.hostAccess off (xs.map (s.engineByte o s.mem.readByte)) (xs.any (s.enginePoison o)) false), true)
  else (s.sendAccess (s.engineAccess o chip (.atomic op (xs.map (·.1)) x y true .fetch)), false)

/-- An access of the host performed on its bytes (R99, R100, R112, R115, R202); the second part says whether it is done. -/
def State.hostPerform (s : State) (off ctx : Nat) (xs : List (Place × Target)) (a : HostAccess) : State × Bool :=
  let who := AskOwner.bar2 off a
  let o := who.owner ctx
  let bad := xs.any (s.enginePoison o)
  match a with
  | .read _ =>
    if !s.allFetched o xs then (s.askHub who ctx 1 (.fetch xs), false)
    else (s.reply (.hostAccess off (xs.map (s.engineByte o s.mem.readByte)) bad false), true)
  | .write d => ((s.hubStore o xs d).reply (.hostAccess off [] false false), true)
  | .atomic op n x y =>
    match (xs.headD (plainPlace 0 0, .here)).2 with
    | .chip c => s.hostRemoteAtomic o off c xs op x y
    | _ =>
      if bad then (s.reply (.hostAccess off (xs.map (s.engineByte o s.mem.readByte)) true false), true)
      else
        let (s1, old) := s.runAtomic none op (xs.map (·.1)) x y
        (s1.reply (.hostAccess off (toBytes n old) false false), true)

/-- A write of the host to bytes of another device has not been acknowledged. -/
def State.hostStoreOut (s : State) : Bool :=
  s.accesses.any (fun a => match a.issuer, a.op with
    | .frontEnd (.bar2 ..), .store _ => a.isRemote
    | _, _ => false)

/-- The host's access whose turn it is, translated by the page tables of its aperture's context, as far as it goes, and whether it is
done: one that finds the aperture invalid or whose translation fails is an Unsupported Request (R392); one that comes after a write
that another device has not acknowledged, or needs a page of the host or bytes of another device, waits (R112, R115, R388).
Log entry 34 (DEDUCED, unsafe). -/
def State.tryBar2 (s : State) (off : Nat) (a : HostAccess) : State × Bool :=
  match s.aperture (off / 2 ^ 30) with
  | none => (s.reply (.hostAccess off [] false true), true)
  | some (ctx, base) =>
    let who := AskOwner.bar2 off a
    if s.hostStoreOut then (s, false)
    else match s.hubBytes who ctx (base + off % 2 ^ 30) (HostAccess.size a) (HostAccess.need a) with
      | .error (.fault cause detail va) =>
        ((s.report { FaultRecord.blank with
          cause := cause, detail := detail, ctx := ctx, va := BitVec.ofNat 64 va, page := s.pageOf hubCore ctx (BitVec.ofNat 64 va)
          access := (HostAccess.need a).code, agent := 6 }).reply (.hostAccess off [] false true), true)
      | .error .refused => (s.reply (.hostAccess off [] false true), true)
      | .error e => (s.askHub who ctx (HostAccess.need a).code e, false)
      | .ok xs => s.hostPerform off ctx xs a

/-- Accesses of the host made in the order of their arrival, up to one that waits (R115). -/
def State.runBar2 (s : State) : Nat → State
  | 0 => s
  | n + 1 =>
    match s.bar2 with
    | [] => s
    | (off, a) :: rest =>
      match s.tryBar2 off a with
      | (t, true) => ({ t.endAsk (.bar2 off a) with bar2 := rest } : State).runBar2 n
      | (t, false) => t

/-- The host's accesses that wait tried again. -/
def State.goBar2 (s : State) : State := s.runBar2 s.bar2.length

/-- HOST_BAR2_ACCESS: an access of the host arrives: it is made after those that came before it (R115, R392). Log entry 34 (DEDUCED,
unsafe). -/
def execHostBar2Access (off : Nat) (a : HostAccess) (s : State) : Result :=
  .next (
    if !HostAccess.ok a off then s.reply (.hostAccess off [] false true)
    else ({ s with bar2 := s.bar2 ++ [(off, a)] } : State).goBar2)

/-! ## Page requests (R388) -/

/-- The PROT detail of an access kind that the host refuses (R388, R417). -/
def refusedDetail (access : Nat) : Nat := if access = 1 then 1 else if access = 4 then 3 else 2

/-- The host page that a carried instruction waits for. -/
def State.carriedPage (s : State) (core : Nat) (c : CopyCmd) : Option (Nat × Nat × Word) :=
  if c.fn ≠ 5 ∨ (s.seatOf c.oper core).state = .saved ∨ c.status = .waiting ∨ c.carrying = true ∨ c.poison.isSome ∨ !s.copyDone core c then none
  else
    let w := c.w 7
    let u := s.copyUser core c
    let d := fieldOf w 22 19
    let a := fieldOf w 18 13
    let page (m : MatStop) : Option (Nat × Nat × Word) := match m with
      | .hostPage p va => some (p, 1, va)
      | _ => none
    let form (k : Nat) : ProductForm := if k = 0 then .mma else if k = 1 then .mmaz else .mmab
    if fieldOf w 6 0 ≤ 2 then
      match etypeOf (c.mr.extractLsb' 4 4).toNat with
      | none => none
      | some et =>
        match s.productPlan (c.owner core) u s.mem.readByte (form (fieldOf w 6 0)) d a (c.w 8) et (c.mr.getLsbD 10) with
        | .error m => page m
        | .ok _ => none
    else if fieldOf w 6 0 = 3 then
      match s.scalePlan (c.owner core) u s.mem.readByte d a (c.w 8) with
      | .error m => page m
      | .ok _ => none
    else none

/-- The commands of a core that wait for a host page, with the access kind and the address. -/
def State.copiesOn (s : State) (core page : Nat) : List (CopyCmd × Nat × Word) :=
  (s.copyRow core).cmds.filterMap (fun c =>
    match (s.copyPage core c).or (s.carriedPage core c) with
    | some (p, a, va) => if p = page then some (c, a, va) else none
    | none => none)

/-- The host page that an address generator waits for: with the `xop` it serves, its address and whether it writes. -/
def State.agPage (s : State) (core churn ag : Nat) : Option (Nat × Net × Option XopRec × Word × Bool) :=
  match (s.churn core churn).net with
  | none => none
  | some n =>
    match s.image core n.ctx n.slot with
    | none => none
    | some g =>
      let pos := 24 + ag
      let a := n.ag ag
      let num := n.passedAt pos 0
      let e := entryAt (g.planeFor (n.versionAt g num)) pos
      let x := (n.inv num).bind (fun i => i.xopOf (n.firedAt pos 0))
      let va := agAddress e a
      let write := entryOp e == 0x21
      if ag ≥ 2 ∨ churn ≥ 4 ∨ entryOp e = 0 ∨ a.stopped.isSome ∨ a.over e ∨ a.abandoned ∨ !aligned va 4
          ∨ !copies16.all (fun c => (g.into pos).all (n.ready c) && n.roomOut g c pos) then none
      else
        let secs := distinctWords ((agPlaces va).map sectorVa)
        match s.xlateEngine { oper := ((x.map (fun r => (s.taskOf r.agent).oper)).getD 0), core := core, ctx := n.ctx, boarded := 0 }
            secs (if write then .write else .read) with
        | .error (.hostPage p _) => some (p, n, x, va, write)
        | _ => none

/-- The address generators of the device by core, churn and number. -/
def State.agList (s : State) : List (Nat × Nat × Nat) :=
  s.churns.flatMap (fun x => (List.range 4).flatMap (fun c => [(x.1, c, 0), (x.1, c, 1)]))

/-- The fragments that wait for a host page, with the access kind and the address. -/
def State.fragsOnPage (s : State) (page : Nat) : List (FragId × Nat × Word) :=
  s.frags.filterMap (fun x => match x.2.status with
    | .awaitingPage p need va => if p = page then some (fragIdOf x.1, need, va) else none
    | _ => none)

/-- A request for a host page is out. Log entry 35 (DEDUCED, unsafe). -/
def State.pageWanted (s : State) (page : Nat) : Bool :=
  !(s.fragsOnPage page).isEmpty || s.copies.any (fun x => !(s.copiesOn x.1 page).isEmpty)
    || s.agList.any (fun a => ((s.agPage a.1 a.2.1 a.2.2).map (·.1)) == some page)
    || s.rounds.any (fun r => s.roundPage r.1 == some page) || s.flights.any (fun f => s.flightPage f == some page)
    || s.asks.any (fun a => a.page == page && !a.refused)

/-- A page granted: its translation is held, and the fragments that waited for it go on. Log entry 35 (DEDUCED, unsafe). -/
def State.grantPage (s : State) (page : Nat) : State :=
  let s1 : State := { s with
    ats := if s.ats.contains page then s.ats else s.ats ++ [page]
    asks := s.asks.filter (fun a => a.page != page) }
  ((s.fragsOnPage page).foldl (fun t x => t.setFrOf x.1 { t.frOf x.1 with status := .ready }) s1).goBar2

/-- A page refused to the front end, or to the spill area of a queue: what has asked for it fails, and a record is posted, of a spill
access the SPILL_FAULT of its queue when the access is tried (R340, R388, R417). Log entry 35 (DEDUCED, unsafe). -/
def State.refuseAsks (s : State) (page : Nat) : State :=
  let out := s.asks.filter (fun a => a.page == page && !a.refused && match a.owner with
    | .spill _ => false
    | _ => true)
  let s1 : State := { s with asks := s.asks.map (fun a => if a.page = page then { a with refused := true } else a) }
  (out.foldl (fun t a => t.report { FaultRecord.blank with
    cause := causePROT, detail := refusedDetail a.access, ctx := a.ctx, va := a.va, page := s.pageOf hubCore a.ctx a.va
    access := a.access, agent := 6 }) s1).goBar2

/-- A page refused: every fragment and engine that waits for it meets a protection fault (R267, R294, R327, R377, R388).
Log entry 35 (DEDUCED, unsafe). -/
def State.refusePage (s : State) (page : Nat) : State :=
  let s1 := (s.fragsOnPage page).foldl (fun t x => t.suspend x.1 causePROT (refusedDetail x.2.1) x.2.1 x.2.2) s
  let s2 := (s.copies.map (·.1)).foldl (fun t core =>
    (t.copiesOn core page).foldl (fun u c => u.failCopy core c.1 3 c.2.1 0 c.2.2) t) s1
  let s3 := s.agList.foldl (fun t a =>
    match t.agPage a.1 a.2.1 a.2.2 with
    | some (p, n, x, va, write) => if p = page then t.agFault a.1 a.2.1 a.2.2 n x va write 2 else t
    | none => t) s2
  let s4 := (s.rounds.map (·.1)).foldl (fun t n =>
    if t.roundPage n = some page then
      match t.movingRound n with
      | some (r, e) => t.stopRound n r e 0xFFFF
      | none => t
    else t) s3
  (s4.flights.foldl (fun t f =>
    if t.flightPage f = some page then t.stopFlight f (BitVec.ofNat 64 f.rowAddr) causePROT 2 else t) s4).refuseAsks page

/-- PRI_RESPONSE: the host answers a page request (R388). -/
def execPriResponse (page : Nat) (ok : Bool) (s : State) : Result :=
  .next (if !s.pageWanted page then s else if ok then s.grantPage page else s.refusePage page)

end Sys2Proof.Machine
end

