-- ==== Sys2Proof/Machine/Install.lean ====
section
/-! DEFINITION. INSTALL: the structures that it reads, its checks in the order of R410, and the graph put in place at one
instant (R16 to R21, R188, R191, R235, R295, R308 to R311, R336, R353, R368, R408, R410, R411). -/

namespace Sys2Proof.Machine

/-! ## Reading descriptors (R400, R403, R410) -/

/-- How a command reads: for whom, and at host bus addresses or at virtual addresses of a context (R400). -/
structure Reader where
  who : AskOwner
  ctx : Nat
  host : Bool

/-- Bytes that a command reads, or what stops it: at a host bus address a failed host read or poison, else what stops an access
of the front end (R388, R403, R410). -/
def State.descBytes (s : State) (r : Reader) (addr n : Nat) : Except HubStop (List Byte) :=
  if r.host then
    if !s.hostWorks || (upFrom (hostBase + addr % hostBase) n).any (fun k => s.mem.poisoned k) then .error (.fault causePOISON 0 addr)
    else .ok (s.hostRead addr n)
  else s.hubRead r.who r.ctx addr n

/-- A structure of `n` bytes as a number. -/
def State.descNat (s : State) (r : Reader) (addr n : Nat) : Except HubStop Nat := (s.descBytes r addr n).map ofBytes

/-- The structures of an array, `n` of them of a size. -/
def State.descArray (s : State) (r : Reader) (addr size n : Nat) : Except HubStop (List Nat) :=
  if n = 0 then .ok []
  else (s.descBytes r addr (size * n)).map (fun bs => (List.range n).map (fun i => ofBytes ((bs.drop (size * i)).take size)))

/-- Every value of a list, or the first of what stops them, one that fails before one that waits. -/
def allRead {α : Type} (l : List (Except HubStop α)) : Except HubStop (List α) :=
  l.foldr (fun x acc =>
    match x, acc with
    | .ok a, .ok as => .ok (a :: as)
    | .ok _, .error e => .error e
    | .error e, .ok _ => .error e
    | .error e, .error e' => .error (if e.fails || !e'.fails then e else e')) (.ok [])

/-! ## Launch blocks (R20, R21) -/

/-- A role entry. -/
def roleOf (v : Nat) : Role :=
  { entry := BitVec.ofNat 64 (bitsOf v 48 0), regs := bitsOf v 71 64, waves := bitsOf v 78 72, cls := bitsOf v 81 80,
    mrInit := BitVec.ofNat 25 (bitsOf v 112 88), arg := BitVec.ofNat 64 (bitsOf v 191 128),
    stkBase := BitVec.ofNat 64 (bitsOf v 248 192), stkSize := bitsOf v 287 256 }

/-- MRINIT has no reserved bit and no reserved scope or etype code (R21, R40, R77, R410). -/
def mrInitOk (m : BitVec 25) : Bool :=
  decide (bitsOf m.toNat 24 16 = 0 ∧ bitsOf m.toNat 13 11 ≤ 5 ∧ bitsOf m.toNat 7 4 ≤ 10)

/-- A role entry has every reserved field 0 and every field in its range (R20). Log entry 63 (DEDUCED, unsafe). -/
def roleOk (v : Nat) : Bool :=
  decide (bitsOf v 511 321 = 0 ∧ bitsOf v 319 288 = 0 ∧ bitsOf v 255 249 = 0 ∧ bitsOf v 248 241 = 0 ∧ bitsOf v 127 113 = 0
    ∧ bitsOf v 87 82 = 0 ∧ bitsOf v 79 79 = 0 ∧ bitsOf v 63 49 = 0 ∧ bitsOf v 287 256 % 16 = 0 ∧ bitsOf v 248 192 % 16 = 0
    ∧ 1 ≤ bitsOf v 78 72 ∧ bitsOf v 78 72 ≤ 64 ∧ 1 ≤ bitsOf v 71 64 ∧ bitsOf v 71 64 ≤ 16)
    && mrInitOk (BitVec.ofNat 25 (bitsOf v 112 88))

/-- The classes of a launch block are those that R21 admits. -/
def classesOk (cs : List Nat) : Bool := cs == [0] || (!cs.isEmpty && !cs.contains 0 && decide ((distinct cs).length = cs.length))

/-- A launch block satisfies R21, but for MRINIT, whose bits R410 checks with the fields. -/
def rolesOk (rs : List Role) : Bool :=
  classesOk (rs.map (·.cls)) && decide (rs.foldl (fun n r => n + r.waves) 0 ≤ 64)
    && decide (rs.foldl (fun n r => n + r.waves * r.regs) 0 ≤ 496)
    && rs.all (fun r => decide (r.entry.toNat % 4 = 0))

/-- The role entries of a block, up to three, the first without V ending it (R20). -/
def State.readRoles (s : State) (r : Reader) (addr : Nat) : Nat → Except HubStop (List Nat)
  | 0 => .ok []
  | n + 1 =>
    match s.descNat r addr 64 with
    | .error e => .error e
    | .ok v => if v.testBit 320 then (s.readRoles r (addr + 64) n).map (fun l => v :: l) else .ok []

/-! ## What a descriptor gives -/

/-- An operator to be installed: its table entry, its group entry's index, and its role entries. -/
structure OpPlan where
  index : Nat
  entry : Nat
  roles : List Nat

/-- Fields of an operator-table entry (R411). -/
def OpPlan.f (o : OpPlan) (hi lo : Nat) : Nat := bitsOf o.entry hi lo
/-- GROUP. -/
def OpPlan.group (o : OpPlan) : Nat := o.f 199 192
/-- SLOT. -/
def OpPlan.slot (o : OpPlan) : Nat := o.f 202 200
/-- Entries of the partition. -/
def OpPlan.part (o : OpPlan) : Nat := o.f 239 234 + 1
/-- Accumulator tiles. -/
def OpPlan.acc (o : OpPlan) : Nat := o.f 244 240
/-- Lines pinned at install (R188). -/
def OpPlan.lines (o : OpPlan) : Nat := 2 * o.part + o.f 291 256
/-- INQ. -/
def OpPlan.inq (o : OpPlan) : Nat := o.f 215 204
/-- CHURN. -/
def OpPlan.churn (o : OpPlan) : Nat := o.f 249 245

/-- A graph to be installed: the descriptor's words 0 and 7, operators, queue descriptors, round descriptors with their entries and
the addresses they were read at, expert table, churn reservation table, stream table. -/
structure GraphPlan where
  word0 : Nat
  word7 : Nat
  ops : List OpPlan
  queues : List Nat
  rounds : List (BitVec 512 × List (BitVec 256))
  roundsAt : List Nat
  experts : Option (List Nat)
  churn : List Nat
  streams : List Nat

/-- The graph descriptor has every reserved bit 0 and every count in its range (R410). -/
def graphOk (w0 w7 : Nat) : Bool :=
  decide (bitsOf w0 63 51 = 0 ∧ 1 ≤ bitsOf w0 31 16 ∧ bitsOf w0 31 16 ≤ 1024 ∧ bitsOf w0 43 32 ≤ 4095 ∧ bitsOf w0 50 44 ≤ 64
    ∧ bitsOf w7 63 11 = 0 ∧ bitsOf w7 10 0 ≤ 1024)

/-- Its graph id. -/
def GraphPlan.id (g : GraphPlan) : Nat := bitsOf g.word0 15 0

/-- The operators of a graph read with their launch blocks. -/
def State.readOps (s : State) (r : Reader) (addr n : Nat) : Except HubStop (List OpPlan) :=
  match s.descArray r addr 64 n with
  | .error e => .error e
  | .ok es => allRead (es.zipIdx.map (fun x =>
      (s.readRoles r (bitsOf x.1 48 0) 3).map (fun l => { index := x.2, entry := x.1, roles := l })))

/-- A round descriptor read with its entries (R309, R410). -/
def State.readRound (s : State) (r : Reader) (addr : Nat) : Except HubStop (BitVec 512 × List (BitVec 256)) :=
  match s.descNat r addr 64 with
  | .error e => .error e
  | .ok d =>
    let v := BitVec.ofNat 512 d
    (s.descArray r (descBase v) 32 (descEntries v)).map (fun es => (v, es.map (BitVec.ofNat 256)))

/-- The structures of a graph read, every one of them before any check is made (R410). -/
def State.readGraph (s : State) (r : Reader) (addr : Nat) : Except HubStop GraphPlan :=
  match s.descBytes r addr 64 with
  | .error e => .error e
  | .ok bs =>
    let w := (wordsOf bs 8).map (·.toNat)
    let at' (i : Nat) : Nat := w.getD i 0
    let ops := s.readOps r (at' 1) (bitsOf (at' 0) 31 16)
    let ps := s.descArray r (at' 3) 8 (bitsOf (at' 0) 50 44)
    let rounds := ps.bind (fun l => allRead (l.map (s.readRound r)))
    let lists := allRead [s.descArray r (at' 2) 32 (bitsOf (at' 0) 43 32), s.descArray r (at' 4) 4 (if at' 4 = 0 then 0 else 256),
      s.descArray r (at' 5) 1 (if at' 5 = 0 then 0 else 256), s.descArray r (at' 6) 16 (bitsOf (at' 7) 10 0), ps]
    match allRead [ops.map (fun _ => ()), rounds.map (fun _ => ()), lists.map (fun _ => ())], ops, rounds, lists with
    | .ok _, .ok os, .ok rs, .ok [qs, es, cs, ts, as] =>
      .ok { word0 := at' 0, word7 := at' 7, ops := os, queues := qs, rounds := rs, roundsAt := as,
            experts := if at' 4 = 0 then none else some es, churn := cs, streams := ts }
    | .error e, _, _, _ => .error e
    | _, _, _, _ => .error .refused

/-! ## Checks of fields and of ownership (R7, R16, R18, R336, R411) -/

/-- An operator-table entry has every reserved bit 0 and every field in its range (R7, R194, R411).
Log entry 63 (DEDUCED, unsafe). -/
def OpPlan.fieldsOk (o : OpPlan) : Bool :=
  decide (o.f 511 292 = 0 ∧ o.f 291 272 = 0 ∧ o.f 255 250 = 0 ∧ o.f 203 203 = 0 ∧ o.f 191 162 = 0 ∧ o.f 127 113 = 0 ∧ o.f 63 49 = 0
    ∧ o.churn ≤ 16 ∧ o.acc ≤ 16 ∧ (o.f 231 216 = 0 ∨ 16 ≤ o.f 231 216) ∧ o.f 112 64 % 128 = 0 ∧ o.f 48 0 % 64 = 0)
    && shapeOk (BitVec.ofNat 64 (o.f 161 128)) && o.roles.all roleOk

/-- A queue descriptor has every reserved bit 0 and every field in its range (R336). Log entry 63 (DEDUCED, unsafe). -/
def queueFieldsOk (v ctx : Nat) : Bool :=
  decide (bitsOf v 190 160 = 0 ∧ bitsOf v 127 116 = 0 ∧ bitsOf v 95 80 = 0 ∧ bitsOf v 63 12 = 0 ∧ bitsOf v 239 191 % 128 = 0
    ∧ 1 ≤ bitsOf v 103 101 ∧ bitsOf v 103 101 ≤ 5 ∧ bitsOf v 99 96 ≤ 7 ∧ 8 ≤ bitsOf v 79 64 ∧ bitsOf v 79 64 ≤ 4096
    ∧ bitsOf v 79 64 % 8 = 0 ∧ bitsOf v 255 240 = ctx
    ∧ (bitsOf v 103 101 = 1 ∨ bitsOf v 103 101 = 2 → bitsOf v 115 104 < 256)
    ∧ (bitsOf v 103 101 = 3 → bitsOf v 115 104 < 8))

/-- A stream-table entry of a chip has its other bits 0, and the home die of a queue of another chip is one of eight (R336, R410). -/
def streamFieldsOk (chip v : Nat) : Bool :=
  decide (bitsOf v 127 64 = 0 ∧ bitsOf v 47 36 = 0
    ∧ (if bitsOf v 19 8 = chip then bitsOf v 35 32 = 0 ∧ bitsOf v 63 48 = 0 else bitsOf v 35 32 < 8))

/-- The group entries that a graph names: of its operators, and of its queues of group scope. -/
def GraphPlan.groups (g : GraphPlan) : List Nat :=
  g.ops.map (·.group) ++ (g.queues.filter (fun v => bitsOf v 103 101 == 2)).map (fun v => bitsOf v 115 104)

/-- A group-table entry. -/
def State.groupAt (s : State) (i : Nat) : Group := getAt Group.reset s.groups i

/-- The members of an operator's group. -/
def State.coresOf (s : State) (o : OpPlan) : List Nat := (s.groupAt o.group).members

/-- Status 1 of R410. -/
def State.fieldFault (s : State) (ctx : Nat) (g : GraphPlan) : Bool :=
  !graphOk g.word0 g.word7 || !g.ops.all OpPlan.fieldsOk || !g.queues.all (fun v => queueFieldsOk v ctx) || !g.streams.all (streamFieldsOk s.chip)
    || g.roundsAt.any (fun a => decide (a % 64 ≠ 0)) || !g.rounds.all (fun r => descOk r.1 && r.2.all entryOk)
    || g.groups.any (fun i => !(s.groupAt i).valid)
    || (g.experts.getD []).any (fun w => bitsOf w 30 16 != 0)
    || g.ops.any (fun o => (s.coresOf o).any (fun c => decide (16 < g.churn.getD c 0)))

/-- Status 2 of R410. -/
def State.ownerFault (s : State) (ctx : Nat) (g : GraphPlan) : Bool :=
  g.groups.any (fun i => (s.groupAt i).ctx != 0 && (s.groupAt i).ctx != ctx)

/-- The graph of a context is installed. -/
def State.hasGraph (s : State) (ctx graph : Nat) : Bool :=
  s.operators.any (fun x => x.2.ctx == ctx && x.2.graph == graph && !x.2.removed)

/-- Status 5 of R410: numbers in use, or named twice. Log entry 27 (DESIGN CHOICE, unsafe). -/
def State.numberFault (s : State) (ctx : Nat) (g : GraphPlan) : Bool :=
  let qs := g.queues.map (fun v => bitsOf v 11 0)
  let rs := g.rounds.map (fun r => descRound r.1)
  qs.any (fun q => (findAt s.queues q).isSome) || decide ((distinct qs).length ≠ qs.length)
    || rs.any (fun r => (findAt s.rounds r).isSome) || decide ((distinct rs).length ≠ rs.length) || s.hasGraph ctx g.id

/-! ## Checks of room (R295, R308, R336, R368, R408) -/

/-- The stores of the dies hold the queues (R336). -/
def State.queueRoom (s : State) (g : GraphPlan) : Bool :=
  (List.range 8).all (fun d =>
    decide ((s.queues.filter (fun x => x.2.home == d)).foldl (fun n x => n + x.2.cap) 0
      + (g.queues.filter (fun v => bitsOf v 99 96 == d)).foldl (fun n v => n + bitsOf v 79 64) 0 ≤ 16384))

/-- The schedule store holds the rounds (R308). -/
def State.roundRoom (s : State) (g : GraphPlan) : Bool :=
  decide (s.rounds.foldl (fun n x => n + x.2.entries.length) 0 + g.rounds.foldl (fun n r => n + r.2.length) 0 ≤ 65536)

/-- What a graph asks of a core's table store (R295, R410). -/
def State.askedOn (s : State) (g : GraphPlan) (core : Nat) : Nat :=
  (g.ops.filter (fun o => (s.coresOf o).contains core)).foldl (fun m o => max m o.churn) (g.churn.getD core 0)

/-- The cores on which a graph places an operator. -/
def State.coresIn (s : State) (g : GraphPlan) : List Nat := distinct (g.ops.flatMap s.coresOf)

/-- The table stores hold the reservations (R295). -/
def State.storeRoom (s : State) (ctx : Nat) (g : GraphPlan) : Bool :=
  (s.coresIn g).all (fun c =>
    let others := (s.churnRes.filter (fun x => x.1 % 256 == c && x.1 / 256 != ctx)).foldl (fun n x => n + x.2) 0
    decide (others + max (s.storeEntries c ctx) (s.askedOn g c) ≤ 32))

/-- The save area holds what a save may write (R408). -/
def State.saveRoom (s : State) (ctx : Nat) (g : GraphPlan) : Bool :=
  let now := (s.seats.filter (fun x => (getAt Operator.reset s.operators (x.1 / 256)).ctx == ctx)).map (fun x => x.1 % 256)
  decide (ctx = 0 ∨ 65536 + 2359296 * (distinct (now ++ s.coresIn g)).length ≤ (s.ctxOf ctx).saveBytes)

/-- The declarations of a stream table (R368, R410). -/
def State.declared (s : State) (ctx : Nat) (g : GraphPlan) : List StreamDecl :=
  g.streams.map (fun v =>
    let chip := bitsOf v 19 8
    let far := chip != s.chip
    { graph := g.id, ctx := ctx, core := bitsOf v 7 0, chip := chip, queue := bitsOf v 31 20,
      die := if far then bitsOf v 35 32 else 0, dstCtx := if far then bitsOf v 63 48 else 0 })

/-- The home die and context of a queue, once a graph is installed. -/
def State.queueHome (s : State) (ctx : Nat) (g : GraphPlan) (q : Nat) : Option (Nat × Nat) :=
  match findAt s.queues q with
  | some x => some (x.home, x.ctx)
  | none => (g.queues.find? (fun v => bitsOf v 11 0 == q)).map (fun v => (bitsOf v 99 96, ctx))

/-- The packet stream of a declaration: source core, chip, die and the two contexts. A declaration for a queue of this chip
that is not installed has no die yet and counts by its queue. -/
def State.streamPair (s : State) (ctx : Nat) (g : GraphPlan) (d : StreamDecl) : Nat × Nat :=
  if d.chip ≠ s.chip then (d.key, 8)
  else match s.queueHome ctx g d.queue with
    | some h => (streamKey d.ctx d.core d.chip h.1 h.2, h.1)
    | none => (2 ^ 64 + d.queue * 2 ^ 32 + d.ctx * 256 + d.core, d.core / 32)

/-- The bridges that a stream crosses between two dies, by die and bridge; 8 is the hub (R13). Two dies that are no
neighbours are joined by the lowest die that neighbours both, else by the hub. Log entry 28 (DEDUCED, unsafe). -/
def pathBridges (a b : Nat) : List Nat :=
  let link (x y : Nat) : Option (List Nat) :=
    ((List.range 4).find? (fun k => (bridgeEnd x k).map (·.1) == some y)).map (fun k =>
      [x * 4 + k, ((bridgeEnd x k).map (fun e => e.1 * 4 + e.2)).getD 0])
  if a = b then []
  else if b = 8 then [a * 4]
  else match link a b with
    | some l => l
    | none =>
      match (List.range 8).find? (fun m => (link a m).isSome && (link m b).isSome) with
      | some m => (link a m).getD [] ++ (link m b).getD []
      | none => [a * 4, b * 4]

/-- No bridge and no port carries more than 192 packet streams (R368). -/
def State.streamRoom (s : State) (ctx : Nat) (g : GraphPlan) : Bool :=
  let decls := s.streams ++ s.declared ctx g
  let all := decls.foldl (fun (acc : List (Nat × Nat × Nat × Nat)) d =>
    let p := s.streamPair ctx g d
    if acc.any (fun x => x.1 == p.1) then acc else acc ++ [(p.1, d.core / 32, p.2, d.chip)]) []
  (List.range 32).all (fun b => decide (all.countP (fun x => (pathBridges x.2.1 x.2.2.1).contains b) ≤ 192))
    && (List.range 12).all (fun p => decide (all.countP (fun x =>
      x.2.2.2 != s.chip && (getAt [] s.routes x.2.2.2).contains p) ≤ 192))

/-- Status 3 of R410. -/
def State.roomFault (s : State) (ctx : Nat) (g : GraphPlan) : Bool :=
  !s.queueRoom g || !s.roundRoom g || !s.storeRoom ctx g || !s.saveRoom ctx g || !s.streamRoom ctx g

/-! ## Checks of placement (R16, R21, R187, R235, R311, R336) -/

/-- What the operators of a graph need on their cores; the rows stand for operators not yet numbered. -/
def State.planNeed (s : State) (o : OpPlan) : Need' := (s.coresOf o).map (fun c => (o.index * 256 + c, o.part, o.acc, o.lines))

/-- The operators of a graph placed at the slot indexes that they name. -/
def State.placeOps (s : State) (t : Taken) : List OpPlan → Option (List Spot)
  | [] => some []
  | o :: rest =>
    match t.place o.slot (s.planNeed o) with
    | some (u, spots) => (s.placeOps u rest).map (fun r => spots ++ r)
    | none => none

/-- The group entries of the operators with a slot on a core, with those of a graph (R16). -/
def State.groupsOn (s : State) (g : GraphPlan) (core : Nat) : List Nat :=
  distinct ((s.seats.filter (fun x => x.1 % 256 == core && x.2.state != .saved)).map (fun x =>
      (getAt Operator.reset s.operators (x.1 / 256)).group)
    ++ (g.ops.filter (fun o => (s.coresOf o).contains core)).map (·.group))

/-- A token queue as its descriptor gives it (R336). -/
def queueOf (graph v : Nat) : TokenQueue :=
  { TokenQueue.reset with
    ctx := bitsOf v 255 240, graph := graph, scope := bitsOf v 103 101, anchor := bitsOf v 115 104, home := bitsOf v 99 96,
    cap := bitsOf v 79 64, join := v.testBit 100, spBase := bitsOf v 239 191, spCap := bitsOf v 159 128 }

/-- The input queue of an operator serves it: it is the context's, no other operator's, and every member core of the
operator's group lies in its scope (R16, R336). An operator whose graph is being removed keeps its input queue until its last slot is
free. Log entry 87 (DESIGN CHOICE, unsafe). -/
def State.inputOk (s : State) (ctx : Nat) (g : GraphPlan) (o : OpPlan) : Bool :=
  let q := match g.queues.find? (fun v => bitsOf v 11 0 == o.inq) with
    | some v => some (queueOf g.id v)
    | none => findAt s.queues o.inq
  match q with
  | none => false
  | some x => x.ctx == ctx && (s.coresOf o).all (s.within x) && decide (g.ops.countP (fun p => p.inq == o.inq) = 1)
      && s.operators.all (fun p => p.2.inq != o.inq || p.2.ctx != ctx)

/-- Status 4 of R410. Log entry 27 (DESIGN CHOICE, unsafe). -/
def State.placeFault (s : State) (ctx : Nat) (g : GraphPlan) : Bool :=
  !g.ops.all (fun o => rolesOk (o.roles.map roleOf)) || !g.ops.all (s.inputOk ctx g)
    || (s.coresIn g).any (fun c => decide (4 < (s.groupsOn g c).length)) || (s.placeOps s.placesTaken g.ops).isNone
    || !g.rounds.all (fun r => entriesOk r.1 r.2)

/-- The status with which an install ends, 0 where every check passes (R410). Log entry 27 (DESIGN CHOICE, unsafe). -/
def State.installStatus (s : State) (ctx : Nat) (g : GraphPlan) : Nat :=
  if s.fieldFault ctx g then 1
  else if s.ownerFault ctx g then 2
  else if s.numberFault ctx g then 5
  else if s.roomFault ctx g then 3
  else if s.placeFault ctx g then 4
  else 0

/-! ## The graph in place (R410) -/

/-- An operator as it is installed. -/
def State.operatorOf (s : State) (ctx graph : Nat) (o : OpPlan) : Operator :=
  { ctx := ctx, graph := graph, index := o.index, group := o.group, members := s.coresOf o, roles := o.roles.map roleOf,
    timeout := if o.f 231 216 = 0 then 2048 else o.f 231 216, bclass := o.f 233 232, inq := o.inq, part := o.part, acc := o.acc,
    extra := o.f 291 256, churn := o.churn, tshape := BitVec.ofNat 64 (o.f 161 128), tbase := BitVec.ofNat 64 (o.f 112 64),
    removed := false, leaving := false }

/-- A slot of a new operator: its partition empty, its counters at 0, its lines reading as zero (R188, R191, R235, R264). -/
def seatOfPlan (o : OpPlan) (p : Spot) : Seat :=
  { Seat.reset with
    state := .installed, slot := p.slot, partBase := p.part, partSize := o.part, accBase := p.acc, accSize := o.acc,
    lines := o.lines, floor := o.lines }

/-- An operator and its slots put in place under a number of its own. -/
def State.putOperator (s : State) (ctx graph oper : Nat) (o : OpPlan) (spots : List Spot) : State :=
  let mine := spots.filter (fun p => p.row / 256 == o.index)
  { s with
    operators := putAt s.operators oper (s.operatorOf ctx graph o)
    seats := mine.foldl (fun t p => putAt t (seatKey oper (p.row % 256)) (seatOfPlan o p)) s.seats
    slotMap := mine.foldl (fun t p => putAt t (p.row % 256 * 8 + p.slot) oper) s.slotMap
    tiles := mine.foldl (fun t p => t.filter (fun x =>
      !(x.1 / 64 == p.row % 256 && decide (p.part ≤ x.1 % 64 ∧ x.1 % 64 < p.part + o.part)))) s.tiles }

/-- What a graph asks of the table stores noted, and the reservations made (R295). -/
def State.reserve (s : State) (ctx : Nat) (g : GraphPlan) : State :=
  (s.coresIn g).foldl (fun t c =>
    let n := s.askedOn g c
    { t with
      churnReqs := putAt t.churnReqs ((ctx * 65536 + g.id) * 256 + c) n
      churnRes := putAt t.churnRes (ctx * 256 + c) (max (t.storeEntries c ctx) n) }) s

/-- The queues of a graph created; one of system scope is reported to the other chips (R336, R368). -/
def State.putQueues (s : State) (g : GraphPlan) : State :=
  g.queues.foldl (fun t v =>
    let x := queueOf g.id v
    let t1 := (t.setQueue (bitsOf v 11 0) x).writeWord (.queueCount (bitsOf v 11 0))
    if x.scope = 5 then t1.reply (.queueReport (bitsOf v 11 0) x.ctx x.home true) else t1) s

/-- A graph put in place. -/
def State.putGraph (s : State) (ctx : Nat) (g : GraphPlan) (spots : List Spot) : State :=
  let s1 := g.ops.foldl (fun t o => t.putOperator ctx g.id (s.lastOper + 1 + o.index) o spots) s
  let s2 := (s1.putQueues g).reserve ctx g
  let s3 : State := { s2 with
    lastOper := s.lastOper + g.ops.length
    rounds := g.rounds.foldl (fun t r => putAt t (descRound r.1) (roundOf ctx g.id r.1 r.2)) s2.rounds
    streams := s2.streams ++ s.declared ctx g }
  match g.experts with
  | none => s3
  | some es => s3.setCtx ctx { s3.ctxOf ctx with
      experts := es.zipIdx.foldl (fun t x => putAt t x.2 (BitVec.ofNat 32 x.1)) [], counters := [] }

/-- INSTALL for a context (R407, R410): the state and the status, or what stops the reading. -/
def State.installGraph (s : State) (r : Reader) (addr : Nat) : Except HubStop (State × Nat) :=
  if (s.ctxOf r.ctx).state ≠ .active then .ok (s, 6)
  else (s.readGraph r addr).map (fun g =>
    match s.installStatus r.ctx g, s.placeOps s.placesTaken g.ops with
    | 0, some spots => (s.putGraph r.ctx g spots, 0)
    | k, _ => (s, k))

end Sys2Proof.Machine
end

