-- ==== Sys2Proof/Machine/Ras.lean ====
section
/-! DEFINITION. RAS, ageing, power and management: errors and retirement, die bridges that fail, the lock-step pair, the
clocks, and the answers to management (R202, R381, R405, R424, R426 to R430). -/

namespace Sys2Proof.Machine

/-- An event of the front end on queue 0 that belongs to no core and has no cause, of which the manual gives little more than the
kind: word 4 is given, and what else it may hold is free (R397). Log entry 16 (DESIGN CHOICE, safe). -/
def State.looseEvent (s : State) (kind : Nat) (word4 : Word) : State :=
  let w1 := Config.eventWord s.fresh 1
  s.takeFresh.postEvent 0 [eventWord1 0xFFFF (fieldOf w1 47 32) (fieldOf w1 31 16) 0 kind, Config.eventWord s.fresh 2,
    Config.eventWord s.fresh 3, word4, Config.eventWord s.fresh 5, Config.eventWord s.fresh 6, Config.eventWord s.fresh 7]

/-- A RAS event (R397, R427). Log entry 16 (DESIGN CHOICE, safe). -/
def State.rasEvent (s : State) : State := s.looseEvent 7 (Config.eventWord s.fresh 4)

/-! ## Corrected and uncorrectable errors (R202, R426, R427) -/

/-- An hour in ticks. -/
def anHour : Nat := 3600 * 10 ^ 9

/-- The window of a location and its threshold (R426). -/
def windowOf (l : RasLocation) : Nat × Nat :=
  match l with
  | .hbmRow _ => (24 * anHour, 3)
  | .vaultRow _ => (24 * anHour, 3)
  | .l2Way .. => (anHour, 4)
  | .l1Way .. => (anHour, 4)
  | .registerBlock .. => (anHour, 2)
  | .cimColumn .. => (anHour, 2)
  | .dieBridge .. => (0, 1)

/-- A location of the device. -/
def locationOk (l : RasLocation) : Bool :=
  match l with
  | .hbmRow pa => isHbm pa
  | .vaultRow pa => localOk pa && !isHbm pa
  | .l2Way d sl w => decide (d < 8 ∧ sl < 32 ∧ w < 16)
  | .l1Way c w => decide (c < 256 ∧ w < 16)
  | .registerBlock c b => decide (c < 256 ∧ b < 512)
  | .cimColumn c u col => decide (c < 256 ∧ u < 8 ∧ col < 128)
  | .dieBridge d b => decide (d < 8 ∧ b < 4)

/-- A location by one name: a row of memory by one byte of it. -/
def locationName (l : RasLocation) : RasLocation :=
  match l with
  | .hbmRow pa => .hbmRow (Config.rowOf pa)
  | .vaultRow pa => .vaultRow (Config.rowOf pa)
  | x => x

/-- There is a spare for a location: of a macro one column; of an L1 four ways, so that 12 stay; the spare rows of a bank or
vault and the ways of a slice that may go are the device's own (R426, R427). Log entry 36 (DEDUCED, unsafe). -/
def State.hasSpare (s : State) (l : RasLocation) : Bool :=
  match l with
  | .cimColumn c u _ => !s.ras.retired.any (fun x => match x with
    | .cimColumn c2 u2 _ => c2 == c && u2 == u
    | _ => false)
  | .l1Way c _ => decide (12 < s.l1Ways c)
  | .registerBlock .. => true
  | _ => Config.choice s.fresh 7 % 2 == 0

/-- A location that is replaced by a spare, which may fail in its turn; the others are disabled or taken out of use (R426, R427). -/
def RasLocation.hasReplacement (l : RasLocation) : Bool :=
  match l with
  | .hbmRow _ => true
  | .vaultRow _ => true
  | .cimColumn .. => true
  | _ => false

/-- A location that is out of use: retired, and not for a spare that stands in its place (R427). -/
def State.outOfUse (s : State) (l : RasLocation) : Bool := s.ras.retired.contains l && !RasLocation.hasReplacement l

/-- A die bridge reported, taken out of use and its traffic rerouted; the package is degraded (R381, R427). -/
def State.dropBridge (s : State) (die bridge : Nat) : State :=
  let k := die * 4 + bridge
  if s.bridgesDown.contains k then s
  else
    let s1 : State := { s with
      bridgesDown := s.bridgesDown ++ [k], control := { s.control with degraded := true }
      ras := { s.ras with retired := s.ras.retired ++ [.dieBridge die bridge] } }
    (s1.noteRoutes.report { FaultRecord.blank with
      cause := causeLINK, detail := 4, core := 32 * die, agent := 5, more6 := bridge * 2 ^ 44 }).rasEvent

/-- What the retirement of a location changes besides the map: a register block leaves the ordinary pool, at once or when it
is next free (R427). -/
def State.retireEffect (s : State) (l : RasLocation) : State :=
  match l with
  | .registerBlock c _ =>
    let r := s.coreOf c
    if r.freeBlocks = 0 then s.setCore c { r with owed := r.owed + 1 }
    else s.setCore c { r with freeBlocks := r.freeBlocks - 1 }
  | _ => s

/-- LOCATION_RETIREMENT: a lasting location is retired, or stays in use for want of a spare; a RAS event says so. A spare that fails
is replaced by another, if there is one; a die bridge is taken out of use (R381, R426, R427). Log entry 36 (DEDUCED, unsafe). -/
def State.retire (s : State) (l : RasLocation) : State :=
  match l with
  | .dieBridge die bridge => s.dropBridge die bridge
  | _ =>
    if s.outOfUse l then s
    else if s.hasSpare l then
      (({ s with ras := { s.ras with retired := s.ras.retired ++ [l] } } : State).retireEffect l).rasEvent
    else s.rasEvent

/-- A location is out of use, or is so once it has been retired. -/
def State.canRetire (s : State) (l : RasLocation) : Bool :=
  match l with
  | .dieBridge .. => true
  | _ => s.outOfUse l || s.hasSpare l

/-- A location whose errors are errors of bits: any but a die bridge (R426). -/
def RasLocation.holdsBits (l : RasLocation) : Bool :=
  match l with
  | .dieBridge .. => false
  | _ => true

/-- CORRECTED_ERROR: an error counted for its location, which is lasting at its threshold (R426). -/
def execCorrectedError (loc : RasLocation) (s : State) : Result :=
  let l := locationName loc
  let w := windowOf l
  let kept := s.ras.counts.filter (fun c => decide (s.tick < c.2 + (windowOf c.1).1)) ++ [(l, s.tick)]
  .next (
    if !locationOk loc || !RasLocation.holdsBits loc then s
    else
      let s1 : State := { s with ras := { s.ras with counts := kept, corrected := s.ras.corrected + 1 } }
      if kept.countP (fun c => c.1 == l) < w.2 then s1
      else
        ({ s1 with ras := { s1.ras with counts := kept.filter (fun c => c.1 != l) } } : State).retire l)

/-- The sector whose bits an uncorrectable error has lost: that of a row of HBM or of a vault lies in the row, and one of a way of
an L1 or of an L2 slice is whatever the way held, a scratchpad sector or a copy of one of memory (R202). -/
def RasLocation.sector (l : RasLocation) (sector : Option Nat) : Option Nat :=
  match l with
  | .hbmRow pa => some pa
  | .vaultRow pa => some pa
  | _ => sector

/-- UNCORRECTABLE_ERROR: the sector that the error has lost is marked poisoned, and the location is retired (R202, R426). -/
def execUncorrectableError (loss : BitLoss) (s : State) : Result :=
  .next (
    if locationOk loss.loc && RasLocation.holdsBits loss.loc then
      let s1 := match RasLocation.sector loss.loc loss.sector with
        | some k => s.poisonSector (plainPlace k 0)
        | none => s
      s1.retire (locationName loss.loc)
    else s)

/-! ## Die bridges and the lock-step pair (R381, R405, R426, R427) -/

/-- DIE_BRIDGE_DOWN: a die bridge fails lasting (R381, R427). -/
def execDieBridgeDown (die bridge : Nat) (s : State) : Result :=
  .next (if 8 ≤ die ∨ 4 ≤ bridge then s else s.dropBridge die bridge)

/-- The commands in progress of every queue discarded: they have had no effect, and are performed from the start later (R405). -/
def State.discardCommands (s : State) : State := (s.hostQueues.map (·.1)).foldl State.dropBegun s

/-- LOCKSTEP_MISMATCH: the pair discards the command in progress and resets; the third within an hour is a lasting fault
(R405, R426). Log entry 37 (DEDUCED, unsafe). -/
def execLockstepMismatch (s : State) : Result :=
  let recent := s.ras.mismatches.filter (fun t => decide (s.tick < t + anHour)) ++ [s.tick]
  .next (
    if s.ras.recovering then s
    else
      let s1 : State := { s.discardCommands with ras := { s.ras with mismatches := recent, recovering := true } }
      if recent.length < 3 then s1
      else { s1 with control := { s1.control with fwstat := 5, failed := true } })

/-- What a queue does as the firmware pair runs again: a doorbell that has lapped it stops it, and events that have waited are
written (R396, R397, R405). -/
def State.resumeQueue (s : State) (q : Nat) : State :=
  let s1 := s.lapRing q
  s1.flushEvents q (s1.hq q).held

/-- LOCKSTEP_RECOVERY_END: the pair has loaded its firmware again, and every queue goes on at HQ_CONS + 1 (R405).
Log entry 37 (DEDUCED, unsafe). -/
def execLockstepRecoveryEnd (s : State) : Result :=
  .next (
    if s.ras.recovering then
      let s1 : State := { s with ras := { s.ras with recovering := false } }
      ((s1.hostQueues.map (·.1)).foldl State.resumeQueue s1).rasEvent
    else s)

/-! ## Power and clocks (R428, R429) -/

/-- The arithmetic clock a step of 25 MHz lower. Log entry 38 (DEDUCED, unsafe). -/
def State.lowerClock (s : State) : State :=
  { s with power := { s.power with clock := if 25 < s.power.clock then s.power.clock - 25 else s.power.clock } }

/-- INPUT_VOLTAGE_FAULT: outside its input range the module stops its clocks and reports through management (R429).
Log entry 38 (DEDUCED, unsafe). -/
def execInputVoltageFault (s : State) : Result :=
  .next (({ s with power := { s.power with stopped := true } } : State).reply .voltageFault)

/-- POWER_CAP_THROTTLE: the 10 ms average is compared with the cap: once it exceeds it, the clock falls until the average is below it
(R429). -/
def execPowerCapThrottle (s : State) : Result :=
  let high := decide (s.power.cap < s.power.average) || (s.power.throttling && s.power.cap == s.power.average)
  let s1 : State := { s with power := { s.power with throttling := high } }
  .next (if high then s1.lowerClock else s1)

/-- THERMAL_THROTTLE: a junction at 100 °C (R429). -/
def execThermalThrottle (s : State) : Result := .next s.lowerClock

/-- A context lost, with its record (R421). -/
def State.loseWithRecord (s : State) (ctx : Nat) : State :=
  if (s.ctxOf ctx).state = .lost ∨ (s.ctxOf ctx).state = .terminated then s
  else (s.loseContext ctx).report { FaultRecord.blank with cause := causeLOST, ctx := ctx, agent := 6 }

/-- The slots of what has ended freed, with the engine work that no clock carries on (R421, R429). -/
def State.freeLost (s : State) : State :=
  let s1 : State := { s with banks := mapTab (fun _ b => { b with queue := [], fills := [] }) s.banks }
  s1.seats.foldl (fun t x => if (getAt Operator.reset t.operators (x.1 / 256)).removed then t.freeSeat (x.1 / 256) (x.1 % 256) else t) s1

/-- THERMAL_TRIP: a junction at 110 °C: every arithmetic clock stops, an event of kind 8 is posted, and context state is lost, every
slot being free; the device waits for a reset (R421, R429). Log entry 38 (DEDUCED, unsafe). -/
def execThermalTrip (s : State) : Result :=
  .next (
    if s.power.tripped then s
    else
      let s1 := (s.contexts.map (·.1)).foldl State.loseWithRecord (s.looseEvent 8 (Config.eventWord s.fresh 4))
      ({ s1.freeLost with power := { s1.power with stopped := true, tripped := true } } : State).sweep)

/-- AGEING_SAMPLE: a die's oscillators and replicas are sampled each second: the margin that it has consumed (R428). -/
def execAgeingSample (die margin : Nat) (s : State) : Result :=
  let due := match findAt s.power.sampled die with
    | some t => decide (t + 10 ^ 9 ≤ s.tick)
    | none => true
  .next (
    if die < 8 ∧ margin ≤ 100 ∧ due = true then
      { s with power := { s.power with samples := putAt s.power.samples die margin, sampled := putAt s.power.sampled die s.tick } }
    else s)

/-- The supply margins planned anew from the last samples, with the voltages that they ask for; at 100 % the arithmetic clock is
lowered, and the event says what it is now (R428). Log entry 38 (DEDUCED, unsafe). -/
def State.replan (s : State) : State :=
  let volts := s.power.samples.map (fun x => (x.1, max (getAt 0 s.power.voltages x.1) (Config.supply x.1 x.2)))
  let s1 : State := { s with power := { s.power with
    margins := s.power.samples, planned := s.tick
    voltages := volts.foldl (fun t x => putAt t x.1 x.2) s.power.voltages } }
  if s.power.samples.any (fun x => decide (100 ≤ x.2)) then
    s1.lowerClock.looseEvent 8 (BitVec.ofNat 64 s1.lowerClock.power.clock)
  else s1

/-- MARGIN_REPLAN: the supply margins are planned anew at their period (R428). -/
def execMarginReplan (s : State) : Result :=
  .next (if s.power.planned + s.power.period * 60 * 10 ^ 9 ≤ s.tick then s.replan else s)

/-! ## Bring-up (R15, R366, R383, R390, R423, R425) -/

/-- A health test has found some locations bad: what R426 allows is retired first, and the device has failed when one of them stays
in use, or when something else has failed (R423). -/
def State.healthTest (s : State) (test : HealthTest) : State :=
  let bad := (test.bad.filter locationOk).map locationName
  let (t, pass) := bad.foldl (fun (x : State × Bool) l => (x.1.retire l, x.2 && x.1.canRetire l)) (s, test.ok)
  if pass then { t with ras := { t.ras with health := 1 } }
  else { t with ras := { t.ras with health := 2 }, control := { t.control with fwstat := 5, failed := true } }

/-- A route table put in place of the old one, with the root of the tick (R366, R383, R401): what was held for want of a route goes
out, and a chip that the table names no more has had no route from here on (R382). Log entry 44 (DEDUCED, unsafe). -/
def State.setTable (s : State) (table : Tab (List Nat)) (root : Nat) : State :=
  let gone := (s.routes.map (·.1)).filter (fun c => (findAt table c).isNone)
  (({ s with
    routes := table, tickRoot := root
    routeLost := gone.foldl (fun t c => putAt t c (getAt s.tick t c)) s.routeLost } : State).noteRoutes).resendFrom none

/-- A table of routes as bring-up brings it: other chips, and ports that exist (R401). -/
def cleanTable (self : Nat) (routes : List (Nat × List Nat)) : Tab (List Nat) :=
  routes.foldl (fun t r => if r.1 = self ∨ 4096 ≤ r.1 then t else putAt t r.1 ((r.2.filter (· < 12)).take 4)) []

/-- BRING_UP_COMPLETE: training, route tables and the health test are over: CHIP, the route table and the tick are set, what HBM and
the vaults hold is not known any more, and FWSTAT reads 1; a device that fails the health test reads FAILED. The counters of R15
begin when FWSTAT first reads 1 (R15, R97, R366, R383, R390, R425). Log entry 45 (DEDUCED, unsafe). -/
def execBringUpComplete (test : HealthTest) (chip : BitVec 12) (b : BringUp) (s : State) : Result :=
  .next (
    if s.control.fwstat ≠ 4 then s
    else
      let t := s.healthTest { test with ok := test.ok && !s.control.failed }
      let c := t.control
      if t.ras.health ≠ 1 then t
      else ({ t with
        control := { c with fwstat := 1, everReady := true }
        chip := chip.toNat
        mem := t.mem.clearedBut (fun k => !isKeyed k)
        tick := if c.everReady then max t.tick b.epoch.toNat else b.epoch.toNat
        cycle := if c.everReady then t.cycle else 0
        refills := if c.everReady then t.refills else 0 } : State).setTable (cleanTable chip.toNat b.routes) b.root)

/-! ## Management (R388, R424, R429, R430) -/

/-- PLDM_REQUEST: the readings, of the eight compute dies, the hub and the eight cream dies and of 16 HBM stacks, or a setting within
its limits (R428 to R430). -/
def execPldmRequest (req : PldmRequest) (s : State) : Result :=
  .next (match req with
    | .sensors =>
      s.takeFresh.reply (.sensors ((List.range 17).map (Config.sensor s.fresh)) ((upFrom 17 16).map (Config.sensor s.fresh))
        (Config.sensor s.fresh 33) (Config.sensor s.fresh 34) ((List.range 8).map (getAt 0 s.power.margins))
        s.ras.corrected s.ras.retired.length s.control.fwstatWord s.power.clock)
    | .setPowerCap w =>
      if 1000 ≤ w ∧ w ≤ 3200 then ({ s with power := { s.power with cap := w } } : State).reply (.setting true)
      else s.reply (.setting false)
    | .setReplanPeriod m =>
      if 1 ≤ m ∧ m ≤ 60 then ({ s with power := { s.power with period := m } } : State).reply (.setting true)
      else s.reply (.setting false))

/-- The measurements, signed with both signatures over one transcript (R424). Log entry 59 (DESIGN CHOICE, safe). -/
def State.measure (s : State) (mctp : Bool) : State :=
  s.takeFresh.reply (.measurements mctp (Config.digest 0) (Config.digest s.control.image) (s.control.blocks.map Config.digest)
    s.control.fwVersion s.ras.health (Config.mapDigest s.ras.retired) s.ras.retired (Config.signature s.fresh 1) (Config.signature s.fresh 2))

/-- SPDM_REQUEST: the measurements (R424), or a selective IDE stream keyed or torn down, of which there are up to 4 (R388). -/
def execSpdmRequest (req : SpdmRequest) (s : State) : Result :=
  let set (l : List Nat) (taken : Bool) : State := ({ s with control := { s.control with ide := l } } : State).reply (.setting taken)
  .next (match req with
    | .measurements mctp => s.measure mctp
    | .ideGo n =>
      if s.control.ide.contains n then set s.control.ide true
      else if s.control.ide.length < 4 then set (s.control.ide ++ [n]) true
      else set s.control.ide false
    | .ideStop n => set (s.control.ide.filter (· ≠ n)) (s.control.ide.contains n))

end Sys2Proof.Machine
end

