-- ==== Sys2Proof/Machine/Commands.lean ====
section
/-! DEFINITION. Host commands: how a queue's next entry is read, checked, performed and completed (R394, R395, R397, R399,
R400, R403, R404, R405, R414). -/

namespace Sys2Proof.Machine

/-! ## Throttled admissions (R414) -/

/-- The queue of a throttle takes records again (R414). -/
def State.throttleOver (s : State) (t : Throttle) : Bool :=
  match findAt s.queues t.queue with
  | none => true
  | some x =>
    match t.why with
    | .full => x.spill.isEmpty && decide (2 * x.store.length ≤ x.cap)
    | .fault _ => false
    | .liveLimit => decide (8 * s.liveCount t.ctx ≤ 7 * (s.ctxOf t.ctx).liveLimit)

/-- The graph's admissions are throttled. -/
def State.isThrottled (s : State) (ctx graph : Nat) : Bool := s.throttles.any (fun t => t.ctx == ctx && t.graph == graph)

/-- THR of the queues of a context as its throttles say; a queue whose THR changes gets its status block written. -/
def State.noteThrottles (s : State) : State :=
  s.hostQueues.foldl (fun u x =>
    let t := s.throttles.any (fun y => y.ctx == x.2.ctx)
    if x.2.throttled == t then u
    else
      let v := u.setHq x.1 { u.hq x.1 with throttled := t }
      if x.2.st = 1 then v.writeStatus x.1 else v) s

/-- Throttles that are over ended (R405, R414). -/
def State.pollThrottles (s : State) : State :=
  if s.ras.recovering then s
  else ({ s with throttles := s.throttles.filter (fun t => !s.throttleOver t) } : State).noteThrottles

/-! ## Reading and completing a command (R394, R395, R397, R400, R403) -/

/-- A command under way: its queue, its SEQ, the context that it names, EV, whether its effect has begun, and its words. -/
structure HostCmd where
  queue : Nat
  seq : Nat
  ctx : Nat
  ev : Bool
  begun : Bool
  words : List Word

/-- A word of a command. -/
def HostCmd.w (c : HostCmd) (i : Nat) : Word := c.words.getD i 0

/-- A field of a word of a command. -/
def HostCmd.f (c : HostCmd) (i hi lo : Nat) : Nat := fieldOf (c.w i) hi lo

/-- Its addresses are host bus addresses (R400). -/
def HostCmd.host (c : HostCmd) : Bool := c.queue == 0

/-- What becomes of a command: it completes with a status, a result and the DETAIL of its event; it has begun and completes
later; it has asked for what it reads and is performed from the start when that has come (R112, R388); or it is not performed yet. -/
inductive CmdEnd where
  | done (s : State) (status : Nat) (result : Word) (detail : Nat)
  | begin (s : State)
  | waits (s : State)
  | later

/-- A command that fails, with no effect (R403). -/
def State.fails (s : State) (status : Nat) : CmdEnd := .done s status 0 0

/-- How a command of a queue reads and writes for a context. -/
def HostCmd.reader (c : HostCmd) (ctx : Nat) : Reader := { who := .queue c.queue, ctx := ctx, host := c.host }

/-- What a command does with something that it reads, or in place of that: status 7, or it waits (R388, R403). -/
def State.onRead {α : Type} (s : State) (r : Reader) (access : Nat) (x : Except HubStop α) (go : α → CmdEnd) : CmdEnd :=
  match x with
  | .ok a => go a
  | .error e => if e.fails then s.fails 7 else .waits (s.askHub r.who r.ctx access e)

/-- A command done without a result. -/
def State.succeeds (s : State) : CmdEnd := .done s 0 0 0

/-- The queue is parsed in the present turn of the run list (R404). -/
def State.queueMapped (s : State) (q : Nat) : Bool :=
  match s.runList with
  | none => true
  | some l => q == 0 || (match l.entries[l.pos]? with
    | some e => e.ctx == (s.hq q).ctx
    | none => false)

/-- The queue has a command that can be performed: it runs, its doorbell covers it, no event of it is held, its turn has come,
and the firmware pair runs (R395, R397, R404, R405). -/
def State.canCommand (s : State) (q : Nat) : Bool :=
  let h := s.hq q
  h.st == 1 && decide (h.cons < h.dbVal) && h.held.isEmpty && !s.ras.recovering && s.queueMapped q

/-- The words of a queue's next entry, or of the command that has begun. -/
def State.nextEntry (s : State) (q : Nat) : List Word :=
  let h := s.hq q
  if h.begun.isEmpty then wordsOf (s.hostRead (h.cmdBase + 64 * ((h.cons + 1) % 2 ^ h.logN)) 64) 8 else h.begun

/-- The bits of words 2 to 7 that a command's operands occupy (R400). -/
def operandMasks (op : Nat) : List Nat :=
  let all := 2 ^ 64 - 1
  match op with
  | 0x01 => [all, all, all, 0xFFFF07FF1F1F, 0x1FFF]
  | 0x02 => [0x1FFF]
  | 0x03 => [0x1FFF]
  | 0x04 => [all]
  | 0x05 => [0xFFFF]
  | 0x06 => [0x1FFFF00FF, all]
  | 0x07 => [all]
  | 0x08 => [0xFFFF]
  | 0x09 => [all, 0xFFF, 0x1FFF, all]
  | 0x0A => [0x1FFFFFFF, all, all, all, all, all]
  | 0x0B => [0xFFFF]
  | 0x0C => [0xFFFF]
  | 0x0D => [0xFFFF, all, all]
  | 0x0E => [all]
  | 0x0F => [all]
  | 0x10 => [0x3FFFF, 0xFFFFFFFF, 0xFFFFFFFF, 0xFFFFFFFF]
  | 0x11 => [all]
  | 0x12 => [0xFFFF00FF]
  | 0x13 => [0xFFFF]
  | 0x14 => [0xFFFFFFFF]
  | 0x15 => [all, 0x1FFF, all, 0xFFF]
  | 0x17 => [all, 0x1FFF]
  | 0x18 => [0xF7FF]
  | 0x19 => [0x3F, 0xFFFF, 1]
  | _ => []

/-- An opcode that every queue accepts (R399). -/
def anyQueue (op : Nat) : Bool := [0x00, 0x07, 0x08, 0x09, 0x0A, 0x11, 0x12, 0x18].contains op

/-- A reserved bit of a command is set (R394, R400). -/
def HostCmd.reservedSet (c : HostCmd) (op : Nat) : Bool :=
  (c.w 1).toNat &&& 0xFFFF0000FFFFFE00 != 0
    || (List.range 6).any (fun i => (c.w (2 + i)).toNat &&& (2 ^ 64 - 1 - (operandMasks op).getD i 0) != 0)

/-- The status with which a command's first checks refuse it, 0 where they pass (R399, R400, R403). -/
def State.commandFault (s : State) (c : HostCmd) (op : Nat) : Nat :=
  if 0x1A ≤ op then 1
  else if c.queue ≠ 0 ∧ (anyQueue op = false ∨ c.ctx ≠ (s.hq c.queue).ctx) then 2
  else if anyQueue op = false ∧ c.ctx ≠ 0 then 1
  else if (findAt s.contexts c.ctx).isNone then 1
  else if c.reservedSet op then 1
  else 0

/-- A command completed: HQ_CONS, its event, and after that the status block, which waits with an event that is held (R395, R397,
R403). -/
def State.finishCommand (s : State) (c : HostCmd) (status : Nat) (result : Word) (detail : Nat) : State :=
  let s1 := (s.endAsk (.queue c.queue)).setHq c.queue { s.hq c.queue with cons := c.seq, begun := [] }
  if c.ev || status != 0 then
    s1.postEvent c.queue [eventWord1 0xFFFF c.ctx detail 0 1, BitVec.ofNat 64 c.seq, BitVec.ofNat 64 status, result, 0, 0, 0]
  else s1.writeStatus c.queue

/-- The command that a queue's next entry holds. -/
def State.commandOf (s : State) (q : Nat) : HostCmd :=
  let ws := s.nextEntry q
  let w1 := ws.getD 1 0
  { queue := q, seq := (s.hq q).cons + 1, ctx := fieldOf w1 47 32, ev := w1.getLsbD 8, begun := !(s.hq q).begun.isEmpty,
    words := ws }

/-- The next command of a queue performed, where it is one of some opcodes; an entry with another SEQ than the next stops the
queue (R395). Log entry 18 (DEDUCED, unsafe). -/
def State.hostCommand (s : State) (q : Nat) (mine : Nat → Bool) (f : State → HostCmd → CmdEnd) : State :=
  let s0 := s.sweep.pollThrottles
  if !s0.canCommand q then s0
  else
    let c := s0.commandOf q
    let e := (c.w 0).toNat
    let op := c.f 1 7 0
    if e ≠ c.seq then s0.stopRing q (if c.seq < e ∧ (e - c.seq) % 2 ^ (s0.hq q).logN = 0 then 3 else 4)
    else if !mine op then s0
    else
      match (if c.begun then 0 else s0.commandFault c op) with
      | 0 =>
        match f s0 c with
        | .done t status result detail => t.finishCommand c status result detail
        | .begin t => t.setHq q { t.hq q with begun := c.words }
        | .waits t => t
        | .later => s0
      | k + 1 => s0.finishCommand c (k + 1) 0 0

/-- A step that performs the next command of a queue if it has an opcode. -/
def State.runCommand (s : State) (q op : Nat) (f : State → HostCmd → CmdEnd) : Result :=
  .next (s.hostCommand q (fun x => x == op) f)

/-- NOP; an opcode that no command has completes with status 1 (R399). -/
def execNop (q : Nat) (s : State) : Result :=
  .next (s.hostCommand q (fun x => x == 0 || decide (0x1A ≤ x)) (fun t _ => t.succeeds))

/-! ## Queues (R393, R396, R398, R399) -/

/-- A queue's number is taken: it has been created and not been destroyed. -/
def HostQueue.inUse (h : HostQueue) : Bool := h.st != 0 && h.st != 2

/-- The queue that QCREATE describes. -/
def HostCmd.newQueue (c : HostCmd) : HostQueue :=
  { HostQueue.reset with
    ctx := c.f 5 47 32, logN := c.f 5 4 0, logM := c.f 5 12 8, vector := c.f 5 26 16, cmdBase := (c.w 2).toNat,
    evBase := (c.w 3).toNat, stbBase := (c.w 4).toNat }

/-- QCREATE (R391, R393, R397). Log entry 39 (DEDUCED, unsafe). -/
def State.qcreate (s : State) (c : HostCmd) : CmdEnd :=
  let h := c.newQueue
  let q := c.f 6 12 0
  if q = 0 ∨ ringSizesOk h.logN h.logM = false ∨ h.cmdBase % 64 ≠ 0 ∨ h.evBase % 64 ≠ 0 ∨ h.stbBase % 64 ≠ 0
      ∨ (findAt s.contexts h.ctx).isNone then s.fails 1
  else if (s.hq q).inUse then s.fails 5
  else if 1024 ≤ s.hostQueues.countP (fun x => x.1 != 0 && x.2.ctx == h.ctx && x.2.inUse) then s.fails 3
  else (s.createQueue q { h with throttled := s.throttles.any (fun t => t.ctx == h.ctx) }).succeeds

/-- QCREATE. -/
def execQcreate (q : Nat) (s : State) : Result := s.runCommand q 0x01 State.qcreate

/-- QDESTROY (R398, R399). Log entry 39 (DEDUCED, unsafe). -/
def State.qdestroy (s : State) (c : HostCmd) : CmdEnd :=
  let q := c.f 2 12 0
  if q = 0 ∨ (s.hq q).inUse = false then s.fails 1 else ((s.stopQueue q 2).writeStatus q).succeeds

/-- QDESTROY. -/
def execQdestroy (q : Nat) (s : State) : Result := s.runCommand q 0x02 State.qdestroy

/-- A queue made to run again at HQ_CONS (R396). Log entry 24 (DEDUCED, unsafe). -/
def State.restartQueue (s : State) (q : Nat) : State :=
  let s1 := s.stopQueue q 1
  let s2 := s1.setHq q { s1.hq q with dbVal := (s1.hq q).cons }
  (s2.writeStatus q).flushEvents q (s2.hq q).held

/-- QRESTART (R396). Log entry 39 (DEDUCED, unsafe). -/
def State.qrestart (s : State) (c : HostCmd) : CmdEnd :=
  let q := c.f 2 12 0
  if q = 0 ∨ (s.hq q).inUse = false then s.fails 1 else (s.restartQueue q).succeeds

/-- QRESTART. -/
def execQrestart (q : Nat) (s : State) : Result := s.runCommand q 0x03 State.qrestart

/-! ## Contexts (R35, R399, R407 to R409) -/

/-- A context descriptor keeps the limits of its fields (R409). Log entry 26 (DESIGN CHOICE, unsafe). -/
def ctxDescOk (v : Nat) : Bool :=
  decide (bitsOf v 1023 832 = 0 ∧ bitsOf v 63 16 = 0 ∧ 1 ≤ bitsOf v 15 0 ∧ 1 ≤ bitsOf v 511 448 ∧ bitsOf v 511 448 < 2 ^ 32
    ∧ bitsOf v 383 320 % 128 = 0 ∧ bitsOf v 255 192 % 4096 = 0 ∧ bitsOf v 191 128 % 256 = 0 ∧ bitsOf v 191 128 < 2 ^ 49
    ∧ (bitsOf v 767 704 ≤ 2000 ∨ bitsOf v 767 704 = 2 ^ 64 - 1))

/-- A value, or another where it is one that selects the other. -/
def selected (x what dflt : Nat) : Nat := if x = what then dflt else x

/-- The context that a descriptor gives (R409). Log entry 26 (DESIGN CHOICE, unsafe). -/
def contextOf (v keyId tick : Nat) : Context :=
  { Context.reset with
    keyId := keyId, root := bitsOf v 127 64, tvec := BitVec.ofNat 64 (bitsOf v 191 128), saveBase := bitsOf v 255 192
    saveBytes := bitsOf v 319 256, spillBase := bitsOf v 383 320, spillN := bitsOf v 447 384, liveLimit := bitsOf v 511 448
    progress := selected (bitsOf v 575 512) 0 1000000, savePeriod := selected (bitsOf v 639 576) 0 20000
    faultPeriod := selected (bitsOf v 703 640) (2 ^ 64 - 1) 1000000, drain := selected (bitsOf v 767 704) (2 ^ 64 - 1) 200
    deadline := selected (bitsOf v 831 768) 0 2000, progressAt := tick }

/-- The lowest key id that neither a context nor shared pages have (R97, R408). -/
def State.freeKey (s : State) : Option Nat :=
  (upFrom 1 1023).find? (fun k => s.contexts.all (fun x => x.2.keyId != k) && s.sharedKeys.all (fun x => x.1 != k))

/-- CTXCREATE (R408, R409, R423). Log entry 40 (DEDUCED, unsafe). -/
def State.ctxcreate (s : State) (c : HostCmd) : CmdEnd :=
  if s.control.failed then s.fails 6
  else if (c.w 2).toNat % 64 ≠ 0 then s.fails 1
  else s.onRead (c.reader 0) 1 (s.descNat (c.reader 0) (c.w 2).toNat 128) (fun v =>
      if !ctxDescOk v then s.fails 1
      else if (findAt s.contexts (bitsOf v 15 0)).isSome then s.fails 5
      else match s.freeKey with
        | none => s.fails 3
        | some k => (s.setCtx (bitsOf v 15 0) (contextOf v k s.tick)).succeeds)

/-- CTXCREATE. -/
def execCtxcreate (q : Nat) (s : State) : Result := s.runCommand q 0x04 State.ctxcreate

/-- CTXDESTROY: from here on the context issues nothing; once nothing of it is on its way it is gone at one instant, with its
graphs, queues and reservations, its id and its key id (R398, R399). -/
def State.ctxdestroy (s : State) (c : HostCmd) : CmdEnd :=
  let x := c.f 2 15 0
  if (findAt s.contexts x).isNone then (if c.begun then s.succeeds else s.fails 1)
  else if x = 0 then s.fails 1
  else
    let t := (s.destroy x).sweep
    if (findAt t.contexts x).isNone then t.succeeds else .begin (s.setCtx x { s.ctxOf x with frozen := true })

/-- CTXDESTROY. -/
def execCtxdestroy (q : Nat) (s : State) : Result := s.runCommand q 0x05 State.ctxdestroy

/-- SETBUDGET: a limit that changes sets its bucket to the new limit (R35, R415). -/
def Budget.setLimits (b : Budget) (ls : List Nat) : Budget :=
  { limits := ls
    buckets := (List.range 3).map (fun i =>
      if ls.getD i 0 = b.limits.getD i 0 then b.buckets.getD i 0 else ((ls.getD i 0 : Nat) : Int)) }

/-- SETBUDGET (R415). -/
def State.setbudget (s : State) (c : HostCmd) : CmdEnd :=
  let x := c.f 2 15 0
  let k := c.f 2 17 16
  if (findAt s.contexts x).isNone then s.fails 1
  else
    let y := s.ctxOf x
    let b := (y.budgets.toList.getD k Budget.reset).setLimits [(c.w 3).toNat, (c.w 4).toNat, (c.w 5).toNat]
    (s.setCtx x { y with budgets := y.budgets.setIfInBounds k b }).succeeds

/-- SETBUDGET. -/
def execSetbudget (q : Nat) (s : State) : Result := s.runCommand q 0x10 State.setbudget

/-- The twelve words of QBUDGET (R415). -/
def Context.budgetWords (x : Context) : List Word :=
  x.budgets.toList.flatMap (fun b => (List.range 3).map (fun i => BitVec.ofInt 64 (b.buckets.getD i 0)))

/-- QBUDGET (R415). -/
def State.qbudget (s : State) (c : HostCmd) : CmdEnd :=
  if (c.w 2).toNat % 8 ≠ 0 then s.fails 1
  else if !s.hostWorks then s.fails 7
  else (s.hostWrite (c.w 2).toNat (wordBytes (s.ctxOf c.ctx).budgetWords)).succeeds

/-- QBUDGET. -/
def execQbudget (q : Nat) (s : State) : Result := s.runCommand q 0x11 State.qbudget

/-- KEYALLOC: a key id for pages that two contexts share (R97, R399). Log entry 40 (DEDUCED, unsafe). -/
def State.keyalloc (s : State) (c : HostCmd) : CmdEnd :=
  let a := c.f 2 15 0
  let b := c.f 2 31 16
  if (findAt s.contexts a).isNone ∨ (findAt s.contexts b).isNone then s.fails 1
  else match s.freeKey with
    | none => s.fails 3
    | some k => .done { s with sharedKeys := s.sharedKeys ++ [(k, a, b)] } 0 (BitVec.ofNat 64 k) 0

/-- KEYALLOC. -/
def execKeyalloc (q : Nat) (s : State) : Result := s.runCommand q 0x14 State.keyalloc

/-! ## Groups and graphs (R18, R19, R399, R407, R410) -/

/-- GROUPSET: refused while an operator is placed on the entry (R18, R19). Log entry 40 (DEDUCED, unsafe). -/
def State.groupset (s : State) (c : HostCmd) : CmdEnd :=
  let i := c.f 2 7 0
  let owner := c.f 2 31 16
  if (findAt s.contexts owner).isNone then s.fails 1
  else if s.operators.any (fun x => x.2.group == i) then s.fails 5
  else if !(c.w 2).getLsbD 32 then ({ s with groups := dropAt s.groups i } : State).succeeds
  else s.onRead (c.reader 0) 1 (s.descNat (c.reader 0) (c.w 3).toNat 32) (fun m =>
      if m = 0 then s.fails 1
      else
        let cores := (List.range 256).filter (fun k => m.testBit k)
        ({ s with groups := putAt s.groups i { valid := true, ctx := owner, members := cores } } : State).succeeds)

/-- GROUPSET. -/
def execGroupset (q : Nat) (s : State) : Result := s.runCommand q 0x06 State.groupset

/-- INSTALL (R410). -/
def State.install (s : State) (c : HostCmd) : CmdEnd :=
  s.onRead (c.reader c.ctx) 1 (s.installGraph (c.reader c.ctx) (c.w 2).toNat) (fun r =>
    if r.2 = 0 then r.1.succeeds else s.fails r.2)

/-- INSTALL. -/
def execInstall (q : Nat) (s : State) : Result := s.runCommand q 0x07 State.install

/-- The tasks of a graph. -/
def State.graphTasks (s : State) (ctx graph : Nat) : List Nat :=
  (s.tasks.filter (fun x => (s.graphOps ctx graph).contains x.2.oper)).map (·.1)

/-- The slots of a graph have nothing left to do, or are saved (R407). -/
def State.graphDrained (s : State) (ctx graph : Nat) : Bool :=
  s.seats.all (fun x => !(s.graphOps ctx graph).contains (x.1 / 256) || x.2.state == .saved || s.seatIdle (x.1 / 256) (x.1 % 256))

/-- A graph gone at one instant: of a saved context the saved slots with their tasks, and then the queues and rounds (R398, R407). -/
def State.removeGraph (s : State) (ctx graph : Nat) : State :=
  let s1 := if (s.ctxOf ctx).state = .saved then s.discardTasks (s.graphTasks ctx graph) else s
  (s1.removeGraphs ctx (fun g => g == graph)).sweep

/-- REMOVE: the slots of the graph drain, and when they have, slots, queues and rounds go (R398, R399, R407). -/
def State.removeCmd (s : State) (c : HostCmd) : CmdEnd :=
  let g := c.f 2 15 0
  if !c.begun && (s.ctxOf c.ctx).state != .active && (s.ctxOf c.ctx).state != .saved then s.fails 6
  else if !s.hasGraph c.ctx g then (if c.begun then s.succeeds else s.fails 1)
  else
    let t := s.leaveGraph c.ctx g
    if t.graphDrained c.ctx g then (t.removeGraph c.ctx g).succeeds else .begin t

/-- REMOVE. -/
def execRemove (q : Nat) (s : State) : Result := s.runCommand q 0x08 State.removeCmd

/-! ## Records and launches (R346, R385, R400, R412 to R414) -/

/-- A record created from an image as `tknew` would, or from what cannot be read: the word that SUBMIT reports (R346, R400); or what
its push waits for (R388). -/
def State.makeRecord (s : State) (ctx q : Nat) (x : Except HubStop (List Byte)) : Except PushStop (State × Nat) :=
  match x with
  | .error _ => .ok (s, 2 ^ 63 + 5)
  | .ok bs =>
    let img := wordsOf bs 16
    if (malformed img).isSome then .ok (s.takeFresh, 2 ^ 63 + 4) else s.takeFresh.createRecord ctx q img

/-- Records created one after another, with their words; none where the push of one waits. -/
def State.makeRecords (s : State) (ctx q : Nat) : List (Except HubStop (List Byte)) → Except PushStop (State × List Nat)
  | [] => .ok (s, [])
  | x :: rest =>
    match s.makeRecord ctx q x with
    | .error e => .error e
    | .ok (t, w) =>
      match t.makeRecords ctx q rest with
      | .error e => .error e
      | .ok (u, ws) => .ok (u, w :: ws)

/-- The images of `n` records as they are read, each by itself. -/
def State.readImages (s : State) (r : Reader) (addr n : Nat) : List (Except HubStop (List Byte)) :=
  (List.range n).map (fun i => s.descBytes r (addr + 128 * i) 128)

/-- What the reading of some images waits for. -/
def imagesWait (images : List (Except HubStop (List Byte))) : Option HubStop :=
  images.findSome? (fun x => match x with
    | .error e => if e.fails then none else some e
    | .ok _ => none)

/-- Records created, by their words. -/
def created (ws : List Nat) : Nat := ws.countP (fun w => decide (w < 2 ^ 63))

/-- SUBMIT (R400, R407, R414): every image is read before the first record is created. Log entry 41 (DEDUCED, unsafe). -/
def State.submit (s : State) (c : HostCmd) : CmdEnd :=
  let q := c.f 3 11 0
  let n := c.f 4 12 0
  let out := (c.w 5).toNat
  let r := c.reader c.ctx
  let images := s.readImages r (c.w 2).toNat n
  if (s.ctxOf c.ctx).state ≠ .active then s.fails 6
  else match findAt s.queues q with
    | none => s.fails 1
    | some x =>
      if x.ctx ≠ c.ctx ∨ 4096 < n ∨ (c.w 2).toNat % 128 ≠ 0 then s.fails 1
      else if n ≠ 0 ∧ s.isThrottled c.ctx x.graph = true then .later
      else if c.host then
        if n ≠ 0 ∧ s.hostWorks = false then s.fails 7
        else match s.makeRecords c.ctx q images with
          | .error e => .waits (s.pushWaits q e)
          | .ok m => .done (m.1.hostWrite out (m.2.flatMap (toBytes 8))) 0 (BitVec.ofNat 64 (created m.2)) 0
      else s.onRead r 2 (s.hubWrites r.who r.ctx out (8 * n)) (fun ps =>
        match imagesWait images with
        | some e => .waits (s.askHub r.who r.ctx 1 e)
        | none => match s.makeRecords c.ctx q images with
          | .error e => .waits (s.pushWaits q e)
          | .ok m => .done (m.1.hubStore (r.who.owner r.ctx) ps (m.2.flatMap (toBytes 8))) 0 (BitVec.ofNat 64 (created m.2)) 0)

/-- SUBMIT. -/
def execSubmit (q : Nat) (s : State) : Result := s.runCommand q 0x09 State.submit

/-- A number that no launch has. -/
def State.nextLaunch (s : State) : Nat := s.launches.foldl (fun m l => max m (l.id + 1)) 1

/-- The launch that a command asks for; late when its tick has passed as it is received (R385). -/
def State.newLaunch (s : State) (c : HostCmd) : Launch :=
  { id := s.nextLaunch, queue := c.queue, seq := c.seq, ctx := c.ctx, graph := c.f 2 15 0, count := c.f 2 28 16, records := c.w 3
    tick := (c.w 4).toNat, fence := c.w 5, fenceValue := c.w 6
    waits := ([c.f 7 31 0, c.f 7 63 32].filter (fun d => decide (0 < d ∧ d < c.seq))).map (fun d => c.seq - d)
    late := decide ((c.w 4).toNat ≠ 0 ∧ (c.w 4).toNat < s.tick), started := false, made := 0, missed := 0 }

/-- LAUNCH: from here on it waits for its launches and its tick; LAUNCH_START performs it (R407, R412).
Log entry 41 (DEDUCED, unsafe). -/
def State.launch (s : State) (c : HostCmd) : CmdEnd :=
  let l := s.newLaunch c
  if c.begun then .later
  else if (s.ctxOf c.ctx).state ≠ .active then s.fails 6
  else if 4096 < l.count ∨ l.records.toNat % 128 ≠ 0 ∨ s.hasGraph c.ctx l.graph = false then s.fails 1
  else .begin { s with launches := s.launches ++ [l] }

/-- LAUNCH. -/
def execLaunch (q : Nat) (s : State) : Result := s.runCommand q 0x0A State.launch

/-- The launches that a launch waits for have completed (R412). -/
def State.launchFree (s : State) (l : Launch) : Bool :=
  s.launches.all (fun m => !(m.queue == l.queue && l.waits.contains m.seq))

/-- Operator 0's input queue of a graph. -/
def State.graphInput (s : State) (ctx graph : Nat) : Option Nat :=
  (s.operators.find? (fun x => x.2.ctx == ctx && x.2.graph == graph && x.2.index == 0 && !x.2.removed)).map (fun x => x.2.inq)

/-- Word 5 of a launch's event: the index and the status of the first record not created (R412). -/
def missedWord (ws : List Nat) : Nat :=
  match ws.zipIdx.find? (fun x => decide (2 ^ 63 ≤ x.1)) with
  | some x => x.2 + x.1 % 256 * 2 ^ 16
  | none => 0

/-- The command of a launch, from the words that its queue keeps. -/
def State.launchCmd (s : State) (l : Launch) : HostCmd := s.commandOf l.queue

/-- A launch changed. -/
def State.setLaunch (s : State) (l : Launch) : State :=
  { s with launches := s.launches.map (fun m => if m.id = l.id then l else m) }

/-- A launch taken off the list. -/
def State.dropLaunch (s : State) (l : Launch) : State :=
  { s.endAsk (.launch l.id) with launches := s.launches.filter (fun m => m.id != l.id) }

/-- How a launch reads its records. -/
def Launch.reader (l : Launch) : Reader := { who := .launch l.id, ctx := l.ctx, host := l.queue == 0 }

/-- A launch started: its records are created and its command is done; it waits for what the reading of them waits for (R388, R412,
R413). Log entry 41 (DEDUCED, unsafe). -/
def State.startLaunch (s : State) (l : Launch) : State :=
  let c := s.launchCmd l
  let r := l.reader
  let images := s.readImages r l.records.toNat l.count
  if (s.ctxOf l.ctx).state ≠ .active then (s.dropLaunch l).finishCommand c 6 0 0
  else match s.graphInput l.ctx l.graph, imagesWait images with
    | none, _ => (s.dropLaunch l).finishCommand c 1 0 0
    | some _, some e => s.askHub r.who r.ctx 1 e
    | some q, none =>
      match s.makeRecords l.ctx q images with
      | .error e => s.pushWaits q e
      | .ok m =>
        ((m.1.endAsk r.who).setLaunch { l with started := true, made := created m.2, missed := missedWord m.2 }).finishCommand c 0 0
          (if l.late then 1 else 0)

/-- LAUNCH_START: a launch whose launches have completed and whose tick has come creates its records (R385, R412 to
R414). -/
def execLaunchStart (n : Nat) (s : State) : Result :=
  let s0 := s.sweep.pollThrottles
  .next (match s0.launches.find? (fun l => l.id == n) with
    | none => s0
    | some l =>
      if l.started || (s0.hq l.queue).st != 1 || (s0.hq l.queue).begun.isEmpty || !(s0.hq l.queue).held.isEmpty || s0.ras.recovering
          || !s0.launchFree l || decide (s0.tick < l.tick) || (l.count != 0 && s0.isThrottled l.ctx l.graph) then s0
      else s0.startLaunch l)

/-- The operators of a graph. -/
def State.operatorsOf (s : State) (ctx graph : Nat) : List Nat :=
  (s.operators.filter (fun x => x.2.ctx == ctx && x.2.graph == graph)).map (·.1)

/-- A graph is idle: nothing in its queues, no task of it, and nothing of it in flight: no engine command, no access that a task of
it or its command has made, no packet to a queue of it (R412). -/
def State.graphIdle (s : State) (ctx graph : Nat) : Bool :=
  let ops := s.operatorsOf ctx graph
  let qs := s.queues.filter (fun x => x.2.ctx == ctx && x.2.graph == graph)
  qs.all (fun x => x.2.store.isEmpty && x.2.spill.isEmpty && x.2.held.isEmpty)
    && s.tasks.all (fun x => !ops.contains x.2.oper)
    && s.copies.all (fun x => x.2.cmds.all (fun c => !ops.contains c.oper))
    && s.banks.all (fun x => x.2.queue.all (fun o => !ops.contains o.oper) && x.2.fills.all (fun f => !ops.contains f.oper))
    && s.accesses.all (fun a => !ops.contains (getAt Task.reset s.tasks a.task).oper)
    && s.flights.all (fun f => !qs.any (fun x => x.1 == f.queue))

/-- The fence value written, or what stops the write (R412). -/
def State.writeFence (s : State) (l : Launch) : Except HubStop State :=
  let data := toBytes 8 l.fenceValue.toNat
  if l.fence = 0 then .ok s
  else if l.queue = 0 then
    if s.hostWorks then .ok (s.hostWrite l.fence.toNat data) else .error (.fault causePROT 2 l.fence.toNat)
  else match s.hubWrites l.reader.who l.ctx l.fence.toNat 8 with
    | .error e => .error e
    | .ok ps => .ok (s.hubStore (l.reader.who.owner l.ctx) ps data)

/-- The event of a launch that completes (R412, R413). -/
def Launch.event (l : Launch) (status : Nat) : List Word :=
  [eventWord1 0xFFFF l.ctx (if l.late then 1 else 0) 0 3, BitVec.ofNat 64 l.seq, BitVec.ofNat 64 status, BitVec.ofNat 64 l.made,
    BitVec.ofNat 64 l.missed, 0, 0]

/-- A launch of a graph that is idle completed: the fence, and the event; it waits for a host page that its fence needs (R388,
R412). -/
def State.completeLaunch (s : State) (l : Launch) : State :=
  match s.writeFence l with
  | .ok t => (t.dropLaunch l).postEvent l.queue (l.event 0)
  | .error (.fault cause detail va) =>
    ((s.report { FaultRecord.blank with
      cause := cause, detail := detail, ctx := l.ctx, va := BitVec.ofNat 64 va, page := s.pageOf hubCore l.ctx (BitVec.ofNat 64 va)
      access := 2, agent := 6
      reportOnly := true }).dropLaunch l).postEvent l.queue (l.event 7)
  | .error .refused => (s.dropLaunch l).postEvent l.queue (l.event 7)
  | .error e => s.askHub l.reader.who l.ctx 2 e

/-- The launches of a graph that have started. -/
def State.startedLaunches (s : State) (ctx graph : Nat) : List Launch :=
  s.launches.filter (fun m => m.started && m.ctx == ctx && m.graph == graph)

/-- LAUNCH_COMPLETE: at an instant at which the graph is idle, with every access of its tasks performed, every launch of it that is
in flight completes (R412). -/
def execLaunchComplete (n : Nat) (s : State) : Result :=
  let s0 := s.sweep
  .next (match s0.launches.find? (fun l => l.id == n) with
    | none => s0
    | some l =>
      if !l.started || !s0.graphIdle l.ctx l.graph || s0.ras.recovering then s0
      else (s0.startedLaunches l.ctx l.graph).foldl State.completeLaunch s0)

/-! ## Pre-emption, translations, faults, holds (R382, R404, R407, R416 to R419, R422) -/

/-- PREEMPT (R407, R419). -/
def State.preemptCmd (s : State) (c : HostCmd) : CmdEnd :=
  let x := c.f 2 15 0
  if x = 0 ∨ (findAt s.contexts x).isNone then s.fails 1
  else if (s.ctxOf x).state ≠ .active then s.fails 6
  else (s.preemptContext x).succeeds

/-- PREEMPT. -/
def execPreempt (q : Nat) (s : State) : Result := s.runCommand q 0x0B State.preemptCmd

/-- RESTORE (R407, R422). -/
def State.restoreCmd (s : State) (c : HostCmd) : CmdEnd :=
  let x := c.f 2 15 0
  if x = 0 ∨ (findAt s.contexts x).isNone then s.fails 1
  else if (s.ctxOf x).state ≠ .saved then s.fails 6
  else match s.restoreContext x, s.restoreStop x with
    | none, _ => s.fails 3
    | some _, some e => .waits (s.askHub (.save x) x 1 e)
    | some t, none => t.succeeds

/-- RESTORE. -/
def execRestore (q : Nat) (s : State) : Result := s.runCommand q 0x0C State.restoreCmd

/-- The range of INVAL, rounded out to 64 KiB pages: the whole context for 0 bytes (R416). -/
def HostCmd.range (c : HostCmd) : Nat × Nat :=
  let va := (c.w 3).toNat
  let n := (c.w 4).toNat
  if n = 0 then (0, 2 ^ 64) else (va / 65536 * 65536, (va + n + 65535) / 65536 * 65536)

/-- Translations of a range removed from every TLB and walk cache (R416). Log entry 42 (DEDUCED, safe). -/
def State.dropPages (s : State) (ctx lo hi : Nat) : State :=
  { s with
    tlb := s.tlb.filter (fun t => !(t.ctx == ctx && decide (t.va < hi) && decide (lo < t.va + t.size)))
    walks := s.walks.filter (fun w =>
      let size := 2 ^ (levelShape w.level).2
      !(w.ctx == ctx && decide (w.top * size < hi) && decide (lo < (w.top + 1) * size))) }

/-- A place was reached in a range. -/
def Place.inRange (p : Place) (lo hi : Nat) : Bool := decide (lo ≤ p.va.toNat) && decide (p.va.toNat < hi)

/-- Accesses that have been translated in a range and have not been performed: those on their way, the writes of attempts and
their commits, and fills (R416). Log entry 42 (DEDUCED, safe). -/
def State.usesRange (s : State) (ctx lo hi : Nat) : Bool :=
  s.accesses.any (fun a => a.ctx == ctx && a.op.places.any (fun p => p.inRange lo hi))
    || s.attempts.any (fun x => (s.taskOf x.1).ctx == ctx && x.2.writes.any (fun w => w.place.inRange lo hi))
    || s.frags.any (fun x => (s.taskOf (fragIdOf x.1)).ctx == ctx
        && x.2.due.any (fun d => d.places.any (fun p => p.1.inRange lo hi)))
    || s.banks.any (fun x => x.2.fills.any (fun f => f.ctx == ctx && f.rows.any (fun r => r.any (fun p => p.1.inRange lo hi))))

/-- INVAL: the translations go at once, and it is complete once every access that used one has been performed (R416).
Log entry 42 (DEDUCED, safe). -/
def State.invalCmd (s : State) (c : HostCmd) : CmdEnd :=
  let x := c.f 2 15 0
  let r := c.range
  if !c.begun && (findAt s.contexts x).isNone then s.fails 1
  else
    let t := if c.begun then s else s.dropPages x r.1 r.2
    if t.usesRange x r.1 r.2 then .begin t else t.succeeds

/-- INVAL. -/
def execInval (q : Nat) (s : State) : Result := s.runCommand q 0x0D State.invalCmd

/-- The record that REPLAY or KILL names: one that the front end has read and that takes a command (R417). -/
def State.commandRecord (s : State) (id : Nat) : Option FaultRecord :=
  s.records.find? (fun r => r.id == id && r.wasRead && r.replayable)

/-- REPLAY: at once, or at the restore of a saved context (R417). Log entry 32 (DEDUCED, unsafe). -/
def State.replayCmd (s : State) (c : HostCmd) : CmdEnd :=
  match s.commandRecord (c.w 2).toNat with
  | none => s.fails 1
  | some r =>
    if (s.ctxOf r.ctx).state = .saved then
      ({ s with records := s.records.map (fun x => if x.id = r.id then { x with deferred := true } else x) } : State).succeeds
    else (s.replayRecord r.id).succeeds

/-- REPLAY. -/
def execReplay (q : Nat) (s : State) : Result := s.runCommand q 0x0E State.replayCmd

/-- KILL (R417). -/
def State.killCmd (s : State) (c : HostCmd) : CmdEnd :=
  match s.commandRecord (c.w 2).toNat with
  | none => s.fails 1
  | some r => (s.terminate r.ctx).sweep.succeeds

/-- KILL. -/
def execKill (q : Nat) (s : State) : Result := s.runCommand q 0x0F State.killCmd

/-- RELEASE: the hold of `frz` ends on every wave of a task (R148, R418). -/
def State.releaseCmd (s : State) (c : HostCmd) : CmdEnd :=
  let core := c.f 2 7 0
  match s.tasks.find? (fun x => x.2.core == core && x.2.number == c.f 2 31 16 && x.2.ctx == c.ctx && x.2.state == .running) with
  | none => s.fails 1
  | some x => (s.liftHold (x.2.waves.map (fun w => core * 64 + w)) freezeHold).succeeds

/-- RELEASE. -/
def execRelease (q : Nat) (s : State) : Result := s.runCommand q 0x12 State.releaseCmd

/-- There is a route to a chip, or, as 4096 + d, a path to a die. -/
def State.chipBack (s : State) (chip : Nat) : Bool := if chip < 4096 then s.routeUp chip else !s.isolated (chip - 4096)

/-- An access of a context that has failed for want of a route, which now exists. -/
def State.comesBack (s : State) (ctx : Nat) (a : Access) : Bool :=
  a.ctx == ctx && a.failed && (match a.target with
    | .chip c => s.routeUp c
    | _ => false)

/-- Waves and engines of a context stopped for want of a route that now exists: what they sent is sent again, and they wait for the
answers, or issue their instruction again (R382). -/
def State.resumeContext (s : State) (ctx : Nat) : State :=
  let resumed := s.accesses.filter (s.comesBack ctx)
  let s1 : State := { s with
    accesses := s.accesses.map (fun a => if s.comesBack ctx a then { a with failed := false } else a)
    frags := mapTab (fun k f => match f.status with
      | .unreachable chip got =>
        if (s.taskOf (fragIdOf k)).ctx ≠ ctx ∨ !s.chipBack chip then f
        else match resumed.find? (fun a => a.ofFrag (fragIdOf k) && a.op.returns) with
          | some a => { f with status := if a.op.dest = .fetch then .fetching else .awaiting a.id got }
          | none => { f with status := .ready }
      | _ => f) s.frags }
  (resumed.map (fun a => { a with failed := false })).foldl State.resend s1

/-- RESUME (R382). -/
def State.resumeCmd (s : State) (c : HostCmd) : CmdEnd :=
  let x := c.f 2 15 0
  if (findAt s.contexts x).isNone then s.fails 1 else (s.resumeContext x).succeeds

/-- RESUME. -/
def execResume (q : Nat) (s : State) : Result := s.runCommand q 0x13 State.resumeCmd

/-- CLEARERR, as `tlinc.c` (R266, R399). -/
def State.clearerrCmd (s : State) (c : HostCmd) : CmdEnd :=
  let core := c.f 2 7 0
  let k := c.f 2 15 12
  match findAt s.slotMap (core * 8 + c.f 2 10 8) with
  | none => s.fails 1
  | some oper =>
    if (getAt Operator.reset s.operators oper).ctx ≠ c.ctx then s.fails 1
    else
      let t := s.counter oper core k
      .done (s.clearCounter oper core k) 0 (if t.error then BitVec.ofNat 64 t.failed else 0) 0

/-- CLEARERR. -/
def execClearerr (q : Nat) (s : State) : Result := s.runCommand q 0x18 State.clearerrCmd

/-! ## Routes, rounds, the run list, turnover (R401, R402, R404, R423) -/

/-- An entry of a route table: its reserved bits are ignored (R7, R401). Log entry 43 (DEDUCED, unsafe). -/
def routeEntryOk (self v : Nat) : Bool :=
  let n := bitsOf v 14 12
  decide (1 ≤ n ∧ n ≤ 4 ∧ bitsOf v 11 0 ≠ self)
    && (List.range n).all (fun i => decide (bitsOf v (64 + 16 * i + 15) (64 + 16 * i) ≤ 11))

/-- The ports of an entry, in order of preference. -/
def routePorts (v : Nat) : List Nat :=
  (List.range (bitsOf v 14 12)).map (fun i => bitsOf v (64 + 16 * i + 3) (64 + 16 * i))

/-- A route table put in place of the old one, with the route timeout and the root of the tick (R382, R383, R401). -/
def State.setRoutes (s : State) (es : List Nat) (timeout root : Nat) : State :=
  ({ s with routeTimeout := if timeout = 0 then 10 ^ 7 else 1000 * timeout } : State).setTable
    (es.foldl (fun t v => putAt t (bitsOf v 11 0) (routePorts v)) []) root

/-- ROUTESET (R401). Log entry 43 (DEDUCED, unsafe). -/
def State.routeset (s : State) (c : HostCmd) : CmdEnd :=
  let n := c.f 3 12 0
  if n = 0 ∨ 4096 < n then s.fails 1
  else s.onRead (c.reader 0) 1 (s.descArray (c.reader 0) (c.w 2).toNat 16 n) (fun es =>
      if es.all (routeEntryOk s.chip) && decide ((distinct (es.map (fun v => bitsOf v 11 0))).length = es.length) then
        (s.setRoutes es (c.w 4).toNat (c.f 5 11 0)).succeeds
      else s.fails 1)

/-- ROUTESET. -/
def execRouteset (q : Nat) (s : State) : Result := s.runCommand q 0x15 State.routeset

/-- ROUNDSHARE (R402). -/
def State.roundshare (s : State) (c : HostCmd) : CmdEnd :=
  let n := c.f 2 5 0
  let b := c.f 3 15 0
  match s.roundAt n with
  | none => s.fails 1
  | some r =>
    if (findAt s.contexts b).isNone then s.fails 1
    else
      let rest := r.shared.filter (· ≠ b)
      (s.setRound n { r with shared := if (c.w 4).getLsbD 0 ∧ b ≠ r.ctx then rest ++ [b] else rest }).succeeds

/-- ROUNDSHARE. -/
def execRoundshare (q : Nat) (s : State) : Result := s.runCommand q 0x19 State.roundshare

/-- An entry of a run list (R400). -/
def runEntryOf (v : Nat) : RunEntry := { ctx := bitsOf v 15 0, reside := v.testBit 16, quantum := bitsOf v 63 32 }

/-- An entry of a run list keeps its limits (R404); its reserved bits are ignored (R7). Log entry 43 (DEDUCED, unsafe). -/
def State.runEntryOk (s : State) (v : Nat) : Bool :=
  decide (10 ≤ bitsOf v 63 32 ∧ bitsOf v 63 32 ≤ 100000) && (findAt s.contexts (bitsOf v 15 0)).isSome

/-- RUNLIST: its first turn begins (R404). -/
def State.runlistCmd (s : State) (c : HostCmd) : CmdEnd :=
  let n := c.f 3 12 0
  if n = 0 ∨ 4096 < n then s.fails 1
  else s.onRead (c.reader 0) 1 (s.descArray (c.reader 0) (c.w 2).toNat 8 n) (fun es =>
      if es.all s.runEntryOk then
        ({ s with runList := some { entries := es.map runEntryOf, pos := 0, since := s.tick } } : State).resumeTurn.succeeds
      else s.fails 1)

/-- RUNLIST. -/
def execRunlist (q : Nat) (s : State) : Result := s.runCommand q 0x17 State.runlistCmd

/-- The end of a turn of the run list: without RESIDE the context is pre-empted, and the next entry's turn begins (R404). -/
def State.endTurn (s : State) (l : RunList) (e : RunEntry) : State :=
  let s1 := if e.reside = false ∧ e.ctx ≠ 0 ∧ (findAt s.contexts e.ctx).isSome ∧ (s.ctxOf e.ctx).state = .active then
      let t := s.preemptContext e.ctx
      t.setCtx e.ctx { t.ctxOf e.ctx with turnSaved := true }
    else s
  ({ s1 with runList := some { l with pos := (l.pos + 1) % l.entries.length, since := s.tick } } : State).resumeTurn

/-- QUANTUM_END (R404); before the end of the turn, the restore with which it begins is made if it still waits. -/
def execQuantumEnd (s : State) : Result :=
  .next (match s.runList with
    | none => s
    | some l =>
      match l.entries[l.pos]? with
      | none => s
      | some e => if l.since + ticks e.quantum ≤ s.tick ∧ s.ras.recovering = false then s.endTurn l e else s.resumeTurn)

/-- Register blocks of a core that are retired (R426). -/
def State.retiredBlocks (s : State) (core : Nat) : Nat :=
  s.ras.retired.countP (fun l => match l with
    | .registerBlock c _ => c == core
    | _ => false)

/-- What a turnover leaves: the host's memory, routes, the tick, firmware, RAS history and the task counters; all else is
cleared (R15, R97, R423). -/
def State.scrubbed (s : State) : State :=
  { s with
    frags := [], waves := [], tasks := [], operators := [], seats := [], slotMap := [], tiles := [], groups := [], banks := []
    accs := [], copies := [], images := [], churns := [], churnRes := [], churnReqs := [], rounds := [], queues := []
    flights := [], returns := [], streams := [], inUse := [], chains := [], accesses := [], fetched := [], notices := [], tlb := [], walks := []
    throttles := [], launches := [], bar2 := [], asks := [], sharedKeys := [], contexts := [(0, Context.service)]
    records := s.records.map (fun r => { r with suspended := [], others := [], answered := true })
    cores := mapTab (fun k c => { CoreRow.reset with
      taskCount := c.taskCount, freeBlocks := 496 - s.retiredBlocks k }) s.cores
    mem := s.mem.clearedBut ofHost }

/-- TURNOVER (R423): IDE streams are torn down, keys replaced and everything cleared, margins planned anew, and the health test
retires what it may. The measurements of R424 are taken of what is then in place. -/
def State.turnover (test : HealthTest) (s : State) (_ : HostCmd) : CmdEnd :=
  if s.contexts.any (fun x => x.1 != 0) || s.hostQueues.any (fun x => x.1 != 0 && x.2.st == 1) then s.fails 6
  else
    let s1 := ({ s.scrubbed with control := { s.control with ide := [] } } : State).replan.healthTest test
    .done s1 0 (if s1.ras.health = 1 then 0 else 1) 0

/-- TURNOVER. -/
def execTurnover (q : Nat) (test : HealthTest) (s : State) : Result := s.runCommand q 0x16 (State.turnover test)

end Sys2Proof.Machine
end

