-- ==== Sys2Proof/Machine/MemCtl.lean ====
section
/-! DEFINITION. Prefetch, cache control and the pinning of scratchpad lines (R187 to R190, R196), and the steps of the
memory system: an access performed, an arrival, a walk, errors of memory (R99, R112 to R117, R200 to R202). -/

namespace Sys2Proof.Machine

/-! ## pref, flush, inv (R196) -/

/-- `pref` changes no value and never faults (R196). -/
def execPref (_a : BitVec 6) (_own _lvl : BitVec 1) (s : State) : Result := .next s.advance

/-- The places of the line of a byte (R196). -/
def linePlaces (p : Place) : List Place :=
  placesFrom { p with key := p.key / 512 * 512, va := p.va &&& ~~~(511 : Word) } 512

/-- `flush` and `inv`: their address is checked as a read, no value changes, and on HBM they are ordered as a write to their
line (R196). In an attempt they are unsupported for what they are, so that `tstat` selector 2 reads 0 (R213).
Log entry 73 (DESIGN CHOICE, unsafe). -/
def State.cacheControl (s : State) (va : Word) : State :=
  if s.inTx then s.abandonHere 6 0 0
  else if windowBase ≤ va.toNat ∧ va.toNat < 2 ^ 49 then s.advance
  else match s.xlate va .read with
    | .error e => s.suspendAll [(e, va)] .read
    | .ok x =>
      if x.2 == .here && isHbm x.1.key then
        s.issueParts [{ target := .here, op := .flush (linePlaces x.1), kind := x.1.kind }]
      else s.advance

/-- `flush` (R196). -/
def execFlush (a : BitVec 6) (_lvl : BitVec 1) (s : State) : Result := .next (s.cacheControl (s.getS a))

/-- `inv` (R196). -/
def execInv (a : BitVec 6) (s : State) : Result := .next (s.cacheControl (s.getS a))

/-! ## pin and unpin (R189, R190) -/

/-- Memory without the bytes of some lines of a slot's scratchpad, and without their poison marks. -/
def Memory.dropLines (m : Memory) (oper core first n : Nat) : Memory :=
  let lo := scratchKey oper core (512 * first)
  { m with
    bytes := m.bytes.filter (fun x => !(decide (lo ≤ x.1) && decide (x.1 < lo + 512 * n)))
    poison := m.poison.filter (fun q => !(decide (lo ≤ 128 * q) && decide (128 * q < lo + 512 * n))) }

/-- Lines gained by `pin`, at most the number asked for (R189): the count of further lines. -/
def State.pinLoop (s : State) (oper core : Nat) : Nat → Nat → State × Nat
  | 0, got => (s, got)
  | fuel + 1, got =>
    let q := s.seatOf oper core
    let set := (q.lines + 32 * q.slot) % 256
    if s.pinnedWays core set ≥ 12 ∨ s.pinnedWays core set + s.specWays core set [] ≥ s.l1Ways core then (s, got)
    else
      let s1 := s.setSeatOf oper core { q with lines := q.lines + 1 }
      State.pinLoop { s1 with mem := s1.mem.dropLines oper core q.lines 1 } oper core fuel (got + 1)

/-- `pin` (R189). -/
def execPin (d a : BitVec 6) (s : State) : Result :=
  .next (if s.inTx then s.abandonHere 6 0 0
    else
      let (s1, got) := s.pinLoop s.tk.oper s.cur.core (min (s.getS a).toNat 4096) 0
      (s1.setS d (BitVec.ofNat 64 got)).advance)

/-- A vector atomic that a part of has been performed, or is at another device, can no longer be held back as a whole: its
accesses to lines that are about to be released, through either window, land before (R95, R190).
Log entry 74 (DEDUCED, unsafe). -/
def State.landGroups (s : State) (oper core first : Nat) : State :=
  s.settle (s.accesses.filter (fun a =>
    a.awaitedBy a.agent
      && a.op.keys.any (fun k => decide (scratchKey oper core (512 * first) ≤ k ∧ k < scratchKey oper core (2 ^ 23)))
      && (match (s.frOf a.agent).status with
        | .awaiting _ got => !got.isEmpty || s.accesses.any (fun b => b.awaitedBy a.agent && b.isRemote)
        | _ => false)))

/-- `unpin` (R190). -/
def execUnpin (d a : BitVec 6) (s : State) : Result :=
  let q := s.seat
  let n := min (s.getS a).toNat (q.lines - q.floor)
  .next (if s.inTx then s.abandonHere 6 0 0
    else
      let s0 := s.landGroups s.tk.oper s.cur.core (q.lines - n)
      let s1 := s0.setSeatOf s.tk.oper s.cur.core { q with lines := q.lines - n }
      let s2 : State := { s1 with mem := s1.mem.dropLines s.tk.oper s.cur.core (q.lines - n) n }
      (s2.setS d (BitVec.ofNat 64 n)).advance)

/-! ## Accesses on their way (R99, R104, R112) -/

/-- MEMORY_ACCESS_PERFORMED: an access on its way is performed, what must come before it first (R99, R101, R104). -/
def execMemoryAccessPerformed (n : Nat) (s : State) : Result :=
  .next (match s.accessOf n with
    | some a =>
      if a.target = .here ∧ !a.op.isPacket then
        match s.forceFor a with
        | some t => t.performAccess a
        | none => s
      else s
    | none => s)

/-- The slot that an access through the peer window reaches is saved or draining, installed, or lost: an arrival at a lost
slot is discarded by its performance (R116, R117). PEER_ARRIVAL delivers it. -/
def execPeerArrival (n : Nat) (s : State) : Result :=
  .next (match s.accessOf n with
    | some a =>
      match a.target with
      | .peer _ =>
        match s.forceFor a with
        | some t => t.performAccess a
        | none => s
      | _ => s
    | none => s)

/-! ## Walks (R198 to R200) -/

/-- A translation of a page as a TLB holds it (R200). -/
def Leaf.held (l : Leaf) (core ctx va : Nat) : TlbEntry :=
  { core := core, ctx := ctx, va := va / l.size * l.size, size := l.size, pa := l.pa, keyId := l.keyId, kind := l.kind,
    cached := l.cached, exec := l.exec, write := l.write, read := l.read, home := l.home, missing := none }

/-- An entry that a walk has met as not present, as a TLB holds it: it stands for every address that the entry's level indexes
alike (R199, R200, R201). -/
def missingEntry (core ctx va detail : Nat) : TlbEntry :=
  let size := 2 ^ (levelShape (detail - 2)).2
  { core := core, ctx := ctx, va := va / size * size, size := size, pa := 0, keyId := 0, kind := 0, cached := false,
    exec := false, write := false, read := false, home := 0, missing := some detail }

/-- Entries of a TLB: 64 of a core, 16,384 of a die (R200). -/
def tlbRoom (core : Nat) : Nat := if core < 256 then 64 else 16384

/-- A translation taken into its TLB, which gives up the one it has held longest when it is full (R200).
Log entry 92 (DESIGN CHOICE, safe). -/
def State.holdEntry (s : State) (e : TlbEntry) : State :=
  let mine := s.tlb.filter (fun t => t.core == e.core)
  let old := if mine.length < tlbRoom e.core then s.tlb
    else ((s.tlb.reverse.erase (mine.getLastD e)).reverse)
  { s with tlb := e :: old }

/-- The pointers of a walk as the page-walk cache of a die holds them (R200). -/
def State.walkEntries (s : State) (die ctx va : Nat) : List WalkEntry :=
  (if ctx = 0 then [] else pointersFrom s.mem va (s.ctxOf ctx).root [0, 1, 2]).map (fun x =>
    { die := die, ctx := ctx, level := x.1, top := va / 2 ^ (levelShape x.1).2, next := x.2 })

/-- PAGE_WALK_COMPLETE: a core and the shared TLB of its die come to hold what a walk gives, a translation or an entry that is not
present, and the page-walk cache of the die the pointers that the walk met (R200). A walk that begins in the page-walk cache meets
none above; one that reads poison leaves no translation. -/
def execPageWalkComplete (core ctx : Nat) (va : BitVec 64) (s : State) : Result :=
  let s1 : State :=
    if (s.cachedWalk (core / 32) ctx va.toNat).isSome then s
    else { s with walks := s.walks ++ s.walkEntries (core / 32) ctx va.toNat }
  let hold (e : Nat → TlbEntry) : State := (s1.holdEntry (e (sharedTlb core))).holdEntry (e core)
  .next (if va.toNat ≥ windowBase then s
    else match s.walk core ctx va.toNat with
      | .ok l => hold (fun c => l.held c ctx va.toNat)
      | .error d => if d = 6 then s1 else hold (fun c => missingEntry c ctx va.toNat d))

end Sys2Proof.Machine
end

