-- ==== Sys2Proof/Machine/Scalar.lean ====
section
/-! DEFINITION. Scalar register operations and their immediate forms (R118, R119), and the predicate operations (R134). -/

namespace Sys2Proof.Machine

/-- A scalar result written and the program counter moved on (R118). -/
def State.putScalar (s : State) (d : BitVec 6) (x : Word) : Result := .next (s.setS d x).advance

/-- A predicate result written and the program counter moved on (R134). -/
def State.putPred (s : State) (d : BitVec 3) (x : Lane) : Result := .next (s.setP d x).advance

/-- 1 for true and 0 for false. -/
def wordOfBool (b : Bool) : Word := if b then 1 else 0

/-- The high 64 bits of the signed product (R118). -/
def mulHigh (a b : Word) : Word := BitVec.ofInt 64 (a.toInt * b.toInt / 2 ^ 64)

/-- The high 64 bits of the unsigned product (R118). -/
def mulHighU (a b : Word) : Word := BitVec.ofNat 64 (a.toNat * b.toNat / 2 ^ 64)

/-- The signed quotient of R44: all ones for a divisor of 0, truncated towards 0 otherwise. -/
def divS (a b : Word) : Word := if b = 0 then BitVec.allOnes 64 else a.sdiv b

/-- The unsigned quotient of R44: all ones for a divisor of 0. -/
def divU (a b : Word) : Word := if b = 0 then BitVec.allOnes 64 else a / b

/-- The signed remainder of R44: the dividend for a divisor of 0, with the dividend's sign otherwise. -/
def remS (a b : Word) : Word := if b = 0 then a else a.srem b

/-- The unsigned remainder of R44: the dividend for a divisor of 0. -/
def remU (a b : Word) : Word := if b = 0 then a else a % b

/-- The shift count in the low six bits (R118). -/
def shiftCount (b : Word) : Nat := b.toNat % 64

/-- `sadd`: a + b modulo 2^64 (R118). -/
def execSadd (d a b : BitVec 6) (s : State) : Result := s.putScalar d (s.getS a + s.getS b)

/-- `ssub`: a − b modulo 2^64 (R118). -/
def execSsub (d a b : BitVec 6) (s : State) : Result := s.putScalar d (s.getS a - s.getS b)

/-- `smul`: the low 64 bits of the product (R118). -/
def execSmul (d a b : BitVec 6) (s : State) : Result := s.putScalar d (s.getS a * s.getS b)

/-- `smulh`: the high 64 bits of the signed product (R118). -/
def execSmulh (d a b : BitVec 6) (s : State) : Result := s.putScalar d (mulHigh (s.getS a) (s.getS b))

/-- `smulhu`: the high 64 bits of the unsigned product (R118). -/
def execSmulhu (d a b : BitVec 6) (s : State) : Result := s.putScalar d (mulHighU (s.getS a) (s.getS b))

/-- `sdiv`: the signed quotient (R118). -/
def execSdiv (d a b : BitVec 6) (s : State) : Result := s.putScalar d (divS (s.getS a) (s.getS b))

/-- `sdivu`: the unsigned quotient (R118). -/
def execSdivu (d a b : BitVec 6) (s : State) : Result := s.putScalar d (divU (s.getS a) (s.getS b))

/-- `srem`: the signed remainder (R118). -/
def execSrem (d a b : BitVec 6) (s : State) : Result := s.putScalar d (remS (s.getS a) (s.getS b))

/-- `sremu`: the unsigned remainder (R118). -/
def execSremu (d a b : BitVec 6) (s : State) : Result := s.putScalar d (remU (s.getS a) (s.getS b))

/-- `sand`: bitwise and (R118). -/
def execSand (d a b : BitVec 6) (s : State) : Result := s.putScalar d (s.getS a &&& s.getS b)

/-- `sor`: bitwise or (R118). -/
def execSor (d a b : BitVec 6) (s : State) : Result := s.putScalar d (s.getS a ||| s.getS b)

/-- `sxor`: bitwise exclusive or (R118). -/
def execSxor (d a b : BitVec 6) (s : State) : Result := s.putScalar d (s.getS a ^^^ s.getS b)

/-- `sshl`: a shifted left by b[5:0] (R118). -/
def execSshl (d a b : BitVec 6) (s : State) : Result := s.putScalar d (s.getS a <<< shiftCount (s.getS b))

/-- `sshr`: a shifted right by b[5:0], zeros filling (R118). -/
def execSshr (d a b : BitVec 6) (s : State) : Result := s.putScalar d (s.getS a >>> shiftCount (s.getS b))

/-- `ssra`: a shifted right by b[5:0], the sign filling (R118). -/
def execSsra (d a b : BitVec 6) (s : State) : Result := s.putScalar d ((s.getS a).sshiftRight (shiftCount (s.getS b)))

/-- `smin`: the signed minimum (R118). -/
def execSmin (d a b : BitVec 6) (s : State) : Result := s.putScalar d (if (s.getS a).toInt ≤ (s.getS b).toInt then s.getS a else s.getS b)

/-- `smax`: the signed maximum (R118). -/
def execSmax (d a b : BitVec 6) (s : State) : Result := s.putScalar d (if (s.getS a).toInt ≤ (s.getS b).toInt then s.getS b else s.getS a)

/-- `sminu`: the unsigned minimum (R118). -/
def execSminu (d a b : BitVec 6) (s : State) : Result := s.putScalar d (if (s.getS a).toNat ≤ (s.getS b).toNat then s.getS a else s.getS b)

/-- `smaxu`: the unsigned maximum (R118). -/
def execSmaxu (d a b : BitVec 6) (s : State) : Result := s.putScalar d (if (s.getS a).toNat ≤ (s.getS b).toNat then s.getS b else s.getS a)

/-- `sseq`: 1 if a equals b (R118). -/
def execSseq (d a b : BitVec 6) (s : State) : Result := s.putScalar d (wordOfBool (s.getS a == s.getS b))

/-- `sslt`: 1 if a is below b, signed (R118). -/
def execSslt (d a b : BitVec 6) (s : State) : Result := s.putScalar d (wordOfBool ((s.getS a).slt (s.getS b)))

/-- `ssltu`: 1 if a is below b, unsigned (R118). -/
def execSsltu (d a b : BitVec 6) (s : State) : Result := s.putScalar d (wordOfBool ((s.getS a).ult (s.getS b)))

/-- `sclz`: the leading zeros of a, 64 for 0 (R118). -/
def execSclz (d a : BitVec 6) (s : State) : Result := s.putScalar d (BitVec.ofNat 64 (leadingZeros 64 (s.getS a).toNat))

/-- `spopc`: the set bits of a (R118). -/
def execSpopc (d a : BitVec 6) (s : State) : Result := s.putScalar d (BitVec.ofNat 64 (countBits 64 (s.getS a).toNat))

/-- `spmov`: a predicate, zero-extended (R118). -/
def execSpmov (d : BitVec 6) (p : BitVec 3) (s : State) : Result := s.putScalar d ((s.getP p).setWidth 64)

/-- `saddi`: a + sext(imm13) (R119). -/
def execSaddi (d a : BitVec 6) (imm : BitVec 13) (s : State) : Result := s.putScalar d (s.getS a + imm.signExtend 64)

/-- `sandi`: a AND sext(imm13) (R119). -/
def execSandi (d a : BitVec 6) (imm : BitVec 13) (s : State) : Result := s.putScalar d (s.getS a &&& imm.signExtend 64)

/-- `sori`: a OR sext(imm13) (R119). -/
def execSori (d a : BitVec 6) (imm : BitVec 13) (s : State) : Result := s.putScalar d (s.getS a ||| imm.signExtend 64)

/-- `sslti`: 1 if a is below sext(imm13), signed (R119). -/
def execSslti (d a : BitVec 6) (imm : BitVec 13) (s : State) : Result := s.putScalar d (wordOfBool ((s.getS a).slt (imm.signExtend 64)))

/-- `sshli`: a shifted left by the immediate (R119). -/
def execSshli (d a imm : BitVec 6) (s : State) : Result := s.putScalar d (s.getS a <<< imm.toNat)

/-- `ssrai`: a shifted right, the sign filling (R119). -/
def execSsrai (d a imm : BitVec 6) (s : State) : Result := s.putScalar d ((s.getS a).sshiftRight imm.toNat)

/-- `sshri`: a shifted right, zeros filling (R119). -/
def execSshri (d a imm : BitVec 6) (s : State) : Result := s.putScalar d (s.getS a >>> imm.toNat)

/-- `sli`: sext(imm19) (R119). -/
def execSli (d : BitVec 6) (imm : BitVec 19) (s : State) : Result := s.putScalar d (imm.signExtend 64)

/-- `slui`: d[18:0] OR sext(imm19) << 19 (R119). -/
def execSlui (d : BitVec 6) (imm : BitVec 19) (s : State) : Result :=
  s.putScalar d (((s.getS d).extractLsb' 0 19).setWidth 64 ||| (imm.signExtend 64) <<< 19)

/-- `slxi`: d[37:0] OR zext(imm19) << 38, bits [63:57] zero (R119). -/
def execSlxi (d : BitVec 6) (imm : BitVec 19) (s : State) : Result :=
  s.putScalar d (((s.getS d).extractLsb' 0 38).setWidth 64 ||| (imm.setWidth 64) <<< 38)

/-- `pand`: p[a] AND p[b] (R134). -/
def execPand (d a b : BitVec 3) (s : State) : Result := s.putPred d (s.getP a &&& s.getP b)

/-- `por`: p[a] OR p[b] (R134). -/
def execPor (d a b : BitVec 3) (s : State) : Result := s.putPred d (s.getP a ||| s.getP b)

/-- `pxor`: p[a] XOR p[b] (R134). -/
def execPxor (d a b : BitVec 3) (s : State) : Result := s.putPred d (s.getP a ^^^ s.getP b)

/-- `pandn`: p[a] AND NOT p[b] (R134). -/
def execPandn (d a b : BitVec 3) (s : State) : Result := s.putPred d (s.getP a &&& ~~~(s.getP b))

/-- `pnot`: NOT p[a] (R134). -/
def execPnot (d a : BitVec 3) (s : State) : Result := s.putPred d (~~~(s.getP a))

/-- `pmov`: p[a] (R134). -/
def execPmov (d a : BitVec 3) (s : State) : Result := s.putPred d (s.getP a)

/-- `pcnt`: the set bits of p[a] AND LMASK (R134). -/
def execPcnt (d : BitVec 6) (a : BitVec 3) (s : State) : Result :=
  s.putScalar d (BitVec.ofNat 64 (countBits 32 (s.getP a &&& s.fr.lmask).toNat))

/-- `pfirst`: the lowest set bit of p[a] AND LMASK alone, 0 if there is none (R134). -/
def execPfirst (d a : BitVec 3) (s : State) : Result :=
  s.putPred d ((s.getP a &&& s.fr.lmask) &&& -(s.getP a &&& s.fr.lmask))

/-- `pset`: s[a][31:0] (R134). -/
def execPset (d : BitVec 3) (a : BitVec 6) (s : State) : Result := s.putPred d ((s.getS a).setWidth 32)

end Sys2Proof.Machine
end

