-- ==== Sys2Proof/Machine/VectorFloat.lean ====
section
/-! DEFINITION. Floating-point vector operations and compares (R161 to R163). -/

namespace Sys2Proof.Machine

/-- A float operation on the elements of a, b and d, given the fraction bits and the rounding mode (R161). -/
def State.floatOp (s : State) (d a b : BitVec 7) (f : Nat → Rounding → Nat → Nat → Nat → Nat × Flags) : State :=
  s.withType [d, a, b] EType.isFloat (fun t => s.elementwise d a b t.width (f t.fracBits s.rounding))

/-- A float compare (R162). -/
def State.floatCompare (s : State) (d : BitVec 3) (a b : BitVec 7) (f : Nat → Nat → Nat → Bool × Flags) : State :=
  s.withType [a, b] EType.isFloat (fun t => s.relate d a b t.width (f t.fracBits))

/-- `vfadd`: a + b (R161, R162). -/
def execVfadd (d a b : BitVec 7) (s : State) : Result :=
  .next (s.floatOp d a b (fun fb r x y _ => fAdd fb r x y))

/-- `vfsub`: a − b (R161, R162). -/
def execVfsub (d a b : BitVec 7) (s : State) : Result :=
  .next (s.floatOp d a b (fun fb r x y _ => fSub fb r x y))

/-- `vfmul`: a × b (R161, R162). -/
def execVfmul (d a b : BitVec 7) (s : State) : Result :=
  .next (s.floatOp d a b (fun fb r x y _ => fMul fb r x y))

/-- `vfma`: a × b + d (R161, R162). -/
def execVfma (d a b : BitVec 7) (s : State) : Result :=
  .next (s.floatOp d a b (fun fb r x y z => fFma fb r false false x y z))

/-- `vfms`: a × b − d (R161, R162). -/
def execVfms (d a b : BitVec 7) (s : State) : Result :=
  .next (s.floatOp d a b (fun fb r x y z => fFma fb r false true x y z))

/-- `vfnma`: −(a × b) + d (R161, R162). -/
def execVfnma (d a b : BitVec 7) (s : State) : Result :=
  .next (s.floatOp d a b (fun fb r x y z => fFma fb r true false x y z))

/-- `vfmin`: FMin (R161, R162). -/
def execVfmin (d a b : BitVec 7) (s : State) : Result :=
  .next (s.floatOp d a b (fun fb _ x y _ => fMin fb x y))

/-- `vfmax`: FMax (R161, R162). -/
def execVfmax (d a b : BitVec 7) (s : State) : Result :=
  .next (s.floatOp d a b (fun fb _ x y _ => fMax fb x y))

/-- `vfcmpeq` (R51, R162). -/
def execVfcmpeq (d : BitVec 3) (a b : BitVec 7) (s : State) : Result := .next (s.floatCompare d a b fEq)

/-- `vfcmplt` (R51, R162). -/
def execVfcmplt (d : BitVec 3) (a b : BitVec 7) (s : State) : Result := .next (s.floatCompare d a b fLt)

/-- `vfcmple` (R51, R162). -/
def execVfcmple (d : BitVec 3) (a b : BitVec 7) (s : State) : Result := .next (s.floatCompare d a b fLe)

/-- `vfcmpun` (R51, R162). -/
def execVfcmpun (d : BitVec 3) (a b : BitVec 7) (s : State) : Result := .next (s.floatCompare d a b fUn)

/-- `vfscal`: a × 2^n, n being the element of b as i32 or i16 (R161). -/
def execVfscal (d a b : BitVec 7) (s : State) : Result :=
  .next (s.floatOp d a b (fun fb r x y _ => fScale fb r x (signedOf (fb + 9) y)))

/-- `vfcls`: the class mask of each element (R163). -/
def execVfcls (d a : BitVec 7) (s : State) : Result :=
  .next (s.floatOp d a a (fun fb _ x _ _ => noFlag (fClass fb x)))

/-! ## Reciprocals, roots, powers and logarithms (R166) -/

/-- `vfrcp`: 1/x (R166). -/
def execVfrcp (d a : BitVec 7) (s : State) : Result :=
  .next (s.floatOp d a a (fun fb r x _ _ => fRcp fb r x))

/-- `vfrsq`: 1/√x (R166). -/
def execVfrsq (d a : BitVec 7) (s : State) : Result :=
  .next (s.floatOp d a a (fun fb r x _ _ => fRsq fb r x))

/-- `vfexp2`: 2^x (R166). -/
def execVfexp2 (d a : BitVec 7) (s : State) : Result :=
  .next (s.floatOp d a a (fun fb r x _ _ => fExp2 fb r x))

/-- `vflog2`: log2 x (R166). -/
def execVflog2 (d a : BitVec 7) (s : State) : Result :=
  .next (s.floatOp d a a (fun fb r x _ _ => fLog2 fb r x))

end Sys2Proof.Machine
end

