-- ==== Sys2Proof/Machine/VectorInt.lean ====
section
/-! DEFINITION. Integer vector operations and compares (R158 to R160). -/

namespace Sys2Proof.Machine

/-- An integer operation on the elements of a, b and d, reduced as the entry says (R158). -/
def State.intOp (s : State) (d a b : BitVec 7) (f : EType → Bool → Nat → Nat → Nat → Nat) : State :=
  s.withType [d, a, b] EType.isInt (fun t =>
    s.elementwise d a b t.width (fun x y z => noFlag (f t s.sat x y z)))

/-- An operation on whole lanes, whatever the element type (R158). -/
def State.bitOp (s : State) (d a b : BitVec 7) (f : Lane → Lane → Lane → Lane) : State :=
  s.withRegs [d, a, b] (s.lanewise d a b f)

/-- An integer compare (R159). -/
def State.intCompare (s : State) (d : BitVec 3) (a b : BitVec 7) (r : Int → Int → Bool) : State :=
  s.withType [a, b] EType.isInt (fun t =>
    s.relate d a b t.width (fun x y => (r (intOf t x) (intOf t y), 0)))

/-- The shift count of an element: the low log2 w bits (R43). -/
def elemShift (t : EType) (y : Nat) : Nat := y % t.width

/-- `vshl` on an element: the low bits kept, or the exact value saturated (R158). -/
def shiftLeftElem (t : EType) (sat : Bool) (x y : Nat) : Nat := reduceInt t sat (intOf t x * 2 ^ elemShift t y)

/-- `vsra` on an element: copies of bit w − 1 fill, whatever the type (R158). -/
def shiftSignElem (t : EType) (x y : Nat) : Nat := wrapTo t.width (signedOf t.width x / 2 ^ elemShift t y)

/-- `vrot` on an element (R158). -/
def rotateElem (t : EType) (x y : Nat) : Nat :=
  (x <<< elemShift t y ||| x >>> (t.width - elemShift t y)) % 2 ^ t.width

/-- The sum of the products of the elements of two lanes (R160). -/
def dotFour (t : EType) (a b : Lane) : Int :=
  ((List.range 4).map (fun e => intOf t (elemOf 8 a e) * intOf t (elemOf 8 b e))).foldl (· + ·) 0

/-- `vadd`: the sum, reduced by R42 (R158). -/
def execVadd (d a b : BitVec 7) (s : State) : Result :=
  .next (s.intOp d a b (fun t sat x y _ => reduceInt t sat (intOf t x + intOf t y)))

/-- `vsub`: the difference, reduced by R42 (R158). -/
def execVsub (d a b : BitVec 7) (s : State) : Result :=
  .next (s.intOp d a b (fun t sat x y _ => reduceInt t sat (intOf t x - intOf t y)))

/-- `vmul`: the product, reduced by R42 (R158). -/
def execVmul (d a b : BitVec 7) (s : State) : Result :=
  .next (s.intOp d a b (fun t sat x y _ => reduceInt t sat (intOf t x * intOf t y)))

/-- `vmulh`: the high half of the exact product (R158). -/
def execVmulh (d a b : BitVec 7) (s : State) : Result :=
  .next (s.intOp d a b (fun t _ x y _ => wrapTo t.width (intOf t x * intOf t y / 2 ^ t.width)))

/-- `vmad`: d + a × b, reduced once (R158). -/
def execVmad (d a b : BitVec 7) (s : State) : Result :=
  .next (s.intOp d a b (fun t sat x y z => reduceInt t sat (intOf t z + intOf t x * intOf t y)))

/-- `vmin`: the smaller (R158). -/
def execVmin (d a b : BitVec 7) (s : State) : Result :=
  .next (s.intOp d a b (fun t _ x y _ => if intOf t x ≤ intOf t y then x else y))

/-- `vmax`: the larger (R158). -/
def execVmax (d a b : BitVec 7) (s : State) : Result :=
  .next (s.intOp d a b (fun t _ x y _ => if intOf t x ≤ intOf t y then y else x))

/-- `vand`: bitwise and (R158). -/
def execVand (d a b : BitVec 7) (s : State) : Result :=
  .next (s.bitOp d a b (fun x y _ => x &&& y))

/-- `vor`: bitwise or (R158). -/
def execVor (d a b : BitVec 7) (s : State) : Result :=
  .next (s.bitOp d a b (fun x y _ => x ||| y))

/-- `vxor`: bitwise exclusive or (R158). -/
def execVxor (d a b : BitVec 7) (s : State) : Result :=
  .next (s.bitOp d a b (fun x y _ => x ^^^ y))

/-- `vandn`: a AND NOT b (R158). -/
def execVandn (d a b : BitVec 7) (s : State) : Result :=
  .next (s.bitOp d a b (fun x y _ => x &&& ~~~y))

/-- `vshl`: a shifted left (R158). -/
def execVshl (d a b : BitVec 7) (s : State) : Result :=
  .next (s.intOp d a b (fun t sat x y _ => shiftLeftElem t sat x y))

/-- `vshr`: a shifted right, zeros filling (R158). -/
def execVshr (d a b : BitVec 7) (s : State) : Result :=
  .next (s.intOp d a b (fun t _ x y _ => x >>> elemShift t y))

/-- `vsra`: a shifted right, bit w − 1 filling (R158). -/
def execVsra (d a b : BitVec 7) (s : State) : Result :=
  .next (s.intOp d a b (fun t _ x y _ => shiftSignElem t x y))

/-- `vrot`: a rotated left (R158). -/
def execVrot (d a b : BitVec 7) (s : State) : Result :=
  .next (s.intOp d a b (fun t _ x y _ => rotateElem t x y))

/-- `vsel`: (a AND d) OR (b AND NOT d) (R158). -/
def execVsel (d a b : BitVec 7) (s : State) : Result :=
  .next (s.bitOp d a b (fun x y m => (x &&& m) ||| (y &&& ~~~m)))

/-- `vcmpeq`: the lanes in which = holds (R159). -/
def execVcmpeq (d : BitVec 3) (a b : BitVec 7) (s : State) : Result :=
  .next (s.intCompare d a b (fun x y => x == y))

/-- `vcmpne`: the lanes in which ≠ holds (R159). -/
def execVcmpne (d : BitVec 3) (a b : BitVec 7) (s : State) : Result :=
  .next (s.intCompare d a b (fun x y => x != y))

/-- `vcmplt`: the lanes in which < holds (R159). -/
def execVcmplt (d : BitVec 3) (a b : BitVec 7) (s : State) : Result :=
  .next (s.intCompare d a b (fun x y => decide (x < y)))

/-- `vcmple`: the lanes in which ≤ holds (R159). -/
def execVcmple (d : BitVec 3) (a b : BitVec 7) (s : State) : Result :=
  .next (s.intCompare d a b (fun x y => decide (x ≤ y)))

/-- `vcmpgt`: the lanes in which > holds (R159). -/
def execVcmpgt (d : BitVec 3) (a b : BitVec 7) (s : State) : Result :=
  .next (s.intCompare d a b (fun x y => decide (x > y)))

/-- `vcmpge`: the lanes in which ≥ holds (R159). -/
def execVcmpge (d : BitVec 3) (a b : BitVec 7) (s : State) : Result :=
  .next (s.intCompare d a b (fun x y => decide (x ≥ y)))

/-- `vabsd`: |a − b| as an unsigned value (R160). -/
def execVabsd (d a b : BitVec 7) (s : State) : Result :=
  .next (s.intOp d a b (fun t _ x y _ => (intOf t x - intOf t y).natAbs))

/-- `vavg`: floor((a + b + 1) / 2) (R160). -/
def execVavg (d a b : BitVec 7) (s : State) : Result :=
  .next (s.intOp d a b (fun t _ x y _ => wrapTo t.width ((intOf t x + intOf t y + 1) / 2)))

/-- The 32-bit type that `vdot4` accumulates in (R160). -/
def dotType (t : EType) : EType := if t = .i8 then .i32 else .n32

/-- `vdot4`: d plus four products, reduced once to 32 bits (R160). -/
def execVdot4 (d a b : BitVec 7) (s : State) : Result :=
  .next (s.withType [d, a, b] (fun t => t == .i8 || t == .n8) (fun t =>
    s.lanewise d a b (fun x y z =>
      BitVec.ofNat 32 (reduceInt (dotType t) s.sat (intOf (dotType t) z.toNat + dotFour t x y)))))

end Sys2Proof.Machine
end

