-- ==== Sys2Proof/Machine/VectorMove.lean ====
section
/-! DEFINITION. Unary operations, conversion, the moves between scalars and lanes, and the operations across lanes
(R164 to R175). -/

namespace Sys2Proof.Machine

/-! ## Unary operations (R164, R165) -/

/-- `vmov`: d = a (R164). -/
def execVmov (d a : BitVec 7) (s : State) : Result := .next (s.bitOp d a a (fun x _ _ => x))

/-- `vnot`: d = NOT a (R164). -/
def execVnot (d a : BitVec 7) (s : State) : Result := .next (s.bitOp d a a (fun x _ _ => ~~~x))

/-- `vneg`: −a by R42, or the sign inverted (R165). -/
def execVneg (d a : BitVec 7) (s : State) : Result :=
  .next (s.withType [d, a] (fun t => t.isInt || t.isFloat) (fun t =>
    s.elementwise d a a t.width (fun x _ _ =>
      if t.isFloat then fNeg t.fracBits x else noFlag (reduceInt t s.sat (-(intOf t x))))))

/-- `vabs`: |a| by R42, or the sign cleared (R165). -/
def execVabs (d a : BitVec 7) (s : State) : Result :=
  .next (s.withType [d, a] (fun t => t.isInt || t.isFloat) (fun t =>
    s.elementwise d a a t.width (fun x _ _ =>
      if t.isFloat then fAbs t.fracBits x else noFlag (reduceInt t s.sat (intOf t x).natAbs))))

/-- `vpopc`: the set bits of each element (R164). -/
def execVpopc (d a : BitVec 7) (s : State) : Result :=
  .next (s.intOp d a a (fun t _ x _ _ => countBits t.width x))

/-- `vclz`: the leading zeros of each element (R164). -/
def execVclz (d a : BitVec 7) (s : State) : Result :=
  .next (s.intOp d a a (fun t _ x _ _ => leadingZeros t.width x))

/-- `vlaneid`: d = l (R164). -/
def execVlaneid (d : BitVec 7) (s : State) : Result :=
  .next (s.withRegs [d] (s.putRaw d (fun l => BitVec.ofNat 32 l)))

/-- `vbrev`: the bits of each element reversed (R164). -/
def execVbrev (d a : BitVec 7) (s : State) : Result :=
  .next (s.withType [d, a] (fun _ => true) (fun t =>
    s.elementwise d a a t.width (fun x _ _ => noFlag (reverseBits t.width x))))

/-! ## vcvt (R167) -/

/-- The number of parts of a conversion between two types (R167). -/
def cvtParts (src dst : EType) : Nat := max (32 / src.width) (32 / dst.width) / min (32 / src.width) (32 / dst.width)

/-- The conversion is one that `vcvt` refuses (R167). -/
def cvtRefused (src dst : EType) (part : Nat) : Bool :=
  (src == .b1 && decide (dst.width ≥ 16)) || (dst == .b1 && decide (src.width ≥ 16)) || decide (part ≥ cvtParts src dst)

/-- A lane converted: an element of the part widened into each element of d, or each element of a narrowed into the part
of d (R167). -/
def cvtLane (src dst : EType) (mode : Rounding) (sat : Bool) (part : Nat) (a d : Lane) : Lane × Flags :=
  let ns := 32 / src.width
  let nd := 32 / dst.width
  if ns ≥ nd then mapLane dst.width (fun e => convert src dst mode sat (elemOf src.width a (part * nd + e)))
  else mapLane dst.width (fun e =>
    if part * ns ≤ e ∧ e < part * ns + ns then convert src dst mode sat (elemOf src.width a (e - part * ns))
    else noFlag (elemOf dst.width d e))

/-- `vcvt` (R167). -/
def execVcvt (d a : BitVec 7) (part : BitVec 3) (ty : BitVec 4) (s : State) : Result :=
  .next (s.withType [d, a] (fun _ => true) (fun src =>
    match etypeOf ty.toNat with
    | none => s.trap causeILL 0 0 0
    | some dst =>
      if cvtRefused src dst part.toNat then s.trap causeTYPE 0 0 0
      else
        let va := s.getV a
        let vd := s.getV d
        s.putLanes d (fun l => cvtLane src dst s.rounding s.sat part.toNat (laneOf va l) (laneOf vd l))))

/-! ## Moves between scalars and lanes (R168) -/

/-- `vbcst`: s[a][31:0] in every guarded lane (R168). -/
def execVbcst (d : BitVec 7) (a : BitVec 6) (s : State) : Result :=
  .next (s.withRegs [d] (s.putRaw d (fun _ => (s.getS a).setWidth 32)))

/-- `vextr`: one lane into a scalar, whatever the guard holds (R168). -/
def execVextr (d : BitVec 6) (a : BitVec 7) (lane : BitVec 5) (s : State) : Result :=
  .next (s.withRegs [a] (s.setS d ((laneOf (s.getV a) lane.toNat).setWidth 64)).advance)

/-- `vins`: a scalar into one lane, when it is guarded (R168). -/
def execVins (d : BitVec 7) (a : BitVec 6) (lane : BitVec 5) (s : State) : Result :=
  .next (s.withRegs [d] (s.putRaw d (fun l =>
    if l = lane.toNat then (s.getS a).setWidth 32 else laneOf (s.getV d) l)))

/-! ## Operations across lanes (R169 to R175) -/

/-- A lane permute: each guarded lane takes the lane of a that the entry names, or keeps its value (R169). -/
def State.permute (s : State) (d a b : BitVec 7) (src : Nat → Nat → Int) : State :=
  s.withRegs [d, a, b] (
    let va := s.getV a
    let vb := s.getV b
    let vd := s.getV d
    s.putRaw d (fun l =>
      let k := src l (laneOf vb l).toNat
      if 0 ≤ k ∧ k ≤ 31 then laneOf va k.toNat else laneOf vd l))

/-- `vperm`: lane b[4:0] (R169). -/
def execVperm (d a b : BitVec 7) (s : State) : Result := .next (s.permute d a b (fun _ x => ((x % 32 : Nat) : Int)))

/-- `vshflu`: lane l − b[5:0] (R169). -/
def execVshflu (d a b : BitVec 7) (s : State) : Result :=
  .next (s.permute d a b (fun l x => (l : Int) - ((x % 64 : Nat) : Int)))

/-- `vshfld`: lane l + b[5:0] (R169). -/
def execVshfld (d a b : BitVec 7) (s : State) : Result :=
  .next (s.permute d a b (fun l x => (l : Int) + ((x % 64 : Nat) : Int)))

/-- `vshflx`: lane l XOR b[4:0] (R169). -/
def execVshflx (d a b : BitVec 7) (s : State) : Result :=
  .next (s.permute d a b (fun l x => ((l ^^^ (x % 32) : Nat) : Int)))

/-- `vbperm`: a byte table lookup in lanes 0 to 3 of a (R170). -/
def execVbperm (d a b : BitVec 7) (s : State) : Result :=
  .next (s.withRegs [d, a, b] (
    let va := s.getV a
    let vb := s.getV b
    s.putRaw d (fun l => packLane 8 (fun j =>
      let x := elemOf 8 (laneOf vb l) j
      if x ≥ 128 then 0 else byteOf va (x % 16)))))

/-- `vslide`: the register moved up by n bytes, the last n bytes of d coming in (R171). -/
def execVslide (d a n : BitVec 7) (s : State) : Result :=
  .next (s.withRegs [d, a] (
    let va := s.getV a
    let vd := s.getV d
    s.putRaw d (fun l => packLane 8 (fun j =>
      let k := 4 * l + j
      if k < n.toNat then byteOf vd (128 - n.toNat + k) else byteOf va (k - n.toNat)))))

/-- The positions of R61 of a register: the elements of guarded lanes up to a limit, the others absent. -/
def positions (v : Vector Lane 32) (w : Nat) (guarded : List Nat) (limit : Nat) : List (Option Nat) :=
  (List.range (32 * (32 / w))).map (fun i =>
    if guarded.contains (i / (32 / w)) ∧ i < limit then some (elemOf w (laneOf v (i / (32 / w))) (i % (32 / w)))
    else none)

/-- ReduceTree over positions of elements of a width (R61). -/
def reduceAll (t : EType) (op : ReduceOp) (mode : Rounding) (sat : Bool) (ps : List (Option Nat)) : Option Nat × Flags :=
  reduceTree (reduceNode t op mode sat) (Nat.log2 (32 * (32 / t.width))) ps

/-- A reduction written to every element of every guarded lane (R172). -/
def State.reduceLanes (s : State) (d a : BitVec 7) (op : ReduceOp) : State :=
  s.withType [d, a] (fun t => t.isInt || t.isFloat) (fun t =>
    let r := reduceAll t op s.rounding s.sat (positions (s.getV a) t.width s.guarded (32 * 32))
    let x := r.1.getD (reduceIdentity t op)
    (s.putRaw d (fun _ => packLane t.width (fun _ => x))).raiseFlags r.2)

/-- `vredadd` (R172). -/
def execVredadd (d a : BitVec 7) (s : State) : Result := .next (s.reduceLanes d a .add)

/-- `vredmin` (R172). -/
def execVredmin (d a : BitVec 7) (s : State) : Result := .next (s.reduceLanes d a .min)

/-- `vredmax` (R172). -/
def execVredmax (d a : BitVec 7) (s : State) : Result := .next (s.reduceLanes d a .max)

/-- `vscan`: an inclusive prefix sum, each position by a tree of its own (R173). -/
def execVscan (d a : BitVec 7) (s : State) : Result :=
  .next (s.withType [d, a] (fun t => t.isInt || t.isFloat) (fun t =>
    let va := s.getV a
    let g := s.guarded
    let per := 32 / t.width
    s.putLanes d (fun l => mapLane t.width (fun e =>
      let r := reduceAll t .add s.rounding s.sat (positions va t.width g (l * per + e + 1))
      (r.1.getD 0, r.2)))))

/-- `vballot`: the mask of guarded lanes whose value is not 0, in every guarded lane (R174). -/
def execVballot (d a : BitVec 7) (s : State) : Result :=
  .next (s.withRegs [d, a] (
    let va := s.getV a
    let m := maskOf (s.guarded.filter (fun l => laneOf va l != 0))
    s.putRaw d (fun _ => m)))

/-- Lanes of a moved to lanes of d, pair by pair (R175). -/
def State.moveLanes (s : State) (d a : BitVec 7) (pairs : List (Nat × Nat)) : State :=
  s.withRegs [d, a] (
    let va := s.getV a
    let t : Tab Nat := pairs.map (fun x => (x.2, x.1))
    (s.setV d (withLanes (s.getV d) (pairs.map (·.2)) (fun l => laneOf va (getAt l t l)))).advance)

/-- `vcmprs`: guarded lanes packed into the lowest lanes of LMASK (R175). -/
def execVcmprs (d a : BitVec 7) (s : State) : Result := .next (s.moveLanes d a (s.guarded.zip (lanesOf s.fr.lmask)))

/-- `vexpnd`: the lowest lanes of LMASK spread to the guarded lanes (R175). -/
def execVexpnd (d a : BitVec 7) (s : State) : Result := .next (s.moveLanes d a ((lanesOf s.fr.lmask).zip s.guarded))

end Sys2Proof.Machine
end

