-- ==== Sys2Proof/Machine/Dispatch.lean ====
section
/-! DEFINITION. The meaning of every instruction and step, one arm for each constructor. -/

namespace Sys2Proof.Machine

def exec (i : Instr) (s : State) : Host.Outcome State Fault Refusal :=
  match i with
  | .sadd d a b => Sys2Proof.Machine.execSadd d a b s
  | .ssub d a b => Sys2Proof.Machine.execSsub d a b s
  | .smul d a b => Sys2Proof.Machine.execSmul d a b s
  | .smulh d a b => Sys2Proof.Machine.execSmulh d a b s
  | .smulhu d a b => Sys2Proof.Machine.execSmulhu d a b s
  | .sdiv d a b => Sys2Proof.Machine.execSdiv d a b s
  | .sdivu d a b => Sys2Proof.Machine.execSdivu d a b s
  | .srem d a b => Sys2Proof.Machine.execSrem d a b s
  | .sremu d a b => Sys2Proof.Machine.execSremu d a b s
  | .sand d a b => Sys2Proof.Machine.execSand d a b s
  | .sor d a b => Sys2Proof.Machine.execSor d a b s
  | .sxor d a b => Sys2Proof.Machine.execSxor d a b s
  | .sshl d a b => Sys2Proof.Machine.execSshl d a b s
  | .sshr d a b => Sys2Proof.Machine.execSshr d a b s
  | .ssra d a b => Sys2Proof.Machine.execSsra d a b s
  | .smin d a b => Sys2Proof.Machine.execSmin d a b s
  | .smax d a b => Sys2Proof.Machine.execSmax d a b s
  | .sminu d a b => Sys2Proof.Machine.execSminu d a b s
  | .smaxu d a b => Sys2Proof.Machine.execSmaxu d a b s
  | .sseq d a b => Sys2Proof.Machine.execSseq d a b s
  | .sslt d a b => Sys2Proof.Machine.execSslt d a b s
  | .ssltu d a b => Sys2Proof.Machine.execSsltu d a b s
  | .sclz d a => Sys2Proof.Machine.execSclz d a s
  | .spopc d a => Sys2Proof.Machine.execSpopc d a s
  | .spmov d p => Sys2Proof.Machine.execSpmov d p s
  | .saddi d a imm => Sys2Proof.Machine.execSaddi d a imm s
  | .sandi d a imm => Sys2Proof.Machine.execSandi d a imm s
  | .sori d a imm => Sys2Proof.Machine.execSori d a imm s
  | .sslti d a imm => Sys2Proof.Machine.execSslti d a imm s
  | .sshli d a imm => Sys2Proof.Machine.execSshli d a imm s
  | .ssrai d a imm => Sys2Proof.Machine.execSsrai d a imm s
  | .sshri d a imm => Sys2Proof.Machine.execSshri d a imm s
  | .sli d imm => Sys2Proof.Machine.execSli d imm s
  | .slui d imm => Sys2Proof.Machine.execSlui d imm s
  | .slxi d imm => Sys2Proof.Machine.execSlxi d imm s
  | .br off => Sys2Proof.Machine.execBr off s
  | .call off => Sys2Proof.Machine.execCall off s
  | .brz d off => Sys2Proof.Machine.execBrz d off s
  | .brnz d off => Sys2Proof.Machine.execBrnz d off s
  | .ret => Sys2Proof.Machine.execRet s
  | .exit => Sys2Proof.Machine.execExit s
  | .yield => Sys2Proof.Machine.execYield s
  | .trap code => Sys2Proof.Machine.execTrap code s
  | .rtt => Sys2Proof.Machine.execRtt s
  | .brk code => Sys2Proof.Machine.execBrk code s
  | .racq d n => Sys2Proof.Machine.execRacq d n s
  | .racqE d n => Sys2Proof.Machine.execRacqE d n s
  | .rrel n => Sys2Proof.Machine.execRrel n s
  | .srd d idx => Sys2Proof.Machine.execSrd d idx s
  | .swr a idx => Sys2Proof.Machine.execSwr a idx s
  | .frz => Sys2Proof.Machine.execFrz s
  | .lpad vj cl jp tag => Sys2Proof.Machine.execLpad vj cl jp tag s
  | .mode order scope sat round etype guard => Sys2Proof.Machine.execMode order scope sat round etype guard s
  | .pand d a b => Sys2Proof.Machine.execPand d a b s
  | .por d a b => Sys2Proof.Machine.execPor d a b s
  | .pxor d a b => Sys2Proof.Machine.execPxor d a b s
  | .pandn d a b => Sys2Proof.Machine.execPandn d a b s
  | .pnot d a => Sys2Proof.Machine.execPnot d a s
  | .pmov d a => Sys2Proof.Machine.execPmov d a s
  | .pcnt d a => Sys2Proof.Machine.execPcnt d a s
  | .pfirst d a => Sys2Proof.Machine.execPfirst d a s
  | .pset d a => Sys2Proof.Machine.execPset d a s
  | .vbr p neg off => Sys2Proof.Machine.execVbr p neg off s
  | .reconv rid => Sys2Proof.Machine.execReconv rid s
  | .jmpi a tag => Sys2Proof.Machine.execJmpi a tag s
  | .calli a tag => Sys2Proof.Machine.execCalli a tag s
  | .vjmpi a tag => Sys2Proof.Machine.execVjmpi a tag s
  | .vadd d a b => Sys2Proof.Machine.execVadd d a b s
  | .vsub d a b => Sys2Proof.Machine.execVsub d a b s
  | .vmul d a b => Sys2Proof.Machine.execVmul d a b s
  | .vmulh d a b => Sys2Proof.Machine.execVmulh d a b s
  | .vmad d a b => Sys2Proof.Machine.execVmad d a b s
  | .vmin d a b => Sys2Proof.Machine.execVmin d a b s
  | .vmax d a b => Sys2Proof.Machine.execVmax d a b s
  | .vand d a b => Sys2Proof.Machine.execVand d a b s
  | .vor d a b => Sys2Proof.Machine.execVor d a b s
  | .vxor d a b => Sys2Proof.Machine.execVxor d a b s
  | .vandn d a b => Sys2Proof.Machine.execVandn d a b s
  | .vshl d a b => Sys2Proof.Machine.execVshl d a b s
  | .vshr d a b => Sys2Proof.Machine.execVshr d a b s
  | .vsra d a b => Sys2Proof.Machine.execVsra d a b s
  | .vrot d a b => Sys2Proof.Machine.execVrot d a b s
  | .vsel d a b => Sys2Proof.Machine.execVsel d a b s
  | .vcmpeq d a b => Sys2Proof.Machine.execVcmpeq d a b s
  | .vcmpne d a b => Sys2Proof.Machine.execVcmpne d a b s
  | .vcmplt d a b => Sys2Proof.Machine.execVcmplt d a b s
  | .vcmple d a b => Sys2Proof.Machine.execVcmple d a b s
  | .vcmpgt d a b => Sys2Proof.Machine.execVcmpgt d a b s
  | .vcmpge d a b => Sys2Proof.Machine.execVcmpge d a b s
  | .vabsd d a b => Sys2Proof.Machine.execVabsd d a b s
  | .vavg d a b => Sys2Proof.Machine.execVavg d a b s
  | .vdot4 d a b => Sys2Proof.Machine.execVdot4 d a b s
  | .vfadd d a b => Sys2Proof.Machine.execVfadd d a b s
  | .vfsub d a b => Sys2Proof.Machine.execVfsub d a b s
  | .vfmul d a b => Sys2Proof.Machine.execVfmul d a b s
  | .vfma d a b => Sys2Proof.Machine.execVfma d a b s
  | .vfms d a b => Sys2Proof.Machine.execVfms d a b s
  | .vfnma d a b => Sys2Proof.Machine.execVfnma d a b s
  | .vfmin d a b => Sys2Proof.Machine.execVfmin d a b s
  | .vfmax d a b => Sys2Proof.Machine.execVfmax d a b s
  | .vfcmpeq d a b => Sys2Proof.Machine.execVfcmpeq d a b s
  | .vfcmplt d a b => Sys2Proof.Machine.execVfcmplt d a b s
  | .vfcmple d a b => Sys2Proof.Machine.execVfcmple d a b s
  | .vfcmpun d a b => Sys2Proof.Machine.execVfcmpun d a b s
  | .vfscal d a b => Sys2Proof.Machine.execVfscal d a b s
  | .vfcls d a => Sys2Proof.Machine.execVfcls d a s
  | .vmov d a => Sys2Proof.Machine.execVmov d a s
  | .vnot d a => Sys2Proof.Machine.execVnot d a s
  | .vneg d a => Sys2Proof.Machine.execVneg d a s
  | .vabs d a => Sys2Proof.Machine.execVabs d a s
  | .vpopc d a => Sys2Proof.Machine.execVpopc d a s
  | .vclz d a => Sys2Proof.Machine.execVclz d a s
  | .vlaneid d => Sys2Proof.Machine.execVlaneid d s
  | .vfrcp d a => Sys2Proof.Machine.execVfrcp d a s
  | .vfrsq d a => Sys2Proof.Machine.execVfrsq d a s
  | .vfexp2 d a => Sys2Proof.Machine.execVfexp2 d a s
  | .vflog2 d a => Sys2Proof.Machine.execVflog2 d a s
  | .vcvt d a part ty => Sys2Proof.Machine.execVcvt d a part ty s
  | .vbcst d a => Sys2Proof.Machine.execVbcst d a s
  | .vextr d a lane => Sys2Proof.Machine.execVextr d a lane s
  | .vins d a lane => Sys2Proof.Machine.execVins d a lane s
  | .vbrev d a => Sys2Proof.Machine.execVbrev d a s
  | .vperm d a b => Sys2Proof.Machine.execVperm d a b s
  | .vbperm d a b => Sys2Proof.Machine.execVbperm d a b s
  | .vshflu d a b => Sys2Proof.Machine.execVshflu d a b s
  | .vshfld d a b => Sys2Proof.Machine.execVshfld d a b s
  | .vshflx d a b => Sys2Proof.Machine.execVshflx d a b s
  | .vslide d a n => Sys2Proof.Machine.execVslide d a n s
  | .vredadd d a => Sys2Proof.Machine.execVredadd d a s
  | .vredmin d a => Sys2Proof.Machine.execVredmin d a s
  | .vredmax d a => Sys2Proof.Machine.execVredmax d a s
  | .vscan d a => Sys2Proof.Machine.execVscan d a s
  | .vballot d a => Sys2Proof.Machine.execVballot d a s
  | .vcmprs d a => Sys2Proof.Machine.execVcmprs d a s
  | .vexpnd d a => Sys2Proof.Machine.execVexpnd d a s
  | .vld d b imm => Sys2Proof.Machine.execVld d b imm s
  | .vst d b imm => Sys2Proof.Machine.execVst d b imm s
  | .sld d b imm => Sys2Proof.Machine.execSld d b imm s
  | .sst d b imm => Sys2Proof.Machine.execSst d b imm s
  | .sldw d b imm => Sys2Proof.Machine.execSldw d b imm s
  | .sstw d b imm => Sys2Proof.Machine.execSstw d b imm s
  | .vldx d b x => Sys2Proof.Machine.execVldx d b x s
  | .vstx d b x => Sys2Proof.Machine.execVstx d b x s
  | .tld d t sb => Sys2Proof.Machine.execTld d t sb s
  | .tst d t sb => Sys2Proof.Machine.execTst d t sb s
  | .aadd d b x => Sys2Proof.Machine.execAadd d b x s
  | .asub d b x => Sys2Proof.Machine.execAsub d b x s
  | .amin d b x => Sys2Proof.Machine.execAmin d b x s
  | .amax d b x => Sys2Proof.Machine.execAmax d b x s
  | .aminu d b x => Sys2Proof.Machine.execAminu d b x s
  | .amaxu d b x => Sys2Proof.Machine.execAmaxu d b x s
  | .aand d b x => Sys2Proof.Machine.execAand d b x s
  | .aor d b x => Sys2Proof.Machine.execAor d b x s
  | .axor d b x => Sys2Proof.Machine.execAxor d b x s
  | .axchg d b x => Sys2Proof.Machine.execAxchg d b x s
  | .acas d b x => Sys2Proof.Machine.execAcas d b x s
  | .afadd d b x => Sys2Proof.Machine.execAfadd d b x s
  | .afmin d b x => Sys2Proof.Machine.execAfmin d b x s
  | .afmax d b x => Sys2Proof.Machine.execAfmax d b x s
  | .aaddN d b x => Sys2Proof.Machine.execAaddN d b x s
  | .asubN d b x => Sys2Proof.Machine.execAsubN d b x s
  | .aminN d b x => Sys2Proof.Machine.execAminN d b x s
  | .amaxN d b x => Sys2Proof.Machine.execAmaxN d b x s
  | .aminuN d b x => Sys2Proof.Machine.execAminuN d b x s
  | .amaxuN d b x => Sys2Proof.Machine.execAmaxuN d b x s
  | .aandN d b x => Sys2Proof.Machine.execAandN d b x s
  | .aorN d b x => Sys2Proof.Machine.execAorN d b x s
  | .axorN d b x => Sys2Proof.Machine.execAxorN d b x s
  | .axchgN d b x => Sys2Proof.Machine.execAxchgN d b x s
  | .acasN d b x => Sys2Proof.Machine.execAcasN d b x s
  | .afaddN d b x => Sys2Proof.Machine.execAfaddN d b x s
  | .afminN d b x => Sys2Proof.Machine.execAfminN d b x s
  | .afmaxN d b x => Sys2Proof.Machine.execAfmaxN d b x s
  | .aaddScalar d a w => Sys2Proof.Machine.execAaddScalar d a w s
  | .asubScalar d a w => Sys2Proof.Machine.execAsubScalar d a w s
  | .aminScalar d a w => Sys2Proof.Machine.execAminScalar d a w s
  | .amaxScalar d a w => Sys2Proof.Machine.execAmaxScalar d a w s
  | .aminuScalar d a w => Sys2Proof.Machine.execAminuScalar d a w s
  | .amaxuScalar d a w => Sys2Proof.Machine.execAmaxuScalar d a w s
  | .aandScalar d a w => Sys2Proof.Machine.execAandScalar d a w s
  | .aorScalar d a w => Sys2Proof.Machine.execAorScalar d a w s
  | .axorScalar d a w => Sys2Proof.Machine.execAxorScalar d a w s
  | .axchgScalar d a w => Sys2Proof.Machine.execAxchgScalar d a w s
  | .acasScalar d a w => Sys2Proof.Machine.execAcasScalar d a w s
  | .afaddScalar d a => Sys2Proof.Machine.execAfaddScalar d a s
  | .afminScalar d a => Sys2Proof.Machine.execAfminScalar d a s
  | .afmaxScalar d a => Sys2Proof.Machine.execAfmaxScalar d a s
  | .aaddNScalar d a w => Sys2Proof.Machine.execAaddNScalar d a w s
  | .asubNScalar d a w => Sys2Proof.Machine.execAsubNScalar d a w s
  | .aminNScalar d a w => Sys2Proof.Machine.execAminNScalar d a w s
  | .amaxNScalar d a w => Sys2Proof.Machine.execAmaxNScalar d a w s
  | .aminuNScalar d a w => Sys2Proof.Machine.execAminuNScalar d a w s
  | .amaxuNScalar d a w => Sys2Proof.Machine.execAmaxuNScalar d a w s
  | .aandNScalar d a w => Sys2Proof.Machine.execAandNScalar d a w s
  | .aorNScalar d a w => Sys2Proof.Machine.execAorNScalar d a w s
  | .axorNScalar d a w => Sys2Proof.Machine.execAxorNScalar d a w s
  | .axchgNScalar d a w => Sys2Proof.Machine.execAxchgNScalar d a w s
  | .acasNScalar d a w => Sys2Proof.Machine.execAcasNScalar d a w s
  | .afaddNScalar d a => Sys2Proof.Machine.execAfaddNScalar d a s
  | .afminNScalar d a => Sys2Proof.Machine.execAfminNScalar d a s
  | .afmaxNScalar d a => Sys2Proof.Machine.execAfmaxNScalar d a s
  | .fence kind => Sys2Proof.Machine.execFence kind s
  | .pref a own lvl => Sys2Proof.Machine.execPref a own lvl s
  | .flush a lvl => Sys2Proof.Machine.execFlush a lvl s
  | .inv a => Sys2Proof.Machine.execInv a s
  | .pin d a => Sys2Proof.Machine.execPin d a s
  | .unpin d a => Sys2Proof.Machine.execUnpin d a s
  | .tdef t a b => Sys2Proof.Machine.execTdef t a b s
  | .tset t a => Sys2Proof.Machine.execTset t a s
  | .tqry d t sel => Sys2Proof.Machine.execTqry d t sel s
  | .tbeg off => Sys2Proof.Machine.execTbeg off s
  | .orelse off => Sys2Proof.Machine.execOrelse off s
  | .tend => Sys2Proof.Machine.execTend s
  | .tabrt code => Sys2Proof.Machine.execTabrt code s
  | .retry => Sys2Proof.Machine.execRetry s
  | .tstat d sel => Sys2Proof.Machine.execTstat d sel s
  | .twatch a => Sys2Proof.Machine.execTwatch a s
  | .tdepth d => Sys2Proof.Machine.execTdepth d s
  | .mma d t b => Sys2Proof.Machine.execMma d t b s
  | .mmaz d t b => Sys2Proof.Machine.execMmaz d t b s
  | .mmab d t b => Sys2Proof.Machine.execMmab d t b s
  | .msca d a b => Sys2Proof.Machine.execMsca d a b s
  | .mrd d a b => Sys2Proof.Machine.execMrd d a b s
  | .mwr d a b => Sys2Proof.Machine.execMwr d a b s
  | .mzero d n => Sys2Proof.Machine.execMzero d n s
  | .mswap => Sys2Proof.Machine.execMswap s
  | .mldb t b => Sys2Proof.Machine.execMldb t b s
  | .mqry d => Sys2Proof.Machine.execMqry d s
  | .cpy b t => Sys2Proof.Machine.execCpy b t s
  | .cpy2d b t => Sys2Proof.Machine.execCpy2d b t s
  | .cgath b t => Sys2Proof.Machine.execCgath b t s
  | .cscat b t => Sys2Proof.Machine.execCscat b t s
  | .cfill b t => Sys2Proof.Machine.execCfill b t s
  | .cpym b t => Sys2Proof.Machine.execCpym b t s
  | .tlrd d t sel => Sys2Proof.Machine.execTlrd d t sel s
  | .tlinc d t => Sys2Proof.Machine.execTlinc d t s
  | .tlincC d t => Sys2Proof.Machine.execTlincC d t s
  | .xload x a => Sys2Proof.Machine.execXload x a s
  | .xdrop x => Sys2Proof.Machine.execXdrop x s
  | .xqry d x => Sys2Proof.Machine.execXqry d x s
  | .xmark x => Sys2Proof.Machine.execXmark x s
  | .xswap x a => Sys2Proof.Machine.execXswap x a s
  | .xop n d a b imm => Sys2Proof.Machine.execXop n d a b imm s
  | .mrboard d a => Sys2Proof.Machine.execMrboard d a s
  | .mrboardT d a => Sys2Proof.Machine.execMrboardT d a s
  | .mrleave d => Sys2Proof.Machine.execMrleave d s
  | .mrleaveT d => Sys2Proof.Machine.execMrleaveT d s
  | .mrstat d a => Sys2Proof.Machine.execMrstat d a s
  | .tknew d a b => Sys2Proof.Machine.execTknew d a b s
  | .tkfree a => Sys2Proof.Machine.execTkfree a s
  | .tkpop t a => Sys2Proof.Machine.execTkpop t a s
  | .tkpush d a b => Sys2Proof.Machine.execTkpush d a b s
  | .tkroute d a b => Sys2Proof.Machine.execTkroute d a b s
  | .tkcancel d a => Sys2Proof.Machine.execTkcancel d a s
  | .tkhdr d a b => Sys2Proof.Machine.execTkhdr d a b s
  | .tkcnt d a => Sys2Proof.Machine.execTkcnt d a s
  | .comb d a b => Sys2Proof.Machine.execComb d a b s
  | .combRn d a b => Sys2Proof.Machine.execCombRn d a b s
  | .skput k a b => Sys2Proof.Machine.execSkput k a b s
  | .skdrain d => Sys2Proof.Machine.execSkdrain d s
  | .pksend d a b => Sys2Proof.Machine.execPksend d a b s
  | .tick d => Sys2Proof.Machine.execTick d s
  | .pailFiring q => Sys2Proof.Machine.execPailFiring q s
  | .taskStart core => Sys2Proof.Machine.execTaskStart core s
  | .waveClassRaise core wave => Sys2Proof.Machine.execWaveClassRaise core wave s
  | .budgetRefill => Sys2Proof.Machine.execBudgetRefill s
  | .reconvRelease core wave => Sys2Proof.Machine.execReconvRelease core wave s
  | .yieldEnd core wave => Sys2Proof.Machine.execYieldEnd core wave s
  | .wakeNotice core word spurious => Sys2Proof.Machine.execWakeNotice core word spurious s
  | .wakeBackoffExpiry f => Sys2Proof.Machine.execWakeBackoffExpiry f s
  | .memoryAccessPerformed n => Sys2Proof.Machine.execMemoryAccessPerformed n s
  | .peerArrival n => Sys2Proof.Machine.execPeerArrival n s
  | .remoteRequestArrival r => Sys2Proof.Machine.execRemoteRequestArrival r s
  | .remoteResponse n data poisoned => Sys2Proof.Machine.execRemoteResponse n data poisoned s
  | .pageWalkComplete core ctx va => Sys2Proof.Machine.execPageWalkComplete core ctx va s
  | .uncorrectableError loss => Sys2Proof.Machine.execUncorrectableError loss s
  | .correctedError loc => Sys2Proof.Machine.execCorrectedError loc s
  | .matrixInstructionComplete core => Sys2Proof.Machine.execMatrixInstructionComplete core s
  | .mldbFillComplete core => Sys2Proof.Machine.execMldbFillComplete core s
  | .roundSwap core => Sys2Proof.Machine.execRoundSwap core s
  | .groupStart round => Sys2Proof.Machine.execGroupStart round s
  | .passOver round => Sys2Proof.Machine.execPassOver round s
  | .blockDelivery round => Sys2Proof.Machine.execBlockDelivery round s
  | .endOfGroupEntry round => Sys2Proof.Machine.execEndOfGroupEntry round s
  | .boardCoreTakeover core => Sys2Proof.Machine.execBoardCoreTakeover core s
  | .slotDetach core slot => Sys2Proof.Machine.execSlotDetach core slot s
  | .copyCommandStart core n => Sys2Proof.Machine.execCopyCommandStart core n s
  | .copySectorAccess core n => Sys2Proof.Machine.execCopySectorAccess core n s
  | .copyCommandComplete core n => Sys2Proof.Machine.execCopyCommandComplete core n s
  | .carriedInstructionIssue core n => Sys2Proof.Machine.execCarriedInstructionIssue core n s
  | .churnElementFire core churn copy pos => Sys2Proof.Machine.execChurnElementFire core churn copy pos s
  | .agStep core churn ag => Sys2Proof.Machine.execAgStep core churn ag s
  | .quiescenceRound core churn => Sys2Proof.Machine.execQuiescenceRound core churn s
  | .streamPark core churn => Sys2Proof.Machine.execStreamPark core churn s
  | .xopComplete core n => Sys2Proof.Machine.execXopComplete core n s
  | .spillRefill q => Sys2Proof.Machine.execSpillRefill q s
  | .packetArrival src => Sys2Proof.Machine.execPacketArrival src s
  | .allowanceReturn stream n => Sys2Proof.Machine.execAllowanceReturn stream n s
  | .allowanceWaitExpiry f => Sys2Proof.Machine.execAllowanceWaitExpiry f s
  | .skimmerHandover core f => Sys2Proof.Machine.execSkimmerHandover core f s
  | .portDown port => Sys2Proof.Machine.execPortDown port s
  | .dieBridgeDown die bridge => Sys2Proof.Machine.execDieBridgeDown die bridge s
  | .routeTimeout chip => Sys2Proof.Machine.execRouteTimeout chip s
  | .streamOpenReport stream => Sys2Proof.Machine.execStreamOpenReport stream s
  | .hqDoorbell q v => Sys2Proof.Machine.execHqDoorbell q v s
  | .hqEvhead q v => Sys2Proof.Machine.execHqEvhead q v s
  | .msixMessage vector => Sys2Proof.Machine.execMsixMessage vector s
  | .fwLoad => Sys2Proof.Machine.execFwLoad s
  | .configLoad => Sys2Proof.Machine.execConfigLoad s
  | .fwLoadComplete ok version => Sys2Proof.Machine.execFwLoadComplete ok version s
  | .bringUpComplete test chip b => Sys2Proof.Machine.execBringUpComplete test chip b s
  | .aqEnable => Sys2Proof.Machine.execAqEnable s
  | .aqDisable => Sys2Proof.Machine.execAqDisable s
  | .registerWrite off size v => Sys2Proof.Machine.execRegisterWrite off size v s
  | .nop q => Sys2Proof.Machine.execNop q s
  | .qcreate q => Sys2Proof.Machine.execQcreate q s
  | .qdestroy q => Sys2Proof.Machine.execQdestroy q s
  | .qrestart q => Sys2Proof.Machine.execQrestart q s
  | .ctxcreate q => Sys2Proof.Machine.execCtxcreate q s
  | .ctxdestroy q => Sys2Proof.Machine.execCtxdestroy q s
  | .groupset q => Sys2Proof.Machine.execGroupset q s
  | .install q => Sys2Proof.Machine.execInstall q s
  | .remove q => Sys2Proof.Machine.execRemove q s
  | .submit q => Sys2Proof.Machine.execSubmit q s
  | .launch q => Sys2Proof.Machine.execLaunch q s
  | .preempt q => Sys2Proof.Machine.execPreempt q s
  | .restore q => Sys2Proof.Machine.execRestore q s
  | .inval q => Sys2Proof.Machine.execInval q s
  | .replay q => Sys2Proof.Machine.execReplay q s
  | .kill q => Sys2Proof.Machine.execKill q s
  | .setbudget q => Sys2Proof.Machine.execSetbudget q s
  | .qbudget q => Sys2Proof.Machine.execQbudget q s
  | .release q => Sys2Proof.Machine.execRelease q s
  | .resume q => Sys2Proof.Machine.execResume q s
  | .keyalloc q => Sys2Proof.Machine.execKeyalloc q s
  | .routeset q => Sys2Proof.Machine.execRouteset q s
  | .turnover q test => Sys2Proof.Machine.execTurnover q test s
  | .runlist q => Sys2Proof.Machine.execRunlist q s
  | .clearerr q => Sys2Proof.Machine.execClearerr q s
  | .roundshare q => Sys2Proof.Machine.execRoundshare q s
  | .launchStart n => Sys2Proof.Machine.execLaunchStart n s
  | .launchComplete n => Sys2Proof.Machine.execLaunchComplete n s
  | .quantumEnd => Sys2Proof.Machine.execQuantumEnd s
  | .drainWindowClose ctx => Sys2Proof.Machine.execDrainWindowClose ctx s
  | .preemptSaveComplete ctx => Sys2Proof.Machine.execPreemptSaveComplete ctx s
  | .preemptDeadlineExpiry ctx => Sys2Proof.Machine.execPreemptDeadlineExpiry ctx s
  | .watchdogExpiry ctx => Sys2Proof.Machine.execWatchdogExpiry ctx s
  | .savePeriodExpiry ctx => Sys2Proof.Machine.execSavePeriodExpiry ctx s
  | .faultPeriodExpiry rec' => Sys2Proof.Machine.execFaultPeriodExpiry rec' s
  | .lockstepMismatch => Sys2Proof.Machine.execLockstepMismatch s
  | .powerOn => Sys2Proof.Machine.execPowerOn s
  | .coldReset => Sys2Proof.Machine.execColdReset s
  | .flr => Sys2Proof.Machine.execFlr s
  | .priResponse page ok => Sys2Proof.Machine.execPriResponse page ok s
  | .hostBar2Access off acc => Sys2Proof.Machine.execHostBar2Access off acc s
  | .inputVoltageFault => Sys2Proof.Machine.execInputVoltageFault s
  | .powerCapThrottle => Sys2Proof.Machine.execPowerCapThrottle s
  | .thermalThrottle => Sys2Proof.Machine.execThermalThrottle s
  | .thermalTrip => Sys2Proof.Machine.execThermalTrip s
  | .ageingSample die margin => Sys2Proof.Machine.execAgeingSample die margin s
  | .marginReplan => Sys2Proof.Machine.execMarginReplan s
  | .pldmRequest req => Sys2Proof.Machine.execPldmRequest req s
  | .spdmRequest req => Sys2Proof.Machine.execSpdmRequest req s
  | .illegalInstruction word => Sys2Proof.Machine.execIllegalInstruction word s
  | .instructionFetchFault => Sys2Proof.Machine.execInstructionFetchFault s
  | .portRestore port => Sys2Proof.Machine.execPortRestore port s
  | .tickSync t => Sys2Proof.Machine.execTickSync t s
  | .streamCloseReport stream => Sys2Proof.Machine.execStreamCloseReport stream s
  | .faultRecordRead die => Sys2Proof.Machine.execFaultRecordRead die s
  | .lockstepRecoveryEnd => Sys2Proof.Machine.execLockstepRecoveryEnd s
  | .configLoadComplete ok => Sys2Proof.Machine.execConfigLoadComplete ok s

end Sys2Proof.Machine
end

