-- ==== Sys2Proof/WellFormed.lean ====
section
/-! DEFINITION. Which terms of `Instr` are instruction words and which of those satisfy the conditions of R72 and R73
that the width of a field does not already express. -/

namespace Sys2Proof

/-- The instruction is a word of the device, not a step without an encoding. -/
def Instr.isWord (i : Instr) : Bool :=
  match i with
  | .sadd .. => true
  | .ssub .. => true
  | .smul .. => true
  | .smulh .. => true
  | .smulhu .. => true
  | .sdiv .. => true
  | .sdivu .. => true
  | .srem .. => true
  | .sremu .. => true
  | .sand .. => true
  | .sor .. => true
  | .sxor .. => true
  | .sshl .. => true
  | .sshr .. => true
  | .ssra .. => true
  | .smin .. => true
  | .smax .. => true
  | .sminu .. => true
  | .smaxu .. => true
  | .sseq .. => true
  | .sslt .. => true
  | .ssltu .. => true
  | .sclz .. => true
  | .spopc .. => true
  | .spmov .. => true
  | .saddi .. => true
  | .sandi .. => true
  | .sori .. => true
  | .sslti .. => true
  | .sshli .. => true
  | .ssrai .. => true
  | .sshri .. => true
  | .sli .. => true
  | .slui .. => true
  | .slxi .. => true
  | .br .. => true
  | .call .. => true
  | .brz .. => true
  | .brnz .. => true
  | .ret => true
  | .exit => true
  | .yield => true
  | .trap .. => true
  | .rtt => true
  | .brk .. => true
  | .racq .. => true
  | .racqE .. => true
  | .rrel .. => true
  | .srd .. => true
  | .swr .. => true
  | .frz => true
  | .lpad .. => true
  | .mode .. => true
  | .pand .. => true
  | .por .. => true
  | .pxor .. => true
  | .pandn .. => true
  | .pnot .. => true
  | .pmov .. => true
  | .pcnt .. => true
  | .pfirst .. => true
  | .pset .. => true
  | .vbr .. => true
  | .reconv .. => true
  | .jmpi .. => true
  | .calli .. => true
  | .vjmpi .. => true
  | .vadd .. => true
  | .vsub .. => true
  | .vmul .. => true
  | .vmulh .. => true
  | .vmad .. => true
  | .vmin .. => true
  | .vmax .. => true
  | .vand .. => true
  | .vor .. => true
  | .vxor .. => true
  | .vandn .. => true
  | .vshl .. => true
  | .vshr .. => true
  | .vsra .. => true
  | .vrot .. => true
  | .vsel .. => true
  | .vcmpeq .. => true
  | .vcmpne .. => true
  | .vcmplt .. => true
  | .vcmple .. => true
  | .vcmpgt .. => true
  | .vcmpge .. => true
  | .vabsd .. => true
  | .vavg .. => true
  | .vdot4 .. => true
  | .vfadd .. => true
  | .vfsub .. => true
  | .vfmul .. => true
  | .vfma .. => true
  | .vfms .. => true
  | .vfnma .. => true
  | .vfmin .. => true
  | .vfmax .. => true
  | .vfcmpeq .. => true
  | .vfcmplt .. => true
  | .vfcmple .. => true
  | .vfcmpun .. => true
  | .vfscal .. => true
  | .vfcls .. => true
  | .vmov .. => true
  | .vnot .. => true
  | .vneg .. => true
  | .vabs .. => true
  | .vpopc .. => true
  | .vclz .. => true
  | .vlaneid .. => true
  | .vfrcp .. => true
  | .vfrsq .. => true
  | .vfexp2 .. => true
  | .vflog2 .. => true
  | .vcvt .. => true
  | .vbcst .. => true
  | .vextr .. => true
  | .vins .. => true
  | .vbrev .. => true
  | .vperm .. => true
  | .vbperm .. => true
  | .vshflu .. => true
  | .vshfld .. => true
  | .vshflx .. => true
  | .vslide .. => true
  | .vredadd .. => true
  | .vredmin .. => true
  | .vredmax .. => true
  | .vscan .. => true
  | .vballot .. => true
  | .vcmprs .. => true
  | .vexpnd .. => true
  | .vld .. => true
  | .vst .. => true
  | .sld .. => true
  | .sst .. => true
  | .sldw .. => true
  | .sstw .. => true
  | .vldx .. => true
  | .vstx .. => true
  | .tld .. => true
  | .tst .. => true
  | .aadd .. => true
  | .asub .. => true
  | .amin .. => true
  | .amax .. => true
  | .aminu .. => true
  | .amaxu .. => true
  | .aand .. => true
  | .aor .. => true
  | .axor .. => true
  | .axchg .. => true
  | .acas .. => true
  | .afadd .. => true
  | .afmin .. => true
  | .afmax .. => true
  | .aaddN .. => true
  | .asubN .. => true
  | .aminN .. => true
  | .amaxN .. => true
  | .aminuN .. => true
  | .amaxuN .. => true
  | .aandN .. => true
  | .aorN .. => true
  | .axorN .. => true
  | .axchgN .. => true
  | .acasN .. => true
  | .afaddN .. => true
  | .afminN .. => true
  | .afmaxN .. => true
  | .aaddScalar .. => true
  | .asubScalar .. => true
  | .aminScalar .. => true
  | .amaxScalar .. => true
  | .aminuScalar .. => true
  | .amaxuScalar .. => true
  | .aandScalar .. => true
  | .aorScalar .. => true
  | .axorScalar .. => true
  | .axchgScalar .. => true
  | .acasScalar .. => true
  | .afaddScalar .. => true
  | .afminScalar .. => true
  | .afmaxScalar .. => true
  | .aaddNScalar .. => true
  | .asubNScalar .. => true
  | .aminNScalar .. => true
  | .amaxNScalar .. => true
  | .aminuNScalar .. => true
  | .amaxuNScalar .. => true
  | .aandNScalar .. => true
  | .aorNScalar .. => true
  | .axorNScalar .. => true
  | .axchgNScalar .. => true
  | .acasNScalar .. => true
  | .afaddNScalar .. => true
  | .afminNScalar .. => true
  | .afmaxNScalar .. => true
  | .fence .. => true
  | .pref .. => true
  | .flush .. => true
  | .inv .. => true
  | .pin .. => true
  | .unpin .. => true
  | .tdef .. => true
  | .tset .. => true
  | .tqry .. => true
  | .tbeg .. => true
  | .orelse .. => true
  | .tend => true
  | .tabrt .. => true
  | .retry => true
  | .tstat .. => true
  | .twatch .. => true
  | .tdepth .. => true
  | .mma .. => true
  | .mmaz .. => true
  | .mmab .. => true
  | .msca .. => true
  | .mrd .. => true
  | .mwr .. => true
  | .mzero .. => true
  | .mswap => true
  | .mldb .. => true
  | .mqry .. => true
  | .cpy .. => true
  | .cpy2d .. => true
  | .cgath .. => true
  | .cscat .. => true
  | .cfill .. => true
  | .cpym .. => true
  | .tlrd .. => true
  | .tlinc .. => true
  | .tlincC .. => true
  | .xload .. => true
  | .xdrop .. => true
  | .xqry .. => true
  | .xmark .. => true
  | .xswap .. => true
  | .xop .. => true
  | .mrboard .. => true
  | .mrboardT .. => true
  | .mrleave .. => true
  | .mrleaveT .. => true
  | .mrstat .. => true
  | .tknew .. => true
  | .tkfree .. => true
  | .tkpop .. => true
  | .tkpush .. => true
  | .tkroute .. => true
  | .tkcancel .. => true
  | .tkhdr .. => true
  | .tkcnt .. => true
  | .comb .. => true
  | .combRn .. => true
  | .skput .. => true
  | .skdrain .. => true
  | .pksend .. => true
  | .tick .. => true
  | .pailFiring .. => false
  | .taskStart .. => false
  | .waveClassRaise .. => false
  | .budgetRefill => false
  | .reconvRelease .. => false
  | .yieldEnd .. => false
  | .wakeNotice .. => false
  | .wakeBackoffExpiry .. => false
  | .memoryAccessPerformed .. => false
  | .peerArrival .. => false
  | .remoteRequestArrival .. => false
  | .remoteResponse .. => false
  | .pageWalkComplete .. => false
  | .uncorrectableError .. => false
  | .correctedError .. => false
  | .matrixInstructionComplete .. => false
  | .mldbFillComplete .. => false
  | .roundSwap .. => false
  | .groupStart .. => false
  | .passOver .. => false
  | .blockDelivery .. => false
  | .endOfGroupEntry .. => false
  | .boardCoreTakeover .. => false
  | .slotDetach .. => false
  | .copyCommandStart .. => false
  | .copySectorAccess .. => false
  | .copyCommandComplete .. => false
  | .carriedInstructionIssue .. => false
  | .churnElementFire .. => false
  | .agStep .. => false
  | .quiescenceRound .. => false
  | .streamPark .. => false
  | .xopComplete .. => false
  | .spillRefill .. => false
  | .packetArrival .. => false
  | .allowanceReturn .. => false
  | .allowanceWaitExpiry .. => false
  | .skimmerHandover .. => false
  | .portDown .. => false
  | .dieBridgeDown .. => false
  | .routeTimeout .. => false
  | .streamOpenReport .. => false
  | .hqDoorbell .. => false
  | .hqEvhead .. => false
  | .msixMessage .. => false
  | .fwLoad => false
  | .configLoad => false
  | .fwLoadComplete .. => false
  | .bringUpComplete .. => false
  | .aqEnable => false
  | .aqDisable => false
  | .registerWrite .. => false
  | .nop .. => false
  | .qcreate .. => false
  | .qdestroy .. => false
  | .qrestart .. => false
  | .ctxcreate .. => false
  | .ctxdestroy .. => false
  | .groupset .. => false
  | .install .. => false
  | .remove .. => false
  | .submit .. => false
  | .launch .. => false
  | .preempt .. => false
  | .restore .. => false
  | .inval .. => false
  | .replay .. => false
  | .kill .. => false
  | .setbudget .. => false
  | .qbudget .. => false
  | .release .. => false
  | .resume .. => false
  | .keyalloc .. => false
  | .routeset .. => false
  | .turnover .. => false
  | .runlist .. => false
  | .clearerr .. => false
  | .roundshare .. => false
  | .launchStart .. => false
  | .launchComplete .. => false
  | .quantumEnd => false
  | .drainWindowClose .. => false
  | .preemptSaveComplete .. => false
  | .preemptDeadlineExpiry .. => false
  | .watchdogExpiry .. => false
  | .savePeriodExpiry .. => false
  | .faultPeriodExpiry .. => false
  | .lockstepMismatch => false
  | .powerOn => false
  | .coldReset => false
  | .flr => false
  | .priResponse .. => false
  | .hostBar2Access .. => false
  | .inputVoltageFault => false
  | .powerCapThrottle => false
  | .thermalThrottle => false
  | .thermalTrip => false
  | .ageingSample .. => false
  | .marginReplan => false
  | .pldmRequest .. => false
  | .spdmRequest .. => false
  | .illegalInstruction .. => false
  | .instructionFetchFault => false
  | .portRestore .. => false
  | .tickSync .. => false
  | .streamCloseReport .. => false
  | .faultRecordRead .. => false
  | .lockstepRecoveryEnd => false
  | .configLoadComplete .. => false

/-- The conditions of R73 on the operands of a word (R72, R76, R185, R237, R253, R345), and, for a step without an
encoding, that it names a core, wave, slot or fragment of the device (R12, R14, R17, R127). -/
def Instr.wellFormed (i : Instr) : Bool :=
  match i with
  | .sadd .. => true
  | .ssub .. => true
  | .smul .. => true
  | .smulh .. => true
  | .smulhu .. => true
  | .sdiv .. => true
  | .sdivu .. => true
  | .srem .. => true
  | .sremu .. => true
  | .sand .. => true
  | .sor .. => true
  | .sxor .. => true
  | .sshl .. => true
  | .sshr .. => true
  | .ssra .. => true
  | .smin .. => true
  | .smax .. => true
  | .sminu .. => true
  | .smaxu .. => true
  | .sseq .. => true
  | .sslt .. => true
  | .ssltu .. => true
  | .sclz .. => true
  | .spopc .. => true
  | .spmov .. => true
  | .saddi .. => true
  | .sandi .. => true
  | .sori .. => true
  | .sslti .. => true
  | .sshli .. => true
  | .ssrai .. => true
  | .sshri .. => true
  | .sli .. => true
  | .slui .. => true
  | .slxi .. => true
  | .br .. => true
  | .call .. => true
  | .brz .. => true
  | .brnz .. => true
  | .ret => true
  | .exit => true
  | .yield => true
  | .trap .. => true
  | .rtt => true
  | .brk .. => true
  | .racq _ n => decide (1 ≤ n.toNat ∧ n.toNat ≤ 16)
  | .racqE _ n => decide (1 ≤ n.toNat ∧ n.toNat ≤ 16)
  | .rrel n => decide (1 ≤ n.toNat ∧ n.toNat ≤ 16)
  | .srd _ idx => decide (idx.toNat ≤ 20)
  | .swr _ idx => decide (idx.toNat ≤ 20)
  | .frz => true
  | .lpad .. => true
  | .mode .. => true
  | .pand .. => true
  | .por .. => true
  | .pxor .. => true
  | .pandn .. => true
  | .pnot .. => true
  | .pmov .. => true
  | .pcnt .. => true
  | .pfirst .. => true
  | .pset .. => true
  | .vbr .. => true
  | .reconv .. => true
  | .jmpi .. => true
  | .calli .. => true
  | .vjmpi .. => true
  | .vadd .. => true
  | .vsub .. => true
  | .vmul .. => true
  | .vmulh .. => true
  | .vmad .. => true
  | .vmin .. => true
  | .vmax .. => true
  | .vand .. => true
  | .vor .. => true
  | .vxor .. => true
  | .vandn .. => true
  | .vshl .. => true
  | .vshr .. => true
  | .vsra .. => true
  | .vrot .. => true
  | .vsel .. => true
  | .vcmpeq .. => true
  | .vcmpne .. => true
  | .vcmplt .. => true
  | .vcmple .. => true
  | .vcmpgt .. => true
  | .vcmpge .. => true
  | .vabsd .. => true
  | .vavg .. => true
  | .vdot4 .. => true
  | .vfadd .. => true
  | .vfsub .. => true
  | .vfmul .. => true
  | .vfma .. => true
  | .vfms .. => true
  | .vfnma .. => true
  | .vfmin .. => true
  | .vfmax .. => true
  | .vfcmpeq .. => true
  | .vfcmplt .. => true
  | .vfcmple .. => true
  | .vfcmpun .. => true
  | .vfscal .. => true
  | .vfcls .. => true
  | .vmov .. => true
  | .vnot .. => true
  | .vneg .. => true
  | .vabs .. => true
  | .vpopc .. => true
  | .vclz .. => true
  | .vlaneid .. => true
  | .vfrcp .. => true
  | .vfrsq .. => true
  | .vfexp2 .. => true
  | .vflog2 .. => true
  | .vcvt _ _ _ ty => decide (ty.toNat ≤ 10)
  | .vbcst .. => true
  | .vextr .. => true
  | .vins .. => true
  | .vbrev .. => true
  | .vperm .. => true
  | .vbperm .. => true
  | .vshflu .. => true
  | .vshfld .. => true
  | .vshflx .. => true
  | .vslide .. => true
  | .vredadd .. => true
  | .vredmin .. => true
  | .vredmax .. => true
  | .vscan .. => true
  | .vballot .. => true
  | .vcmprs .. => true
  | .vexpnd .. => true
  | .vld .. => true
  | .vst .. => true
  | .sld .. => true
  | .sst .. => true
  | .sldw .. => true
  | .sstw .. => true
  | .vldx .. => true
  | .vstx .. => true
  | .tld .. => true
  | .tst .. => true
  | .aadd .. => true
  | .asub .. => true
  | .amin .. => true
  | .amax .. => true
  | .aminu .. => true
  | .amaxu .. => true
  | .aand .. => true
  | .aor .. => true
  | .axor .. => true
  | .axchg .. => true
  | .acas d _ _ => decide (d.toNat ≠ 127)
  | .afadd .. => true
  | .afmin .. => true
  | .afmax .. => true
  | .aaddN .. => true
  | .asubN .. => true
  | .aminN .. => true
  | .amaxN .. => true
  | .aminuN .. => true
  | .amaxuN .. => true
  | .aandN .. => true
  | .aorN .. => true
  | .axorN .. => true
  | .axchgN .. => true
  | .acasN d _ _ => decide (d.toNat ≠ 127)
  | .afaddN .. => true
  | .afminN .. => true
  | .afmaxN .. => true
  | .aaddScalar .. => true
  | .asubScalar .. => true
  | .aminScalar .. => true
  | .amaxScalar .. => true
  | .aminuScalar .. => true
  | .amaxuScalar .. => true
  | .aandScalar .. => true
  | .aorScalar .. => true
  | .axorScalar .. => true
  | .axchgScalar .. => true
  | .acasScalar d _ _ => decide (d.toNat ≠ 63)
  | .afaddScalar .. => true
  | .afminScalar .. => true
  | .afmaxScalar .. => true
  | .aaddNScalar .. => true
  | .asubNScalar .. => true
  | .aminNScalar .. => true
  | .amaxNScalar .. => true
  | .aminuNScalar .. => true
  | .amaxuNScalar .. => true
  | .aandNScalar .. => true
  | .aorNScalar .. => true
  | .axorNScalar .. => true
  | .axchgNScalar .. => true
  | .acasNScalar d _ _ => decide (d.toNat ≠ 63)
  | .afaddNScalar .. => true
  | .afminNScalar .. => true
  | .afmaxNScalar .. => true
  | .fence .. => true
  | .pref .. => true
  | .flush .. => true
  | .inv .. => true
  | .pin .. => true
  | .unpin .. => true
  | .tdef .. => true
  | .tset .. => true
  | .tqry .. => true
  | .tbeg .. => true
  | .orelse .. => true
  | .tend => true
  | .tabrt .. => true
  | .retry => true
  | .tstat .. => true
  | .twatch .. => true
  | .tdepth .. => true
  | .mma .. => true
  | .mmaz .. => true
  | .mmab .. => true
  | .msca .. => true
  | .mrd .. => true
  | .mwr .. => true
  | .mzero _ n => decide (1 ≤ n.toNat ∧ n.toNat ≤ 16)
  | .mswap => true
  | .mldb .. => true
  | .mqry .. => true
  | .cpy b _ => decide (b.toNat ≠ 0 ∧ b.toNat + 3 ≤ 63)
  | .cpy2d b _ => decide (b.toNat ≠ 0 ∧ b.toNat + 6 ≤ 63)
  | .cgath b _ => decide (b.toNat ≠ 0 ∧ b.toNat + 6 ≤ 63)
  | .cscat b _ => decide (b.toNat ≠ 0 ∧ b.toNat + 6 ≤ 63)
  | .cfill b _ => decide (b.toNat ≠ 0 ∧ b.toNat + 3 ≤ 63)
  | .cpym b _ => decide (b.toNat ≠ 0 ∧ b.toNat + 8 ≤ 63)
  | .tlrd .. => true
  | .tlinc .. => true
  | .tlincC .. => true
  | .xload .. => true
  | .xdrop .. => true
  | .xqry .. => true
  | .xmark .. => true
  | .xswap .. => true
  | .xop .. => true
  | .mrboard .. => true
  | .mrboardT .. => true
  | .mrleave .. => true
  | .mrleaveT .. => true
  | .mrstat .. => true
  | .tknew .. => true
  | .tkfree .. => true
  | .tkpop .. => true
  | .tkpush .. => true
  | .tkroute .. => true
  | .tkcancel .. => true
  | .tkhdr .. => true
  | .tkcnt .. => true
  | .comb _ _ b => decide (b.toNat ≠ 63)
  | .combRn _ _ b => decide (b.toNat ≠ 63)
  | .skput k _ _ => decide (1 ≤ k.toNat ∧ k.toNat ≤ 8)
  | .skdrain d => decide (d.toNat ≠ 63)
  | .pksend _ _ b => decide (b.toNat ≠ 63)
  | .tick .. => true
  | .pailFiring .. => true
  | .taskStart core => decide (core < 256)
  | .waveClassRaise core wave => decide (core < 256 ∧ wave < 64)
  | .budgetRefill => true
  | .reconvRelease core wave => decide (core < 256 ∧ wave < 64)
  | .yieldEnd core wave => decide (core < 256 ∧ wave < 64)
  | .wakeNotice core _ _ => decide (core < 256)
  | .wakeBackoffExpiry f => decide (f.valid = true)
  | .memoryAccessPerformed .. => true
  | .peerArrival .. => true
  | .remoteRequestArrival .. => true
  | .remoteResponse .. => true
  | .pageWalkComplete core _ _ => decide (core < 256)
  | .uncorrectableError .. => true
  | .correctedError .. => true
  | .matrixInstructionComplete core => decide (core < 256)
  | .mldbFillComplete core => decide (core < 256)
  | .roundSwap core => decide (core < 256)
  | .groupStart .. => true
  | .passOver .. => true
  | .blockDelivery .. => true
  | .endOfGroupEntry .. => true
  | .boardCoreTakeover core => decide (core < 256)
  | .slotDetach core slot => decide (core < 256 ∧ slot < 8)
  | .copyCommandStart core _ => decide (core < 256)
  | .copySectorAccess core _ => decide (core < 256)
  | .copyCommandComplete core _ => decide (core < 256)
  | .carriedInstructionIssue core _ => decide (core < 256)
  | .churnElementFire core churn _ _ => decide (core < 256 ∧ churn < 4)
  | .agStep core churn _ => decide (core < 256 ∧ churn < 4)
  | .quiescenceRound core churn => decide (core < 256 ∧ churn < 4)
  | .streamPark core churn => decide (core < 256 ∧ churn < 4)
  | .xopComplete core _ => decide (core < 256)
  | .spillRefill .. => true
  | .packetArrival .. => true
  | .allowanceReturn .. => true
  | .allowanceWaitExpiry f => decide (f.valid = true)
  | .skimmerHandover core f => decide (core < 256 ∧ f.valid = true)
  | .portDown port => decide (port < 12)
  | .dieBridgeDown die bridge => decide (die < 8 ∧ bridge < 4)
  | .routeTimeout .. => true
  | .streamOpenReport .. => true
  | .hqDoorbell .. => true
  | .hqEvhead .. => true
  | .msixMessage .. => true
  | .fwLoad => true
  | .configLoad => true
  | .fwLoadComplete .. => true
  | .bringUpComplete .. => true
  | .aqEnable => true
  | .aqDisable => true
  | .registerWrite .. => true
  | .nop .. => true
  | .qcreate .. => true
  | .qdestroy .. => true
  | .qrestart .. => true
  | .ctxcreate .. => true
  | .ctxdestroy .. => true
  | .groupset .. => true
  | .install .. => true
  | .remove .. => true
  | .submit .. => true
  | .launch .. => true
  | .preempt .. => true
  | .restore .. => true
  | .inval .. => true
  | .replay .. => true
  | .kill .. => true
  | .setbudget .. => true
  | .qbudget .. => true
  | .release .. => true
  | .resume .. => true
  | .keyalloc .. => true
  | .routeset .. => true
  | .turnover .. => true
  | .runlist .. => true
  | .clearerr .. => true
  | .roundshare .. => true
  | .launchStart .. => true
  | .launchComplete .. => true
  | .quantumEnd => true
  | .drainWindowClose .. => true
  | .preemptSaveComplete .. => true
  | .preemptDeadlineExpiry .. => true
  | .watchdogExpiry .. => true
  | .savePeriodExpiry .. => true
  | .faultPeriodExpiry .. => true
  | .lockstepMismatch => true
  | .powerOn => true
  | .coldReset => true
  | .flr => true
  | .priResponse .. => true
  | .hostBar2Access .. => true
  | .inputVoltageFault => true
  | .powerCapThrottle => true
  | .thermalThrottle => true
  | .thermalTrip => true
  | .ageingSample die _ => decide (die < 8)
  | .marginReplan => true
  | .pldmRequest .. => true
  | .spdmRequest .. => true
  | .illegalInstruction .. => true
  | .instructionFetchFault => true
  | .portRestore port => decide (port < 12)
  | .tickSync .. => true
  | .streamCloseReport .. => true
  | .faultRecordRead die => decide (die ≤ 8)
  | .lockstepRecoveryEnd => true
  | .configLoadComplete .. => true

end Sys2Proof
end

