-- ==== Sys2Proof/Decode.lean ====
section
/-! DEFINITION. Decoding and encoding of the 32-bit instruction word (R69 to R76).
`decodeWord` reads a word, `decode` the four bytes of one in little-endian order (R3, R69), and `encode` writes the word
of an instruction from the same layouts. Every word that R73 refuses is rejected with the condition it breaks. -/

namespace Sys2Proof

/-- Why a word is no instruction: the conditions of R73. -/
inductive Reject where
  /-- The major opcode is not in the map of R75. -/
  | major
  /-- The function code is not in the table of R76. -/
  | function
  /-- A field reserved by R71 or R72 is not zero. -/
  | reserved
  /-- A register pair would run past the end of its file (R72). -/
  | pairEnd
  /-- A special-register index above 20 (R80). -/
  | specialRegister
  /-- A count outside 1 to 16 of `racq`, `rrel` or `mzero`, or outside 1 to 8 of `skput` (R76, R237, R345). -/
  | countRange
  /-- A `vcvt` destination type above 10 (R167). -/
  | typeCode
  /-- A command block at `s0` or past `s63` (R253). -/
  | blockRange
  /-- Fewer than four bytes were given. -/
  | tooShort
  deriving DecidableEq, Repr

/-- Bits [31:25], the major opcode (R69). -/
def majorOf (w : BitVec 32) : BitVec 7 := w.extractLsb' 25 7

/-- The word of form S3 (R70). -/
def encS3 (op : BitVec 7) (d : BitVec 6) (a : BitVec 6) (b : BitVec 6) (fn : BitVec 7) : BitVec 32 :=
  op ++ d ++ a ++ b ++ fn

/-- The word of form I13 (R70). -/
def encI13 (op : BitVec 7) (d : BitVec 6) (a : BitVec 6) (imm : BitVec 13) : BitVec 32 :=
  op ++ d ++ a ++ imm

/-- The word of form L19 (R70). -/
def encL19 (op : BitVec 7) (d : BitVec 6) (imm : BitVec 19) : BitVec 32 :=
  op ++ d ++ imm

/-- The word of form J25 (R70). -/
def encJ25 (op : BitVec 7) (imm : BitVec 25) : BitVec 32 :=
  op ++ imm

/-- The word of form VR (R70). -/
def encVR (op : BitVec 7) (d : BitVec 7) (a : BitVec 7) (b : BitVec 7) (fn : BitVec 4) : BitVec 32 :=
  op ++ d ++ a ++ b ++ fn

/-- The word of form M12 (R70). -/
def encM12 (op : BitVec 7) (rg : BitVec 7) (base : BitVec 6) (imm : BitVec 12) : BitVec 32 :=
  op ++ rg ++ base ++ imm

/-- The word of form X7 (R70). -/
def encX7 (op : BitVec 7) (d : BitVec 7) (base : BitVec 6) (b : BitVec 7) (fn : BitVec 5) : BitVec 32 :=
  op ++ d ++ base ++ b ++ fn

/-- The word of form E (R70). -/
def encE (op : BitVec 7) (blk : BitVec 6) (tl : BitVec 4) (fn : BitVec 15) : BitVec 32 :=
  op ++ blk ++ tl ++ fn

/-- The word of form VB (R70). -/
def encVB (op : BitVec 7) (p : BitVec 3) (inv : BitVec 1) (off : BitVec 21) : BitVec 32 :=
  op ++ p ++ inv ++ off

/-- The word of form VJ (R70). -/
def encVJ (op : BitVec 7) (a : BitVec 7) (tag : BitVec 13) (z : BitVec 5) : BitVec 32 :=
  op ++ a ++ tag ++ z

/-- The word of form RC (R70). -/
def encRC (op : BitVec 7) (id : BitVec 8) (z : BitVec 17) : BitVec 32 :=
  op ++ id ++ z

/-- Words of major 0x01 by function code (R76). -/
def decodeSop (w : BitVec 32) : Except Reject Instr :=
  match w.extractLsb' 0 7 with
  | 0x00#7 => .ok (.sadd (w.extractLsb' 19 6) (w.extractLsb' 13 6) (w.extractLsb' 7 6))
  | 0x01#7 => .ok (.ssub (w.extractLsb' 19 6) (w.extractLsb' 13 6) (w.extractLsb' 7 6))
  | 0x02#7 => .ok (.smul (w.extractLsb' 19 6) (w.extractLsb' 13 6) (w.extractLsb' 7 6))
  | 0x03#7 => .ok (.smulh (w.extractLsb' 19 6) (w.extractLsb' 13 6) (w.extractLsb' 7 6))
  | 0x04#7 => .ok (.smulhu (w.extractLsb' 19 6) (w.extractLsb' 13 6) (w.extractLsb' 7 6))
  | 0x05#7 => .ok (.sdiv (w.extractLsb' 19 6) (w.extractLsb' 13 6) (w.extractLsb' 7 6))
  | 0x06#7 => .ok (.sdivu (w.extractLsb' 19 6) (w.extractLsb' 13 6) (w.extractLsb' 7 6))
  | 0x07#7 => .ok (.srem (w.extractLsb' 19 6) (w.extractLsb' 13 6) (w.extractLsb' 7 6))
  | 0x08#7 => .ok (.sremu (w.extractLsb' 19 6) (w.extractLsb' 13 6) (w.extractLsb' 7 6))
  | 0x09#7 => .ok (.sand (w.extractLsb' 19 6) (w.extractLsb' 13 6) (w.extractLsb' 7 6))
  | 0x0A#7 => .ok (.sor (w.extractLsb' 19 6) (w.extractLsb' 13 6) (w.extractLsb' 7 6))
  | 0x0B#7 => .ok (.sxor (w.extractLsb' 19 6) (w.extractLsb' 13 6) (w.extractLsb' 7 6))
  | 0x0C#7 => .ok (.sshl (w.extractLsb' 19 6) (w.extractLsb' 13 6) (w.extractLsb' 7 6))
  | 0x0D#7 => .ok (.sshr (w.extractLsb' 19 6) (w.extractLsb' 13 6) (w.extractLsb' 7 6))
  | 0x0E#7 => .ok (.ssra (w.extractLsb' 19 6) (w.extractLsb' 13 6) (w.extractLsb' 7 6))
  | 0x0F#7 => .ok (.smin (w.extractLsb' 19 6) (w.extractLsb' 13 6) (w.extractLsb' 7 6))
  | 0x10#7 => .ok (.smax (w.extractLsb' 19 6) (w.extractLsb' 13 6) (w.extractLsb' 7 6))
  | 0x11#7 => .ok (.sminu (w.extractLsb' 19 6) (w.extractLsb' 13 6) (w.extractLsb' 7 6))
  | 0x12#7 => .ok (.smaxu (w.extractLsb' 19 6) (w.extractLsb' 13 6) (w.extractLsb' 7 6))
  | 0x13#7 => .ok (.sseq (w.extractLsb' 19 6) (w.extractLsb' 13 6) (w.extractLsb' 7 6))
  | 0x14#7 => .ok (.sslt (w.extractLsb' 19 6) (w.extractLsb' 13 6) (w.extractLsb' 7 6))
  | 0x15#7 => .ok (.ssltu (w.extractLsb' 19 6) (w.extractLsb' 13 6) (w.extractLsb' 7 6))
  | 0x16#7 => if w.extractLsb' 7 6 = 0 then .ok (.sclz (w.extractLsb' 19 6) (w.extractLsb' 13 6)) else .error .reserved
  | 0x17#7 => if w.extractLsb' 7 6 = 0 then .ok (.spopc (w.extractLsb' 19 6) (w.extractLsb' 13 6)) else .error .reserved
  | 0x18#7 => if w.extractLsb' 16 3 = 0 ∧ w.extractLsb' 7 6 = 0 then .ok (.spmov (w.extractLsb' 19 6) (w.extractLsb' 13 3)) else .error .reserved
  | _ => .error .function

/-- Words of major 0x10 by function code (R76). -/
def decodeCtl (w : BitVec 32) : Except Reject Instr :=
  match w.extractLsb' 0 7 with
  | 0x00#7 => if w.extractLsb' 19 6 = 0 ∧ w.extractLsb' 13 6 = 0 ∧ w.extractLsb' 7 6 = 0 then .ok (.ret) else .error .reserved
  | 0x01#7 => if w.extractLsb' 19 6 = 0 ∧ w.extractLsb' 13 6 = 0 ∧ w.extractLsb' 7 6 = 0 then .ok (.exit) else .error .reserved
  | 0x02#7 => if w.extractLsb' 19 6 = 0 ∧ w.extractLsb' 13 6 = 0 ∧ w.extractLsb' 7 6 = 0 then .ok (.yield) else .error .reserved
  | 0x03#7 => if w.extractLsb' 19 6 = 0 ∧ w.extractLsb' 13 6 = 0 then .ok (.trap (w.extractLsb' 7 6)) else .error .reserved
  | 0x04#7 => if w.extractLsb' 19 6 = 0 ∧ w.extractLsb' 13 6 = 0 ∧ w.extractLsb' 7 6 = 0 then .ok (.rtt) else .error .reserved
  | 0x05#7 => if w.extractLsb' 19 6 = 0 ∧ w.extractLsb' 13 6 = 0 then .ok (.brk (w.extractLsb' 7 6)) else .error .reserved
  | 0x06#7 =>
    if w.extractLsb' 12 1 = 0 then if w.extractLsb' 13 6 = 0 then if 1 ≤ (w.extractLsb' 7 5).toNat ∧ (w.extractLsb' 7 5).toNat ≤ 16 then .ok (.racq (w.extractLsb' 19 6) (w.extractLsb' 7 5)) else .error .countRange else .error .reserved
    else if w.extractLsb' 13 6 = 0 then if 1 ≤ (w.extractLsb' 7 5).toNat ∧ (w.extractLsb' 7 5).toNat ≤ 16 then .ok (.racqE (w.extractLsb' 19 6) (w.extractLsb' 7 5)) else .error .countRange else .error .reserved
  | 0x07#7 => if w.extractLsb' 19 6 = 0 ∧ w.extractLsb' 13 6 = 0 ∧ w.extractLsb' 12 1 = 0 then if 1 ≤ (w.extractLsb' 7 5).toNat ∧ (w.extractLsb' 7 5).toNat ≤ 16 then .ok (.rrel (w.extractLsb' 7 5)) else .error .countRange else .error .reserved
  | 0x08#7 => if w.extractLsb' 13 6 = 0 then if (w.extractLsb' 7 6).toNat ≤ 20 then .ok (.srd (w.extractLsb' 19 6) (w.extractLsb' 7 6)) else .error .specialRegister else .error .reserved
  | 0x09#7 => if w.extractLsb' 19 6 = 0 then if (w.extractLsb' 7 6).toNat ≤ 20 then .ok (.swr (w.extractLsb' 13 6) (w.extractLsb' 7 6)) else .error .specialRegister else .error .reserved
  | 0x0A#7 => if w.extractLsb' 19 6 = 0 ∧ w.extractLsb' 13 6 = 0 ∧ w.extractLsb' 7 6 = 0 then .ok (.frz) else .error .reserved
  | _ => .error .function

/-- Words of major 0x13 by function code (R76). -/
def decodePred (w : BitVec 32) : Except Reject Instr :=
  match w.extractLsb' 0 4 with
  | 0x00#4 => if w.extractLsb' 21 4 = 0 ∧ w.extractLsb' 14 4 = 0 ∧ w.extractLsb' 7 4 = 0 then .ok (.pand (w.extractLsb' 18 3) (w.extractLsb' 11 3) (w.extractLsb' 4 3)) else .error .reserved
  | 0x01#4 => if w.extractLsb' 21 4 = 0 ∧ w.extractLsb' 14 4 = 0 ∧ w.extractLsb' 7 4 = 0 then .ok (.por (w.extractLsb' 18 3) (w.extractLsb' 11 3) (w.extractLsb' 4 3)) else .error .reserved
  | 0x02#4 => if w.extractLsb' 21 4 = 0 ∧ w.extractLsb' 14 4 = 0 ∧ w.extractLsb' 7 4 = 0 then .ok (.pxor (w.extractLsb' 18 3) (w.extractLsb' 11 3) (w.extractLsb' 4 3)) else .error .reserved
  | 0x03#4 => if w.extractLsb' 21 4 = 0 ∧ w.extractLsb' 14 4 = 0 ∧ w.extractLsb' 7 4 = 0 then .ok (.pandn (w.extractLsb' 18 3) (w.extractLsb' 11 3) (w.extractLsb' 4 3)) else .error .reserved
  | 0x04#4 => if w.extractLsb' 21 4 = 0 ∧ w.extractLsb' 14 4 = 0 ∧ w.extractLsb' 4 7 = 0 then .ok (.pnot (w.extractLsb' 18 3) (w.extractLsb' 11 3)) else .error .reserved
  | 0x05#4 => if w.extractLsb' 21 4 = 0 ∧ w.extractLsb' 14 4 = 0 ∧ w.extractLsb' 4 7 = 0 then .ok (.pmov (w.extractLsb' 18 3) (w.extractLsb' 11 3)) else .error .reserved
  | 0x06#4 => if w.extractLsb' 24 1 = 0 ∧ w.extractLsb' 14 4 = 0 ∧ w.extractLsb' 4 7 = 0 then .ok (.pcnt (w.extractLsb' 18 6) (w.extractLsb' 11 3)) else .error .reserved
  | 0x07#4 => if w.extractLsb' 21 4 = 0 ∧ w.extractLsb' 14 4 = 0 ∧ w.extractLsb' 4 7 = 0 then .ok (.pfirst (w.extractLsb' 18 3) (w.extractLsb' 11 3)) else .error .reserved
  | 0x08#4 => if w.extractLsb' 21 4 = 0 ∧ w.extractLsb' 17 1 = 0 ∧ w.extractLsb' 4 7 = 0 then .ok (.pset (w.extractLsb' 18 3) (w.extractLsb' 11 6)) else .error .reserved
  | _ => .error .function

/-- Words of major 0x20 by function code (R76). -/
def decodeVint (w : BitVec 32) : Except Reject Instr :=
  match w.extractLsb' 0 4 with
  | 0x00#4 => .ok (.vadd (w.extractLsb' 18 7) (w.extractLsb' 11 7) (w.extractLsb' 4 7))
  | 0x01#4 => .ok (.vsub (w.extractLsb' 18 7) (w.extractLsb' 11 7) (w.extractLsb' 4 7))
  | 0x02#4 => .ok (.vmul (w.extractLsb' 18 7) (w.extractLsb' 11 7) (w.extractLsb' 4 7))
  | 0x03#4 => .ok (.vmulh (w.extractLsb' 18 7) (w.extractLsb' 11 7) (w.extractLsb' 4 7))
  | 0x04#4 => .ok (.vmad (w.extractLsb' 18 7) (w.extractLsb' 11 7) (w.extractLsb' 4 7))
  | 0x05#4 => .ok (.vmin (w.extractLsb' 18 7) (w.extractLsb' 11 7) (w.extractLsb' 4 7))
  | 0x06#4 => .ok (.vmax (w.extractLsb' 18 7) (w.extractLsb' 11 7) (w.extractLsb' 4 7))
  | 0x07#4 => .ok (.vand (w.extractLsb' 18 7) (w.extractLsb' 11 7) (w.extractLsb' 4 7))
  | 0x08#4 => .ok (.vor (w.extractLsb' 18 7) (w.extractLsb' 11 7) (w.extractLsb' 4 7))
  | 0x09#4 => .ok (.vxor (w.extractLsb' 18 7) (w.extractLsb' 11 7) (w.extractLsb' 4 7))
  | 0x0A#4 => .ok (.vandn (w.extractLsb' 18 7) (w.extractLsb' 11 7) (w.extractLsb' 4 7))
  | 0x0B#4 => .ok (.vshl (w.extractLsb' 18 7) (w.extractLsb' 11 7) (w.extractLsb' 4 7))
  | 0x0C#4 => .ok (.vshr (w.extractLsb' 18 7) (w.extractLsb' 11 7) (w.extractLsb' 4 7))
  | 0x0D#4 => .ok (.vsra (w.extractLsb' 18 7) (w.extractLsb' 11 7) (w.extractLsb' 4 7))
  | 0x0E#4 => .ok (.vrot (w.extractLsb' 18 7) (w.extractLsb' 11 7) (w.extractLsb' 4 7))
  | 0x0F#4 => .ok (.vsel (w.extractLsb' 18 7) (w.extractLsb' 11 7) (w.extractLsb' 4 7))
  | _ => .error .function

/-- Words of major 0x21 by function code (R76). -/
def decodeVcmp (w : BitVec 32) : Except Reject Instr :=
  match w.extractLsb' 0 4 with
  | 0x00#4 => if w.extractLsb' 21 4 = 0 then .ok (.vcmpeq (w.extractLsb' 18 3) (w.extractLsb' 11 7) (w.extractLsb' 4 7)) else .error .reserved
  | 0x01#4 => if w.extractLsb' 21 4 = 0 then .ok (.vcmpne (w.extractLsb' 18 3) (w.extractLsb' 11 7) (w.extractLsb' 4 7)) else .error .reserved
  | 0x02#4 => if w.extractLsb' 21 4 = 0 then .ok (.vcmplt (w.extractLsb' 18 3) (w.extractLsb' 11 7) (w.extractLsb' 4 7)) else .error .reserved
  | 0x03#4 => if w.extractLsb' 21 4 = 0 then .ok (.vcmple (w.extractLsb' 18 3) (w.extractLsb' 11 7) (w.extractLsb' 4 7)) else .error .reserved
  | 0x04#4 => if w.extractLsb' 21 4 = 0 then .ok (.vcmpgt (w.extractLsb' 18 3) (w.extractLsb' 11 7) (w.extractLsb' 4 7)) else .error .reserved
  | 0x05#4 => if w.extractLsb' 21 4 = 0 then .ok (.vcmpge (w.extractLsb' 18 3) (w.extractLsb' 11 7) (w.extractLsb' 4 7)) else .error .reserved
  | 0x06#4 => .ok (.vabsd (w.extractLsb' 18 7) (w.extractLsb' 11 7) (w.extractLsb' 4 7))
  | 0x07#4 => .ok (.vavg (w.extractLsb' 18 7) (w.extractLsb' 11 7) (w.extractLsb' 4 7))
  | 0x08#4 => .ok (.vdot4 (w.extractLsb' 18 7) (w.extractLsb' 11 7) (w.extractLsb' 4 7))
  | _ => .error .function

/-- Words of major 0x22 by function code (R76). -/
def decodeVflt (w : BitVec 32) : Except Reject Instr :=
  match w.extractLsb' 0 4 with
  | 0x00#4 => .ok (.vfadd (w.extractLsb' 18 7) (w.extractLsb' 11 7) (w.extractLsb' 4 7))
  | 0x01#4 => .ok (.vfsub (w.extractLsb' 18 7) (w.extractLsb' 11 7) (w.extractLsb' 4 7))
  | 0x02#4 => .ok (.vfmul (w.extractLsb' 18 7) (w.extractLsb' 11 7) (w.extractLsb' 4 7))
  | 0x03#4 => .ok (.vfma (w.extractLsb' 18 7) (w.extractLsb' 11 7) (w.extractLsb' 4 7))
  | 0x04#4 => .ok (.vfms (w.extractLsb' 18 7) (w.extractLsb' 11 7) (w.extractLsb' 4 7))
  | 0x05#4 => .ok (.vfnma (w.extractLsb' 18 7) (w.extractLsb' 11 7) (w.extractLsb' 4 7))
  | 0x06#4 => .ok (.vfmin (w.extractLsb' 18 7) (w.extractLsb' 11 7) (w.extractLsb' 4 7))
  | 0x07#4 => .ok (.vfmax (w.extractLsb' 18 7) (w.extractLsb' 11 7) (w.extractLsb' 4 7))
  | 0x08#4 => if w.extractLsb' 21 4 = 0 then .ok (.vfcmpeq (w.extractLsb' 18 3) (w.extractLsb' 11 7) (w.extractLsb' 4 7)) else .error .reserved
  | 0x09#4 => if w.extractLsb' 21 4 = 0 then .ok (.vfcmplt (w.extractLsb' 18 3) (w.extractLsb' 11 7) (w.extractLsb' 4 7)) else .error .reserved
  | 0x0A#4 => if w.extractLsb' 21 4 = 0 then .ok (.vfcmple (w.extractLsb' 18 3) (w.extractLsb' 11 7) (w.extractLsb' 4 7)) else .error .reserved
  | 0x0B#4 => if w.extractLsb' 21 4 = 0 then .ok (.vfcmpun (w.extractLsb' 18 3) (w.extractLsb' 11 7) (w.extractLsb' 4 7)) else .error .reserved
  | 0x0C#4 => .ok (.vfscal (w.extractLsb' 18 7) (w.extractLsb' 11 7) (w.extractLsb' 4 7))
  | 0x0D#4 => if w.extractLsb' 4 7 = 0 then .ok (.vfcls (w.extractLsb' 18 7) (w.extractLsb' 11 7)) else .error .reserved
  | _ => .error .function

/-- Words of major 0x23 by function code (R76). -/
def decodeVun (w : BitVec 32) : Except Reject Instr :=
  match w.extractLsb' 0 4 with
  | 0x00#4 => if w.extractLsb' 4 7 = 0 then .ok (.vmov (w.extractLsb' 18 7) (w.extractLsb' 11 7)) else .error .reserved
  | 0x01#4 => if w.extractLsb' 4 7 = 0 then .ok (.vnot (w.extractLsb' 18 7) (w.extractLsb' 11 7)) else .error .reserved
  | 0x02#4 => if w.extractLsb' 4 7 = 0 then .ok (.vneg (w.extractLsb' 18 7) (w.extractLsb' 11 7)) else .error .reserved
  | 0x03#4 => if w.extractLsb' 4 7 = 0 then .ok (.vabs (w.extractLsb' 18 7) (w.extractLsb' 11 7)) else .error .reserved
  | 0x04#4 => if w.extractLsb' 4 7 = 0 then .ok (.vpopc (w.extractLsb' 18 7) (w.extractLsb' 11 7)) else .error .reserved
  | 0x05#4 => if w.extractLsb' 4 7 = 0 then .ok (.vclz (w.extractLsb' 18 7) (w.extractLsb' 11 7)) else .error .reserved
  | 0x06#4 => if w.extractLsb' 11 7 = 0 ∧ w.extractLsb' 4 7 = 0 then .ok (.vlaneid (w.extractLsb' 18 7)) else .error .reserved
  | 0x07#4 => if w.extractLsb' 4 7 = 0 then .ok (.vfrcp (w.extractLsb' 18 7) (w.extractLsb' 11 7)) else .error .reserved
  | 0x08#4 => if w.extractLsb' 4 7 = 0 then .ok (.vfrsq (w.extractLsb' 18 7) (w.extractLsb' 11 7)) else .error .reserved
  | 0x09#4 => if w.extractLsb' 4 7 = 0 then .ok (.vfexp2 (w.extractLsb' 18 7) (w.extractLsb' 11 7)) else .error .reserved
  | 0x0A#4 => if w.extractLsb' 4 7 = 0 then .ok (.vflog2 (w.extractLsb' 18 7) (w.extractLsb' 11 7)) else .error .reserved
  | 0x0B#4 => if (w.extractLsb' 4 4).toNat ≤ 10 then .ok (.vcvt (w.extractLsb' 18 7) (w.extractLsb' 11 7) (w.extractLsb' 8 3) (w.extractLsb' 4 4)) else .error .typeCode
  | 0x0C#4 => if w.extractLsb' 17 1 = 0 ∧ w.extractLsb' 4 7 = 0 then .ok (.vbcst (w.extractLsb' 18 7) (w.extractLsb' 11 6)) else .error .reserved
  | 0x0D#4 => if w.extractLsb' 24 1 = 0 ∧ w.extractLsb' 9 2 = 0 then .ok (.vextr (w.extractLsb' 18 6) (w.extractLsb' 11 7) (w.extractLsb' 4 5)) else .error .reserved
  | 0x0E#4 => if w.extractLsb' 17 1 = 0 ∧ w.extractLsb' 9 2 = 0 then .ok (.vins (w.extractLsb' 18 7) (w.extractLsb' 11 6) (w.extractLsb' 4 5)) else .error .reserved
  | 0x0F#4 => if w.extractLsb' 4 7 = 0 then .ok (.vbrev (w.extractLsb' 18 7) (w.extractLsb' 11 7)) else .error .reserved
  | _ => .error .function

/-- Words of major 0x24 by function code (R76). -/
def decodeVxl (w : BitVec 32) : Except Reject Instr :=
  match w.extractLsb' 0 4 with
  | 0x00#4 => .ok (.vperm (w.extractLsb' 18 7) (w.extractLsb' 11 7) (w.extractLsb' 4 7))
  | 0x01#4 => .ok (.vbperm (w.extractLsb' 18 7) (w.extractLsb' 11 7) (w.extractLsb' 4 7))
  | 0x02#4 => .ok (.vshflu (w.extractLsb' 18 7) (w.extractLsb' 11 7) (w.extractLsb' 4 7))
  | 0x03#4 => .ok (.vshfld (w.extractLsb' 18 7) (w.extractLsb' 11 7) (w.extractLsb' 4 7))
  | 0x04#4 => .ok (.vshflx (w.extractLsb' 18 7) (w.extractLsb' 11 7) (w.extractLsb' 4 7))
  | 0x05#4 => .ok (.vslide (w.extractLsb' 18 7) (w.extractLsb' 11 7) (w.extractLsb' 4 7))
  | 0x06#4 => if w.extractLsb' 4 7 = 0 then .ok (.vredadd (w.extractLsb' 18 7) (w.extractLsb' 11 7)) else .error .reserved
  | 0x07#4 => if w.extractLsb' 4 7 = 0 then .ok (.vredmin (w.extractLsb' 18 7) (w.extractLsb' 11 7)) else .error .reserved
  | 0x08#4 => if w.extractLsb' 4 7 = 0 then .ok (.vredmax (w.extractLsb' 18 7) (w.extractLsb' 11 7)) else .error .reserved
  | 0x09#4 => if w.extractLsb' 4 7 = 0 then .ok (.vscan (w.extractLsb' 18 7) (w.extractLsb' 11 7)) else .error .reserved
  | 0x0A#4 => if w.extractLsb' 4 7 = 0 then .ok (.vballot (w.extractLsb' 18 7) (w.extractLsb' 11 7)) else .error .reserved
  | 0x0B#4 => if w.extractLsb' 4 7 = 0 then .ok (.vcmprs (w.extractLsb' 18 7) (w.extractLsb' 11 7)) else .error .reserved
  | 0x0C#4 => if w.extractLsb' 4 7 = 0 then .ok (.vexpnd (w.extractLsb' 18 7) (w.extractLsb' 11 7)) else .error .reserved
  | _ => .error .function

/-- Words of major 0x3A by function code (R76). -/
def decodeAtom (w : BitVec 32) : Except Reject Instr :=
  match w.extractLsb' 0 5 with
  | 0x00#5 => .ok (.aadd (w.extractLsb' 18 7) (w.extractLsb' 12 6) (w.extractLsb' 5 7))
  | 0x01#5 => .ok (.asub (w.extractLsb' 18 7) (w.extractLsb' 12 6) (w.extractLsb' 5 7))
  | 0x02#5 => .ok (.amin (w.extractLsb' 18 7) (w.extractLsb' 12 6) (w.extractLsb' 5 7))
  | 0x03#5 => .ok (.amax (w.extractLsb' 18 7) (w.extractLsb' 12 6) (w.extractLsb' 5 7))
  | 0x04#5 => .ok (.aminu (w.extractLsb' 18 7) (w.extractLsb' 12 6) (w.extractLsb' 5 7))
  | 0x05#5 => .ok (.amaxu (w.extractLsb' 18 7) (w.extractLsb' 12 6) (w.extractLsb' 5 7))
  | 0x06#5 => .ok (.aand (w.extractLsb' 18 7) (w.extractLsb' 12 6) (w.extractLsb' 5 7))
  | 0x07#5 => .ok (.aor (w.extractLsb' 18 7) (w.extractLsb' 12 6) (w.extractLsb' 5 7))
  | 0x08#5 => .ok (.axor (w.extractLsb' 18 7) (w.extractLsb' 12 6) (w.extractLsb' 5 7))
  | 0x09#5 => .ok (.axchg (w.extractLsb' 18 7) (w.extractLsb' 12 6) (w.extractLsb' 5 7))
  | 0x0A#5 => if (w.extractLsb' 18 7).toNat ≠ 127 then .ok (.acas (w.extractLsb' 18 7) (w.extractLsb' 12 6) (w.extractLsb' 5 7)) else .error .pairEnd
  | 0x0B#5 => .ok (.afadd (w.extractLsb' 18 7) (w.extractLsb' 12 6) (w.extractLsb' 5 7))
  | 0x0C#5 => .ok (.afmin (w.extractLsb' 18 7) (w.extractLsb' 12 6) (w.extractLsb' 5 7))
  | 0x0D#5 => .ok (.afmax (w.extractLsb' 18 7) (w.extractLsb' 12 6) (w.extractLsb' 5 7))
  | 0x10#5 => .ok (.aaddN (w.extractLsb' 18 7) (w.extractLsb' 12 6) (w.extractLsb' 5 7))
  | 0x11#5 => .ok (.asubN (w.extractLsb' 18 7) (w.extractLsb' 12 6) (w.extractLsb' 5 7))
  | 0x12#5 => .ok (.aminN (w.extractLsb' 18 7) (w.extractLsb' 12 6) (w.extractLsb' 5 7))
  | 0x13#5 => .ok (.amaxN (w.extractLsb' 18 7) (w.extractLsb' 12 6) (w.extractLsb' 5 7))
  | 0x14#5 => .ok (.aminuN (w.extractLsb' 18 7) (w.extractLsb' 12 6) (w.extractLsb' 5 7))
  | 0x15#5 => .ok (.amaxuN (w.extractLsb' 18 7) (w.extractLsb' 12 6) (w.extractLsb' 5 7))
  | 0x16#5 => .ok (.aandN (w.extractLsb' 18 7) (w.extractLsb' 12 6) (w.extractLsb' 5 7))
  | 0x17#5 => .ok (.aorN (w.extractLsb' 18 7) (w.extractLsb' 12 6) (w.extractLsb' 5 7))
  | 0x18#5 => .ok (.axorN (w.extractLsb' 18 7) (w.extractLsb' 12 6) (w.extractLsb' 5 7))
  | 0x19#5 => .ok (.axchgN (w.extractLsb' 18 7) (w.extractLsb' 12 6) (w.extractLsb' 5 7))
  | 0x1A#5 => if (w.extractLsb' 18 7).toNat ≠ 127 then .ok (.acasN (w.extractLsb' 18 7) (w.extractLsb' 12 6) (w.extractLsb' 5 7)) else .error .pairEnd
  | 0x1B#5 => .ok (.afaddN (w.extractLsb' 18 7) (w.extractLsb' 12 6) (w.extractLsb' 5 7))
  | 0x1C#5 => .ok (.afminN (w.extractLsb' 18 7) (w.extractLsb' 12 6) (w.extractLsb' 5 7))
  | 0x1D#5 => .ok (.afmaxN (w.extractLsb' 18 7) (w.extractLsb' 12 6) (w.extractLsb' 5 7))
  | _ => .error .function

/-- Words of major 0x3B by function code (R76). -/
def decodeSatom (w : BitVec 32) : Except Reject Instr :=
  match w.extractLsb' 0 7 with
  | 0x00#7 => if w.extractLsb' 8 5 = 0 then .ok (.aaddScalar (w.extractLsb' 19 6) (w.extractLsb' 13 6) (w.extractLsb' 7 1)) else .error .reserved
  | 0x01#7 => if w.extractLsb' 8 5 = 0 then .ok (.asubScalar (w.extractLsb' 19 6) (w.extractLsb' 13 6) (w.extractLsb' 7 1)) else .error .reserved
  | 0x02#7 => if w.extractLsb' 8 5 = 0 then .ok (.aminScalar (w.extractLsb' 19 6) (w.extractLsb' 13 6) (w.extractLsb' 7 1)) else .error .reserved
  | 0x03#7 => if w.extractLsb' 8 5 = 0 then .ok (.amaxScalar (w.extractLsb' 19 6) (w.extractLsb' 13 6) (w.extractLsb' 7 1)) else .error .reserved
  | 0x04#7 => if w.extractLsb' 8 5 = 0 then .ok (.aminuScalar (w.extractLsb' 19 6) (w.extractLsb' 13 6) (w.extractLsb' 7 1)) else .error .reserved
  | 0x05#7 => if w.extractLsb' 8 5 = 0 then .ok (.amaxuScalar (w.extractLsb' 19 6) (w.extractLsb' 13 6) (w.extractLsb' 7 1)) else .error .reserved
  | 0x06#7 => if w.extractLsb' 8 5 = 0 then .ok (.aandScalar (w.extractLsb' 19 6) (w.extractLsb' 13 6) (w.extractLsb' 7 1)) else .error .reserved
  | 0x07#7 => if w.extractLsb' 8 5 = 0 then .ok (.aorScalar (w.extractLsb' 19 6) (w.extractLsb' 13 6) (w.extractLsb' 7 1)) else .error .reserved
  | 0x08#7 => if w.extractLsb' 8 5 = 0 then .ok (.axorScalar (w.extractLsb' 19 6) (w.extractLsb' 13 6) (w.extractLsb' 7 1)) else .error .reserved
  | 0x09#7 => if w.extractLsb' 8 5 = 0 then .ok (.axchgScalar (w.extractLsb' 19 6) (w.extractLsb' 13 6) (w.extractLsb' 7 1)) else .error .reserved
  | 0x0A#7 => if w.extractLsb' 8 5 = 0 then if (w.extractLsb' 19 6).toNat ≠ 63 then .ok (.acasScalar (w.extractLsb' 19 6) (w.extractLsb' 13 6) (w.extractLsb' 7 1)) else .error .pairEnd else .error .reserved
  | 0x0B#7 => if w.extractLsb' 7 6 = 1 then .ok (.afaddScalar (w.extractLsb' 19 6) (w.extractLsb' 13 6)) else .error .reserved
  | 0x0C#7 => if w.extractLsb' 7 6 = 1 then .ok (.afminScalar (w.extractLsb' 19 6) (w.extractLsb' 13 6)) else .error .reserved
  | 0x0D#7 => if w.extractLsb' 7 6 = 1 then .ok (.afmaxScalar (w.extractLsb' 19 6) (w.extractLsb' 13 6)) else .error .reserved
  | 0x10#7 => if w.extractLsb' 8 5 = 0 then .ok (.aaddNScalar (w.extractLsb' 19 6) (w.extractLsb' 13 6) (w.extractLsb' 7 1)) else .error .reserved
  | 0x11#7 => if w.extractLsb' 8 5 = 0 then .ok (.asubNScalar (w.extractLsb' 19 6) (w.extractLsb' 13 6) (w.extractLsb' 7 1)) else .error .reserved
  | 0x12#7 => if w.extractLsb' 8 5 = 0 then .ok (.aminNScalar (w.extractLsb' 19 6) (w.extractLsb' 13 6) (w.extractLsb' 7 1)) else .error .reserved
  | 0x13#7 => if w.extractLsb' 8 5 = 0 then .ok (.amaxNScalar (w.extractLsb' 19 6) (w.extractLsb' 13 6) (w.extractLsb' 7 1)) else .error .reserved
  | 0x14#7 => if w.extractLsb' 8 5 = 0 then .ok (.aminuNScalar (w.extractLsb' 19 6) (w.extractLsb' 13 6) (w.extractLsb' 7 1)) else .error .reserved
  | 0x15#7 => if w.extractLsb' 8 5 = 0 then .ok (.amaxuNScalar (w.extractLsb' 19 6) (w.extractLsb' 13 6) (w.extractLsb' 7 1)) else .error .reserved
  | 0x16#7 => if w.extractLsb' 8 5 = 0 then .ok (.aandNScalar (w.extractLsb' 19 6) (w.extractLsb' 13 6) (w.extractLsb' 7 1)) else .error .reserved
  | 0x17#7 => if w.extractLsb' 8 5 = 0 then .ok (.aorNScalar (w.extractLsb' 19 6) (w.extractLsb' 13 6) (w.extractLsb' 7 1)) else .error .reserved
  | 0x18#7 => if w.extractLsb' 8 5 = 0 then .ok (.axorNScalar (w.extractLsb' 19 6) (w.extractLsb' 13 6) (w.extractLsb' 7 1)) else .error .reserved
  | 0x19#7 => if w.extractLsb' 8 5 = 0 then .ok (.axchgNScalar (w.extractLsb' 19 6) (w.extractLsb' 13 6) (w.extractLsb' 7 1)) else .error .reserved
  | 0x1A#7 => if w.extractLsb' 8 5 = 0 then if (w.extractLsb' 19 6).toNat ≠ 63 then .ok (.acasNScalar (w.extractLsb' 19 6) (w.extractLsb' 13 6) (w.extractLsb' 7 1)) else .error .pairEnd else .error .reserved
  | 0x1B#7 => if w.extractLsb' 7 6 = 1 then .ok (.afaddNScalar (w.extractLsb' 19 6) (w.extractLsb' 13 6)) else .error .reserved
  | 0x1C#7 => if w.extractLsb' 7 6 = 1 then .ok (.afminNScalar (w.extractLsb' 19 6) (w.extractLsb' 13 6)) else .error .reserved
  | 0x1D#7 => if w.extractLsb' 7 6 = 1 then .ok (.afmaxNScalar (w.extractLsb' 19 6) (w.extractLsb' 13 6)) else .error .reserved
  | _ => .error .function

/-- Words of major 0x3C by function code (R76). -/
def decodeMemctl (w : BitVec 32) : Except Reject Instr :=
  match w.extractLsb' 0 7 with
  | 0x00#7 => if w.extractLsb' 19 6 = 0 ∧ w.extractLsb' 13 6 = 0 ∧ w.extractLsb' 9 4 = 0 then .ok (.fence (w.extractLsb' 7 2)) else .error .reserved
  | 0x01#7 => if w.extractLsb' 19 6 = 0 ∧ w.extractLsb' 9 4 = 0 then .ok (.pref (w.extractLsb' 13 6) (w.extractLsb' 8 1) (w.extractLsb' 7 1)) else .error .reserved
  | 0x02#7 => if w.extractLsb' 19 6 = 0 ∧ w.extractLsb' 8 5 = 0 then .ok (.flush (w.extractLsb' 13 6) (w.extractLsb' 7 1)) else .error .reserved
  | 0x03#7 => if w.extractLsb' 19 6 = 0 ∧ w.extractLsb' 7 6 = 0 then .ok (.inv (w.extractLsb' 13 6)) else .error .reserved
  | 0x04#7 => if w.extractLsb' 7 6 = 0 then .ok (.pin (w.extractLsb' 19 6) (w.extractLsb' 13 6)) else .error .reserved
  | 0x05#7 => if w.extractLsb' 7 6 = 0 then .ok (.unpin (w.extractLsb' 19 6) (w.extractLsb' 13 6)) else .error .reserved
  | 0x06#7 => .ok (.tdef (w.extractLsb' 19 6) (w.extractLsb' 13 6) (w.extractLsb' 7 6))
  | 0x07#7 => if w.extractLsb' 7 6 = 0 then .ok (.tset (w.extractLsb' 19 6) (w.extractLsb' 13 6)) else .error .reserved
  | 0x08#7 => if w.extractLsb' 8 5 = 0 then .ok (.tqry (w.extractLsb' 19 6) (w.extractLsb' 13 6) (w.extractLsb' 7 1)) else .error .reserved
  | _ => .error .function

/-- Words of major 0x42 by function code (R76). -/
def decodeTxc (w : BitVec 32) : Except Reject Instr :=
  match w.extractLsb' 0 7 with
  | 0x00#7 => if w.extractLsb' 19 6 = 0 ∧ w.extractLsb' 13 6 = 0 ∧ w.extractLsb' 7 6 = 0 then .ok (.tend) else .error .reserved
  | 0x01#7 => if w.extractLsb' 19 6 = 0 ∧ w.extractLsb' 13 6 = 0 then .ok (.tabrt (w.extractLsb' 7 6)) else .error .reserved
  | 0x02#7 => if w.extractLsb' 19 6 = 0 ∧ w.extractLsb' 13 6 = 0 ∧ w.extractLsb' 7 6 = 0 then .ok (.retry) else .error .reserved
  | 0x03#7 => if w.extractLsb' 13 6 = 0 ∧ w.extractLsb' 9 4 = 0 then .ok (.tstat (w.extractLsb' 19 6) (w.extractLsb' 7 2)) else .error .reserved
  | 0x04#7 => if w.extractLsb' 19 6 = 0 ∧ w.extractLsb' 7 6 = 0 then .ok (.twatch (w.extractLsb' 13 6)) else .error .reserved
  | 0x05#7 => if w.extractLsb' 13 6 = 0 ∧ w.extractLsb' 7 6 = 0 then .ok (.tdepth (w.extractLsb' 19 6)) else .error .reserved
  | _ => .error .function

/-- Words of major 0x48 by function code (R76). -/
def decodeMat (w : BitVec 32) : Except Reject Instr :=
  match w.extractLsb' 0 7 with
  | 0x00#7 => if w.extractLsb' 23 2 = 0 then .ok (.mma (w.extractLsb' 19 4) (w.extractLsb' 13 6) (w.extractLsb' 7 6)) else .error .reserved
  | 0x01#7 => if w.extractLsb' 23 2 = 0 then .ok (.mmaz (w.extractLsb' 19 4) (w.extractLsb' 13 6) (w.extractLsb' 7 6)) else .error .reserved
  | 0x02#7 => if w.extractLsb' 23 2 = 0 then .ok (.mmab (w.extractLsb' 19 4) (w.extractLsb' 13 6) (w.extractLsb' 7 6)) else .error .reserved
  | 0x03#7 => if w.extractLsb' 23 2 = 0 ∧ w.extractLsb' 17 2 = 0 then .ok (.msca (w.extractLsb' 19 4) (w.extractLsb' 13 4) (w.extractLsb' 7 6)) else .error .reserved
  | 0x04#7 => if w.extractLsb' 17 2 = 0 then .ok (.mrd (w.extractLsb' 19 6) (w.extractLsb' 13 4) (w.extractLsb' 7 6)) else .error .reserved
  | 0x05#7 => if w.extractLsb' 23 2 = 0 then .ok (.mwr (w.extractLsb' 19 4) (w.extractLsb' 13 6) (w.extractLsb' 7 6)) else .error .reserved
  | 0x06#7 => if w.extractLsb' 23 2 = 0 ∧ w.extractLsb' 13 6 = 0 ∧ w.extractLsb' 12 1 = 0 then if 1 ≤ (w.extractLsb' 7 5).toNat ∧ (w.extractLsb' 7 5).toNat ≤ 16 then .ok (.mzero (w.extractLsb' 19 4) (w.extractLsb' 7 5)) else .error .countRange else .error .reserved
  | 0x07#7 => if w.extractLsb' 19 6 = 0 ∧ w.extractLsb' 13 6 = 0 ∧ w.extractLsb' 7 6 = 0 then .ok (.mswap) else .error .reserved
  | 0x08#7 => if w.extractLsb' 19 6 = 0 then .ok (.mldb (w.extractLsb' 13 6) (w.extractLsb' 7 6)) else .error .reserved
  | 0x09#7 => if w.extractLsb' 13 6 = 0 ∧ w.extractLsb' 7 6 = 0 then .ok (.mqry (w.extractLsb' 19 6)) else .error .reserved
  | _ => .error .function

/-- Words of major 0x50 by function code (R76). -/
def decodeCopy (w : BitVec 32) : Except Reject Instr :=
  match w.extractLsb' 0 15 with
  | 0x00#15 => if (w.extractLsb' 19 6).toNat ≠ 0 ∧ (w.extractLsb' 19 6).toNat + 3 ≤ 63 then .ok (.cpy (w.extractLsb' 19 6) (w.extractLsb' 15 4)) else .error .blockRange
  | 0x01#15 => if (w.extractLsb' 19 6).toNat ≠ 0 ∧ (w.extractLsb' 19 6).toNat + 6 ≤ 63 then .ok (.cpy2d (w.extractLsb' 19 6) (w.extractLsb' 15 4)) else .error .blockRange
  | 0x02#15 => if (w.extractLsb' 19 6).toNat ≠ 0 ∧ (w.extractLsb' 19 6).toNat + 6 ≤ 63 then .ok (.cgath (w.extractLsb' 19 6) (w.extractLsb' 15 4)) else .error .blockRange
  | 0x03#15 => if (w.extractLsb' 19 6).toNat ≠ 0 ∧ (w.extractLsb' 19 6).toNat + 6 ≤ 63 then .ok (.cscat (w.extractLsb' 19 6) (w.extractLsb' 15 4)) else .error .blockRange
  | 0x04#15 => if (w.extractLsb' 19 6).toNat ≠ 0 ∧ (w.extractLsb' 19 6).toNat + 3 ≤ 63 then .ok (.cfill (w.extractLsb' 19 6) (w.extractLsb' 15 4)) else .error .blockRange
  | 0x05#15 => if (w.extractLsb' 19 6).toNat ≠ 0 ∧ (w.extractLsb' 19 6).toNat + 8 ≤ 63 then .ok (.cpym (w.extractLsb' 19 6) (w.extractLsb' 15 4)) else .error .blockRange
  | _ => .error .function

/-- Words of major 0x51 by function code (R76). -/
def decodeTimeline (w : BitVec 32) : Except Reject Instr :=
  match w.extractLsb' 0 7 with
  | 0x00#7 => if w.extractLsb' 17 2 = 0 ∧ w.extractLsb' 8 5 = 0 then .ok (.tlrd (w.extractLsb' 19 6) (w.extractLsb' 13 4) (w.extractLsb' 7 1)) else .error .reserved
  | 0x01#7 =>
    if w.extractLsb' 7 6 = 0 then if w.extractLsb' 17 2 = 0 then .ok (.tlinc (w.extractLsb' 19 6) (w.extractLsb' 13 4)) else .error .reserved
    else if w.extractLsb' 7 6 = 1 then if w.extractLsb' 17 2 = 0 then .ok (.tlincC (w.extractLsb' 19 6) (w.extractLsb' 13 4)) else .error .reserved
    else .error .reserved
  | _ => .error .function

/-- Words of major 0x58 by function code (R76). -/
def decodeChurn (w : BitVec 32) : Except Reject Instr :=
  match w.extractLsb' 0 7 with
  | 0x00#7 => if w.extractLsb' 23 2 = 0 ∧ w.extractLsb' 7 6 = 0 then .ok (.xload (w.extractLsb' 19 4) (w.extractLsb' 13 6)) else .error .reserved
  | 0x01#7 => if w.extractLsb' 23 2 = 0 ∧ w.extractLsb' 13 6 = 0 ∧ w.extractLsb' 7 6 = 0 then .ok (.xdrop (w.extractLsb' 19 4)) else .error .reserved
  | 0x02#7 => if w.extractLsb' 17 2 = 0 ∧ w.extractLsb' 7 6 = 0 then .ok (.xqry (w.extractLsb' 19 6) (w.extractLsb' 13 4)) else .error .reserved
  | 0x03#7 => if w.extractLsb' 23 2 = 0 ∧ w.extractLsb' 13 6 = 0 ∧ w.extractLsb' 7 6 = 0 then .ok (.xmark (w.extractLsb' 19 4)) else .error .reserved
  | 0x04#7 => if w.extractLsb' 23 2 = 0 ∧ w.extractLsb' 7 6 = 0 then .ok (.xswap (w.extractLsb' 19 4) (w.extractLsb' 13 6)) else .error .reserved
  | _ => .error .function

/-- Words of major 0x5C by function code (R76). Log entry 56 (DEDUCED, unsafe). -/
noncomputable def decodeMilk (w : BitVec 32) : Except Reject Instr :=
  match w.extractLsb' 0 7 with
  | 0x00#7 =>
    if w.extractLsb' 7 6 = 0 then .ok (.mrboard (w.extractLsb' 19 6) (w.extractLsb' 13 6))
    else if w.extractLsb' 7 6 = 1 then .ok (.mrboardT (w.extractLsb' 19 6) (w.extractLsb' 13 6))
    else .error .reserved
  | 0x01#7 =>
    if w.extractLsb' 7 6 = 0 then if w.extractLsb' 13 6 = 0 then .ok (.mrleave (w.extractLsb' 19 6)) else .error .reserved
    else if w.extractLsb' 7 6 = 1 then if w.extractLsb' 13 6 = 0 then .ok (.mrleaveT (w.extractLsb' 19 6)) else .error .reserved
    else .error .reserved
  | 0x02#7 => if w.extractLsb' 7 6 = 0 then .ok (.mrstat (w.extractLsb' 19 6) (w.extractLsb' 13 6)) else .error .reserved
  | _ => .error .function

/-- Words of major 0x60 by function code (R76). -/
noncomputable def decodeToken (w : BitVec 32) : Except Reject Instr :=
  match w.extractLsb' 0 7 with
  | 0x00#7 => .ok (.tknew (w.extractLsb' 19 6) (w.extractLsb' 13 6) (w.extractLsb' 7 6))
  | 0x01#7 => if w.extractLsb' 19 6 = 0 ∧ w.extractLsb' 7 6 = 0 then .ok (.tkfree (w.extractLsb' 13 6)) else .error .reserved
  | 0x02#7 => if w.extractLsb' 7 6 = 0 then .ok (.tkpop (w.extractLsb' 19 6) (w.extractLsb' 13 6)) else .error .reserved
  | 0x03#7 => .ok (.tkpush (w.extractLsb' 19 6) (w.extractLsb' 13 6) (w.extractLsb' 7 6))
  | 0x04#7 => .ok (.tkroute (w.extractLsb' 19 6) (w.extractLsb' 13 6) (w.extractLsb' 7 6))
  | 0x05#7 => if w.extractLsb' 7 6 = 0 then .ok (.tkcancel (w.extractLsb' 19 6) (w.extractLsb' 13 6)) else .error .reserved
  | 0x06#7 => .ok (.tkhdr (w.extractLsb' 19 6) (w.extractLsb' 13 6) (w.extractLsb' 7 6))
  | 0x07#7 => if w.extractLsb' 7 6 = 0 then .ok (.tkcnt (w.extractLsb' 19 6) (w.extractLsb' 13 6)) else .error .reserved
  | 0x08#7 => if (w.extractLsb' 7 6).toNat ≠ 63 then .ok (.comb (w.extractLsb' 19 6) (w.extractLsb' 13 6) (w.extractLsb' 7 6)) else .error .pairEnd
  | 0x09#7 => if w.extractLsb' 23 2 = 0 then if 1 ≤ (w.extractLsb' 19 4).toNat ∧ (w.extractLsb' 19 4).toNat ≤ 8 then .ok (.skput (w.extractLsb' 19 4) (w.extractLsb' 13 6) (w.extractLsb' 7 6)) else .error .countRange else .error .reserved
  | 0x0A#7 => if w.extractLsb' 13 6 = 0 ∧ w.extractLsb' 7 6 = 0 then if (w.extractLsb' 19 6).toNat ≠ 63 then .ok (.skdrain (w.extractLsb' 19 6)) else .error .pairEnd else .error .reserved
  | 0x48#7 => if (w.extractLsb' 7 6).toNat ≠ 63 then .ok (.combRn (w.extractLsb' 19 6) (w.extractLsb' 13 6) (w.extractLsb' 7 6)) else .error .pairEnd
  | _ => .error .function

/-- Words of major 0x64 by function code (R76). -/
noncomputable def decodeBridge (w : BitVec 32) : Except Reject Instr :=
  match w.extractLsb' 0 7 with
  | 0x00#7 => if (w.extractLsb' 7 6).toNat ≠ 63 then .ok (.pksend (w.extractLsb' 19 6) (w.extractLsb' 13 6) (w.extractLsb' 7 6)) else .error .pairEnd
  | 0x01#7 => if w.extractLsb' 13 6 = 0 ∧ w.extractLsb' 7 6 = 0 then .ok (.tick (w.extractLsb' 19 6)) else .error .reserved
  | _ => .error .function

/-- The instruction a word stands for, or the condition of R73 that it breaks (R75, R91). Log entry 56 (DEDUCED, unsafe). -/
noncomputable def decodeWord (w : BitVec 32) : Except Reject Instr :=
  if w.extractLsb' 29 3 = 7 then .ok (.xop (w.extractLsb' 25 4) (w.extractLsb' 18 7) (w.extractLsb' 11 7) (w.extractLsb' 4 7) (w.extractLsb' 0 4)) else
  match majorOf w with
  | 0x01#7 => decodeSop w
  | 0x02#7 => .ok (.saddi (w.extractLsb' 19 6) (w.extractLsb' 13 6) (w.extractLsb' 0 13))
  | 0x03#7 => .ok (.sandi (w.extractLsb' 19 6) (w.extractLsb' 13 6) (w.extractLsb' 0 13))
  | 0x04#7 => .ok (.sori (w.extractLsb' 19 6) (w.extractLsb' 13 6) (w.extractLsb' 0 13))
  | 0x05#7 => .ok (.sslti (w.extractLsb' 19 6) (w.extractLsb' 13 6) (w.extractLsb' 0 13))
  | 0x06#7 => if w.extractLsb' 6 7 = 0 then .ok (.sshli (w.extractLsb' 19 6) (w.extractLsb' 13 6) (w.extractLsb' 0 6)) else .error .reserved
  | 0x07#7 => if w.extractLsb' 6 7 = 0 then .ok (.ssrai (w.extractLsb' 19 6) (w.extractLsb' 13 6) (w.extractLsb' 0 6)) else .error .reserved
  | 0x08#7 => if w.extractLsb' 6 7 = 0 then .ok (.sshri (w.extractLsb' 19 6) (w.extractLsb' 13 6) (w.extractLsb' 0 6)) else .error .reserved
  | 0x09#7 => .ok (.sli (w.extractLsb' 19 6) (w.extractLsb' 0 19))
  | 0x0A#7 => .ok (.slui (w.extractLsb' 19 6) (w.extractLsb' 0 19))
  | 0x0B#7 => .ok (.slxi (w.extractLsb' 19 6) (w.extractLsb' 0 19))
  | 0x0C#7 => .ok (.br (w.extractLsb' 0 25))
  | 0x0D#7 => .ok (.call (w.extractLsb' 0 25))
  | 0x0E#7 => .ok (.brz (w.extractLsb' 19 6) (w.extractLsb' 0 19))
  | 0x0F#7 => .ok (.brnz (w.extractLsb' 19 6) (w.extractLsb' 0 19))
  | 0x10#7 => decodeCtl w
  | 0x11#7 => if w.extractLsb' 19 6 = 0 ∧ w.extractLsb' 16 3 = 0 then .ok (.lpad (w.extractLsb' 15 1) (w.extractLsb' 14 1) (w.extractLsb' 13 1) (w.extractLsb' 0 13)) else .error .reserved
  | 0x12#7 => if w.extractLsb' 16 9 = 0 then .ok (.mode (w.extractLsb' 14 2) (w.extractLsb' 11 3) (w.extractLsb' 10 1) (w.extractLsb' 8 2) (w.extractLsb' 4 4) (w.extractLsb' 0 4)) else .error .reserved
  | 0x13#7 => decodePred w
  | 0x14#7 => .ok (.vbr (w.extractLsb' 22 3) (w.extractLsb' 21 1) (w.extractLsb' 0 21))
  | 0x15#7 => if w.extractLsb' 0 17 = 0 then .ok (.reconv (w.extractLsb' 17 8)) else .error .reserved
  | 0x16#7 => if w.extractLsb' 19 6 = 0 then .ok (.jmpi (w.extractLsb' 13 6) (w.extractLsb' 0 13)) else .error .reserved
  | 0x17#7 => if w.extractLsb' 19 6 = 0 then .ok (.calli (w.extractLsb' 13 6) (w.extractLsb' 0 13)) else .error .reserved
  | 0x18#7 => if w.extractLsb' 0 5 = 0 then .ok (.vjmpi (w.extractLsb' 18 7) (w.extractLsb' 5 13)) else .error .reserved
  | 0x20#7 => decodeVint w
  | 0x21#7 => decodeVcmp w
  | 0x22#7 => decodeVflt w
  | 0x23#7 => decodeVun w
  | 0x24#7 => decodeVxl w
  | 0x30#7 => .ok (.vld (w.extractLsb' 18 7) (w.extractLsb' 12 6) (w.extractLsb' 0 12))
  | 0x31#7 => .ok (.vst (w.extractLsb' 18 7) (w.extractLsb' 12 6) (w.extractLsb' 0 12))
  | 0x32#7 => if w.extractLsb' 24 1 = 0 then .ok (.sld (w.extractLsb' 18 6) (w.extractLsb' 12 6) (w.extractLsb' 0 12)) else .error .reserved
  | 0x33#7 => if w.extractLsb' 24 1 = 0 then .ok (.sst (w.extractLsb' 18 6) (w.extractLsb' 12 6) (w.extractLsb' 0 12)) else .error .reserved
  | 0x34#7 => if w.extractLsb' 24 1 = 0 then .ok (.sldw (w.extractLsb' 18 6) (w.extractLsb' 12 6) (w.extractLsb' 0 12)) else .error .reserved
  | 0x35#7 => if w.extractLsb' 24 1 = 0 then .ok (.sstw (w.extractLsb' 18 6) (w.extractLsb' 12 6) (w.extractLsb' 0 12)) else .error .reserved
  | 0x36#7 => if w.extractLsb' 0 5 = 0 then .ok (.vldx (w.extractLsb' 18 7) (w.extractLsb' 12 6) (w.extractLsb' 5 7)) else .error .reserved
  | 0x37#7 => if w.extractLsb' 0 5 = 0 then .ok (.vstx (w.extractLsb' 18 7) (w.extractLsb' 12 6) (w.extractLsb' 5 7)) else .error .reserved
  | 0x38#7 => if w.extractLsb' 11 1 = 0 ∧ w.extractLsb' 0 5 = 0 then .ok (.tld (w.extractLsb' 18 7) (w.extractLsb' 12 6) (w.extractLsb' 5 6)) else .error .reserved
  | 0x39#7 => if w.extractLsb' 11 1 = 0 ∧ w.extractLsb' 0 5 = 0 then .ok (.tst (w.extractLsb' 18 7) (w.extractLsb' 12 6) (w.extractLsb' 5 6)) else .error .reserved
  | 0x3A#7 => decodeAtom w
  | 0x3B#7 => decodeSatom w
  | 0x3C#7 => decodeMemctl w
  | 0x40#7 => .ok (.tbeg (w.extractLsb' 0 25))
  | 0x41#7 => .ok (.orelse (w.extractLsb' 0 25))
  | 0x42#7 => decodeTxc w
  | 0x48#7 => decodeMat w
  | 0x50#7 => decodeCopy w
  | 0x51#7 => decodeTimeline w
  | 0x58#7 => decodeChurn w
  | 0x5C#7 => decodeMilk w
  | 0x60#7 => decodeToken w
  | 0x64#7 => decodeBridge w
  | _ => .error .major

/-- The word that four bytes hold, the first in bits [7:0] (R3). -/
def wordOfBytes (b0 b1 b2 b3 : Byte) : BitVec 32 := b3 ++ b2 ++ b1 ++ b0

/-- The bytes of a word as memory holds them (R3, R69). -/
def bytesOfWord (w : BitVec 32) : List Byte :=
  [w.extractLsb' 0 8, w.extractLsb' 8 8, w.extractLsb' 16 8, w.extractLsb' 24 8]

/-- The instruction at the head of a list of bytes. -/
noncomputable def decode (bytes : List Byte) : Except Reject Instr :=
  match bytes with
  | b0 :: b1 :: b2 :: b3 :: _ => decodeWord (wordOfBytes b0 b1 b2 b3)
  | _ => .error .tooShort

/-- The word of an instruction, from the layouts of R70 and the codes of R75 and R76; none for a step without one.
Log entry 56 (DEDUCED, unsafe). -/
def encode (i : Instr) : Option (BitVec 32) :=
  match i with
  | .sadd d a b => some (encS3 0x1#7 d a b 0x0#7)
  | .ssub d a b => some (encS3 0x1#7 d a b 0x1#7)
  | .smul d a b => some (encS3 0x1#7 d a b 0x2#7)
  | .smulh d a b => some (encS3 0x1#7 d a b 0x3#7)
  | .smulhu d a b => some (encS3 0x1#7 d a b 0x4#7)
  | .sdiv d a b => some (encS3 0x1#7 d a b 0x5#7)
  | .sdivu d a b => some (encS3 0x1#7 d a b 0x6#7)
  | .srem d a b => some (encS3 0x1#7 d a b 0x7#7)
  | .sremu d a b => some (encS3 0x1#7 d a b 0x8#7)
  | .sand d a b => some (encS3 0x1#7 d a b 0x9#7)
  | .sor d a b => some (encS3 0x1#7 d a b 0xA#7)
  | .sxor d a b => some (encS3 0x1#7 d a b 0xB#7)
  | .sshl d a b => some (encS3 0x1#7 d a b 0xC#7)
  | .sshr d a b => some (encS3 0x1#7 d a b 0xD#7)
  | .ssra d a b => some (encS3 0x1#7 d a b 0xE#7)
  | .smin d a b => some (encS3 0x1#7 d a b 0xF#7)
  | .smax d a b => some (encS3 0x1#7 d a b 0x10#7)
  | .sminu d a b => some (encS3 0x1#7 d a b 0x11#7)
  | .smaxu d a b => some (encS3 0x1#7 d a b 0x12#7)
  | .sseq d a b => some (encS3 0x1#7 d a b 0x13#7)
  | .sslt d a b => some (encS3 0x1#7 d a b 0x14#7)
  | .ssltu d a b => some (encS3 0x1#7 d a b 0x15#7)
  | .sclz d a => some (encS3 0x1#7 d a 0x0#6 0x16#7)
  | .spopc d a => some (encS3 0x1#7 d a 0x0#6 0x17#7)
  | .spmov d p => some (encS3 0x1#7 d (0x0#3 ++ p) 0x0#6 0x18#7)
  | .saddi d a imm => some (encI13 0x2#7 d a imm)
  | .sandi d a imm => some (encI13 0x3#7 d a imm)
  | .sori d a imm => some (encI13 0x4#7 d a imm)
  | .sslti d a imm => some (encI13 0x5#7 d a imm)
  | .sshli d a imm => some (encI13 0x6#7 d a (0x0#7 ++ imm))
  | .ssrai d a imm => some (encI13 0x7#7 d a (0x0#7 ++ imm))
  | .sshri d a imm => some (encI13 0x8#7 d a (0x0#7 ++ imm))
  | .sli d imm => some (encL19 0x9#7 d imm)
  | .slui d imm => some (encL19 0xA#7 d imm)
  | .slxi d imm => some (encL19 0xB#7 d imm)
  | .br off => some (encJ25 0xC#7 off)
  | .call off => some (encJ25 0xD#7 off)
  | .brz d off => some (encL19 0xE#7 d off)
  | .brnz d off => some (encL19 0xF#7 d off)
  | .ret => some (encS3 0x10#7 0x0#6 0x0#6 0x0#6 0x0#7)
  | .exit => some (encS3 0x10#7 0x0#6 0x0#6 0x0#6 0x1#7)
  | .yield => some (encS3 0x10#7 0x0#6 0x0#6 0x0#6 0x2#7)
  | .trap code => some (encS3 0x10#7 0x0#6 0x0#6 code 0x3#7)
  | .rtt => some (encS3 0x10#7 0x0#6 0x0#6 0x0#6 0x4#7)
  | .brk code => some (encS3 0x10#7 0x0#6 0x0#6 code 0x5#7)
  | .racq d n => some (encS3 0x10#7 d 0x0#6 (0x0#1 ++ n) 0x6#7)
  | .racqE d n => some (encS3 0x10#7 d 0x0#6 (0x1#1 ++ n) 0x6#7)
  | .rrel n => some (encS3 0x10#7 0x0#6 0x0#6 (0x0#1 ++ n) 0x7#7)
  | .srd d idx => some (encS3 0x10#7 d 0x0#6 idx 0x8#7)
  | .swr a idx => some (encS3 0x10#7 0x0#6 a idx 0x9#7)
  | .frz => some (encS3 0x10#7 0x0#6 0x0#6 0x0#6 0xA#7)
  | .lpad vj cl jp tag => some (encL19 0x11#7 0x0#6 (0x0#3 ++ vj ++ cl ++ jp ++ tag))
  | .mode order scope sat round etype guard => some (encJ25 0x12#7 (0x0#9 ++ order ++ scope ++ sat ++ round ++ etype ++ guard))
  | .pand d a b => some (encVR 0x13#7 (0x0#4 ++ d) (0x0#4 ++ a) (0x0#4 ++ b) 0x0#4)
  | .por d a b => some (encVR 0x13#7 (0x0#4 ++ d) (0x0#4 ++ a) (0x0#4 ++ b) 0x1#4)
  | .pxor d a b => some (encVR 0x13#7 (0x0#4 ++ d) (0x0#4 ++ a) (0x0#4 ++ b) 0x2#4)
  | .pandn d a b => some (encVR 0x13#7 (0x0#4 ++ d) (0x0#4 ++ a) (0x0#4 ++ b) 0x3#4)
  | .pnot d a => some (encVR 0x13#7 (0x0#4 ++ d) (0x0#4 ++ a) 0x0#7 0x4#4)
  | .pmov d a => some (encVR 0x13#7 (0x0#4 ++ d) (0x0#4 ++ a) 0x0#7 0x5#4)
  | .pcnt d a => some (encVR 0x13#7 (0x0#1 ++ d) (0x0#4 ++ a) 0x0#7 0x6#4)
  | .pfirst d a => some (encVR 0x13#7 (0x0#4 ++ d) (0x0#4 ++ a) 0x0#7 0x7#4)
  | .pset d a => some (encVR 0x13#7 (0x0#4 ++ d) (0x0#1 ++ a) 0x0#7 0x8#4)
  | .vbr p neg off => some (encVB 0x14#7 p neg off)
  | .reconv rid => some (encRC 0x15#7 rid 0x0#17)
  | .jmpi a tag => some (encI13 0x16#7 0x0#6 a tag)
  | .calli a tag => some (encI13 0x17#7 0x0#6 a tag)
  | .vjmpi a tag => some (encVJ 0x18#7 a tag 0x0#5)
  | .vadd d a b => some (encVR 0x20#7 d a b 0x0#4)
  | .vsub d a b => some (encVR 0x20#7 d a b 0x1#4)
  | .vmul d a b => some (encVR 0x20#7 d a b 0x2#4)
  | .vmulh d a b => some (encVR 0x20#7 d a b 0x3#4)
  | .vmad d a b => some (encVR 0x20#7 d a b 0x4#4)
  | .vmin d a b => some (encVR 0x20#7 d a b 0x5#4)
  | .vmax d a b => some (encVR 0x20#7 d a b 0x6#4)
  | .vand d a b => some (encVR 0x20#7 d a b 0x7#4)
  | .vor d a b => some (encVR 0x20#7 d a b 0x8#4)
  | .vxor d a b => some (encVR 0x20#7 d a b 0x9#4)
  | .vandn d a b => some (encVR 0x20#7 d a b 0xA#4)
  | .vshl d a b => some (encVR 0x20#7 d a b 0xB#4)
  | .vshr d a b => some (encVR 0x20#7 d a b 0xC#4)
  | .vsra d a b => some (encVR 0x20#7 d a b 0xD#4)
  | .vrot d a b => some (encVR 0x20#7 d a b 0xE#4)
  | .vsel d a b => some (encVR 0x20#7 d a b 0xF#4)
  | .vcmpeq d a b => some (encVR 0x21#7 (0x0#4 ++ d) a b 0x0#4)
  | .vcmpne d a b => some (encVR 0x21#7 (0x0#4 ++ d) a b 0x1#4)
  | .vcmplt d a b => some (encVR 0x21#7 (0x0#4 ++ d) a b 0x2#4)
  | .vcmple d a b => some (encVR 0x21#7 (0x0#4 ++ d) a b 0x3#4)
  | .vcmpgt d a b => some (encVR 0x21#7 (0x0#4 ++ d) a b 0x4#4)
  | .vcmpge d a b => some (encVR 0x21#7 (0x0#4 ++ d) a b 0x5#4)
  | .vabsd d a b => some (encVR 0x21#7 d a b 0x6#4)
  | .vavg d a b => some (encVR 0x21#7 d a b 0x7#4)
  | .vdot4 d a b => some (encVR 0x21#7 d a b 0x8#4)
  | .vfadd d a b => some (encVR 0x22#7 d a b 0x0#4)
  | .vfsub d a b => some (encVR 0x22#7 d a b 0x1#4)
  | .vfmul d a b => some (encVR 0x22#7 d a b 0x2#4)
  | .vfma d a b => some (encVR 0x22#7 d a b 0x3#4)
  | .vfms d a b => some (encVR 0x22#7 d a b 0x4#4)
  | .vfnma d a b => some (encVR 0x22#7 d a b 0x5#4)
  | .vfmin d a b => some (encVR 0x22#7 d a b 0x6#4)
  | .vfmax d a b => some (encVR 0x22#7 d a b 0x7#4)
  | .vfcmpeq d a b => some (encVR 0x22#7 (0x0#4 ++ d) a b 0x8#4)
  | .vfcmplt d a b => some (encVR 0x22#7 (0x0#4 ++ d) a b 0x9#4)
  | .vfcmple d a b => some (encVR 0x22#7 (0x0#4 ++ d) a b 0xA#4)
  | .vfcmpun d a b => some (encVR 0x22#7 (0x0#4 ++ d) a b 0xB#4)
  | .vfscal d a b => some (encVR 0x22#7 d a b 0xC#4)
  | .vfcls d a => some (encVR 0x22#7 d a 0x0#7 0xD#4)
  | .vmov d a => some (encVR 0x23#7 d a 0x0#7 0x0#4)
  | .vnot d a => some (encVR 0x23#7 d a 0x0#7 0x1#4)
  | .vneg d a => some (encVR 0x23#7 d a 0x0#7 0x2#4)
  | .vabs d a => some (encVR 0x23#7 d a 0x0#7 0x3#4)
  | .vpopc d a => some (encVR 0x23#7 d a 0x0#7 0x4#4)
  | .vclz d a => some (encVR 0x23#7 d a 0x0#7 0x5#4)
  | .vlaneid d => some (encVR 0x23#7 d 0x0#7 0x0#7 0x6#4)
  | .vfrcp d a => some (encVR 0x23#7 d a 0x0#7 0x7#4)
  | .vfrsq d a => some (encVR 0x23#7 d a 0x0#7 0x8#4)
  | .vfexp2 d a => some (encVR 0x23#7 d a 0x0#7 0x9#4)
  | .vflog2 d a => some (encVR 0x23#7 d a 0x0#7 0xA#4)
  | .vcvt d a part ty => some (encVR 0x23#7 d a (part ++ ty) 0xB#4)
  | .vbcst d a => some (encVR 0x23#7 d (0x0#1 ++ a) 0x0#7 0xC#4)
  | .vextr d a lane => some (encVR 0x23#7 (0x0#1 ++ d) a (0x0#2 ++ lane) 0xD#4)
  | .vins d a lane => some (encVR 0x23#7 d (0x0#1 ++ a) (0x0#2 ++ lane) 0xE#4)
  | .vbrev d a => some (encVR 0x23#7 d a 0x0#7 0xF#4)
  | .vperm d a b => some (encVR 0x24#7 d a b 0x0#4)
  | .vbperm d a b => some (encVR 0x24#7 d a b 0x1#4)
  | .vshflu d a b => some (encVR 0x24#7 d a b 0x2#4)
  | .vshfld d a b => some (encVR 0x24#7 d a b 0x3#4)
  | .vshflx d a b => some (encVR 0x24#7 d a b 0x4#4)
  | .vslide d a n => some (encVR 0x24#7 d a n 0x5#4)
  | .vredadd d a => some (encVR 0x24#7 d a 0x0#7 0x6#4)
  | .vredmin d a => some (encVR 0x24#7 d a 0x0#7 0x7#4)
  | .vredmax d a => some (encVR 0x24#7 d a 0x0#7 0x8#4)
  | .vscan d a => some (encVR 0x24#7 d a 0x0#7 0x9#4)
  | .vballot d a => some (encVR 0x24#7 d a 0x0#7 0xA#4)
  | .vcmprs d a => some (encVR 0x24#7 d a 0x0#7 0xB#4)
  | .vexpnd d a => some (encVR 0x24#7 d a 0x0#7 0xC#4)
  | .vld d b imm => some (encM12 0x30#7 d b imm)
  | .vst d b imm => some (encM12 0x31#7 d b imm)
  | .sld d b imm => some (encM12 0x32#7 (0x0#1 ++ d) b imm)
  | .sst d b imm => some (encM12 0x33#7 (0x0#1 ++ d) b imm)
  | .sldw d b imm => some (encM12 0x34#7 (0x0#1 ++ d) b imm)
  | .sstw d b imm => some (encM12 0x35#7 (0x0#1 ++ d) b imm)
  | .vldx d b x => some (encX7 0x36#7 d b x 0x0#5)
  | .vstx d b x => some (encX7 0x37#7 d b x 0x0#5)
  | .tld d t sb => some (encX7 0x38#7 d t (0x0#1 ++ sb) 0x0#5)
  | .tst d t sb => some (encX7 0x39#7 d t (0x0#1 ++ sb) 0x0#5)
  | .aadd d b x => some (encX7 0x3A#7 d b x 0x0#5)
  | .asub d b x => some (encX7 0x3A#7 d b x 0x1#5)
  | .amin d b x => some (encX7 0x3A#7 d b x 0x2#5)
  | .amax d b x => some (encX7 0x3A#7 d b x 0x3#5)
  | .aminu d b x => some (encX7 0x3A#7 d b x 0x4#5)
  | .amaxu d b x => some (encX7 0x3A#7 d b x 0x5#5)
  | .aand d b x => some (encX7 0x3A#7 d b x 0x6#5)
  | .aor d b x => some (encX7 0x3A#7 d b x 0x7#5)
  | .axor d b x => some (encX7 0x3A#7 d b x 0x8#5)
  | .axchg d b x => some (encX7 0x3A#7 d b x 0x9#5)
  | .acas d b x => some (encX7 0x3A#7 d b x 0xA#5)
  | .afadd d b x => some (encX7 0x3A#7 d b x 0xB#5)
  | .afmin d b x => some (encX7 0x3A#7 d b x 0xC#5)
  | .afmax d b x => some (encX7 0x3A#7 d b x 0xD#5)
  | .aaddN d b x => some (encX7 0x3A#7 d b x 0x10#5)
  | .asubN d b x => some (encX7 0x3A#7 d b x 0x11#5)
  | .aminN d b x => some (encX7 0x3A#7 d b x 0x12#5)
  | .amaxN d b x => some (encX7 0x3A#7 d b x 0x13#5)
  | .aminuN d b x => some (encX7 0x3A#7 d b x 0x14#5)
  | .amaxuN d b x => some (encX7 0x3A#7 d b x 0x15#5)
  | .aandN d b x => some (encX7 0x3A#7 d b x 0x16#5)
  | .aorN d b x => some (encX7 0x3A#7 d b x 0x17#5)
  | .axorN d b x => some (encX7 0x3A#7 d b x 0x18#5)
  | .axchgN d b x => some (encX7 0x3A#7 d b x 0x19#5)
  | .acasN d b x => some (encX7 0x3A#7 d b x 0x1A#5)
  | .afaddN d b x => some (encX7 0x3A#7 d b x 0x1B#5)
  | .afminN d b x => some (encX7 0x3A#7 d b x 0x1C#5)
  | .afmaxN d b x => some (encX7 0x3A#7 d b x 0x1D#5)
  | .aaddScalar d a w => some (encS3 0x3B#7 d a (0x0#5 ++ w) 0x0#7)
  | .asubScalar d a w => some (encS3 0x3B#7 d a (0x0#5 ++ w) 0x1#7)
  | .aminScalar d a w => some (encS3 0x3B#7 d a (0x0#5 ++ w) 0x2#7)
  | .amaxScalar d a w => some (encS3 0x3B#7 d a (0x0#5 ++ w) 0x3#7)
  | .aminuScalar d a w => some (encS3 0x3B#7 d a (0x0#5 ++ w) 0x4#7)
  | .amaxuScalar d a w => some (encS3 0x3B#7 d a (0x0#5 ++ w) 0x5#7)
  | .aandScalar d a w => some (encS3 0x3B#7 d a (0x0#5 ++ w) 0x6#7)
  | .aorScalar d a w => some (encS3 0x3B#7 d a (0x0#5 ++ w) 0x7#7)
  | .axorScalar d a w => some (encS3 0x3B#7 d a (0x0#5 ++ w) 0x8#7)
  | .axchgScalar d a w => some (encS3 0x3B#7 d a (0x0#5 ++ w) 0x9#7)
  | .acasScalar d a w => some (encS3 0x3B#7 d a (0x0#5 ++ w) 0xA#7)
  | .afaddScalar d a => some (encS3 0x3B#7 d a 0x1#6 0xB#7)
  | .afminScalar d a => some (encS3 0x3B#7 d a 0x1#6 0xC#7)
  | .afmaxScalar d a => some (encS3 0x3B#7 d a 0x1#6 0xD#7)
  | .aaddNScalar d a w => some (encS3 0x3B#7 d a (0x0#5 ++ w) 0x10#7)
  | .asubNScalar d a w => some (encS3 0x3B#7 d a (0x0#5 ++ w) 0x11#7)
  | .aminNScalar d a w => some (encS3 0x3B#7 d a (0x0#5 ++ w) 0x12#7)
  | .amaxNScalar d a w => some (encS3 0x3B#7 d a (0x0#5 ++ w) 0x13#7)
  | .aminuNScalar d a w => some (encS3 0x3B#7 d a (0x0#5 ++ w) 0x14#7)
  | .amaxuNScalar d a w => some (encS3 0x3B#7 d a (0x0#5 ++ w) 0x15#7)
  | .aandNScalar d a w => some (encS3 0x3B#7 d a (0x0#5 ++ w) 0x16#7)
  | .aorNScalar d a w => some (encS3 0x3B#7 d a (0x0#5 ++ w) 0x17#7)
  | .axorNScalar d a w => some (encS3 0x3B#7 d a (0x0#5 ++ w) 0x18#7)
  | .axchgNScalar d a w => some (encS3 0x3B#7 d a (0x0#5 ++ w) 0x19#7)
  | .acasNScalar d a w => some (encS3 0x3B#7 d a (0x0#5 ++ w) 0x1A#7)
  | .afaddNScalar d a => some (encS3 0x3B#7 d a 0x1#6 0x1B#7)
  | .afminNScalar d a => some (encS3 0x3B#7 d a 0x1#6 0x1C#7)
  | .afmaxNScalar d a => some (encS3 0x3B#7 d a 0x1#6 0x1D#7)
  | .fence kind => some (encS3 0x3C#7 0x0#6 0x0#6 (0x0#4 ++ kind) 0x0#7)
  | .pref a own lvl => some (encS3 0x3C#7 0x0#6 a (0x0#4 ++ own ++ lvl) 0x1#7)
  | .flush a lvl => some (encS3 0x3C#7 0x0#6 a (0x0#5 ++ lvl) 0x2#7)
  | .inv a => some (encS3 0x3C#7 0x0#6 a 0x0#6 0x3#7)
  | .pin d a => some (encS3 0x3C#7 d a 0x0#6 0x4#7)
  | .unpin d a => some (encS3 0x3C#7 d a 0x0#6 0x5#7)
  | .tdef t a b => some (encS3 0x3C#7 t a b 0x6#7)
  | .tset t a => some (encS3 0x3C#7 t a 0x0#6 0x7#7)
  | .tqry d t sel => some (encS3 0x3C#7 d t (0x0#5 ++ sel) 0x8#7)
  | .tbeg off => some (encJ25 0x40#7 off)
  | .orelse off => some (encJ25 0x41#7 off)
  | .tend => some (encS3 0x42#7 0x0#6 0x0#6 0x0#6 0x0#7)
  | .tabrt code => some (encS3 0x42#7 0x0#6 0x0#6 code 0x1#7)
  | .retry => some (encS3 0x42#7 0x0#6 0x0#6 0x0#6 0x2#7)
  | .tstat d sel => some (encS3 0x42#7 d 0x0#6 (0x0#4 ++ sel) 0x3#7)
  | .twatch a => some (encS3 0x42#7 0x0#6 a 0x0#6 0x4#7)
  | .tdepth d => some (encS3 0x42#7 d 0x0#6 0x0#6 0x5#7)
  | .mma d t b => some (encS3 0x48#7 (0x0#2 ++ d) t b 0x0#7)
  | .mmaz d t b => some (encS3 0x48#7 (0x0#2 ++ d) t b 0x1#7)
  | .mmab d t b => some (encS3 0x48#7 (0x0#2 ++ d) t b 0x2#7)
  | .msca d a b => some (encS3 0x48#7 (0x0#2 ++ d) (0x0#2 ++ a) b 0x3#7)
  | .mrd d a b => some (encS3 0x48#7 d (0x0#2 ++ a) b 0x4#7)
  | .mwr d a b => some (encS3 0x48#7 (0x0#2 ++ d) a b 0x5#7)
  | .mzero d n => some (encS3 0x48#7 (0x0#2 ++ d) 0x0#6 (0x0#1 ++ n) 0x6#7)
  | .mswap => some (encS3 0x48#7 0x0#6 0x0#6 0x0#6 0x7#7)
  | .mldb t b => some (encS3 0x48#7 0x0#6 t b 0x8#7)
  | .mqry d => some (encS3 0x48#7 d 0x0#6 0x0#6 0x9#7)
  | .cpy b t => some (encE 0x50#7 b t 0x0#15)
  | .cpy2d b t => some (encE 0x50#7 b t 0x1#15)
  | .cgath b t => some (encE 0x50#7 b t 0x2#15)
  | .cscat b t => some (encE 0x50#7 b t 0x3#15)
  | .cfill b t => some (encE 0x50#7 b t 0x4#15)
  | .cpym b t => some (encE 0x50#7 b t 0x5#15)
  | .tlrd d t sel => some (encS3 0x51#7 d (0x0#2 ++ t) (0x0#5 ++ sel) 0x0#7)
  | .tlinc d t => some (encS3 0x51#7 d (0x0#2 ++ t) 0x0#6 0x1#7)
  | .tlincC d t => some (encS3 0x51#7 d (0x0#2 ++ t) 0x1#6 0x1#7)
  | .xload x a => some (encS3 0x58#7 (0x0#2 ++ x) a 0x0#6 0x0#7)
  | .xdrop x => some (encS3 0x58#7 (0x0#2 ++ x) 0x0#6 0x0#6 0x1#7)
  | .xqry d x => some (encS3 0x58#7 d (0x0#2 ++ x) 0x0#6 0x2#7)
  | .xmark x => some (encS3 0x58#7 (0x0#2 ++ x) 0x0#6 0x0#6 0x3#7)
  | .xswap x a => some (encS3 0x58#7 (0x0#2 ++ x) a 0x0#6 0x4#7)
  | .xop n d a b imm => some (encVR (0x7#3 ++ n) d a b imm)
  | .mrboard d a => some (encS3 0x5C#7 d a 0x0#6 0x0#7)
  | .mrboardT d a => some (encS3 0x5C#7 d a 0x1#6 0x0#7)
  | .mrleave d => some (encS3 0x5C#7 d 0x0#6 0x0#6 0x1#7)
  | .mrleaveT d => some (encS3 0x5C#7 d 0x0#6 0x1#6 0x1#7)
  | .mrstat d a => some (encS3 0x5C#7 d a 0x0#6 0x2#7)
  | .tknew d a b => some (encS3 0x60#7 d a b 0x0#7)
  | .tkfree a => some (encS3 0x60#7 0x0#6 a 0x0#6 0x1#7)
  | .tkpop t a => some (encS3 0x60#7 t a 0x0#6 0x2#7)
  | .tkpush d a b => some (encS3 0x60#7 d a b 0x3#7)
  | .tkroute d a b => some (encS3 0x60#7 d a b 0x4#7)
  | .tkcancel d a => some (encS3 0x60#7 d a 0x0#6 0x5#7)
  | .tkhdr d a b => some (encS3 0x60#7 d a b 0x6#7)
  | .tkcnt d a => some (encS3 0x60#7 d a 0x0#6 0x7#7)
  | .comb d a b => some (encS3 0x60#7 d a b 0x8#7)
  | .combRn d a b => some (encS3 0x60#7 d a b 0x48#7)
  | .skput k a b => some (encS3 0x60#7 (0x0#2 ++ k) a b 0x9#7)
  | .skdrain d => some (encS3 0x60#7 d 0x0#6 0x0#6 0xA#7)
  | .pksend d a b => some (encS3 0x64#7 d a b 0x0#7)
  | .tick d => some (encS3 0x64#7 d 0x0#6 0x0#6 0x1#7)
  | .pailFiring .. => none
  | .taskStart .. => none
  | .waveClassRaise .. => none
  | .budgetRefill => none
  | .reconvRelease .. => none
  | .yieldEnd .. => none
  | .wakeNotice .. => none
  | .wakeBackoffExpiry .. => none
  | .memoryAccessPerformed .. => none
  | .peerArrival .. => none
  | .remoteRequestArrival .. => none
  | .remoteResponse .. => none
  | .pageWalkComplete .. => none
  | .uncorrectableError .. => none
  | .correctedError .. => none
  | .matrixInstructionComplete .. => none
  | .mldbFillComplete .. => none
  | .roundSwap .. => none
  | .groupStart .. => none
  | .passOver .. => none
  | .blockDelivery .. => none
  | .endOfGroupEntry .. => none
  | .boardCoreTakeover .. => none
  | .slotDetach .. => none
  | .copyCommandStart .. => none
  | .copySectorAccess .. => none
  | .copyCommandComplete .. => none
  | .carriedInstructionIssue .. => none
  | .churnElementFire .. => none
  | .agStep .. => none
  | .quiescenceRound .. => none
  | .streamPark .. => none
  | .xopComplete .. => none
  | .spillRefill .. => none
  | .packetArrival .. => none
  | .allowanceReturn .. => none
  | .allowanceWaitExpiry .. => none
  | .skimmerHandover .. => none
  | .portDown .. => none
  | .dieBridgeDown .. => none
  | .routeTimeout .. => none
  | .streamOpenReport .. => none
  | .hqDoorbell .. => none
  | .hqEvhead .. => none
  | .msixMessage .. => none
  | .fwLoad => none
  | .configLoad => none
  | .fwLoadComplete .. => none
  | .bringUpComplete .. => none
  | .aqEnable => none
  | .aqDisable => none
  | .registerWrite .. => none
  | .nop .. => none
  | .qcreate .. => none
  | .qdestroy .. => none
  | .qrestart .. => none
  | .ctxcreate .. => none
  | .ctxdestroy .. => none
  | .groupset .. => none
  | .install .. => none
  | .remove .. => none
  | .submit .. => none
  | .launch .. => none
  | .preempt .. => none
  | .restore .. => none
  | .inval .. => none
  | .replay .. => none
  | .kill .. => none
  | .setbudget .. => none
  | .qbudget .. => none
  | .release .. => none
  | .resume .. => none
  | .keyalloc .. => none
  | .routeset .. => none
  | .turnover .. => none
  | .runlist .. => none
  | .clearerr .. => none
  | .roundshare .. => none
  | .launchStart .. => none
  | .launchComplete .. => none
  | .quantumEnd => none
  | .drainWindowClose .. => none
  | .preemptSaveComplete .. => none
  | .preemptDeadlineExpiry .. => none
  | .watchdogExpiry .. => none
  | .savePeriodExpiry .. => none
  | .faultPeriodExpiry .. => none
  | .lockstepMismatch => none
  | .powerOn => none
  | .coldReset => none
  | .flr => none
  | .priResponse .. => none
  | .hostBar2Access .. => none
  | .inputVoltageFault => none
  | .powerCapThrottle => none
  | .thermalThrottle => none
  | .thermalTrip => none
  | .ageingSample .. => none
  | .marginReplan => none
  | .pldmRequest .. => none
  | .spdmRequest .. => none
  | .illegalInstruction .. => none
  | .instructionFetchFault => none
  | .portRestore .. => none
  | .tickSync .. => none
  | .streamCloseReport .. => none
  | .faultRecordRead .. => none
  | .lockstepRecoveryEnd => none
  | .configLoadComplete .. => none

/-- The instruction the decoder reads from a word of the opcode table, laid out as memory holds it. -/
noncomputable def decodeTableWord (nbits w : Nat) : Option Instr :=
  if nbits ≤ 32 then (decode (bytesOfWord (BitVec.ofNat 32 (w % 2 ^ nbits)))).toOption else none

end Sys2Proof
end

