-- ==== Sys2Proof/Machine/Named.lean ====
section
/-! DEFINITION. The vector and scalar registers that an instruction names, for the interlocks on them (R34, R152, R298). -/

namespace Sys2Proof.Machine

/-- The vector registers that an instruction reads or writes. -/
def namedVectors (i : Instr) : List Nat :=
  match i with
  | .vjmpi a _ => [a.toNat]
  | .vadd d a b => [d.toNat, a.toNat, b.toNat]
  | .vsub d a b => [d.toNat, a.toNat, b.toNat]
  | .vmul d a b => [d.toNat, a.toNat, b.toNat]
  | .vmulh d a b => [d.toNat, a.toNat, b.toNat]
  | .vmad d a b => [d.toNat, a.toNat, b.toNat]
  | .vmin d a b => [d.toNat, a.toNat, b.toNat]
  | .vmax d a b => [d.toNat, a.toNat, b.toNat]
  | .vand d a b => [d.toNat, a.toNat, b.toNat]
  | .vor d a b => [d.toNat, a.toNat, b.toNat]
  | .vxor d a b => [d.toNat, a.toNat, b.toNat]
  | .vandn d a b => [d.toNat, a.toNat, b.toNat]
  | .vshl d a b => [d.toNat, a.toNat, b.toNat]
  | .vshr d a b => [d.toNat, a.toNat, b.toNat]
  | .vsra d a b => [d.toNat, a.toNat, b.toNat]
  | .vrot d a b => [d.toNat, a.toNat, b.toNat]
  | .vsel d a b => [d.toNat, a.toNat, b.toNat]
  | .vcmpeq _ a b => [a.toNat, b.toNat]
  | .vcmpne _ a b => [a.toNat, b.toNat]
  | .vcmplt _ a b => [a.toNat, b.toNat]
  | .vcmple _ a b => [a.toNat, b.toNat]
  | .vcmpgt _ a b => [a.toNat, b.toNat]
  | .vcmpge _ a b => [a.toNat, b.toNat]
  | .vabsd d a b => [d.toNat, a.toNat, b.toNat]
  | .vavg d a b => [d.toNat, a.toNat, b.toNat]
  | .vdot4 d a b => [d.toNat, a.toNat, b.toNat]
  | .vfadd d a b => [d.toNat, a.toNat, b.toNat]
  | .vfsub d a b => [d.toNat, a.toNat, b.toNat]
  | .vfmul d a b => [d.toNat, a.toNat, b.toNat]
  | .vfma d a b => [d.toNat, a.toNat, b.toNat]
  | .vfms d a b => [d.toNat, a.toNat, b.toNat]
  | .vfnma d a b => [d.toNat, a.toNat, b.toNat]
  | .vfmin d a b => [d.toNat, a.toNat, b.toNat]
  | .vfmax d a b => [d.toNat, a.toNat, b.toNat]
  | .vfcmpeq _ a b => [a.toNat, b.toNat]
  | .vfcmplt _ a b => [a.toNat, b.toNat]
  | .vfcmple _ a b => [a.toNat, b.toNat]
  | .vfcmpun _ a b => [a.toNat, b.toNat]
  | .vfscal d a b => [d.toNat, a.toNat, b.toNat]
  | .vfcls d a => [d.toNat, a.toNat]
  | .vmov d a => [d.toNat, a.toNat]
  | .vnot d a => [d.toNat, a.toNat]
  | .vneg d a => [d.toNat, a.toNat]
  | .vabs d a => [d.toNat, a.toNat]
  | .vpopc d a => [d.toNat, a.toNat]
  | .vclz d a => [d.toNat, a.toNat]
  | .vlaneid d => [d.toNat]
  | .vfrcp d a => [d.toNat, a.toNat]
  | .vfrsq d a => [d.toNat, a.toNat]
  | .vfexp2 d a => [d.toNat, a.toNat]
  | .vflog2 d a => [d.toNat, a.toNat]
  | .vcvt d a _ _ => [d.toNat, a.toNat]
  | .vbcst d _ => [d.toNat]
  | .vextr _ a _ => [a.toNat]
  | .vins d _ _ => [d.toNat]
  | .vbrev d a => [d.toNat, a.toNat]
  | .vperm d a b => [d.toNat, a.toNat, b.toNat]
  | .vbperm d a b => [d.toNat, a.toNat, b.toNat]
  | .vshflu d a b => [d.toNat, a.toNat, b.toNat]
  | .vshfld d a b => [d.toNat, a.toNat, b.toNat]
  | .vshflx d a b => [d.toNat, a.toNat, b.toNat]
  | .vslide d a _ => [d.toNat, a.toNat]
  | .vredadd d a => [d.toNat, a.toNat]
  | .vredmin d a => [d.toNat, a.toNat]
  | .vredmax d a => [d.toNat, a.toNat]
  | .vscan d a => [d.toNat, a.toNat]
  | .vballot d a => [d.toNat, a.toNat]
  | .vcmprs d a => [d.toNat, a.toNat]
  | .vexpnd d a => [d.toNat, a.toNat]
  | .vld d _ _ => [d.toNat]
  | .vst d _ _ => [d.toNat]
  | .vldx d _ x => [d.toNat, x.toNat]
  | .vstx d _ x => [d.toNat, x.toNat]
  | .tld d _ _ => [d.toNat]
  | .tst d _ _ => [d.toNat]
  | .aadd d _ x => [d.toNat, x.toNat]
  | .asub d _ x => [d.toNat, x.toNat]
  | .amin d _ x => [d.toNat, x.toNat]
  | .amax d _ x => [d.toNat, x.toNat]
  | .aminu d _ x => [d.toNat, x.toNat]
  | .amaxu d _ x => [d.toNat, x.toNat]
  | .aand d _ x => [d.toNat, x.toNat]
  | .aor d _ x => [d.toNat, x.toNat]
  | .axor d _ x => [d.toNat, x.toNat]
  | .axchg d _ x => [d.toNat, x.toNat]
  | .acas d _ x => [d.toNat, x.toNat, d.toNat + 1]
  | .afadd d _ x => [d.toNat, x.toNat]
  | .afmin d _ x => [d.toNat, x.toNat]
  | .afmax d _ x => [d.toNat, x.toNat]
  | .aaddN d _ x => [d.toNat, x.toNat]
  | .asubN d _ x => [d.toNat, x.toNat]
  | .aminN d _ x => [d.toNat, x.toNat]
  | .amaxN d _ x => [d.toNat, x.toNat]
  | .aminuN d _ x => [d.toNat, x.toNat]
  | .amaxuN d _ x => [d.toNat, x.toNat]
  | .aandN d _ x => [d.toNat, x.toNat]
  | .aorN d _ x => [d.toNat, x.toNat]
  | .axorN d _ x => [d.toNat, x.toNat]
  | .axchgN d _ x => [d.toNat, x.toNat]
  | .acasN d _ x => [d.toNat, x.toNat, d.toNat + 1]
  | .afaddN d _ x => [d.toNat, x.toNat]
  | .afminN d _ x => [d.toNat, x.toNat]
  | .afmaxN d _ x => [d.toNat, x.toNat]
  | .mrd d _ _ => [d.toNat]
  | .mwr _ a _ => [a.toNat]
  | .xop _ d a b _ => [d.toNat, a.toNat, b.toNat, d.toNat + 1]
  | _ => []

/-- The scalars of the block that a copy command reads (R253). -/
def copyScalars (fn : Nat) (b : BitVec 6) : List Nat := (upFrom b.toNat (copyLength fn)).map (· % 64)

/-- The scalars that an instruction reads or writes; none for one that copies or ends the whole file of its fragment
(R126, R129, R131, R132, R206). -/
def namedScalars (i : Instr) : Option (List Nat) :=
  match i with
  | .vbr .. => none
  | .vjmpi .. => none
  | .reconv _ => none
  | .exit => none
  | .tbeg _ => none
  | .orelse _ => none
  | .call _ => some [62]
  | .ret => some [62]
  | .sadd d a b => some [d.toNat, a.toNat, b.toNat]
  | .ssub d a b => some [d.toNat, a.toNat, b.toNat]
  | .smul d a b => some [d.toNat, a.toNat, b.toNat]
  | .smulh d a b => some [d.toNat, a.toNat, b.toNat]
  | .smulhu d a b => some [d.toNat, a.toNat, b.toNat]
  | .sdiv d a b => some [d.toNat, a.toNat, b.toNat]
  | .sdivu d a b => some [d.toNat, a.toNat, b.toNat]
  | .srem d a b => some [d.toNat, a.toNat, b.toNat]
  | .sremu d a b => some [d.toNat, a.toNat, b.toNat]
  | .sand d a b => some [d.toNat, a.toNat, b.toNat]
  | .sor d a b => some [d.toNat, a.toNat, b.toNat]
  | .sxor d a b => some [d.toNat, a.toNat, b.toNat]
  | .sshl d a b => some [d.toNat, a.toNat, b.toNat]
  | .sshr d a b => some [d.toNat, a.toNat, b.toNat]
  | .ssra d a b => some [d.toNat, a.toNat, b.toNat]
  | .smin d a b => some [d.toNat, a.toNat, b.toNat]
  | .smax d a b => some [d.toNat, a.toNat, b.toNat]
  | .sminu d a b => some [d.toNat, a.toNat, b.toNat]
  | .smaxu d a b => some [d.toNat, a.toNat, b.toNat]
  | .sseq d a b => some [d.toNat, a.toNat, b.toNat]
  | .sslt d a b => some [d.toNat, a.toNat, b.toNat]
  | .ssltu d a b => some [d.toNat, a.toNat, b.toNat]
  | .sclz d a => some [d.toNat, a.toNat]
  | .spopc d a => some [d.toNat, a.toNat]
  | .spmov d _ => some [d.toNat]
  | .saddi d a _ => some [d.toNat, a.toNat]
  | .sandi d a _ => some [d.toNat, a.toNat]
  | .sori d a _ => some [d.toNat, a.toNat]
  | .sslti d a _ => some [d.toNat, a.toNat]
  | .sshli d a _ => some [d.toNat, a.toNat]
  | .ssrai d a _ => some [d.toNat, a.toNat]
  | .sshri d a _ => some [d.toNat, a.toNat]
  | .sli d _ => some [d.toNat]
  | .slui d _ => some [d.toNat]
  | .slxi d _ => some [d.toNat]
  | .brz d _ => some [d.toNat]
  | .brnz d _ => some [d.toNat]
  | .racq d _ => some [d.toNat]
  | .racqE d _ => some [d.toNat]
  | .srd d _ => some [d.toNat]
  | .swr a _ => some [a.toNat]
  | .pcnt d _ => some [d.toNat]
  | .pset _ a => some [a.toNat]
  | .jmpi a _ => some [a.toNat]
  | .calli a _ => some [a.toNat, 62]
  | .vbcst _ a => some [a.toNat]
  | .vextr d _ _ => some [d.toNat]
  | .vins _ a _ => some [a.toNat]
  | .vld _ b _ => some [b.toNat]
  | .vst _ b _ => some [b.toNat]
  | .sld d b _ => some [d.toNat, b.toNat]
  | .sst d b _ => some [d.toNat, b.toNat]
  | .sldw d b _ => some [d.toNat, b.toNat]
  | .sstw d b _ => some [d.toNat, b.toNat]
  | .vldx _ b _ => some [b.toNat]
  | .vstx _ b _ => some [b.toNat]
  | .tld _ _ sb => some [sb.toNat]
  | .tst _ _ sb => some [sb.toNat]
  | .aadd _ b _ => some [b.toNat]
  | .asub _ b _ => some [b.toNat]
  | .amin _ b _ => some [b.toNat]
  | .amax _ b _ => some [b.toNat]
  | .aminu _ b _ => some [b.toNat]
  | .amaxu _ b _ => some [b.toNat]
  | .aand _ b _ => some [b.toNat]
  | .aor _ b _ => some [b.toNat]
  | .axor _ b _ => some [b.toNat]
  | .axchg _ b _ => some [b.toNat]
  | .acas _ b _ => some [b.toNat]
  | .afadd _ b _ => some [b.toNat]
  | .afmin _ b _ => some [b.toNat]
  | .afmax _ b _ => some [b.toNat]
  | .aaddN _ b _ => some [b.toNat]
  | .asubN _ b _ => some [b.toNat]
  | .aminN _ b _ => some [b.toNat]
  | .amaxN _ b _ => some [b.toNat]
  | .aminuN _ b _ => some [b.toNat]
  | .amaxuN _ b _ => some [b.toNat]
  | .aandN _ b _ => some [b.toNat]
  | .aorN _ b _ => some [b.toNat]
  | .axorN _ b _ => some [b.toNat]
  | .axchgN _ b _ => some [b.toNat]
  | .acasN _ b _ => some [b.toNat]
  | .afaddN _ b _ => some [b.toNat]
  | .afminN _ b _ => some [b.toNat]
  | .afmaxN _ b _ => some [b.toNat]
  | .aaddScalar d a _ => some [d.toNat, a.toNat]
  | .asubScalar d a _ => some [d.toNat, a.toNat]
  | .aminScalar d a _ => some [d.toNat, a.toNat]
  | .amaxScalar d a _ => some [d.toNat, a.toNat]
  | .aminuScalar d a _ => some [d.toNat, a.toNat]
  | .amaxuScalar d a _ => some [d.toNat, a.toNat]
  | .aandScalar d a _ => some [d.toNat, a.toNat]
  | .aorScalar d a _ => some [d.toNat, a.toNat]
  | .axorScalar d a _ => some [d.toNat, a.toNat]
  | .axchgScalar d a _ => some [d.toNat, a.toNat]
  | .acasScalar d a _ => some [d.toNat, a.toNat, (d.toNat + 1) % 64]
  | .afaddScalar d a => some [d.toNat, a.toNat]
  | .afminScalar d a => some [d.toNat, a.toNat]
  | .afmaxScalar d a => some [d.toNat, a.toNat]
  | .aaddNScalar d a _ => some [d.toNat, a.toNat]
  | .asubNScalar d a _ => some [d.toNat, a.toNat]
  | .aminNScalar d a _ => some [d.toNat, a.toNat]
  | .amaxNScalar d a _ => some [d.toNat, a.toNat]
  | .aminuNScalar d a _ => some [d.toNat, a.toNat]
  | .amaxuNScalar d a _ => some [d.toNat, a.toNat]
  | .aandNScalar d a _ => some [d.toNat, a.toNat]
  | .aorNScalar d a _ => some [d.toNat, a.toNat]
  | .axorNScalar d a _ => some [d.toNat, a.toNat]
  | .axchgNScalar d a _ => some [d.toNat, a.toNat]
  | .acasNScalar d a _ => some [d.toNat, a.toNat, (d.toNat + 1) % 64]
  | .afaddNScalar d a => some [d.toNat, a.toNat]
  | .afminNScalar d a => some [d.toNat, a.toNat]
  | .afmaxNScalar d a => some [d.toNat, a.toNat]
  | .pref a _ _ => some [a.toNat]
  | .flush a _ => some [a.toNat]
  | .inv a => some [a.toNat]
  | .pin d a => some [d.toNat, a.toNat]
  | .unpin d a => some [d.toNat, a.toNat]
  | .tdef _ a b => some [a.toNat, b.toNat]
  | .tset _ a => some [a.toNat]
  | .tqry d _ _ => some [d.toNat]
  | .tstat d _ => some [d.toNat]
  | .twatch a => some [a.toNat]
  | .tdepth d => some [d.toNat]
  | .mma _ _ b => some [b.toNat]
  | .mmaz _ _ b => some [b.toNat]
  | .mmab _ _ b => some [b.toNat]
  | .msca _ _ b => some [b.toNat]
  | .mrd _ _ b => some [b.toNat]
  | .mwr _ _ b => some [b.toNat]
  | .mldb _ b => some [b.toNat]
  | .mqry d => some [d.toNat]
  | .cpy b _ => some (copyScalars 0 b)
  | .cpy2d b _ => some (copyScalars 1 b)
  | .cgath b _ => some (copyScalars 2 b)
  | .cscat b _ => some (copyScalars 3 b)
  | .cfill b _ => some (copyScalars 4 b)
  | .cpym b _ => some (copyScalars 5 b)
  | .tlrd d _ _ => some [d.toNat]
  | .tlinc d _ => some [d.toNat]
  | .tlincC d _ => some [d.toNat]
  | .xload _ a => some [a.toNat]
  | .xqry d _ => some [d.toNat]
  | .xswap _ a => some [a.toNat]
  | .mrboard d a => some [d.toNat, a.toNat]
  | .mrboardT d a => some [d.toNat, a.toNat]
  | .mrleave d => some [d.toNat]
  | .mrleaveT d => some [d.toNat]
  | .mrstat d a => some [d.toNat, a.toNat]
  | .tknew d a b => some [d.toNat, a.toNat, b.toNat]
  | .tkfree a => some [a.toNat]
  | .tkpop _ a => some [a.toNat]
  | .tkpush d a b => some [d.toNat, a.toNat, b.toNat]
  | .tkroute d a b => some [d.toNat, a.toNat, b.toNat]
  | .tkcancel d a => some [d.toNat, a.toNat]
  | .tkhdr d a b => some [d.toNat, a.toNat, b.toNat]
  | .tkcnt d a => some [d.toNat, a.toNat]
  | .comb d a b => some [d.toNat, a.toNat, b.toNat]
  | .combRn d a b => some [d.toNat, a.toNat, b.toNat]
  | .skput _ a b => some [a.toNat, b.toNat]
  | .skdrain d => some [d.toNat]
  | .pksend d a b => some [d.toNat, a.toNat, b.toNat, (b.toNat + 1) % 64]
  | .tick d => some [d.toNat]
  | _ => some []

end Sys2Proof.Machine
end

