-- ==== Sys2Proof/Machine/Schedule.lean ====
section
/-! DEFINITION. Which fragment may issue in a cycle: the fetch of its word, the interlocks on its operands, whether what its
instruction needs can take it, and the order of the waves of a core and of the fragments of a wave; and the passing of a cycle (R33,
R34, R121, R152, R298, R358). -/

namespace Sys2Proof.Machine

/-! ## The next instruction of a fragment -/

/-- The fetch of the executing fragment's next instruction: its word; that bytes of another device are to be read first; or that
the fetch fails, or meets a poisoned sector (R112, R121, R202). -/
inductive Fetch where
  | word (w : BitVec 32)
  | away (xs : List (Place × Target))
  | fails

/-- The fetch of the executing fragment's next instruction (R121). -/
def State.fetch (s : State) : Fetch :=
  match s.xlateAll [s.fr.pc] .fetch with
  | .error _ => .fails
  | .ok xs =>
    match xs with
    | [] => .fails
    | x :: _ =>
      if !s.allFetched s.waveOwner (wordPlaces x) then .away (wordPlaces x)
      else if s.enginePoison s.waveOwner x then .fails
      else .word (s.fetchWord x)

/-! ## Interlocks (R34) -/

/-- The vector registers that an instruction of the executing fragment touches: those it names, and those of the blocks that it
gives back (R141). -/
def State.vectorsOf (s : State) (i : Instr) : List Nat :=
  match i with
  | .rrel n => upFrom (8 * (s.wv.rblk - n.toNat)) (8 * n.toNat)
  | _ => namedVectors i

/-- A destination is among registers named; with no list of scalars every scalar is. -/
def Dest.among (d : Dest) (ss : Option (List Nat)) (vs : List Nat) : Bool :=
  match d with
  | .none => false
  | .fetch => false
  | .scalar k => match ss with
    | .some l => l.contains k
    | .none => true
  | .lanes k _ => vs.contains k

/-- Accesses that have not brought their values yet and that an instruction interlocks on: those of its fragment into a scalar, and
those of any fragment of its wave into a vector register (R34, R152). -/
def State.interlocks (s : State) (i : Instr) : List Access :=
  s.accesses.filter (fun a => a.ofWave && a.op.returns && a.op.dest.among (namedScalars i) (s.vectorsOf i)
    && (match a.op.dest with
      | .lanes .. => a.agent.waveKey == s.cur.waveKey
      | _ => a.agent == s.cur))

/-- What an instruction interlocks on can be performed now: nothing of it waits for another device, and no pending `xop` of the wave
writes a register that it touches (R34, R298). -/
def State.operandsFree (s : State) (i : Instr) : Bool :=
  !s.xopBusy (s.vectorsOf i) && (s.interlocks i).all (fun a => !a.isOut && (s.forceFor a).isSome)

/-- What an instruction interlocks on performed (R34). -/
def State.settleFor (s : State) (i : Instr) : State := if s.accesses.isEmpty then s else s.settle (s.interlocks i)

/-- A fragment made the executing one. Log entry 1 (DESIGN CHOICE, safe). -/
def State.choose (s : State) (f : FragId) (deferred : Bool) : State :=
  { s with cur := f, deferring := deferred, stalled := false }

/-- The word that the executing fragment issues. A single-step trap that was due before it and is not taken, DBG.SS being 0, is due
no longer (R149). -/
def State.noteWord (s : State) (w : BitVec 32) : State :=
  s.setFr { s.fr with word := w, stepDue := s.fr.stepDue && s.wv.active }

/-- A state in which an instruction has found that it must wait. -/
def State.ifStalled (s : State) : Option State := if s.stalled then some s else none

/-- What keeps the executing fragment's next move from being made, though the fragment could issue: an interlock, or the pipe, engine or
other unit that its instruction needs, which cannot take it; the state in which it has found so (R34, R358). -/
noncomputable def State.held (s : State) : Option State :=
  if !s.fr.due.isEmpty then
    let t := s.issueDue 1
    if t.fr.due.length = s.fr.due.length then some t else none
  else if s.stepOwed s.cur then none
  else match s.fetch with
    | .fails => none
    | .away xs => (s.awaitFetch xs).ifStalled
    | .word w =>
      match decodeWord w with
      | .error _ => none
      | .ok i =>
        if !s.operandsFree i then some s
        else
          let t := s.settleFor i
          if t.movedOn s || !(t.interlocks i).isEmpty then none
          else match exec i (t.noteWord w) with
            | .next v => v.ifStalled
            | .fault _ => none
            | .refused _ => none

/-- What keeps a fragment from issuing. -/
noncomputable def State.heldAt (s : State) (f : FragId) : Option State := (s.choose f false).held

/-! ## The choice of a cycle (R33) -/

/-- A fragment is ready in this cycle: it can issue, its operands are free, and what its instruction needs can take it, as far as the
model tells, and has not been found busy (R34). -/
noncomputable def State.isOpen (s : State) (f : FragId) : Bool :=
  s.canIssue f && !(s.coreOf f.core).passed.contains f.key && (s.heldAt f).isNone

/-- A wave is ready in this cycle: one of its fragments is (R34). -/
noncomputable def State.waveReady (s : State) (core wave : Nat) : Bool :=
  (s.fragsOf core wave).any (fun k => s.isOpen { core := core, wave := wave, frag := k })

/-- The ready waves of a core that have not issued in this cycle. -/
noncomputable def State.waiting (s : State) (core : Nat) : List Nat :=
  (List.range 64).filter (fun w => !(s.coreOf core).issued.contains w && s.waveReady core w)

/-- A wave of a core. -/
def State.waveAt (s : State) (core wave : Nat) : Wave := s.wvOf { core := core, wave := wave, frag := 0 }

/-- The effective class of a wave: raised by one for each 256 ready cycles without an issue, up to 3 (R33). -/
def Wave.effClass (w : Wave) : Nat := min 3 (w.roleClass + max w.raised (w.readyCycles / 256))

/-- The wave that takes the first slot, among some: of those ready for 1,024 cycles without issuing the one with the highest count,
then the lowest number (R33). -/
def State.starvedIn (s : State) (core : Nat) (ws : List Nat) : Option Nat :=
  if (s.coreOf core).first then none
  else (ws.filter (fun w => decide (1024 ≤ (s.waveAt core w).readyCycles))).foldl (fun b w =>
    match b with
    | none => some w
    | some x => if (s.waveAt core x).readyCycles < (s.waveAt core w).readyCycles then some w else b) none

/-- Wave `a` is chosen before wave `b`: the starved one first, then by class, by the age of the task, by number (R33). -/
def State.ahead (s : State) (core : Nat) (starved : Option Nat) (a b : Nat) : Bool :=
  let key (w : Nat) : Nat × Nat :=
    ((s.waveAt core w).effClass, (getAt Task.reset s.tasks (s.waveAt core w).task).age)
  if starved = some b then false
  else if starved = some a then true
  else decide ((key b).1 < (key a).1)
    || ((key a).1 == (key b).1 && (decide ((key a).2 < (key b).2) || ((key a).2 == (key b).2 && decide (a < b))))

/-- A fragment may issue now: it is ready, its wave has not issued in this cycle and is among the four that the core chooses, and of
the wave's ready fragments none has waited longer (R33, R34). Log entry 62 (DESIGN CHOICE, safe). -/
noncomputable def State.mayIssue (s : State) (f : FragId) : Bool :=
  let c := s.coreOf f.core
  s.isOpen f && !c.issued.contains f.wave
    && (let ws := s.waiting f.core
        let starved := s.starvedIn f.core ws
        decide (c.issued.length + ws.countP (fun w => s.ahead f.core starved w f.wave) < 4))
    && (s.fragsOf f.core f.wave).all (fun k =>
        let g : FragId := { f with frag := k }
        !s.isOpen g || decide ((s.frOf g).idle ≤ (s.frOf f).idle))

/-- The fragments by their names. -/
def State.fragIds (s : State) : List FragId := s.frags.map (fun x => fragIdOf x.1)

/-- Some fragment may issue in this cycle. -/
noncomputable def State.anyMayIssue (s : State) : Bool := s.fragIds.any s.mayIssue

/-- A fragment found unable to issue in this cycle (R34). -/
def State.passFrag (s : State) (f : FragId) : State :=
  s.setCore f.core { s.coreOf f.core with passed := f.key :: (s.coreOf f.core).passed }

/-- An instruction of the executing fragment has issued: its wave and fragment have waited no time from here on (R33, R34). -/
noncomputable def State.noteIssued (s before : State) : State :=
  let f := before.cur
  let c := s.coreOf f.core
  let starved := before.starvedIn f.core (before.waiting f.core)
  let s1 := s.setCore f.core { c with issued := f.wave :: c.issued, first := c.first || starved == some f.wave }
  let s2 := match findAt s1.waves f.waveKey with
    | some w => s1.setWvOf f { w with readyCycles := 0, raised := 0 }
    | none => s1
  match findAt s2.frags s2.cur.key with
  | some g => s2.setFr { g with idle := 0, churnWait := none, skimWait := none }
  | none => s2

/-- The instruction of the executing fragment did not issue: it found that it must wait (R34, R112, R227, R388). -/
def State.heldBack (s : State) : Bool :=
  s.stalled || match s.fr.status with
    | .asleep _ h _ => !h
    | .backoff _ h => !h
    | .suspended _ => true
    | .fetching => true
    | .awaitingPage .. => true
    | .unreachable .. => true
    | _ => false

/-! ## The passing of time -/

/-- What has come of it that a fragment has found its next move not to be possible in this cycle: what the move waits for has been asked
for (R34, R112, R388). -/
noncomputable def State.noteHeld (s : State) (f : FragId) : State :=
  if !s.canIssue f || (s.coreOf f.core).passed.contains f.key then s
  else match s.heldAt f with
    | none => s
    | some v => { v.setFr { v.fr with word := (s.frOf f).word, stepDue := (s.frOf f).stepDue } with
        cur := s.cur, deferring := s.deferring, stalled := s.stalled }

/-- The ready cycles of the waves, and of their fragments, at the end of a cycle (R33, R34). -/
noncomputable def State.countReady (s : State) : State :=
  { s with
    waves := mapTab (fun k w =>
      if k < 16384 ∧ !(s.coreOf (k / 64)).issued.contains (k % 64) ∧ s.waveReady (k / 64) (k % 64) then
        { w with readyCycles := w.readyCycles + 1 }
      else w) s.waves
    frags := mapTab (fun k g => if s.isOpen (fragIdOf k) then { g with idle := g.idle + 1 } else g) s.frags
    cores := mapTab (fun _ c => { c with issued := [], passed := [], first := false }) s.cores }

/-- One arithmetic cycle: what was ready and has not issued has waited for one more, and the cycle's use of resources is charged
(R33 to R36). -/
noncomputable def State.tickCycle (s : State) : State :=
  let s1 := (s.fragIds.foldl State.noteHeld s).countReady.chargeCycle
  { s1 with cycle := s1.cycle + 1 }.releaseAll

/-- Cycles pass, but none in which some fragment may still issue (R33). -/
noncomputable def State.runCycles (s : State) : Nat → State
  | 0 => s
  | n + 1 => if s.anyMayIssue then s else s.tickCycle.runCycles n

/-- Cycles and nanoseconds pass (R5, R33 to R36, R383). Log entry 62 (DESIGN CHOICE, safe). -/
noncomputable def State.elapse (s : State) (cycles ns : Nat) : State := (s.runCycles cycles).runTick ns

end Sys2Proof.Machine
end

