-- ==== Sys2Proof/Machine/Issue.lean ====
section
/-! DEFINITION. The issue of an instruction: the fragment that the tape or the core chooses, what precedes and follows its
instruction, and what else a move of the tape is (R33, R34, R69, R73, R121, R149). -/

namespace Sys2Proof.Machine

/-- What a step does. -/
inductive Plan where
  /-- A move that is no instruction and no event of the table. -/
  | done (s : State)
  /-- A fragment's instruction, with its word; or the step that stands for a word that is none, or for a fetch that fails. -/
  | word (s : State) (w : BitVec 32) (i : Instr)
  /-- A step without an encoding. -/
  | event (s : State) (i : Instr)

/-- An instruction of the executing fragment with its word, once what it interlocks on has been performed; the fragment is found
unable to issue where that has stopped it, or an interlock stays (R34). -/
def State.issueWord (s : State) (w : BitVec 32) (i : Instr) : Plan :=
  if !s.operandsFree i then .done (s.stall.passFrag s.cur)
  else
    let t := s.settleFor i
    if t.movedOn s || !(t.interlocks i).isEmpty then .done (t.passFrag s.cur) else .word t w i

/-- What the executing fragment, which may issue, does next. -/
noncomputable def State.issuePlan (s : State) : Plan :=
  if !s.fr.due.isEmpty then .done ((s.issueDue s.fr.due.length).passFrag s.cur)
  else if s.stepOwed s.cur then .done ((s.stepTrap s.cur).passFrag s.cur)
  else
    match s.fetch with
    | .fails => .word s s.fr.word .instructionFetchFault
    | .away xs => .done ((s.awaitFetch xs).passFrag s.cur)
    | .word w =>
      match decodeWord w with
      | .ok i => s.issueWord w i
      | .error _ => .word s w (.illegalInstruction w)

/-- The fragment that issues when the tape says nothing: the executing one, or the first that may. -/
noncomputable def State.nextIssuer (s : State) : FragId :=
  if s.mayIssue s.cur then s.cur else (s.fragIds.find? s.mayIssue).getD s.cur

/-- A step without an encoding that the tape may name: those of an instruction's own issue are not among them. -/
def Instr.isMove (i : Instr) : Bool :=
  match i with
  | .illegalInstruction _ => false
  | .instructionFetchFault => false
  | _ => !i.isWord

/-- Steps that go on while every clock of the device stands: power, resets and management (R429, R430). -/
def Instr.withoutClocks (i : Instr) : Bool :=
  match i with
  | .powerOn => true
  | .coldReset => true
  | .inputVoltageFault => true
  | .pldmRequest _ => true
  | .spdmRequest _ => true
  | _ => false

/-- Further steps of a device that waits for a reset with its arithmetic clocks stopped: the host's registers, the messages to it,
and the records that tell it what has been lost (R417, R429). -/
def Instr.ofHostPort (i : Instr) : Bool :=
  match i with
  | .registerWrite .. => true
  | .hqDoorbell .. => true
  | .hqEvhead .. => true
  | .msixMessage _ => true
  | .flr => true
  | .faultRecordRead _ => true
  | _ => false

/-- State changes that the firmware pair makes, of itself or at a function-level reset or a write of AQ_EN, and not while it resets: they
come when it runs again (R405). Log entry 37 (DEDUCED, unsafe). -/
def Instr.ofPair (i : Instr) : Bool :=
  match i with
  | .faultRecordRead _ => true
  | .drainWindowClose _ => true
  | .preemptSaveComplete _ => true
  | .preemptDeadlineExpiry _ => true
  | .watchdogExpiry _ => true
  | .savePeriodExpiry _ => true
  | .faultPeriodExpiry _ => true
  | .portRestore _ => true
  | .marginReplan => true
  | .aqEnable => true
  | .aqDisable => true
  | .registerWrite off _ _ => off / 8 == 12
  | .flr => true
  | _ => false

/-- A step that the clocks and the firmware pair allow (R405, R429). -/
def State.allows (s : State) (i : Instr) : Bool :=
  if s.power.tripped then Instr.withoutClocks i || Instr.ofHostPort i
  else if s.power.stopped then Instr.withoutClocks i
  else !s.ras.recovering || !Instr.ofPair i

/-- Time passes: while the arithmetic clocks stand no cycle does, and while every clock stands no tick; accesses of the host that wait
are tried again (R115). Log entry 62 (DESIGN CHOICE, safe). -/
noncomputable def State.pass (s : State) (cycles ns : Nat) : State :=
  if s.power.stopped then s.elapse 0 (if s.power.tripped then ns else 0) else (s.elapse cycles ns).sweep.goBar2

/-- A held translation, or an entry of a page-walk cache, forgotten (R200). -/
def State.forget (s : State) (walk : Bool) (n : Nat) : State :=
  if walk then { s with walks := s.walks.eraseIdx n } else { s with tlb := s.tlb.eraseIdx n }

/-- What the step of a state is, every waiter that must go on at once having done so (R130).
Log entry 1 (DESIGN CHOICE, safe). -/
noncomputable def State.planMove (s : State) : Plan :=
  match s.inputs with
  | [] =>
    let f := s.nextIssuer
    if s.mayIssue f && !s.power.stopped then (s.choose f false).issuePlan else .done (s.pass 1 1)
  | i :: rest =>
    let s1 := { s with inputs := rest }
    match i with
    | .issue f d => if s1.mayIssue f && !s1.power.stopped then (s1.choose f d).issuePlan else .done s1
    | .event e => if Instr.isMove e && s1.allows e then .event s1 e else .done s1
    | .hostStore addr data => .done (s1.hostWrite addr data)
    | .elapse c ns => .done (s1.pass c ns)
    | .hostPort w => .done { s1 with hostWorks := w }
    | .busy f => .done (if s1.isOpen f then s1.passFrag f else s1)
    | .register f => .done (s1.registered f)
    | .forget walk n => .done (s1.forget walk n)
    | .readSector n core k => .done (if s1.power.stopped then s1 else s1.sampleSector n core k)
    | .power w => .done { s1 with power := { s1.power with average := w } }

/-- What the step of a state is. Log entry 1 (DESIGN CHOICE, safe). -/
noncomputable def State.plan (s : State) : Plan := s.releaseAll.planMove

/-- What an issue leaves: bytes of other devices that the instruction has used are gone, and its wave has issued; or it has not, and the
fragment is not tried again in this cycle, a single-step trap that is due staying due (R33, R34, R112). -/
noncomputable def State.closeIssue (before s : State) : State :=
  if s.stalled then (s.setFr { s.fr with word := before.fr.word, stepDue := before.fr.stepDue }).passFrag before.cur
  else
    let s1 := if s.fr.status = .fetching then s else s.dropFetched before.waveOwner
    if s1.heldBack then s1.setFr { s1.fr with stepDue := before.fr.stepDue || s1.fr.stepDue } else s1.noteIssued before

/-- What follows a fragment's instruction: its issue noted, and the single-step trap when one is due (R33, R149). -/
noncomputable def State.finishIssue (before : State) (r : Result) : Result :=
  match r with
  | .next s => .next (before.afterIssue (before.closeIssue s))
  | .fault e => .fault e
  | .refused e => .refused e

/-- The first fragment of a wave with a program counter of 0, and the wave it belongs to, where they do not exist; both ready, and
longer than any other of the core. -/
def State.ensureCur (s : State) : State :=
  let f := getAt Frag.reset s.frags s.cur.key
  let w := getAt Wave.reset s.waves s.cur.waveKey
  let c := s.coreOf s.cur.core
  { s with
    frags := putAt s.frags s.cur.key { f with
      status := .ready, stepDue := false, due := [], idle := s.frags.foldl (fun m x => max m (x.2.idle + 1)) 0 }
    waves := putAt s.waves s.cur.waveKey { w with
      holds := [], yieldEnd := none, handler := none,
      readyCycles := s.waves.foldl (fun m x => max m (x.2.readyCycles + 1)) 1024 }
    cores := putAt s.cores s.cur.core { c with issued := [], passed := [], first := false } }

/-- A held translation of the executing fragment's code page: the first pages of HBM, readable, writable and executable. -/
def State.codePage (s : State) : TlbEntry :=
  { core := s.cur.core, ctx := s.ctxId, va := s.fr.pc.toNat / 65536 * 65536, size := 65536, pa := 0, keyId := 0,
    kind := 0, cached := true, exec := true, write := true, read := true, home := 0, missing := none }

/-- A word placed where the executing fragment fetches next. Log entry 8 (DESIGN CHOICE, safe). -/
def State.placeWord (s : State) (w : BitVec 32) : State :=
  let s1 : State := { s.ensureCur with inputs := [] }
  let s2 : State := { s1 with tlb := s1.codePage :: s1.tlb }
  let pa := s2.fr.pc.toNat % 65536
  { s2 with
    mem := s2.mem.writeBytes (((upFrom pa 4).map (fun k => plainPlace k 0)).zip (bytesOfWord w)) }

end Sys2Proof.Machine
end

