-- ==== Sys2Proof/Machine/Step.lean ====
section
/-! DEFINITION. One step of the device: the next move of the tape, or the next instruction of the executing fragment. -/

namespace Sys2Proof.Machine

/-- One step. Log entry 60 (DEDUCED, safe). -/
noncomputable def step (s : State) : Host.Outcome State Fault Refusal :=
  match s.plan with
  | .done t => .next t
  | .event t i => exec i t
  | .word t w i => t.finishIssue (exec i (t.noteWord w))

/-- The state with an instruction, numbered as the opcode table numbers its bits, where `step` fetches next: the
executing wave exists and is ready, its code page is held in the translations of its core, and the word stands at its
program counter. Log entry 8 (DESIGN CHOICE, safe). -/
def State.withFetchWord (s : State) (nbits w : Nat) : State := s.placeWord (BitVec.ofNat 32 (w % 2 ^ nbits))

end Sys2Proof.Machine
end

