-- ==== Sys2Proof/Safety.lean ====
section
/-! DEFINITION. The terms that claims are stated in: the invariant of the machine, what an instruction leaves unchanged, and
the conditions under which an instruction has its own effect rather than a trap or a wait. -/

namespace Sys2Proof.Machine

/-! ## The invariant -/

/-- Memory has its canonical form: equal memories are equal data (R93, R97). -/
def State.Inv (s : State) : Prop := s.mem.wf = true

/-! ## Frames -/

/-- Nothing but the row of the executing fragment differs. -/
def State.OnlyFrag (s t : State) : Prop :=
  t = { s with frags := t.frags } ∧ ∀ k, k ≠ s.cur.key → findAt t.frags k = findAt s.frags k

/-- Nothing but the rows of the executing fragment and of its wave differs. -/
def State.OnlyWave (s t : State) : Prop :=
  t = { s with frags := t.frags, waves := t.waves } ∧ (∀ k, k ≠ s.cur.key → findAt t.frags k = findAt s.frags k)
    ∧ ∀ k, k ≠ s.cur.waveKey → findAt t.waves k = findAt s.waves k

/-- Every byte of memory reads as before. -/
def State.MemSame (s t : State) : Prop := ∀ p : Place, t.mem.readByte p = s.mem.readByte p

/-- Every byte of memory outside the places given reads as before. -/
def State.MemSameBut (s t : State) (ps : List Place) : Prop :=
  ∀ p : Place, (∀ q ∈ ps, q.key ≠ p.key) → t.mem.readByte p = s.mem.readByte p

/-- A fragment that differs in one scalar and its program counter alone. -/
def Frag.OnlyScalar (f g : Frag) (d : BitVec 6) : Prop :=
  g = { f with s := g.s, pc := g.pc } ∧ ∀ r : BitVec 6, r ≠ d → g.getS r = f.getS r

/-- A fragment that differs in one predicate and its program counter alone. -/
def Frag.OnlyPred (f g : Frag) (d : BitVec 3) : Prop :=
  g = { f with p := g.p, pc := g.pc } ∧ ∀ r : BitVec 3, r ≠ d → g.getP r = f.getP r

/-- A scalar result: nothing but scalar `d` and the program counter differs, `d` holds the value unless it is `s0`, which
discards writes, and the program counter has passed the instruction. -/
def State.ScalarDone (s t : State) (d : BitVec 6) (x : Word) : Prop :=
  s.OnlyFrag t ∧ s.fr.OnlyScalar t.fr d ∧ t.getS d = (if d = 0 then 0 else x) ∧ t.fr.pc = s.fr.pc + 4

/-- A predicate result: nothing but predicate `d` and the program counter differs, `d` holds the value unless it is `p0`,
which discards writes, and the program counter has passed the instruction. -/
def State.PredDone (s t : State) (d : BitVec 3) (x : Lane) : Prop :=
  s.OnlyFrag t ∧ s.fr.OnlyPred t.fr d ∧ t.getP d = (if d = 0 then BitVec.allOnes 32 else x) ∧ t.fr.pc = s.fr.pc + 4

/-- A wave that differs in one vector register, in flags raised and in what an open attempt notes of the write alone. -/
def Wave.OnlyVector (w u : Wave) (d : BitVec 7) (flags : Flags) : Prop :=
  u = { w with v := u.v, fstat := u.fstat, tx := u.tx } ∧ (∀ r : BitVec 7, r ≠ d → u.v[r.toNat]'r.isLt = w.v[r.toNat]'r.isLt)
    ∧ u.fstat = w.fstat ||| flags

/-- A vector result: lane l of register `d` holds `f l` where it is guarded and is as it was elsewhere; the flags of the
guarded lanes are raised; nothing else but the program counter, which has passed the instruction, differs (R155). -/
def State.VectorDone (s t : State) (d : BitVec 7) (f : Nat → Lane × Flags) : Prop :=
  s.OnlyWave t
    ∧ (∀ l < 32, laneOf (t.getV d) l = if l ∈ s.guarded then (f l).1 else laneOf (s.getV d) l)
    ∧ s.wv.OnlyVector t.wv d (s.guarded.foldl (fun x l => x ||| (f l).2) 0)
    ∧ t.fr = { s.fr with pc := s.fr.pc + 4 }

/-- A compare's result: bit l of predicate `d` holds `f l` where lane l is guarded and is as it was elsewhere, the flags of
the guarded lanes are raised, and nothing else but the program counter differs; of `p0` nothing is written (R155). -/
def State.CompareDone (s t : State) (d : BitVec 3) (f : Nat → Bool × Flags) : Prop :=
  s.OnlyWave t
    ∧ (d ≠ 0 → ∀ l < 32, (t.getP d).getLsbD l = if l ∈ s.guarded then (f l).1 else (s.getP d).getLsbD l)
    ∧ s.fr.OnlyPred t.fr d
    ∧ t.wv = { s.wv with fstat := s.wv.fstat ||| s.guarded.foldl (fun x l => x ||| (f l).2) 0 }
    ∧ t.fr.pc = s.fr.pc + 4

/-! ## Conditions -/

/-- Every vector register named lies within the blocks of the executing wave (R72). -/
def State.HoldsRegs (s : State) (rs : List (BitVec 7)) : Prop := ∀ r ∈ rs, r.toNat < 8 * s.wv.rblk

/-- No trap of the executing wave is active and its fragment has no open attempt: a trap taken now is entered at once and
abandons nothing (R143). -/
def State.TrapFree (s : State) : Prop := s.wv.active = false ∧ s.inTx = false

/-- The executing fragment exists, on an id of its wave (R127). -/
def State.Alive (s : State) : Prop := (findAt s.frags s.cur.key).isSome = true ∧ s.cur.frag < 8

/-- Nothing stands between the executing fragment's accesses and memory: no attempt is open on the device, no access is on
its way or deferred, the fragment is ready, every die bridge is up, no acknowledgement is
outstanding, and the instruction has not been held. -/
def State.Clear (s : State) : Prop :=
  s.attempts = [] ∧ s.inTx = false ∧ s.deferring = false ∧ s.accesses = [] ∧ s.fr.status = .ready ∧ s.bridgesDown = []
    ∧ s.wv.acks = 0 ∧ s.stalled = false

/-- Bytes that can be reached where they lie: none is in a scratchpad line that has been released or lost, or that a saved
slot's image holds (R95, R116, R117). -/
def State.Reachable (s : State) (ps : List Place) : Prop :=
  ∀ p ∈ ps, s.lineLost p.key = false ∧ s.linePinned p.key = true ∧ s.imageOf p = none

/-- An address of the executing wave translates, for a need, to a place of this device's own memory that waits for no page of
the host, and the bytes given are not poisoned and can be reached. -/
def State.Reaches (s : State) (va : Word) (need : Need) (p : Place) (ps : List Place) : Prop :=
  s.xlate va need = .ok (p, .here) ∧ p.isHost = false ∧ (∀ q ∈ ps, s.mem.poisoned q.key = false) ∧ s.Reachable ps

/-- Memory after some bytes have been stored at their places in order: what it lists is what `writeBytes` makes of it, and
every place that none of them shares reads as before. -/
def State.Stored (s t : State) (data : List (Place × Byte)) : Prop :=
  t.mem.bytes = (s.mem.writeBytes data).bytes ∧ t.mem.keys = (s.mem.writeBytes data).keys ∧ t.mem.epoch = s.mem.epoch
    ∧ s.MemSameBut t (data.map (·.1))

/-- A store of some bytes at their places has been performed, and nothing differs but memory, notices to watchers, and the
program counter, which has passed the instruction (R99, R224). -/
def State.StoreDone (s t : State) (data : List (Place × Byte)) : Prop :=
  t = { s with mem := t.mem, notices := t.notices, frags := t.frags }
    ∧ s.Stored t data
    ∧ (∀ k, k ≠ s.cur.key → findAt t.frags k = findAt s.frags k)
    ∧ t.fr = { s.fr with pc := s.fr.pc + 4 }

/-- A precise trap has been taken by the executing fragment, outside a trap and an attempt: the trap registers hold the
cause, its class and detail with MR, the address saved, the faulting address and TINFO; MR is 0; the program counter is at
the handler; the fragment is in its handler; and nothing else differs (R80, R81, R143). -/
def State.Trapped (s t : State) (cause cls detail : Nat) (tpc taddr tinfo : Word) : Prop :=
  t = (s.setWv { s.wv with
        tcause := tcauseOf s.fr.mr detail cls cause, tpc := tpc, taddr := taddr, tinfo := tinfo,
        handler := some s.cur.frag }).setFr
      { s.fr with mr := 0, pc := s.wv.tvec + BitVec.ofNat 64 (64 * cls) }

/-- The atomics of some lanes made one after another on memory: the lane, its bytes and its operands; what memory becomes and
the old value of each lane (R183, R184). -/
def runAtomics (op : AtomicOp) (m : Memory) : List (Nat × List Place × Word × Word) → Memory × List (Nat × Nat)
  | [] => (m, [])
  | (l, ps, x, y) :: r =>
    let a := m.atomic op ps x y
    let q := runAtomics op (m.writeBytes a.1) r
    (q.1, (l, a.2) :: q.2)

/-! ## Results of vector instructions, element by element -/

/-- An integer result: under an integer type and registers the wave holds, the instruction answers, and each element of each
guarded lane of `d` is `f` of the elements of a, b and d, cut to the width of the type; no flag is raised (R42, R158). -/
def State.IntDone (s : State) (i : Instr) (d a b : BitVec 7) (f : EType → Int → Int → Int → Int) : Prop :=
  ∀ e : EType, s.HoldsRegs [d, a, b] → etypeOf s.etypeCode = some e → e.isInt = true →
    ∃ t, exec i s = .next t ∧ s.VectorDone t d (fun l => (packLane e.width (fun k => wrapTo e.width
      (f e (intOf e (elemOf e.width (laneOf (s.getV a) l) k)) (intOf e (elemOf e.width (laneOf (s.getV b) l) k))
        (intOf e (elemOf e.width (laneOf (s.getV d) l) k)))), 0))

/-- The same of an operation on the bits of the elements: they are read as unsigned numbers. -/
def State.BitsDone (s : State) (i : Instr) (d a b : BitVec 7) (f : EType → Nat → Nat → Nat) : Prop :=
  ∀ e : EType, s.HoldsRegs [d, a, b] → etypeOf s.etypeCode = some e → e.isInt = true →
    ∃ t, exec i s = .next t ∧ s.VectorDone t d (fun l => (packLane e.width (fun k =>
      f e (elemOf e.width (laneOf (s.getV a) l) k) (elemOf e.width (laneOf (s.getV b) l) k)), 0))

/-- A result on whole lanes, whatever the element type. -/
def State.LaneDone (s : State) (i : Instr) (d a b : BitVec 7) (f : Lane → Lane → Lane → Lane) : Prop :=
  s.HoldsRegs [d, a, b] → ∃ t, exec i s = .next t
    ∧ s.VectorDone t d (fun l => (f (laneOf (s.getV a) l) (laneOf (s.getV b) l) (laneOf (s.getV d) l), 0))

/-- A float result: under fp32 or bf16 and registers the wave holds, each element of each guarded lane of `d` and its flags
are `f` of the fraction bits, the rounding mode and the elements of a, b and d (R161). -/
def State.FloatDone (s : State) (i : Instr) (d a b : BitVec 7) (f : Nat → Rounding → Nat → Nat → Nat → Nat × Flags) : Prop :=
  ∀ e : EType, s.HoldsRegs [d, a, b] → etypeOf s.etypeCode = some e → e = .fp32 ∨ e = .bf16 →
    ∃ t, exec i s = .next t ∧ s.VectorDone t d (fun l => mapLane e.width (fun k =>
      f (if e = .fp32 then 23 else 7) s.rounding (elemOf e.width (laneOf (s.getV a) l) k)
        (elemOf e.width (laneOf (s.getV b) l) k) (elemOf e.width (laneOf (s.getV d) l) k)))

/-- An integer compare: bit l of `d` is set where the relation holds of any element of lane l (R159). -/
def State.IntCompared (s : State) (i : Instr) (d : BitVec 3) (a b : BitVec 7) (r : Int → Int → Prop) : Prop :=
  ∀ e : EType, s.HoldsRegs [a, b] → etypeOf s.etypeCode = some e → e.isInt = true →
    ∃ (t : State) (h : Nat → Bool), exec i s = .next t
      ∧ (∀ l, h l = true ↔ ∃ k < 32 / e.width, r (intOf e (elemOf e.width (laneOf (s.getV a) l) k))
          (intOf e (elemOf e.width (laneOf (s.getV b) l) k)))
      ∧ s.CompareDone t d (fun l => (h l, 0))

/-- A float compare: bit l of `d` is set where the relation holds of any element of lane l, and the flags of every element
compared are raised (R51, R162). -/
def State.FloatCompared (s : State) (i : Instr) (d : BitVec 3) (a b : BitVec 7) (r : Nat → Nat → Nat → Bool × Flags) :
    Prop :=
  ∀ e : EType, s.HoldsRegs [a, b] → etypeOf s.etypeCode = some e → e = .fp32 ∨ e = .bf16 →
    ∃ t, exec i s = .next t ∧ s.CompareDone t d (fun l =>
      ((List.range (32 / e.width)).any (fun k => (r (if e = .fp32 then 23 else 7) (elemOf e.width (laneOf (s.getV a) l) k)
          (elemOf e.width (laneOf (s.getV b) l) k)).1),
       (List.range (32 / e.width)).foldl (fun x k => x ||| (r (if e = .fp32 then 23 else 7)
          (elemOf e.width (laneOf (s.getV a) l) k) (elemOf e.width (laneOf (s.getV b) l) k)).2) 0))

/-- A vector register named lies outside the wave's blocks: outside a trap and an attempt REG_RANGE is raised (R72). -/
def State.RangeTraps (s : State) (i : Instr) (rs : List (BitVec 7)) : Prop :=
  s.TrapFree → (∃ r ∈ rs, 8 * s.wv.rblk ≤ r.toNat) →
    ∃ t, exec i s = .next t ∧ s.Trapped t 0x04 0 0 s.fr.pc 0 (s.tinfoWord 0)

/-- The registers lie within the wave's blocks and MR.etype holds no type that the instruction lists: outside a trap and an
attempt TYPE is raised (R41). -/
def State.TypeTraps (s : State) (i : Instr) (rs : List (BitVec 7)) (ok : EType → Bool) : Prop :=
  s.TrapFree → s.HoldsRegs rs → (∀ e, etypeOf s.etypeCode = some e → ok e = false) →
    ∃ t, exec i s = .next t ∧ s.Trapped t 0x10 0 0 s.fr.pc 0 (s.tinfoWord 0)

/-! ## Status words that programs read -/

/-- A number of the executing fragment's open attempt, 0 where it has none. -/
def State.ofAttempt (s : State) (g : Attempt → Nat) : Nat := (s.attempt.map g).getD 0

/-- TXSTAT: its fields, where every number lies within its field (R228). -/
def State.TxstatHolds (s : State) (x : Word) : Prop :=
  s.fr.attempts ≤ 255 → s.fr.txCode ≤ 255 → s.fr.wake ≤ 4 → s.fr.txStatus ≤ 15 → s.ofAttempt (·.reads.length) ≤ 64 →
    s.ofAttempt (·.writeEntries) ≤ 16 → s.ofAttempt (·.alts.length) ≤ 4 → s.ofAttempt (·.depth) ≤ 4 →
    fieldOf x 63 44 = 0 ∧ fieldOf x 43 36 = s.fr.attempts ∧ fieldOf x 35 29 = s.ofAttempt (·.reads.length)
      ∧ fieldOf x 28 24 = s.ofAttempt (·.writeEntries) ∧ fieldOf x 23 21 = s.ofAttempt (·.alts.length)
      ∧ fieldOf x 20 18 = s.ofAttempt (·.depth) ∧ x.getLsbD 17 = s.fr.ageValid ∧ x.getLsbD 16 = s.inTx
      ∧ fieldOf x 15 8 = s.fr.txCode ∧ x.getLsbD 7 = false ∧ fieldOf x 6 4 = s.fr.wake ∧ fieldOf x 3 0 = s.fr.txStatus

/-- FRAG: its fields (R133). -/
def State.FragWordHolds (s : State) (x : Word) : Prop :=
  s.cur.frag < 8 → (s.wv.entriesOf s.cur.frag).length ≤ 32 →
    fieldOf x 63 24 = 0 ∧ (∀ k < 8, x.getLsbD (16 + k) = decide (k ∈ s.fragsOf s.cur.core s.cur.wave)) ∧ fieldOf x 15 14 = 0
      ∧ fieldOf x 13 8 = (s.wv.entriesOf s.cur.frag).length ∧ fieldOf x 7 4 = (s.fragsOf s.cur.core s.cur.wave).length
      ∧ x.getLsbD 3 = false ∧ fieldOf x 2 0 = s.cur.frag

/-- The bank-state word as a user's context sees it: its fields, those of a set that it may not use reading 0 (R233). -/
def State.BankWordHolds (s : State) (m : MatUser) (x : Word) : Prop :=
  ∀ (b : Bank) (ua ui : Bool), b = s.bank m.core → ua = b.active.user.allows m → ui = b.inactive.user.allows m →
    b.active.tag < 2 ^ 16 → b.inactive.tag < 2 ^ 16 → b.active.arr < 4 → b.inactive.arr < 4 → b.active.fmt < 8 →
    b.inactive.fmt < 8 → b.inactive.st < 4 →
    fieldOf x 63 48 = (if ua then b.active.tag else 0) ∧ fieldOf x 47 32 = (if ui then b.inactive.tag else 0)
      ∧ x.getLsbD 31 = false ∧ x.getLsbD 30 = ua ∧ x.getLsbD 29 = ui ∧ x.getLsbD 28 = (b.own && s.ownsBank m.core m.ctx)
      ∧ fieldOf x 27 26 = (if ua then b.active.arr else 0) ∧ fieldOf x 25 24 = (if ui then b.inactive.arr else 0)
      ∧ fieldOf x 23 21 = (if ua then b.active.fmt else 0) ∧ fieldOf x 20 18 = (if ui then b.inactive.fmt else 0)
      ∧ x.getLsbD 17 = (ua && b.active.pois != 0) ∧ x.getLsbD 16 = (ui && b.inactive.pois != 0)
      ∧ x.getLsbD 15 = (ua && b.active.st == 2) ∧ fieldOf x 14 13 = (if ui then b.inactive.st else 0)
      ∧ fieldOf x 12 8 = b.queue.countP (fun o => o.ctx == m.ctx && o.isProduct) % 32
      ∧ fieldOf x 7 0 = ((b.swapsBy.filter (fun y => y.1.allows m)).map (·.2)).sum % 256

/-- The state word of a loaded graph slot: its fields (R302). -/
def State.SlotWordHolds (s : State) (core ctx slot : Nat) (g : ChurnImage) (x : Word) : Prop :=
  g.rv < 2 ^ 16 → g.ov < 2 ^ 16 → g.ovp < 2 ^ 16 → g.srcs < 4 → g.lat < 128 → ∀ old, old = s.oldTokens core ctx slot g →
    fieldOf x 63 48 = g.rv ∧ fieldOf x 47 32 = g.ov ∧ fieldOf x 31 16 = (if old then g.ovp else 0) ∧ x.getLsbD 15 = true
      ∧ x.getLsbD 14 = g.strm ∧ x.getLsbD 13 = old
      ∧ (x.getLsbD 12 = true ↔ ∀ i < 4, (s.churn core i).has ctx slot = true → (s.churn core i).quiescent = true)
      ∧ (x.getLsbD 11 = true ↔ ∃ n ∈ s.netsOf core ctx slot, ∃ a ∈ n.ags, a.abandoned = true ∨ a.stopped.isSome = true)
      ∧ x.getLsbD 10 = g.mism ∧ x.getLsbD 9 = g.dst2 ∧ fieldOf x 8 7 = g.srcs ∧ fieldOf x 6 0 = g.lat

/-- The word that `mrstat` gives for a selection (R328): 0 where it names nothing; the round word; the boarding word; a word of the
mask of the pass. -/
def State.MrstatHolds (s : State) (w x : Word) : Prop :=
  (fieldOf w 63 10 ≠ 0 ∨ fieldOf w 7 6 = 3 ∨ fieldOf w 9 8 ≠ 0 ∧ fieldOf w 7 6 ≠ 2 → x = 0)
    ∧ (fieldOf w 7 6 = 0 ∨ fieldOf w 7 6 = 2 →
        (∀ r, findAt s.rounds (fieldOf w 5 0) = some r → r.ctx ≠ s.ctxId ∧ s.ctxId ∉ r.shared) → x = 0)
    ∧ (fieldOf w 63 10 = 0 → ∀ r, findAt s.rounds (fieldOf w 5 0) = some r → r.ctx = s.ctxId ∨ s.ctxId ∈ r.shared →
        (fieldOf w 9 6 = 0 → r.pos < 2 ^ 16 → r.ltag < 2 ^ 16 →
          fieldOf x 63 48 = r.passes % 2 ^ 16 ∧ fieldOf x 47 32 = r.pos
            ∧ fieldOf x 31 29 = (if r.stopped.isSome then 4 else if s.boardedOn (fieldOf w 5 0) = [] then 1
                else if s.roundHeld (fieldOf w 5 0) r then 3 else 2)
            ∧ fieldOf x 28 24 = 0 ∧ fieldOf x 23 8 = r.ltag ∧ fieldOf x 7 0 = min 255 (s.boarders (fieldOf w 5 0)).length)
        ∧ (fieldOf w 7 6 = 2 →
          x = if r.skipen then r.latched.extractLsb' (64 * fieldOf w 9 8) 64 else 0xFFFFFFFFFFFFFFFF))
    ∧ (fieldOf w 63 8 = 0 → fieldOf w 7 6 = 1 → s.seat.boarded ≤ 64 → s.seat.stop < 16 →
        fieldOf x 63 17 = 0 ∧ x.getLsbD 16 = s.tk.aboard ∧ (x.getLsbD 15 = true ↔ s.seat.boarded ≠ 0)
          ∧ (x.getLsbD 14 = true ↔ s.seat.boarded ≠ 0 ∧ s.seat.leaving = true) ∧ fieldOf x 13 12 = 0
          ∧ fieldOf x 11 8 = (if s.seat.boarded = 0 then 0 else s.seat.stop) ∧ fieldOf x 7 6 = 0
          ∧ fieldOf x 5 0 = s.seat.boarded - 1)

/-! ## Host commands -/

/-- The next entry of a host queue, as the front end finds it, is a command of an opcode that can be performed now: the
entry carries the next SEQ, the queue runs and is covered by its doorbell, and its turn has come (R394, R395, R404). -/
def State.Commands (s s0 : State) (q op : Nat) (c : HostCmd) : Prop :=
  s0 = s.sweep.pollThrottles ∧ s0.canCommand q = true ∧ c = s0.commandOf q ∧ (c.w 0).toNat = c.seq ∧ c.f 1 7 0 = op

/-- The same of a command that has not begun and that passes the checks of R399, R400 and R403. -/
def State.CommandReady (s s0 : State) (q op : Nat) (c : HostCmd) : Prop :=
  s.Commands s0 q op c ∧ c.begun = false ∧ s0.commandFault c op = 0

end Sys2Proof.Machine
end

