-- ==== Sys2Proof/Certificates/Slice0/Obligations.lean ====
section
/-! DEFINITION. The statements for the provers. Each docstring names the rules of the manual it formalises; a clause that rests
on a choice of the model names its log entry. -/

open Sys2Proof Sys2Proof.Machine

/-! ## Scalars and predicates (R118, R119, R134) -/

/-- R118, R44: the sums, products, quotients and remainders of two scalars, with the cases of a divisor of 0; each answers a
state that differs in the destination and the program counter alone.
R118: the bitwise operations, shifts by the low six bits of b, minima, maxima, relations, counts of leading zeros and set
bits, and the move of a predicate to a scalar.
R119: the immediate forms, with the immediate sign-extended, zero-extended or shifted as the table gives. -/
def Obligations.ScalarResults : Prop :=
  (∀ (s : State) (d a b : BitVec 6),
    (∃ t, exec (.sadd d a b) s = .next t ∧ s.ScalarDone t d (BitVec.ofNat 64 ((s.getS a).toNat + (s.getS b).toNat)))
    ∧ (∃ t, exec (.ssub d a b) s = .next t ∧ s.ScalarDone t d (BitVec.ofInt 64 ((s.getS a).toInt - (s.getS b).toInt)))
    ∧ (∃ t, exec (.smul d a b) s = .next t ∧ s.ScalarDone t d (BitVec.ofInt 64 ((s.getS a).toInt * (s.getS b).toInt)))
    ∧ (∃ t, exec (.smulh d a b) s = .next t
        ∧ s.ScalarDone t d (BitVec.ofInt 64 ((s.getS a).toInt * (s.getS b).toInt / 2 ^ 64)))
    ∧ (∃ t, exec (.smulhu d a b) s = .next t
        ∧ s.ScalarDone t d (BitVec.ofNat 64 ((s.getS a).toNat * (s.getS b).toNat / 2 ^ 64)))
    ∧ (∃ t, exec (.sdiv d a b) s = .next t ∧ s.ScalarDone t d
        (if s.getS b = 0 then 0xFFFFFFFFFFFFFFFF else BitVec.ofInt 64 ((s.getS a).toInt.tdiv (s.getS b).toInt)))
    ∧ (∃ t, exec (.sdivu d a b) s = .next t ∧ s.ScalarDone t d
        (if s.getS b = 0 then 0xFFFFFFFFFFFFFFFF else BitVec.ofNat 64 ((s.getS a).toNat / (s.getS b).toNat)))
    ∧ (∃ t, exec (.srem d a b) s = .next t ∧ s.ScalarDone t d
        (if s.getS b = 0 then s.getS a else BitVec.ofInt 64 ((s.getS a).toInt.tmod (s.getS b).toInt)))
    ∧ (∃ t, exec (.sremu d a b) s = .next t ∧ s.ScalarDone t d
        (if s.getS b = 0 then s.getS a else BitVec.ofNat 64 ((s.getS a).toNat % (s.getS b).toNat))))
    ∧ (∀ (s : State) (d a b : BitVec 6) (p : BitVec 3),
    (∃ t, exec (.sand d a b) s = .next t ∧ s.ScalarDone t d (s.getS a &&& s.getS b))
    ∧ (∃ t, exec (.sor d a b) s = .next t ∧ s.ScalarDone t d (s.getS a ||| s.getS b))
    ∧ (∃ t, exec (.sxor d a b) s = .next t ∧ s.ScalarDone t d (s.getS a ^^^ s.getS b))
    ∧ (∃ t, exec (.sshl d a b) s = .next t
        ∧ s.ScalarDone t d (BitVec.ofNat 64 ((s.getS a).toNat * 2 ^ ((s.getS b).toNat % 64))))
    ∧ (∃ t, exec (.sshr d a b) s = .next t
        ∧ s.ScalarDone t d (BitVec.ofNat 64 ((s.getS a).toNat / 2 ^ ((s.getS b).toNat % 64))))
    ∧ (∃ t, exec (.ssra d a b) s = .next t
        ∧ s.ScalarDone t d (BitVec.ofInt 64 ((s.getS a).toInt / 2 ^ ((s.getS b).toNat % 64))))
    ∧ (∃ t, exec (.smin d a b) s = .next t ∧ s.ScalarDone t d (BitVec.ofInt 64 (min (s.getS a).toInt (s.getS b).toInt)))
    ∧ (∃ t, exec (.smax d a b) s = .next t ∧ s.ScalarDone t d (BitVec.ofInt 64 (max (s.getS a).toInt (s.getS b).toInt)))
    ∧ (∃ t, exec (.sminu d a b) s = .next t ∧ s.ScalarDone t d (BitVec.ofNat 64 (min (s.getS a).toNat (s.getS b).toNat)))
    ∧ (∃ t, exec (.smaxu d a b) s = .next t ∧ s.ScalarDone t d (BitVec.ofNat 64 (max (s.getS a).toNat (s.getS b).toNat)))
    ∧ (∃ t, exec (.sseq d a b) s = .next t ∧ s.ScalarDone t d (if s.getS a = s.getS b then 1 else 0))
    ∧ (∃ t, exec (.sslt d a b) s = .next t ∧ s.ScalarDone t d (if (s.getS a).toInt < (s.getS b).toInt then 1 else 0))
    ∧ (∃ t, exec (.ssltu d a b) s = .next t ∧ s.ScalarDone t d (if (s.getS a).toNat < (s.getS b).toNat then 1 else 0))
    ∧ (∃ t, exec (.sclz d a) s = .next t ∧ s.ScalarDone t d (BitVec.ofNat 64 (64 - (s.getS a).toNat.size)))
    ∧ (∃ t, exec (.spopc d a) s = .next t
        ∧ s.ScalarDone t d (BitVec.ofNat 64 ((List.range 64).countP (fun i => (s.getS a).getLsbD i))))
    ∧ (∃ t, exec (.spmov d p) s = .next t ∧ s.ScalarDone t d (BitVec.ofNat 64 (s.getP p).toNat)))
    ∧ (∀ (s : State) (d a sh : BitVec 6) (imm : BitVec 13) (wide : BitVec 19),
    (∃ t, exec (.saddi d a imm) s = .next t ∧ s.ScalarDone t d (BitVec.ofInt 64 ((s.getS a).toInt + imm.toInt)))
    ∧ (∃ t, exec (.sandi d a imm) s = .next t ∧ s.ScalarDone t d (s.getS a &&& BitVec.ofInt 64 imm.toInt))
    ∧ (∃ t, exec (.sori d a imm) s = .next t ∧ s.ScalarDone t d (s.getS a ||| BitVec.ofInt 64 imm.toInt))
    ∧ (∃ t, exec (.sslti d a imm) s = .next t ∧ s.ScalarDone t d (if (s.getS a).toInt < imm.toInt then 1 else 0))
    ∧ (∃ t, exec (.sshli d a sh) s = .next t ∧ s.ScalarDone t d (BitVec.ofNat 64 ((s.getS a).toNat * 2 ^ sh.toNat)))
    ∧ (∃ t, exec (.ssrai d a sh) s = .next t ∧ s.ScalarDone t d (BitVec.ofInt 64 ((s.getS a).toInt / 2 ^ sh.toNat)))
    ∧ (∃ t, exec (.sshri d a sh) s = .next t ∧ s.ScalarDone t d (BitVec.ofNat 64 ((s.getS a).toNat / 2 ^ sh.toNat)))
    ∧ (∃ t, exec (.sli d wide) s = .next t ∧ s.ScalarDone t d (BitVec.ofInt 64 wide.toInt))
    ∧ (∃ t, exec (.slui d wide) s = .next t
        ∧ s.ScalarDone t d (BitVec.ofInt 64 ((s.getS d).toNat % 2 ^ 19 + wide.toInt * 2 ^ 19)))
    ∧ (∃ t, exec (.slxi d wide) s = .next t
        ∧ s.ScalarDone t d (BitVec.ofNat 64 ((s.getS d).toNat % 2 ^ 38 + wide.toNat * 2 ^ 38))))

/-- R134: the predicate operations, bit by bit; `pcnt` and `pfirst` look at the lanes of LMASK alone.
R79: `s0` reads 0 and `p0` reads all ones in every state, whatever has been written to them. -/
def Obligations.PredicateAndHardWiredResults : Prop :=
  (∀ (s : State) (d a b : BitVec 3) (r : BitVec 6),
    (∃ t, exec (.pand d a b) s = .next t ∧ s.PredDone t d (s.getP a &&& s.getP b))
    ∧ (∃ t, exec (.por d a b) s = .next t ∧ s.PredDone t d (s.getP a ||| s.getP b))
    ∧ (∃ t, exec (.pxor d a b) s = .next t ∧ s.PredDone t d (s.getP a ^^^ s.getP b))
    ∧ (∃ t, exec (.pandn d a b) s = .next t ∧ s.PredDone t d (s.getP a &&& ~~~(s.getP b)))
    ∧ (∃ t, exec (.pnot d a) s = .next t ∧ s.PredDone t d (~~~(s.getP a)))
    ∧ (∃ t, exec (.pmov d a) s = .next t ∧ s.PredDone t d (s.getP a))
    ∧ (∃ t, exec (.pcnt r a) s = .next t ∧ s.ScalarDone t r
        (BitVec.ofNat 64 ((List.range 32).countP (fun i => (s.getP a).getLsbD i && s.fr.lmask.getLsbD i))))
    ∧ (∃ t x, exec (.pfirst d a) s = .next t ∧ s.PredDone t d x ∧ ∀ i < 32, x.getLsbD i =
        ((s.getP a).getLsbD i && s.fr.lmask.getLsbD i
          && (List.range i).all (fun j => !((s.getP a).getLsbD j && s.fr.lmask.getLsbD j))))
    ∧ (∃ t, exec (.pset d r) s = .next t ∧ s.PredDone t d (BitVec.ofNat 32 (s.getS r).toNat)))
    ∧ (∀ (s : State) (x : Word) (m : Lane),
    s.getS 0 = 0 ∧ s.getP 0 = BitVec.allOnes 32 ∧ s.setS 0 x = s.setFr s.fr ∧ s.setP 0 m = s.setFr s.fr)

/-! ## Transfers of control and the mode register (R78, R121 to R125, R138) -/

/-- R121, R123: the direct transfers and `lpad`; a call writes `lr` and adds 1 to DEPTH, and nothing else changes.
R124, R125: an indirect transfer whose target is aligned, fetches without waiting from a sector that is not poisoned (in another
device: whose bytes have come back), and holds an `lpad` of the transfer's kind and tag, is made; `calli` reads its target before it writes `lr`.
R78, R138: `mode` with a scope below 6 replaces MR by its fields; a scope of 6 or 7 raises ILL, outside a trap and an
attempt.
What is the model's own in it is in log entry 4. -/
def Obligations.TransferAndModeResults : Prop :=
  (∀ (s : State) (d : BitVec 6) (off25 : BitVec 25) (off19 : BitVec 19) (vj cl jp : BitVec 1) (tag : BitVec 13),
    exec (.br off25) s = .next (s.setFr { s.fr with pc := s.fr.pc + BitVec.ofInt 64 (4 * off25.toInt) })
    ∧ exec (.call off25) s = .next (s.setFr { (s.fr.setS 62 (s.fr.pc + 4)) with
        depth := s.fr.depth + 1, pc := s.fr.pc + BitVec.ofInt 64 (4 * off25.toInt) })
    ∧ exec (.brz d off19) s = .next (s.setFr { s.fr with
        pc := if s.getS d = 0 then s.fr.pc + BitVec.ofInt 64 (4 * off19.toInt) else s.fr.pc + 4 })
    ∧ exec (.brnz d off19) s = .next (s.setFr { s.fr with
        pc := if s.getS d ≠ 0 then s.fr.pc + BitVec.ofInt 64 (4 * off19.toInt) else s.fr.pc + 4 })
    ∧ exec (.lpad vj cl jp tag) s = .next (s.setFr { s.fr with pc := s.fr.pc + 4 }))
    ∧ (∀ (s : State) (a : BitVec 6) (tag : BitVec 13) (x : Place × Target),
    (s.getS a).toNat % 4 = 0 → s.xlateAll [s.getS a] .fetch = .ok [x] → s.allFetched s.waveOwner (wordPlaces x) = true →
    s.enginePoison s.waveOwner x = false →
    (landsOn (s.fetchWord x) 13 tag = true →
      exec (.jmpi a tag) s = .next (s.setFr { s.fr with pc := s.getS a }))
    ∧ (landsOn (s.fetchWord x) 14 tag = true →
      exec (.calli a tag) s = .next (s.setFr { (s.fr.setS 62 (s.fr.pc + 4)) with
        depth := s.fr.depth + 1, pc := s.getS a }))
    ∧ (landsOn (s.fetchWord x) 13 tag = false → s.TrapFree →
      ∃ t, exec (.jmpi a tag) s = .next t ∧ s.Trapped t 0x03 0 0 s.fr.pc (s.getS a) (s.tinfoWord 0))
    ∧ (landsOn (s.fetchWord x) 14 tag = false → s.TrapFree →
      ∃ t, exec (.calli a tag) s = .next t ∧ s.Trapped t 0x03 0 0 s.fr.pc (s.getS a) (s.tinfoWord 0)))
    ∧ (∀ (s : State) (order : BitVec 2) (scope : BitVec 3) (sat : BitVec 1) (round : BitVec 2) (etype guard : BitVec 4),
    (scope.toNat < 6 → exec (.mode order scope sat round etype guard) s = .next (s.setFr { s.fr with
      pc := s.fr.pc + 4
      mr := BitVec.ofNat 25 (order.toNat * 2 ^ 14 + scope.toNat * 2 ^ 11 + sat.toNat * 2 ^ 10 + round.toNat * 2 ^ 8
        + etype.toNat * 2 ^ 4 + guard.toNat) }))
    ∧ (6 ≤ scope.toNat → s.TrapFree →
      ∃ t, exec (.mode order scope sat round etype guard) s = .next t
        ∧ s.Trapped t 0x01 0 0 s.fr.pc 0 (s.tinfoWord 0)))

/-- R122: `ret` is the word 0x2000_0000, whose d6, a6 and b6 must be 0; with an aligned `lr` it goes there, whatever word stands
there, takes 1 from DEPTH and leaves `lr`; with one that is not aligned, outside a trap and an attempt, it raises LANDING with
TADDR the address (R69). -/
def Obligations.ReturnResults : Prop :=
  ∀ s : State,
    ((s.getS 62).toNat % 4 = 0 →
      exec .ret s = .next (s.setFr { s.fr with pc := s.getS 62, depth := s.fr.depth - 1 }))
    ∧ ((s.getS 62).toNat % 4 ≠ 0 → s.TrapFree →
      ∃ t, exec .ret s = .next t ∧ s.Trapped t 0x03 0 0 s.fr.pc (s.getS 62) (s.tinfoWord 0))
    ∧ decodeWord 0x20000000 = .ok .ret
    ∧ ∀ d a b : BitVec 6, d ≠ 0 ∨ a ≠ 0 ∨ b ≠ 0 → decodeWord (encS3 0x10 d a b 0) = .error .reserved

/-! ## Divergence (R128 to R132) -/

/-- R129: `vbr` without a split moves the program counter alone; with room for a fragment the minority, on a tie the lanes
that take the branch, becomes the fragment of the lowest free id with copies of the rest; without room it becomes the top
entry of the divergence stack; with the stack full the instruction raises RBLK with detail 4.
R132: `vjmpi` whose register is held, whose targets pass their checks and whose sets find room keeps in the executing
fragment the lanes whose destination is that of its lowest lane, and goes there; a lane of LMASK that is not guarded has the
next instruction as its destination. Its scalars, predicates, MR and DEPTH are as they were. -/
def Obligations.DivergentTransferResults : Prop :=
  (∀ (s : State) (p : BitVec 3) (neg : BitVec 1) (off : BitVec 21) (taken fall mlanes klanes : Lane) (tgt mpc kpc : Word),
    taken = s.fr.lmask &&& (if neg = 1 then ~~~(s.getP p) else s.getP p) → fall = s.fr.lmask &&& ~~~taken →
    tgt = s.fr.pc + BitVec.ofInt 64 (4 * off.toInt) →
    (mlanes, mpc, klanes, kpc) = (if countBits 32 taken.toNat ≤ countBits 32 fall.toNat then (taken, tgt, fall, s.fr.pc + 4)
      else (fall, s.fr.pc + 4, taken, tgt)) →
    (fall = 0 → exec (.vbr p neg off) s = .next (s.setFr { s.fr with pc := tgt }))
    ∧ (fall ≠ 0 → taken = 0 → exec (.vbr p neg off) s = .next (s.setFr { s.fr with pc := s.fr.pc + 4 }))
    ∧ (fall ≠ 0 → taken ≠ 0 → s.Alive → s.fragmentRoom ≠ 0 →
      ∃ t k, firstFree 8 (s.fragsOf s.cur.core s.cur.wave) = some k ∧ exec (.vbr p neg off) s = .next t
        ∧ t = { s with frags := t.frags }
        ∧ (∀ j, j ≠ s.cur.key → j ≠ (s.mate k).key → findAt t.frags j = findAt s.frags j)
        ∧ t.fr = { s.fr with lmask := klanes, pc := kpc, thread := t.fr.thread, before := t.fr.before }
        ∧ (t.frOf (s.mate k)).lmask = mlanes ∧ (t.frOf (s.mate k)).pc = mpc ∧ (t.frOf (s.mate k)).status = .ready
        ∧ (t.frOf (s.mate k)).mr = s.fr.mr ∧ (t.frOf (s.mate k)).depth = s.fr.depth
        ∧ (t.frOf (s.mate k)).s = s.fr.s ∧ (t.frOf (s.mate k)).p = s.fr.p)
    ∧ (fall ≠ 0 → taken ≠ 0 → s.fragmentRoom = 0 → s.wv.stack.length < 32 →
      exec (.vbr p neg off) s = .next ((s.setWv { s.wv with
          stack := { num := s.wv.pushes, owner := s.cur.frag, parked := none, lmask := mlanes, pc := mpc,
                     depth := s.fr.depth, mr := s.fr.mr } :: s.wv.stack
          pushes := s.wv.pushes + 1 }).setFr { s.fr with lmask := klanes, pc := kpc }))
    ∧ (fall ≠ 0 → taken ≠ 0 → s.fragmentRoom = 0 → 32 ≤ s.wv.stack.length → s.TrapFree →
      ∃ t, exec (.vbr p neg off) s = .next t ∧ s.Trapped t 0x08 0 4 s.fr.pc 0 (s.tinfoWord 0)))
    ∧ (∀ (s : State) (a : BitVec 7) (tag : BitVec 13) (dest : Nat → Word),
    s.HoldsRegs [a] → s.fr.lmask ≠ 0 → s.Alive →
    (∀ l, dest l = if l ∈ s.guarded then
        BitVec.ofNat 64 (s.fr.pc.toNat / 2 ^ 32 % 2 ^ 17 * 2 ^ 32 + (laneOf (s.getV a) l).toNat) else s.fr.pc + 4) →
    s.checkTargets tag (firstLanes (s.laneTarget a) s.guarded) = none →
    s.wv.stack.length + ((firstLanes dest (lanesOf s.fr.lmask)).length - 1 - s.fragmentRoom) ≤ 32 →
    ∃ t, exec (.vjmpi a tag) s = .next t
      ∧ t = { s with frags := t.frags, waves := t.waves }
      ∧ t.fr.pc = dest (lowestLane s.fr.lmask)
      ∧ (∀ l < 32, t.fr.lmask.getLsbD l = (s.fr.lmask.getLsbD l && dest l == dest (lowestLane s.fr.lmask)))
      ∧ t.fr.s = s.fr.s ∧ t.fr.p = s.fr.p ∧ t.fr.mr = s.fr.mr ∧ t.fr.depth = s.fr.depth)

/-- R130: `reconv` of a fragment without stack entries proceeds where it has an open attempt or no other fragment of its
wave waits or can run; waits where another fragment can run and none waits with an equal key; with a pending entry on
top exchanges it for a parked one; and with a parked entry of an equal key on top of another parked one joins the lanes of the
top entry alone and proceeds.
R126, R130: where fragments of the wave wait at a `reconv` with an equal key, they merge with the executing fragment: the
survivor has the lowest id, all their lanes, goes on after the `reconv`, and the others are gone; where one of them is in its trap
handler the survivor is from there on, which is the model's own (log entry 77).
R130: RECONV_RELEASE lets one waiting fragment of a wave proceed when none of its fragments can run: a deepest one, and
of equal depths the one of the lowest id; otherwise it changes nothing.
What is the model's own in it is in log entry 2. -/
def Obligations.ReconvergenceAndMergeResults : Prop :=
  (∀ (s : State) (id : BitVec 8),
    (s.wv.entriesOf s.cur.frag = [] →
      (s.inTx = true ∨ ∀ k ∈ s.fragsOf s.cur.core s.cur.wave, k ≠ s.cur.frag →
        s.runnable (s.mate k) = false ∧ (s.frOf (s.mate k)).waiting = false) →
      exec (.reconv id) s = .next (s.setFr { s.fr with pc := s.fr.pc + 4 }))
    ∧ (s.wv.entriesOf s.cur.frag = [] → s.inTx = false → s.sameKey id.toNat = [] →
      (∃ k ∈ s.fragsOf s.cur.core s.cur.wave, k ≠ s.cur.frag ∧ s.runnable (s.mate k) = true) →
      exec (.reconv id) s = .next (s.setFr { s.fr with status := .atReconv id.toNat }))
    ∧ (∀ e r, s.wv.entriesOf s.cur.frag = e :: r → e.parked = none →
      exec (.reconv id) s = .next ((s.setWv { s.wv with
          stack := { num := s.wv.pushes, owner := s.cur.frag, parked := some (id.toNat, s.getS 62), lmask := s.fr.lmask,
                     pc := s.fr.pc, depth := s.fr.depth, mr := s.fr.mr } :: dropTop s.cur.frag s.wv.stack
          pushes := s.wv.pushes + 1 }).setFr
        { s.fr with pc := e.pc, lmask := e.lmask, depth := e.depth, mr := e.mr }))
    ∧ (∀ e e2 r, s.wv.entriesOf s.cur.frag = e :: e2 :: r → e.parked = some (id.toNat, s.getS 62) → e.depth = s.fr.depth →
      e2.parked.isSome →
      exec (.reconv id) s = .next ((s.setWv { s.wv with stack := dropTop s.cur.frag s.wv.stack }).setFr
        { s.fr with lmask := s.fr.lmask ||| e.lmask, pc := s.fr.pc + 4 })))
    ∧ (∀ (s : State) (id : BitVec 8),
    s.wv.entriesOf s.cur.frag = [] → s.inTx = false → s.sameKey id.toNat ≠ [] → s.Alive →
    ∃ t, exec (.reconv id) s = .next t
      ∧ t = { s with frags := t.frags, waves := t.waves, cur := t.cur }
      ∧ t.wv = { s.wv with
          handler := s.wv.handler.map (fun h => if h ∈ s.cur.frag :: s.sameKey id.toNat then t.cur.frag else h) }
      ∧ (∀ k, k ≠ s.cur.waveKey → findAt t.waves k = findAt s.waves k)
      ∧ t.cur = s.mate ((s.sameKey id.toNat).foldl min s.cur.frag)
      ∧ t.fr.lmask = (s.sameKey id.toNat).foldl (fun m k => m ||| (s.frOf (s.mate k)).lmask) s.fr.lmask
      ∧ t.fr.status = .ready ∧ t.fr.pc = (s.frOf t.cur).pc + 4 ∧ t.fr.depth = (s.frOf t.cur).depth
      ∧ (∀ k ∈ s.cur.frag :: s.sameKey id.toNat, s.mate k ≠ t.cur → findAt t.frags (s.mate k).key = none))
    ∧ (∀ (s : State) (core wave : Nat) (fid : Nat → FragId), (∀ k, fid k = { core := core, wave := wave, frag := k }) →
    ((∃ k ∈ s.fragsOf core wave, s.runnable (fid k) = true) → exec (.reconvRelease core wave) s = .next s)
    ∧ ((∀ k ∈ s.fragsOf core wave, s.runnable (fid k) = false) → ∀ k ∈ s.fragsOf core wave, (s.frOf (fid k)).waiting = true →
      (∀ j ∈ s.fragsOf core wave, (s.frOf (fid j)).waiting = true →
        (s.frOf (fid j)).depth.toNat < (s.frOf (fid k)).depth.toNat
          ∨ (s.frOf (fid j)).depth = (s.frOf (fid k)).depth ∧ k ≤ j) →
      exec (.reconvRelease core wave) s
        = .next (s.setFrOf (fid k) { s.frOf (fid k) with status := .ready, pc := (s.frOf (fid k)).pc + 4 })))

/-- R131, R136: `exit` with stack entries goes on with the top one, a parked one after its `reconv`; without one, while the
wave has other fragments, it removes the fragment's row; `exit` of the last fragment ends the wave. `yield` passes and keeps
its wave from issuing for the 16 cycles after the one it issues in, which YIELD_END ends. -/
def Obligations.ExitAndYieldResults : Prop :=
  ∀ (s : State) (f : FragId) (core wave c : Nat), f = { core := core, wave := wave, frag := 0 } →
    (∀ e r, s.inTx = false → s.wv.entriesOf s.cur.frag = e :: r →
      exec .exit s = .next ((s.setWv { s.wv with stack := dropTop s.cur.frag s.wv.stack }).setFr { s.fr with
        pc := if e.parked.isSome then e.pc + 4 else e.pc, lmask := e.lmask, depth := e.depth, mr := e.mr }))
    ∧ (s.inTx = false → s.wv.entriesOf s.cur.frag = [] →
      (∃ k ∈ s.fragsOf s.cur.core s.cur.wave, k ≠ s.cur.frag) →
      exec .exit s = .next { s with frags := dropAt s.frags s.cur.key })
    ∧ (s.inTx = false → s.wv.entriesOf s.cur.frag = [] →
      (∀ k ∈ s.fragsOf s.cur.core s.cur.wave, k = s.cur.frag) →
      exec .exit s = .next (({ s with frags := dropAt s.frags s.cur.key } : State).endWave s.cur))
    ∧ exec .yield s = .next ((s.setWv { s.wv with yieldEnd := some (s.cycle + 17) }).setFr { s.fr with pc := s.fr.pc + 4 })
    ∧ ((s.wvOf f).yieldEnd = some c → c ≤ s.cycle →
      exec (.yieldEnd core wave) s = .next (s.setWvOf f { s.wvOf f with yieldEnd := none }))

/-! ## Traps (R80 to R84, R143 to R149) -/

/-- R143, R145, R73: outside a trap and an attempt, `trap` raises TRAP with TPC the next instruction, a word that is no
instruction raises ILL with TINFO the word, and `brk` without HOLD raises BRK, class 2, with TPC at itself.
R80, R81: after a trap has been taken the fields of TCAUSE and TINFO read back: SMR the MR of the trap, DETAIL, ACTIVE,
CLASS and CAUSE, the reserved bits 0; TINFO the word and the lane.
R84: a cause that arises while a trap is active is not taken in the wave: the fragment is suspended on a record that
carries the cause, and the trap registers are as they were. Stated of `brk`, `trap`, a word that is no instruction, and `rtt`
with a misaligned TPC, whose record carries the target.
R82, R143, R221: a `brk` without HOLD inside an attempt abandons it with status trap, and TPC is the attempt's handler;
the scalars are those of its checkpoint, and no attempt is open afterwards. -/
def Obligations.TakingATrap : Prop :=
  (∀ (s : State) (code : BitVec 6) (word : BitVec 32), s.TrapFree →
    (∃ t, exec (.trap code) s = .next t ∧ s.Trapped t 0x05 0 0 (s.fr.pc + 4) 0 (s.tinfoWord 0))
    ∧ (∃ t, exec (.illegalInstruction word) s = .next t
        ∧ s.Trapped t 0x01 0 0 s.fr.pc 0 (BitVec.ofNat 64 word.toNat))
    ∧ (s.wv.dbgHold = false → ∃ t, exec (.brk code) s = .next t ∧ s.Trapped t 0x06 2 0 s.fr.pc 0 (s.tinfoWord 0))
    ∧ (s.wv.dbgHold = true → ∃ t u, exec (.brk code) s = .next t ∧ s.Trapped u 0x06 2 0 s.fr.pc 0 (s.tinfoWord 0)
        ∧ t = u.placeHold (u.siblings s.cur) s.cur.wave))
    ∧ (∀ (s t : State) (cause cls detail lane : Nat) (tpc taddr : Word),
    cause < 256 → cls < 4 → detail < 256 → lane < 32 → s.Trapped t cause cls detail tpc taddr (s.tinfoWord lane) →
    fieldOf t.wv.tcause 56 32 = s.fr.mr.toNat ∧ fieldOf t.wv.tcause 23 16 = detail ∧ t.wv.active = true
      ∧ fieldOf t.wv.tcause 9 8 = cls ∧ fieldOf t.wv.tcause 7 0 = cause ∧ fieldOf t.wv.tcause 63 57 = 0
      ∧ fieldOf t.wv.tcause 31 24 = 0 ∧ fieldOf t.wv.tcause 14 10 = 0
      ∧ fieldOf t.wv.tinfo 31 0 = s.fr.word.toNat ∧ fieldOf t.wv.tinfo 36 32 = lane ∧ fieldOf t.wv.tinfo 63 37 = 0
      ∧ t.wv.tpc = tpc ∧ t.wv.taddr = taddr ∧ t.fr.mr = 0
      ∧ t.fr.lmask = s.fr.lmask ∧ t.fr.depth = s.fr.depth ∧ t.fr.s = s.fr.s ∧ t.fr.p = s.fr.p
      ∧ t.wv.stack = s.wv.stack ∧ s.MemSame t)
    ∧ (∀ (s : State) (code : BitVec 6) (word : BitVec 32), s.wv.active = true →
    (∃ t r, exec (.brk code) s = .next t ∧ r ∈ t.records ∧ r.cause = 0x06 ∧ s.cur ∈ r.suspended
      ∧ t.fr = { s.fr with status := .suspended r.id }
      ∧ t = { s with records := t.records, frags := t.frags })
    ∧ (∃ t r, exec (.trap code) s = .next t ∧ r ∈ t.records ∧ r.cause = 0x05 ∧ s.cur ∈ r.suspended
      ∧ t.fr = { s.fr with status := .suspended r.id, pc := s.fr.pc + 4 }
      ∧ t = { s with records := t.records, frags := t.frags })
    ∧ (∃ t r, exec (.illegalInstruction word) s = .next t ∧ r ∈ t.records ∧ r.cause = 0x01 ∧ s.cur ∈ r.suspended
      ∧ t.fr = { s.fr with status := .suspended r.id }
      ∧ t = { s with records := t.records, frags := t.frags })
    ∧ (s.wv.tpc.toNat % 4 ≠ 0 → ∃ t r, exec .rtt s = .next t ∧ r ∈ t.records ∧ r.cause = 0x03 ∧ r.va = s.wv.tpc
      ∧ s.cur ∈ r.suspended ∧ t.fr = { s.fr with status := .suspended r.id }
      ∧ t = { s with records := t.records, frags := t.frags }))
    ∧ (∀ (s : State) (code : BitVec 6) (a : Attempt),
    s.wv.active = false → s.wv.tx = some a → a.owner = s.cur.frag → s.wv.rblk = a.checkpoint.rblk → s.wv.dbgHold = false →
    ∃ t, exec (.brk code) s = .next t ∧ t.wv.tx = none ∧ t.wv.tpc = a.handler ∧ t.wv.active = true
      ∧ fieldOf t.wv.tcause 7 0 = 0x06 ∧ fieldOf t.wv.tcause 9 8 = 2 ∧ t.fr.txStatus = 5
      ∧ t.fr.pc = s.wv.tvec + 128 ∧ t.fr.mr = 0 ∧ t.fr.s = a.checkpoint.s ∧ t.fr.p = a.checkpoint.p
      ∧ t.fr.lmask = a.checkpoint.lmask ∧ t.fr.depth = a.checkpoint.depth
      ∧ s.MemSame t)

/-- R145: `rtt` in an active trap with an aligned TPC and no open attempt returns: PC is TPC, MR is TCAUSE.SMR, ACTIVE is
0 and the rest of TCAUSE as it was, no fragment is in its handler, and the holds that the trap placed are released; outside
a trap, `rtt` raises ILL.
R145: a `rtt` after a trap that outside code took gives back its MR and PC: from a state in which a precise trap of class
0 has been taken at an aligned address, `rtt` leaves the fragment as the trap found it.
R148: `frz` outside an attempt completes and holds every wave of its task, itself included; inside an attempt it
abandons it with status unsupported. -/
def Obligations.ReturningFromATrap : Prop :=
  (∀ s : State,
    (s.wv.active = true → s.wv.tpc.toNat % 4 = 0 → s.inTx = false →
      ∃ t u, exec .rtt s = .next t
        ∧ u = (s.setWv { s.wv with tcause := u.wv.tcause, handler := none }).setFr
            { s.fr with pc := s.wv.tpc, mr := BitVec.ofNat 25 (fieldOf s.wv.tcause 56 32) }
        ∧ u.wv.active = false ∧ (∀ i < 64, i ≠ 15 → u.wv.tcause.getLsbD i = s.wv.tcause.getLsbD i)
        ∧ t = u.liftHold (u.siblings s.cur) s.cur.wave)
    ∧ (s.TrapFree → ∃ t, exec .rtt s = .next t ∧ s.Trapped t 0x01 0 0 s.fr.pc 0 (s.tinfoWord 0)))
    ∧ (∀ (s t : State) (cause detail : Nat) (taddr tinfo : Word),
    cause < 256 → detail < 256 → s.inTx = false → s.fr.pc.toNat % 4 = 0 → s.Trapped t cause 0 detail s.fr.pc taddr tinfo →
    ∃ u, exec .rtt t = .next u ∧ u.fr = s.fr ∧ u.wv.active = false ∧ u.wv.handler = none)
    ∧ (∀ s : State,
    (s.attempts = [] → s.inTx = false → (findAt s.waves s.cur.waveKey).isSome → ∃ t, exec .frz s = .next t
      ∧ t.fr = { s.fr with pc := s.fr.pc + 4 } ∧ 64 ∈ t.wv.holds
      ∧ (∀ k ∈ s.siblings s.cur, ∀ w, findAt s.waves k = some w → ∃ w', findAt t.waves k = some w' ∧ 64 ∈ w'.holds)
      ∧ (∀ k, k ≠ s.cur.waveKey → k ∉ s.siblings s.cur → findAt t.waves k = findAt s.waves k))
    ∧ (∀ a, s.wv.tx = some a → a.owner = s.cur.frag → s.wv.rblk = a.checkpoint.rblk →
      ∃ t, exec .frz s = .next t ∧ t.wv.tx = none ∧ t.fr.txStatus = 6 ∧ t.fr.pc = a.handler ∧ s.MemSame t))

/-! ## Special registers and register blocks (R80, R137 to R142) -/

/-- R15, R80, R133, R137, R146, R228: `srd` reads the special registers 0 to 20, each with what its rule gives; one that is read while
matrix instructions or `xop`s of the wave are pending is FSTAT, which waits, so it is stated where none is.
R80, R82, R137: `swr` of MR, FSTAT, TCAUSE, TPC, TADDR, TINFO, DBG, and in the service context TVEC, writes the register
as its rule gives and nothing else but the program counter; TCAUSE keeps ACTIVE.
R74, R80, R84: outside a trap and an attempt, `swr` of a register that is read-only raises ILL; of TVEC in an ordinary
context, PRIV, with the value to be written one that the register accepts; with one that it does not accept, ILL.
What is the model's own in it is in log entry 51. -/
def Obligations.SpecialRegisterResults : Prop :=
  (∀ (s : State) (d idx : BitVec 6) (x : Word),
    s.special idx.toNat = some x → (idx = 9 → s.waveXops s.cur = [] ∧ (s.bank s.cur.core).queue = []) →
    (∃ t, exec (.srd d idx) s = .next t ∧ s.ScalarDone t d x)
    ∧ (idx = 0 → x = BitVec.ofNat 64 s.cur.wave) ∧ (idx = 1 → x = BitVec.ofNat 64 (s.tk.number % 2 ^ 16)) ∧ (idx = 2 → x = BitVec.ofNat 64 s.cur.core)
    ∧ (idx = 3 → x = BitVec.ofNat 64 (s.cur.core / 32)) ∧ (idx = 4 → x = BitVec.ofNat 64 s.chip)
    ∧ (idx = 5 → x = BitVec.ofNat 64 s.seat.slot) ∧ (idx = 6 → x = BitVec.ofNat 64 s.wv.roleClass)
    ∧ (idx = 7 → x = BitVec.ofNat 64 s.fr.lmask.toNat) ∧ (idx = 8 → x = BitVec.ofNat 64 s.fr.mr.toNat)
    ∧ (idx = 9 → x = BitVec.ofNat 64 s.wv.fstat.toNat) ∧ (idx = 10 → x = s.wv.tcause) ∧ (idx = 11 → x = s.wv.tpc)
    ∧ (idx = 12 → x = s.wv.taddr) ∧ (idx = 13 → x = s.wv.tinfo) ∧ (idx = 14 → x = s.wv.tvec)
    ∧ (idx = 15 → x = BitVec.ofNat 64 ((if s.wv.holds = [] then 0 else 4) + (if s.wv.dbgHold then 2 else 0)
        + (if s.wv.dbgSS then 1 else 0)))
    ∧ (idx = 16 → x = BitVec.ofNat 64 s.wv.rblk) ∧ (idx = 17 → x = BitVec.ofNat 64 s.tk.age)
    ∧ (idx = 18 → x = BitVec.ofNat 64 s.fr.depth.toNat) ∧ (idx = 19 → s.FragWordHolds x) ∧ (idx = 20 → s.TxstatHolds x))
    ∧ (∀ (s : State) (a : BitVec 6) (x : Word), x = s.getS a →
    (fieldOf x 63 16 = 0 → fieldOf x 13 11 < 6 →
      exec (.swr a 8) s = .next (s.setFr { s.fr with mr := BitVec.ofNat 25 x.toNat, pc := s.fr.pc + 4 }))
    ∧ (s.waveXops s.cur = [] → (s.bank s.cur.core).queue = [] →
      exec (.swr a 9) s
        = .next ((s.setWv { s.wv with fstat := BitVec.ofNat 5 x.toNat }).setFr { s.fr with pc := s.fr.pc + 4 }))
    ∧ (fieldOf x 63 57 = 0 → fieldOf x 31 24 = 0 → fieldOf x 14 10 = 0 →
      ∃ t, exec (.swr a 10) s = .next t
        ∧ t = (s.setWv { s.wv with tcause := t.wv.tcause }).setFr { s.fr with pc := s.fr.pc + 4 }
        ∧ t.wv.active = s.wv.active ∧ ∀ i < 64, i ≠ 15 → t.wv.tcause.getLsbD i = x.getLsbD i)
    ∧ exec (.swr a 11) s = .next ((s.setWv { s.wv with tpc := x }).setFr { s.fr with pc := s.fr.pc + 4 })
    ∧ exec (.swr a 12) s = .next ((s.setWv { s.wv with taddr := x }).setFr { s.fr with pc := s.fr.pc + 4 })
    ∧ exec (.swr a 13) s = .next ((s.setWv { s.wv with tinfo := x }).setFr { s.fr with pc := s.fr.pc + 4 })
    ∧ (s.ctxId = 0 → fieldOf x 63 49 = 0 → fieldOf x 7 0 = 0 →
      exec (.swr a 14) s = .next ((s.setWv { s.wv with tvec := x }).setFr { s.fr with pc := s.fr.pc + 4 }))
    ∧ (fieldOf x 63 3 = 0 →
      exec (.swr a 15) s = .next ((s.setWv { s.wv with dbgHold := x.getLsbD 1, dbgSS := x.getLsbD 0 }).setFr
        { s.fr with pc := s.fr.pc + 4 })))
    ∧ (∀ (s : State) (a idx : BitVec 6), s.TrapFree →
    (idx.toNat ≤ 7 ∨ 16 ≤ idx.toNat →
      ∃ t, exec (.swr a idx) s = .next t ∧ s.Trapped t 0x01 0 0 s.fr.pc 0 (s.tinfoWord 0))
    ∧ (s.ctxId ≠ 0 → fieldOf (s.getS a) 63 49 = 0 → fieldOf (s.getS a) 7 0 = 0 →
      ∃ t, exec (.swr a 14) s = .next t ∧ s.Trapped t 0x02 0 0 s.fr.pc 0 (s.tinfoWord 0))
    ∧ (fieldOf (s.getS a) 63 49 ≠ 0 ∨ fieldOf (s.getS a) 7 0 ≠ 0 →
      ∃ t, exec (.swr a 14) s = .next t ∧ s.Trapped t 0x01 0 0 s.fr.pc 0 (s.tinfoWord 0))
    ∧ (21 ≤ idx.toNat → ∃ t, exec (.srd a idx) s = .next t ∧ s.Trapped t 0x01 0 0 s.fr.pc 0 (s.tinfoWord 0)))

/-- R140: `racq` and `racq.e` of a wave with one fragment and no stack entry take n blocks where enough are free, ordinary
ones first and for the oldest task of `racq.e` the reserve; the blocks read as zero and s[d] and RBLK rise; where too few are
free and no attempt is open nothing is taken and s[d] is 0; past 16 blocks RBLK is raised with detail 1, and with several
fragments with detail 3.
R141: `rrel` of fewer blocks than the wave holds gives them back, to the reserve while it holds fewer than 16 and then to
the free pool; of as many or more it raises RBLK with detail 2. Stated where no block is retired and no attempt is open. -/
def Obligations.RegisterBlockResults : Prop :=
  (∀ (s : State) (d : BitVec 6) (n : BitVec 5) (e : Bool) (i : Instr),
    i = (if e then Instr.racqE d n else Instr.racq d n) →
    (s.splitWave = false → s.wv.rblk + n.toNat ≤ 16 →
      n.toNat ≤ (s.coreOf s.cur.core).freeBlocks + (if e && s.oldestTask then (s.coreOf s.cur.core).reserve else 0) →
      ∃ t, exec i s = .next t
        ∧ t = { s with cores := t.cores, waves := t.waves, frags := t.frags }
        ∧ t.getS d = (if d = 0 then 0 else BitVec.ofNat 64 (s.wv.rblk + n.toNat)) ∧ s.fr.OnlyScalar t.fr d
        ∧ t.fr.pc = s.fr.pc + 4
        ∧ t.wv = { s.wv with rblk := s.wv.rblk + n.toNat, v := t.wv.v }
        ∧ (∀ r : BitVec 7, t.getV r = if 8 * s.wv.rblk ≤ r.toNat ∧ r.toNat < 8 * (s.wv.rblk + n.toNat) then zeroReg
            else s.getV r)
        ∧ (t.coreOf s.cur.core).freeBlocks = (s.coreOf s.cur.core).freeBlocks - n.toNat
        ∧ (t.coreOf s.cur.core).freeBlocks + (t.coreOf s.cur.core).reserve + n.toNat
            = (s.coreOf s.cur.core).freeBlocks + (s.coreOf s.cur.core).reserve)
    ∧ (s.splitWave = false → s.wv.rblk + n.toNat ≤ 16 → s.inTx = false →
      (s.coreOf s.cur.core).freeBlocks + (if e && s.oldestTask then (s.coreOf s.cur.core).reserve else 0) < n.toNat →
      ∃ t, exec i s = .next t ∧ s.ScalarDone t d 0)
    ∧ (s.splitWave = false → 16 < s.wv.rblk + n.toNat → s.TrapFree →
      ∃ t, exec i s = .next t ∧ s.Trapped t 0x08 0 1 s.fr.pc 0 (s.tinfoWord 0))
    ∧ (s.splitWave = true → s.TrapFree →
      ∃ t, exec i s = .next t ∧ s.Trapped t 0x08 0 3 s.fr.pc 0 (s.tinfoWord 0)))
    ∧ (∀ (s : State) (n : BitVec 5), s.splitWave = false →
    (s.attempts = [] → s.inTx = false → 0 < n.toNat → n.toNat < s.wv.rblk → (s.coreOf s.cur.core).owed = 0 →
      ∃ t, exec (.rrel n) s = .next t
        ∧ t = { s with cores := t.cores, waves := t.waves, frags := t.frags, notices := t.notices }
        ∧ t.wv = { s.wv with rblk := s.wv.rblk - n.toNat } ∧ t.fr = { s.fr with pc := s.fr.pc + 4 }
        ∧ (t.coreOf s.cur.core).reserve
            = (s.coreOf s.cur.core).reserve + min n.toNat (16 - (s.coreOf s.cur.core).reserve)
        ∧ (t.coreOf s.cur.core).freeBlocks + (t.coreOf s.cur.core).reserve
            = (s.coreOf s.cur.core).freeBlocks + (s.coreOf s.cur.core).reserve + n.toNat)
    ∧ (s.wv.rblk ≤ n.toNat → s.TrapFree →
      ∃ t, exec (.rrel n) s = .next t ∧ s.Trapped t 0x08 0 2 s.fr.pc 0 (s.tinfoWord 0)))

/-! ## Vector instructions (R154 to R175) -/

/-- R42: an exact integer result is reduced to its low bits, or with MR.sat to the nearest end of the type's range.
R42, R43, R158: the integer operations of the vint group, element by element, in every guarded lane.
R159: the integer compares set the bit of a guarded lane where the relation holds of any of its elements. -/
def Obligations.IntegerVectorAndCompareResults : Prop :=
  (∀ (e : EType) (x : Int), e.isInt = true →
    ((reduceInt e false x : Int) = x % 2 ^ e.width)
    ∧ (e = .i32 ∨ e = .i16 ∨ e = .i8 →
      intOf e (reduceInt e true x) = max (-(2 ^ (e.width - 1))) (min (2 ^ (e.width - 1) - 1) x))
    ∧ (e = .n32 ∨ e = .n16 ∨ e = .n8 → intOf e (reduceInt e true x) = max 0 (min (2 ^ e.width - 1) x)))
    ∧ (∀ (s : State) (d a b : BitVec 7),
    s.IntDone (.vadd d a b) d a b (fun e x y _ => if s.sat then max (intMin e) (min (intMax e) (x + y)) else x + y)
    ∧ s.IntDone (.vsub d a b) d a b (fun e x y _ => if s.sat then max (intMin e) (min (intMax e) (x - y)) else x - y)
    ∧ s.IntDone (.vmul d a b) d a b (fun e x y _ => if s.sat then max (intMin e) (min (intMax e) (x * y)) else x * y)
    ∧ s.IntDone (.vmulh d a b) d a b (fun e x y _ => x * y / 2 ^ e.width)
    ∧ s.IntDone (.vmad d a b) d a b
        (fun e x y z => if s.sat then max (intMin e) (min (intMax e) (z + x * y)) else z + x * y)
    ∧ s.IntDone (.vmin d a b) d a b (fun _ x y _ => min x y)
    ∧ s.IntDone (.vmax d a b) d a b (fun _ x y _ => max x y)
    ∧ s.IntDone (.vabsd d a b) d a b (fun _ x y _ => |x - y|)
    ∧ s.IntDone (.vavg d a b) d a b (fun _ x y _ => (x + y + 1) / 2))
    ∧ (∀ (s : State) (d : BitVec 3) (a b : BitVec 7),
    s.IntCompared (.vcmpeq d a b) d a b (· = ·) ∧ s.IntCompared (.vcmpne d a b) d a b (· ≠ ·)
    ∧ s.IntCompared (.vcmplt d a b) d a b (· < ·) ∧ s.IntCompared (.vcmple d a b) d a b (· ≤ ·)
    ∧ s.IntCompared (.vcmpgt d a b) d a b (· > ·) ∧ s.IntCompared (.vcmpge d a b) d a b (· ≥ ·))

/-- R43, R158: shifts and rotations, whose count is the count element modulo the width; `vshl` saturates with MR.sat. -/
def Obligations.VectorShiftResults : Prop :=
  ∀ (s : State) (d a b : BitVec 7),
    s.BitsDone (.vshl d a b) d a b (fun e x y => wrapTo e.width (if s.sat then
        max (intMin e) (min (intMax e) (intOf e x * 2 ^ (y % e.width))) else intOf e x * 2 ^ (y % e.width)))
    ∧ s.BitsDone (.vshr d a b) d a b (fun e x y => x / 2 ^ (y % e.width))
    ∧ s.BitsDone (.vsra d a b) d a b (fun e x y => wrapTo e.width (signedOf e.width x / 2 ^ (y % e.width)))
    ∧ s.BitsDone (.vrot d a b) d a b
        (fun e x y => (x * 2 ^ (y % e.width) + x / 2 ^ (e.width - y % e.width)) % 2 ^ e.width)
    ∧ s.BitsDone (.vpopc d a) d a a (fun e x _ => (List.range e.width).countP (fun i => x.testBit i))
    ∧ s.BitsDone (.vclz d a) d a a (fun e x _ => e.width - x.size)

/-- R158, R160, R164: the operations on whole lanes, and `vdot4`, which adds four products of 8-bit elements to the lane of d
read as i32 or n32 and reduces once. -/
def Obligations.WholeLaneResults : Prop :=
  ∀ (s : State) (d a b : BitVec 7) (e w : EType),
    s.LaneDone (.vand d a b) d a b (fun x y _ => x &&& y)
    ∧ s.LaneDone (.vor d a b) d a b (fun x y _ => x ||| y)
    ∧ s.LaneDone (.vxor d a b) d a b (fun x y _ => x ^^^ y)
    ∧ s.LaneDone (.vandn d a b) d a b (fun x y _ => x &&& ~~~y)
    ∧ s.LaneDone (.vsel d a b) d a b (fun x y z => (x &&& z) ||| (y &&& ~~~z))
    ∧ s.LaneDone (.vmov d a) d a a (fun x _ _ => x)
    ∧ s.LaneDone (.vnot d a) d a a (fun x _ _ => ~~~x)
    ∧ (s.HoldsRegs [d, a, b] → etypeOf s.etypeCode = some e → e = .i8 ∧ w = .i32 ∨ e = .n8 ∧ w = .n32 →
      ∃ t, exec (.vdot4 d a b) s = .next t ∧ s.VectorDone t d (fun l => (BitVec.ofNat 32 (reduceInt w s.sat
        (intOf w (laneOf (s.getV d) l).toNat
          + intOf e (elemOf 8 (laneOf (s.getV a) l) 0) * intOf e (elemOf 8 (laneOf (s.getV b) l) 0)
          + intOf e (elemOf 8 (laneOf (s.getV a) l) 1) * intOf e (elemOf 8 (laneOf (s.getV b) l) 1)
          + intOf e (elemOf 8 (laneOf (s.getV a) l) 2) * intOf e (elemOf 8 (laneOf (s.getV b) l) 2)
          + intOf e (elemOf 8 (laneOf (s.getV a) l) 3) * intOf e (elemOf 8 (laneOf (s.getV b) l) 3))), 0)))

/-- R47 to R51, R161 to R163, R166: the float operations and compares, element by element in every guarded lane, with their
flags ORed into FSTAT; R164, R165: `vneg`, `vabs` and `vbrev`.
R48: a NaN operand of a sum, difference or product gives the default NaN, and raises invalid where it is signalling; ∞ − ∞
and 0 × ∞ give it and raise invalid. -/
def Obligations.FloatVectorAndNaNResults : Prop :=
  (∀ (s : State) (d a b : BitVec 7) (p : BitVec 3),
    s.FloatDone (.vfadd d a b) d a b (fun fb r x y _ => fAdd fb r x y)
    ∧ s.FloatDone (.vfsub d a b) d a b (fun fb r x y _ => fSub fb r x y)
    ∧ s.FloatDone (.vfmul d a b) d a b (fun fb r x y _ => fMul fb r x y)
    ∧ s.FloatDone (.vfma d a b) d a b (fun fb r x y z => fFma fb r false false x y z)
    ∧ s.FloatDone (.vfms d a b) d a b (fun fb r x y z => fFma fb r false true x y z)
    ∧ s.FloatDone (.vfnma d a b) d a b (fun fb r x y z => fFma fb r true false x y z)
    ∧ s.FloatDone (.vfmin d a b) d a b (fun fb _ x y _ => fMin fb x y)
    ∧ s.FloatDone (.vfmax d a b) d a b (fun fb _ x y _ => fMax fb x y)
    ∧ s.FloatDone (.vfscal d a b) d a b (fun fb r x y _ => fScale fb r x (signedOf (fb + 9) y))
    ∧ s.FloatDone (.vfcls d a) d a a (fun fb _ x _ _ => (fClass fb x, 0))
    ∧ s.FloatDone (.vfrcp d a) d a a (fun fb r x _ _ => fRcp fb r x)
    ∧ s.FloatDone (.vfrsq d a) d a a (fun fb r x _ _ => fRsq fb r x)
    ∧ s.FloatDone (.vfexp2 d a) d a a (fun fb r x _ _ => fExp2 fb r x)
    ∧ s.FloatDone (.vflog2 d a) d a a (fun fb r x _ _ => fLog2 fb r x)
    ∧ s.FloatDone (.vneg d a) d a a (fun fb _ x _ _ => fNeg fb x)
    ∧ s.FloatDone (.vabs d a) d a a (fun fb _ x _ _ => fAbs fb x)
    ∧ s.FloatCompared (.vfcmpeq p a b) p a b fEq ∧ s.FloatCompared (.vfcmplt p a b) p a b fLt
    ∧ s.FloatCompared (.vfcmple p a b) p a b fLe ∧ s.FloatCompared (.vfcmpun p a b) p a b fUn
    ∧ s.IntDone (.vneg d a) d a a (fun e x _ _ => if s.sat then max (intMin e) (min (intMax e) (-x)) else -x)
    ∧ s.IntDone (.vabs d a) d a a (fun e x _ _ => if s.sat then max (intMin e) (min (intMax e) |x|) else |x|)
    ∧ (∀ e, s.HoldsRegs [d, a] → etypeOf s.etypeCode = some e → ∃ t, exec (.vbrev d a) s = .next t
        ∧ s.VectorDone t d (fun l => (packLane e.width (fun k =>
            reverseBits e.width (elemOf e.width (laneOf (s.getV a) l) k)), 0))))
    ∧ (∀ (fb x y : Nat) (r : Rounding) (n m : Bool), fb = 23 ∨ fb = 7 →
    ((unpackFloat fb x).isNaN = true ∨ (unpackFloat fb y).isNaN = true →
      (fAdd fb r x y).1 = defaultNaN fb ∧ (fSub fb r x y).1 = defaultNaN fb ∧ (fMul fb r x y).1 = defaultNaN fb
      ∧ (fAdd fb r x y).2 = (if (unpackFloat fb x).isSignalling || (unpackFloat fb y).isSignalling then flagNV else 0)
      ∧ (fMul fb r x y).2 = (if (unpackFloat fb x).isSignalling || (unpackFloat fb y).isSignalling then flagNV else 0))
    ∧ fAdd fb r (infFloat fb n) (infFloat fb (!n)) = (defaultNaN fb, flagNV)
    ∧ fSub fb r (infFloat fb n) (infFloat fb n) = (defaultNaN fb, flagNV)
    ∧ fMul fb r (signBit fb m) (infFloat fb n) = (defaultNaN fb, flagNV)
    ∧ fMul fb r (infFloat fb n) (signBit fb m) = (defaultNaN fb, flagNV))

/-- R50: float minimum and maximum return the operand that is no NaN when one is, the default NaN when both are, order −0 below
+0, and raise invalid for a signalling NaN alone. -/
def Obligations.FloatMinimumMaximum : Prop :=
  ∀ (fb x y : Nat) (isNaN signalling : Nat → Bool), fb = 23 ∨ fb = 7 → x < 2 ^ (fb + 9) → y < 2 ^ (fb + 9) →
    (∀ v, isNaN v = decide (v / 2 ^ fb % 256 = 255 ∧ v % 2 ^ fb ≠ 0)) →
    (∀ v, signalling v = (isNaN v && !v.testBit (fb - 1))) →
    (isNaN x = true → isNaN y = false → (fMin fb x y).1 = y ∧ (fMax fb x y).1 = y)
    ∧ (isNaN x = false → isNaN y = true → (fMin fb x y).1 = x ∧ (fMax fb x y).1 = x)
    ∧ (isNaN x = true → isNaN y = true → (fMin fb x y).1 = 255 * 2 ^ fb + 2 ^ (fb - 1)
        ∧ (fMax fb x y).1 = 255 * 2 ^ fb + 2 ^ (fb - 1))
    ∧ (fMin fb (2 ^ (fb + 8)) 0).1 = 2 ^ (fb + 8) ∧ (fMin fb 0 (2 ^ (fb + 8))).1 = 2 ^ (fb + 8)
    ∧ (fMax fb (2 ^ (fb + 8)) 0).1 = 0 ∧ (fMax fb 0 (2 ^ (fb + 8))).1 = 0
    ∧ (fMin fb x y).2 = (if signalling x || signalling y then 1 else 0)
    ∧ (fMax fb x y).2 = (if signalling x || signalling y then 1 else 0)

/-- R167, R168, R169: `vcvt` of a type pair it accepts, `vbcst`, `vins`, `vextr`, `vlaneid`, and the lane permutes, which keep
a lane whose source lies outside 0 to 31.
R61, R170 to R175: the byte lookup and slide, reductions and prefix sums by ReduceTree, the ballot, and compress and
expand. -/
def Obligations.MoveAndCrossLaneResults : Prop :=
  (∀ (s : State) (d a b : BitVec 7) (r : BitVec 6) (lane : BitVec 5) (part : BitVec 3) (ty : BitVec 4) (src dst : EType),
    (s.HoldsRegs [d, a] → etypeOf s.etypeCode = some src → etypeOf ty.toNat = some dst →
      cvtRefused src dst part.toNat = false → ∃ t, exec (.vcvt d a part ty) s = .next t
        ∧ s.VectorDone t d (fun l => cvtLane src dst s.rounding s.sat part.toNat (laneOf (s.getV a) l) (laneOf (s.getV d) l)))
    ∧ (s.HoldsRegs [d] → ∃ t, exec (.vbcst d r) s = .next t
        ∧ s.VectorDone t d (fun _ => (BitVec.ofNat 32 (s.getS r).toNat, 0)))
    ∧ (s.HoldsRegs [d] → ∃ t, exec (.vins d r lane) s = .next t ∧ s.VectorDone t d (fun l =>
        (if l = lane.toNat then BitVec.ofNat 32 (s.getS r).toNat else laneOf (s.getV d) l, 0)))
    ∧ (s.HoldsRegs [a] → ∃ t, exec (.vextr r a lane) s = .next t
        ∧ s.ScalarDone t r (BitVec.ofNat 64 (laneOf (s.getV a) lane.toNat).toNat))
    ∧ (s.HoldsRegs [d] → ∃ t, exec (.vlaneid d) s = .next t ∧ s.VectorDone t d (fun l => (BitVec.ofNat 32 l, 0)))
    ∧ (s.HoldsRegs [d, a, b] → ∃ t, exec (.vperm d a b) s = .next t ∧ s.VectorDone t d (fun l =>
        (laneOf (s.getV a) ((laneOf (s.getV b) l).toNat % 32), 0)))
    ∧ (s.HoldsRegs [d, a, b] → ∃ t, exec (.vshflu d a b) s = .next t ∧ s.VectorDone t d (fun l =>
        (if (laneOf (s.getV b) l).toNat % 64 ≤ l then laneOf (s.getV a) (l - (laneOf (s.getV b) l).toNat % 64)
          else laneOf (s.getV d) l, 0)))
    ∧ (s.HoldsRegs [d, a, b] → ∃ t, exec (.vshfld d a b) s = .next t ∧ s.VectorDone t d (fun l =>
        (if l + (laneOf (s.getV b) l).toNat % 64 ≤ 31 then laneOf (s.getV a) (l + (laneOf (s.getV b) l).toNat % 64)
          else laneOf (s.getV d) l, 0)))
    ∧ (s.HoldsRegs [d, a, b] → ∃ t, exec (.vshflx d a b) s = .next t ∧ ∃ f : Nat → Lane,
        (∀ l < 32, f l = laneOf (s.getV a) (l ^^^ (laneOf (s.getV b) l).toNat % 32)) ∧ s.VectorDone t d (fun l => (f l, 0))))
    ∧ (∀ (s : State) (d a b n : BitVec 7) (e : EType),
    (s.HoldsRegs [d, a, b] → ∃ t, exec (.vbperm d a b) s = .next t ∧ s.VectorDone t d (fun l => (packLane 8 (fun j =>
        if 128 ≤ elemOf 8 (laneOf (s.getV b) l) j then 0 else byteOf (s.getV a) (elemOf 8 (laneOf (s.getV b) l) j % 16)), 0)))
    ∧ (s.HoldsRegs [d, a] → ∃ t, exec (.vslide d a n) s = .next t ∧ s.VectorDone t d (fun l => (packLane 8 (fun j =>
        if 4 * l + j < n.toNat then byteOf (s.getV d) (128 - n.toNat + (4 * l + j))
          else byteOf (s.getV a) (4 * l + j - n.toNat)), 0)))
    ∧ (s.HoldsRegs [d, a] → ∃ t m, exec (.vballot d a) s = .next t
        ∧ (∀ l < 32, m.getLsbD l = (s.guarded.contains l && laneOf (s.getV a) l != 0)) ∧ s.VectorDone t d (fun _ => (m, 0)))
    ∧ (s.HoldsRegs [d, a] → etypeOf s.etypeCode = some e → e.isInt = true ∨ e.isFloat = true →
      (∀ op i, i = Instr.vredadd d a ∧ op = .add ∨ i = Instr.vredmin d a ∧ op = .min ∨ i = Instr.vredmax d a ∧ op = .max →
        ∃ t, exec i s = .next t ∧ s.VectorDone t d (fun _ =>
          (packLane e.width (fun _ => (reduceAll e op s.rounding s.sat (positions (s.getV a) e.width s.guarded 1024)).1.getD
            (reduceIdentity e op)),
           (reduceAll e op s.rounding s.sat (positions (s.getV a) e.width s.guarded 1024)).2)))
      ∧ ∃ t, exec (.vscan d a) s = .next t ∧ s.VectorDone t d (fun l => mapLane e.width (fun k =>
          ((reduceAll e .add s.rounding s.sat (positions (s.getV a) e.width s.guarded (l * (32 / e.width) + k + 1))).1.getD 0,
           (reduceAll e .add s.rounding s.sat (positions (s.getV a) e.width s.guarded (l * (32 / e.width) + k + 1))).2))))
    ∧ (s.HoldsRegs [d, a] → ∃ t, exec (.vcmprs d a) s = .next t ∧ s.OnlyWave t ∧ t.fr = { s.fr with pc := s.fr.pc + 4 }
        ∧ s.wv.OnlyVector t.wv d 0
        ∧ (∀ k < s.guarded.length, laneOf (t.getV d) ((lanesOf s.fr.lmask).getD k 0)
            = laneOf (s.getV a) (s.guarded.getD k 0))
        ∧ ∀ l < 32, l ∉ (lanesOf s.fr.lmask).take s.guarded.length → laneOf (t.getV d) l = laneOf (s.getV d) l)
    ∧ (s.HoldsRegs [d, a] → ∃ t, exec (.vexpnd d a) s = .next t ∧ s.OnlyWave t ∧ t.fr = { s.fr with pc := s.fr.pc + 4 }
        ∧ s.wv.OnlyVector t.wv d 0
        ∧ (∀ k < s.guarded.length, laneOf (t.getV d) (s.guarded.getD k 0)
            = laneOf (s.getV a) ((lanesOf s.fr.lmask).getD k 0))
        ∧ ∀ l < 32, l ∉ s.guarded → laneOf (t.getV d) l = laneOf (s.getV d) l))

/-- R41, R72, R84: a vector instruction that names a register outside the wave's blocks raises REG_RANGE, and with its registers
held and a type it does not list raises TYPE, outside a trap and an attempt and before any other effect; `vcvt` raises TYPE too for
the type pairs and parts that R167 refuses. -/
def Obligations.VectorRangeAndTypeTraps : Prop :=
  ∀ (s : State) (d a b : BitVec 7) (p : BitVec 3) (r : BitVec 6) (lane : BitVec 5) (part : BitVec 3) (ty : BitVec 4),
    (∀ i ∈ [Instr.vadd d a b, .vsub d a b, .vmul d a b, .vmulh d a b, .vmad d a b, .vmin d a b, .vmax d a b, .vshl d a b,
        .vshr d a b, .vsra d a b, .vrot d a b, .vabsd d a b, .vavg d a b],
      s.RangeTraps i [d, a, b] ∧ s.TypeTraps i [d, a, b] EType.isInt)
    ∧ (∀ i ∈ [Instr.vand d a b, .vor d a b, .vxor d a b, .vandn d a b, .vsel d a b, .vperm d a b, .vbperm d a b,
        .vshflu d a b, .vshfld d a b, .vshflx d a b], s.RangeTraps i [d, a, b])
    ∧ (s.RangeTraps (.vdot4 d a b) [d, a, b] ∧ s.TypeTraps (.vdot4 d a b) [d, a, b] (fun e => e == .i8 || e == .n8))
    ∧ (∀ i ∈ [Instr.vcmpeq p a b, .vcmpne p a b, .vcmplt p a b, .vcmple p a b, .vcmpgt p a b, .vcmpge p a b],
      s.RangeTraps i [a, b] ∧ s.TypeTraps i [a, b] EType.isInt)
    ∧ (∀ i ∈ [Instr.vfadd d a b, .vfsub d a b, .vfmul d a b, .vfma d a b, .vfms d a b, .vfnma d a b, .vfmin d a b,
        .vfmax d a b, .vfscal d a b], s.RangeTraps i [d, a, b] ∧ s.TypeTraps i [d, a, b] EType.isFloat)
    ∧ (∀ i ∈ [Instr.vfcmpeq p a b, .vfcmplt p a b, .vfcmple p a b, .vfcmpun p a b],
      s.RangeTraps i [a, b] ∧ s.TypeTraps i [a, b] EType.isFloat)
    ∧ (∀ i ∈ [Instr.vfcls d a, .vfrcp d a, .vfrsq d a, .vfexp2 d a, .vflog2 d a],
      s.RangeTraps i [d, a] ∧ s.TypeTraps i [d, a] EType.isFloat)
    ∧ (∀ i ∈ [Instr.vpopc d a, .vclz d a], s.RangeTraps i [d, a] ∧ s.TypeTraps i [d, a] EType.isInt)
    ∧ (∀ i ∈ [Instr.vbrev d a, .vcvt d a part ty], s.RangeTraps i [d, a] ∧ s.TypeTraps i [d, a] (fun _ => true))
    ∧ (∀ src dst : EType, s.TrapFree → s.HoldsRegs [d, a] → etypeOf s.etypeCode = some src → etypeOf ty.toNat = some dst →
      src = .b1 ∧ 16 ≤ dst.width ∨ dst = .b1 ∧ 16 ≤ src.width
        ∨ max (32 / src.width) (32 / dst.width) / min (32 / src.width) (32 / dst.width) ≤ part.toNat →
      ∃ t, exec (.vcvt d a part ty) s = .next t ∧ s.Trapped t 0x10 0 0 s.fr.pc 0 (s.tinfoWord 0))
    ∧ (∀ i ∈ [Instr.vmov d a, .vnot d a, .vballot d a, .vcmprs d a, .vexpnd d a, .vslide d a b], s.RangeTraps i [d, a])
    ∧ (∀ i ∈ [Instr.vbcst d r, .vins d r lane], s.RangeTraps i [d]) ∧ s.RangeTraps (.vextr r a lane) [a]
    ∧ (∀ i ∈ [Instr.vredadd d a, .vredmin d a, .vredmax d a, .vscan d a, .vneg d a, .vabs d a],
      s.RangeTraps i [d, a] ∧ s.TypeTraps i [d, a] (fun e => e.isInt || e.isFloat))
    ∧ s.RangeTraps (.vlaneid d) [d]

/-! ## Loads, stores and atomics (R176 to R185) -/

/-- R178 to R180, R195: where nothing stands in the way, the loads of 8 and 4 bytes, of a sector, of a word for each guarded
lane, and of a segment of a tile give the bytes of memory at their addresses, little-endian and zero-extended; nothing but
the destination and the program counter differs. -/
def Obligations.LoadResults : Prop :=
  ∀ (s : State) (d b t' sb : BitVec 6) (v x : BitVec 7) (imm : BitVec 12) (p : Place), s.Clear →
    ((s.baseAddr b imm 8).toNat % 8 = 0 → s.Reaches (s.baseAddr b imm 8) .read p (placesFrom p 8) →
      ∃ t, exec (.sld d b imm) s = .next t
        ∧ s.ScalarDone t d (BitVec.ofNat 64 (ofBytes ((placesFrom p 8).map s.mem.readByte))))
    ∧ ((s.baseAddr b imm 4).toNat % 4 = 0 → s.Reaches (s.baseAddr b imm 4) .read p (placesFrom p 4) →
      ∃ t, exec (.sldw d b imm) s = .next t
        ∧ s.ScalarDone t d (BitVec.ofNat 64 (ofBytes ((placesFrom p 4).map s.mem.readByte))))
    ∧ (s.HoldsRegs [v] → (s.baseAddr b imm 128).toNat % 128 = 0 →
      s.Reaches (s.baseAddr b imm 128) .read p (lanePlaces p s.guarded (4 * ·)) →
      ∃ t, exec (.vld v b imm) s = .next t ∧ s.VectorDone t v (fun l =>
        (BitVec.ofNat 32 (ofBytes ((placesFrom (p.plus (4 * l)) 4).map s.mem.readByte)), 0)))
    ∧ (∀ pl : Nat → Place, s.HoldsRegs [v, x] → (∀ l ∈ s.guarded, (s.laneAddr b x l).toNat % 4 = 0
        ∧ s.Reaches (s.laneAddr b x l) .read (pl l) (placesFrom (pl l) 4)) →
      ∃ t, exec (.vldx v b x) s = .next t ∧ s.VectorDone t v (fun l =>
        (BitVec.ofNat 32 (ofBytes ((placesFrom (pl l) 4).map s.mem.readByte)), 0)))
    ∧ (∀ (e : TileEntry) (q : Word × (Nat → Nat)), e = s.tileAt t'.toNat →
      q = e.segment (fieldOf (s.getS sb) 11 0) (fieldOf (s.getS sb) 26 12) →
      s.HoldsRegs [v] → t'.toNat < s.seat.partSize → e.segmentOk (s.getS sb) 63 = true → e.state = 2 ∨ e.state = 3 →
      (e.stampV = false ∨ e.stamp = e.span) → s.Reaches q.1 .read p (lanePlaces p s.guarded q.2) →
      ∃ t, exec (.tld v t' sb) s = .next t ∧ s.VectorDone t v (fun l =>
        (BitVec.ofNat 32 (ofBytes ((placesFrom (p.plus (q.2 l)) 4).map s.mem.readByte)), 0)))

/-- R178 to R180, R195: where nothing stands in the way, the stores of 8 and 4 bytes, of a sector's guarded lanes, of a word for
each guarded lane in ascending order, and of a segment of a tile put their bytes at the addresses they compute and leave
every other byte of memory and every register as it was; `tst` with FINAL makes the tile ready, where no other such store of the
tile is still on its way. -/
def Obligations.StoreResults : Prop :=
  ∀ (s : State) (d b t' sb : BitVec 6) (v x : BitVec 7) (imm : BitVec 12) (p : Place), s.Clear →
    ((s.baseAddr b imm 8).toNat % 8 = 0 → s.Reaches (s.baseAddr b imm 8) .write p (placesFrom p 8) →
      ∃ t, exec (.sst d b imm) s = .next t ∧ s.StoreDone t ((placesFrom p 8).zip (toBytes 8 (s.getS d).toNat)))
    ∧ ((s.baseAddr b imm 4).toNat % 4 = 0 → s.Reaches (s.baseAddr b imm 4) .write p (placesFrom p 4) →
      ∃ t, exec (.sstw d b imm) s = .next t ∧ s.StoreDone t ((placesFrom p 4).zip (toBytes 4 (s.getS d).toNat)))
    ∧ (s.HoldsRegs [v] → (s.baseAddr b imm 128).toNat % 128 = 0 →
      s.Reaches (s.baseAddr b imm 128) .write p (lanePlaces p s.guarded (4 * ·)) →
      ∃ t, exec (.vst v b imm) s = .next t ∧ s.StoreDone t (laneData p s.guarded (4 * ·) (s.getV v)))
    ∧ (∀ pl : Nat → Place, s.HoldsRegs [v, x] → (∀ l ∈ s.guarded, (s.laneAddr b x l).toNat % 4 = 0
        ∧ s.Reaches (s.laneAddr b x l) .write (pl l) (placesFrom (pl l) 4)) →
      ∃ t, exec (.vstx v b x) s = .next t ∧ s.StoreDone t (s.guarded.flatMap (fun l =>
          (placesFrom (pl l) 4).zip (toBytes 4 (laneOf (s.getV v) l).toNat))))
    ∧ (∀ (e : TileEntry) (q : Word × (Nat → Nat)), e = s.tileAt t'.toNat →
      q = e.segment (fieldOf (s.getS sb) 11 0) (fieldOf (s.getS sb) 26 12) →
      s.HoldsRegs [v] → t'.toNat < s.seat.partSize → e.segmentOk (s.getS sb) 62 = true → e.state = 1 →
      s.Reaches q.1 .write p (lanePlaces p s.guarded q.2) →
      ((s.getS sb).getLsbD 63 = false → ∃ t, exec (.tst v t' sb) s = .next t
        ∧ s.StoreDone t (laneData p s.guarded q.2 (s.getV v)))
      ∧ ((s.getS sb).getLsbD 63 = true → e.pendingEmpty = false → e.finalDue = false → ∃ t,
        exec (.tst v t' sb) s = .next t
        ∧ s.StoreDone { t with tiles := s.tiles } (laneData p s.guarded q.2 (s.getV v))
        ∧ t.tileAt t'.toNat = { e with stamp := e.span, stampV := true, state := 2 }))

/-- R176, R178 to R180, R183, R185: a load, store or atomic whose address is not aligned to its size raises MISALIGN with TADDR
the address and TINFO the lowest such lane, outside a trap and an attempt; of a vector form only where a lane is guarded.
R181, R201: a scalar load, store or atomic whose aligned address fails its translation, outside an attempt, suspends the
fragment at the instruction on a record of the context, access kind and page that failed, with the cause and detail unless it
joins one that is there; no register and no byte of memory changes.
What is the model's own in it is in log entry 69. -/
def Obligations.AddressChecks : Prop :=
  (∀ (s : State) (d b : BitVec 6) (v x : BitVec 7) (imm : BitVec 12) (w : BitVec 1) (l : Nat), s.TrapFree →
    ((s.baseAddr b imm 8).toNat % 8 ≠ 0 → ∀ i ∈ [Instr.sld d b imm, .sst d b imm],
      ∃ t, exec i s = .next t ∧ s.Trapped t 0x22 0 0 s.fr.pc (s.baseAddr b imm 8) (s.tinfoWord 0))
    ∧ ((s.baseAddr b imm 4).toNat % 4 ≠ 0 → ∀ i ∈ [Instr.sldw d b imm, .sstw d b imm],
      ∃ t, exec i s = .next t ∧ s.Trapped t 0x22 0 0 s.fr.pc (s.baseAddr b imm 4) (s.tinfoWord 0))
    ∧ (s.HoldsRegs [v] → s.guarded ≠ [] → (s.baseAddr b imm 128).toNat % 128 ≠ 0 →
      ∀ i ∈ [Instr.vld v b imm, .vst v b imm],
      ∃ t, exec i s = .next t ∧ s.Trapped t 0x22 0 0 s.fr.pc (s.baseAddr b imm 128) (s.tinfoWord 0))
    ∧ (s.HoldsRegs [v, x] → l ∈ s.guarded → (s.laneAddr b x l).toNat % 4 ≠ 0 →
      (∀ k ∈ s.guarded, k < l → (s.laneAddr b x k).toNat % 4 = 0) →
      ∀ i ∈ [Instr.vldx v b x, .vstx v b x, .aadd v b x, .axchg v b x, .afadd v b x, .aaddN v b x],
      ∃ t, exec i s = .next t ∧ s.Trapped t 0x22 0 0 s.fr.pc (s.laneAddr b x l) (s.tinfoWord l))
    ∧ ((s.getS b).toNat % (if w = 0 then 8 else 4) ≠ 0 →
      ∀ i ∈ [Instr.aaddScalar d b w, .acasScalar d b w, .axchgNScalar d b w],
      ∃ t, exec i s = .next t ∧ s.Trapped t 0x22 0 0 s.fr.pc (s.getS b) (s.tinfoWord 0)))
    ∧ (∀ (s : State) (d b : BitVec 6) (imm : BitVec 12) (ea : Word) (i : Instr) (need : Need) (cause detail : Nat),
    (i, ea, need) ∈ [(Instr.sld d b imm, s.baseAddr b imm 8, Need.read), (.sst d b imm, s.baseAddr b imm 8, .write),
      (.aaddScalar d b 0, s.getS b, .atomic), (.aaddNScalar d b 0, s.getS b, .atomic)] →
    s.inTx = false → ea.toNat % 8 = 0 → s.xlate ea need = .error (cause, detail) →
    ∃ t r, exec i s = .next t ∧ r ∈ t.records ∧ s.cur ∈ r.suspended
      ∧ r.ctx = s.ctxId ∧ r.access = need.code ∧ r.page = s.pageOf s.cur.core s.ctxId ea
      ∧ ((∀ x ∈ s.records, x.merges { s.waveRecord s.cur cause detail need.code ea with
            page := s.pageOf s.cur.core s.ctxId ea, suspended := [s.cur] } = false) →
        r.cause = cause ∧ r.detail = detail ∧ r.va = ea)
      ∧ t = { s with records := t.records, frags := t.frags } ∧ t.fr = { s.fr with status := .suspended r.id }
      ∧ ∀ k, k ≠ s.cur.key → findAt t.frags k = findAt s.frags k)

/-- R184: what each atomic stores on a memory value of w bits, and when it stores nothing.
R184: the bytes and operands of an atomic: the old value is the little-endian number of the bytes, the operands are cut to
their width, and the bytes stored are those of the new value. -/
def Obligations.AtomicOperationResults : Prop :=
  (∀ (w m x y : Nat), w = 32 ∨ w = 64 → m < 2 ^ w → x < 2 ^ w → y < 2 ^ w →
    atomicValue .add w m x y = some ((m + x) % 2 ^ w)
    ∧ atomicValue .sub w m x y = some ((m + 2 ^ w - x) % 2 ^ w)
    ∧ atomicValue .min w m x y = some (wrapTo w (min (signedOf w m) (signedOf w x)))
    ∧ atomicValue .max w m x y = some (wrapTo w (max (signedOf w m) (signedOf w x)))
    ∧ atomicValue .minu w m x y = some (min m x) ∧ atomicValue .maxu w m x y = some (max m x)
    ∧ atomicValue .and w m x y = some (m &&& x) ∧ atomicValue .or w m x y = some (m ||| x)
    ∧ atomicValue .xor w m x y = some (m ^^^ x) ∧ atomicValue .xchg w m x y = some x
    ∧ atomicValue .cas w m x y = (if m = x then some y else none)
    ∧ atomicValue .fadd w m x y = some (fAdd 23 .rne m x).1
    ∧ atomicValue .fmin w m x y = some (fMin 23 m x).1 ∧ atomicValue .fmax w m x y = some (fMax 23 m x).1)
    ∧ (∀ (m : Memory) (op : AtomicOp) (ps : List Place) (x y : Word),
    (m.atomic op ps x y).2 = ofBytes (ps.map m.readByte)
    ∧ (∀ v, atomicValue op (8 * ps.length) (ofBytes (ps.map m.readByte)) (x.toNat % 2 ^ (8 * ps.length))
        (y.toNat % 2 ^ (8 * ps.length)) = some v → (m.atomic op ps x y).1 = ps.zip (toBytes ps.length v)
        ∧ ofBytes (toBytes ps.length v) = v % 2 ^ (8 * ps.length))
    ∧ (atomicValue op (8 * ps.length) (ofBytes (ps.map m.readByte)) (x.toNat % 2 ^ (8 * ps.length))
        (y.toNat % 2 ^ (8 * ps.length)) = none → (m.atomic op ps x y).1 = []))

/-- R183, R184: where nothing stands in the way, a vector atomic is made of one atomic on four bytes for each guarded lane, in
ascending order; a returning one leaves the old value of each in its lane of d, one that is not leaves every vector register;
no flag is raised and nothing else differs.
R184, R185: where nothing stands in the way, a scalar atomic on 8 bytes, or with W on 4 and of the float operations always
on 4, stores what its operation gives of the memory value, s[d] and, of `acas`, s[d + 1]; a returning one leaves the old
value in s[d]; nothing else differs.
What is the model's own in it is in log entry 4. -/
def Obligations.AtomicInstructionResults : Prop :=
  (∀ (s : State) (d x : BitVec 7) (b : BitVec 6) (pl : Nat → Place) (i : Instr) (op : AtomicOp) (ret : Bool)
    (run : Memory × List (Nat × Nat)), s.Clear →
    (i, op, ret) ∈ [(Instr.aadd d b x, AtomicOp.add, true), (.asub d b x, .sub, true), (.amin d b x, .min, true),
      (.amax d b x, .max, true), (.aminu d b x, .minu, true), (.amaxu d b x, .maxu, true), (.aand d b x, .and, true),
      (.aor d b x, .or, true), (.axor d b x, .xor, true), (.axchg d b x, .xchg, true), (.acas d b x, .cas, true),
      (.afadd d b x, .fadd, true), (.afmin d b x, .fmin, true), (.afmax d b x, .fmax, true),
      (.aaddN d b x, .add, false), (.asubN d b x, .sub, false), (.aminN d b x, .min, false),
      (.amaxN d b x, .max, false), (.aminuN d b x, .minu, false), (.amaxuN d b x, .maxu, false),
      (.aandN d b x, .and, false), (.aorN d b x, .or, false), (.axorN d b x, .xor, false),
      (.axchgN d b x, .xchg, false), (.acasN d b x, .cas, false), (.afaddN d b x, .fadd, false),
      (.afminN d b x, .fmin, false), (.afmaxN d b x, .fmax, false)] →
    s.HoldsRegs (if op = .cas then [d, d + 1, x] else [d, x]) →
    (∀ l ∈ s.guarded, (s.laneAddr b x l).toNat % 4 = 0
      ∧ s.Reaches (s.laneAddr b x l) .atomic (pl l) (placesFrom (pl l) 4)) →
    run = runAtomics op s.mem (s.guarded.map (fun l => (l, placesFrom (pl l) 4,
      BitVec.ofNat 64 (laneOf (s.getV d) l).toNat, BitVec.ofNat 64 (laneOf (s.getV (d + 1)) l).toNat))) →
    ∃ t, exec i s = .next t
      ∧ t = { s with mem := t.mem, notices := t.notices, frags := t.frags, waves := t.waves }
      ∧ t.mem.bytes = run.1.bytes ∧ t.mem.keys = run.1.keys
      ∧ s.MemSameBut t (s.guarded.flatMap (fun l => placesFrom (pl l) 4))
      ∧ t.fr = { s.fr with pc := s.fr.pc + 4 }
      ∧ (ret = true → s.wv.OnlyVector t.wv d 0 ∧ (∀ q ∈ run.2, laneOf (t.getV d) q.1 = BitVec.ofNat 32 q.2)
          ∧ ∀ l < 32, l ∉ s.guarded → laneOf (t.getV d) l = laneOf (s.getV d) l)
      ∧ (ret = false → t.wv = s.wv))
    ∧ (∀ (s : State) (d a : BitVec 6) (w : BitVec 1) (p : Place) (i : Instr) (op : AtomicOp) (ret : Bool) (n : Nat)
    (r : List (Place × Byte) × Nat), s.Clear →
    (i, op, ret, n) ∈ [(Instr.aaddScalar d a w, AtomicOp.add, true, if w = 0 then 8 else 4),
      (.asubScalar d a w, .sub, true, if w = 0 then 8 else 4), (.aminScalar d a w, .min, true, if w = 0 then 8 else 4),
      (.amaxScalar d a w, .max, true, if w = 0 then 8 else 4), (.aminuScalar d a w, .minu, true, if w = 0 then 8 else 4),
      (.amaxuScalar d a w, .maxu, true, if w = 0 then 8 else 4), (.aandScalar d a w, .and, true, if w = 0 then 8 else 4),
      (.aorScalar d a w, .or, true, if w = 0 then 8 else 4), (.axorScalar d a w, .xor, true, if w = 0 then 8 else 4),
      (.axchgScalar d a w, .xchg, true, if w = 0 then 8 else 4), (.acasScalar d a w, .cas, true, if w = 0 then 8 else 4),
      (.afaddScalar d a, .fadd, true, 4), (.afminScalar d a, .fmin, true, 4), (.afmaxScalar d a, .fmax, true, 4),
      (.aaddNScalar d a w, .add, false, if w = 0 then 8 else 4), (.asubNScalar d a w, .sub, false, if w = 0 then 8 else 4),
      (.aminNScalar d a w, .min, false, if w = 0 then 8 else 4), (.amaxNScalar d a w, .max, false, if w = 0 then 8 else 4),
      (.aminuNScalar d a w, .minu, false, if w = 0 then 8 else 4),
      (.amaxuNScalar d a w, .maxu, false, if w = 0 then 8 else 4), (.aandNScalar d a w, .and, false, if w = 0 then 8 else 4),
      (.aorNScalar d a w, .or, false, if w = 0 then 8 else 4), (.axorNScalar d a w, .xor, false, if w = 0 then 8 else 4),
      (.axchgNScalar d a w, .xchg, false, if w = 0 then 8 else 4), (.acasNScalar d a w, .cas, false, if w = 0 then 8 else 4),
      (.afaddNScalar d a, .fadd, false, 4), (.afminNScalar d a, .fmin, false, 4), (.afmaxNScalar d a, .fmax, false, 4)] →
    (s.getS a).toNat % n = 0 → s.Reaches (s.getS a) .atomic p (placesFrom p n) →
    r = s.mem.atomic op (placesFrom p n) (s.getS d) (s.getS (d + 1)) →
    ∃ t, exec i s = .next t
      ∧ t = { s with mem := t.mem, notices := t.notices, frags := t.frags }
      ∧ s.Stored t r.1 ∧ s.OnlyFrag { t with mem := s.mem, notices := s.notices }
      ∧ (ret = true → s.fr.OnlyScalar t.fr d ∧ t.getS d = (if d = 0 then 0 else BitVec.ofNat 64 r.2)
          ∧ t.fr.pc = s.fr.pc + 4)
      ∧ (ret = false → t.fr = { s.fr with pc := s.fr.pc + 4 }))

/-- R106, R196: `fence` passes where no access is on its way or an attempt is open; `pref` always; `flush` and `inv` of an
address that may be read, with nothing before them in the way, or of the scratch window, pass and change no value; in an attempt the two abandon it with status
unsupported.
What is the model's own in it is in log entry 4. -/
def Obligations.FenceAndCacheControl : Prop :=
  ∀ (s : State) (a : BitVec 6) (k : BitVec 2) (own lvl : BitVec 1) (x : Place × Target),
    (s.accesses = [] ∨ s.inTx = true → exec (.fence k) s = .next (s.setFr { s.fr with pc := s.fr.pc + 4 }))
    ∧ exec (.pref a own lvl) s = .next (s.setFr { s.fr with pc := s.fr.pc + 4 })
    ∧ (s.Clear → s.xlate (s.getS a) .read = .ok x →
      exec (.flush a lvl) s = .next (s.setFr { s.fr with pc := s.fr.pc + 4 })
      ∧ exec (.inv a) s = .next (s.setFr { s.fr with pc := s.fr.pc + 4 }))
    ∧ (s.inTx = false → windowBase ≤ (s.getS a).toNat → (s.getS a).toNat < 2 ^ 49 →
      exec (.flush a lvl) s = .next (s.setFr { s.fr with pc := s.fr.pc + 4 })
      ∧ exec (.inv a) s = .next (s.setFr { s.fr with pc := s.fr.pc + 4 }))
    ∧ (∀ t, s.wv.tx = some t → t.owner = s.cur.frag → s.wv.rblk = t.checkpoint.rblk →
      ∀ i ∈ [Instr.flush a lvl, .inv a], ∃ u, exec i s = .next u ∧ u.wv.tx = none ∧ u.fr.txStatus = 6
        ∧ u.fr.pc = t.handler ∧ s.MemSame u)

/-- R189, R190: `pin` outside an attempt gains at most the lines asked for, as long as the sets of the next line have room, and
the lines gained read as zero; `unpin` with no access on its way releases lines down to the floor; s[d] is the count; no byte outside the lines gained
or released changes. -/
def Obligations.ScratchpadLineResults : Prop :=
  ∀ (s : State) (d a : BitVec 6), s.inTx = false →
    (∃ t got, exec (.pin d a) s = .next t ∧ got ≤ (s.getS a).toNat ∧ got ≤ 4096
      ∧ t = { s with seats := t.seats, mem := t.mem, frags := t.frags }
      ∧ s.fr.OnlyScalar t.fr d ∧ t.getS d = (if d = 0 then 0 else BitVec.ofNat 64 got) ∧ t.fr.pc = s.fr.pc + 4
      ∧ t.seat = { s.seat with lines := s.seat.lines + got }
      ∧ (got = min (s.getS a).toNat 4096 ∨ 12 ≤ t.pinnedWays s.cur.core ((t.seat.lines + 32 * t.seat.slot) % 256)
          ∨ s.l1Ways s.cur.core ≤ t.pinnedWays s.cur.core ((t.seat.lines + 32 * t.seat.slot) % 256)
            + t.specWays s.cur.core ((t.seat.lines + 32 * t.seat.slot) % 256) [])
      ∧ (∀ off k, 512 * s.seat.lines ≤ off → off < 512 * (s.seat.lines + got) →
          t.mem.readByte (plainPlace (scratchKey s.tk.oper s.cur.core off) k) = 0)
      ∧ ∀ p : Place, p.key < scratchKey s.tk.oper s.cur.core (512 * s.seat.lines)
          ∨ scratchKey s.tk.oper s.cur.core (512 * (s.seat.lines + got)) ≤ p.key →
        t.mem.readByte p = s.mem.readByte p)
    ∧ (s.accesses = [] → ∃ t n, exec (.unpin d a) s = .next t ∧ n = min (s.getS a).toNat (s.seat.lines - s.seat.floor)
      ∧ t = { s with seats := t.seats, mem := t.mem, frags := t.frags }
      ∧ s.fr.OnlyScalar t.fr d ∧ t.getS d = (if d = 0 then 0 else BitVec.ofNat 64 n) ∧ t.fr.pc = s.fr.pc + 4
      ∧ t.seat = { s.seat with lines := s.seat.lines - n }
      ∧ ∀ p : Place, p.key < scratchKey s.tk.oper s.cur.core (512 * (s.seat.lines - n))
          ∨ scratchKey s.tk.oper s.cur.core (512 * s.seat.lines) ≤ p.key →
        t.mem.readByte p = s.mem.readByte p)

/-- R191, R193, R194: outside an attempt `tdef` of an empty entry with a base and a shape it accepts makes it filling, with the
fields of the shape word; `tset` makes an allowed change of state, to empty later where commands name the entry; `tqry` reads the two halves of an entry; each where the
handle lies in the slot's partition. A handle outside it raises TILE_STATE with detail 1. -/
def Obligations.TileTableResults : Prop :=
  ∀ (s : State) (h a b d : BitVec 6) (sel : BitVec 1) (e : TileEntry), e = s.tileAt h.toNat →
    (h.toNat < s.seat.partSize → s.inTx = false →
      (s.attempts = [] → e.pendingEmpty = false → e.state = 0 → e.task = false → (s.getS a).toNat % 128 = 0 →
        (s.getS a).toNat < 2 ^ 49 → fieldOf (s.getS b) 63 34 = 0 → fieldOf (s.getS b) 30 27 ≤ 10 →
        fieldOf (s.getS b) 14 0 ≠ 0 → 128 * fieldOf (s.getS b) 14 0 % (16 * 2 ^ fieldOf (s.getS b) 33 31) = 0 →
        ∃ t, exec (.tdef h a b) s = .next t
          ∧ t = { s with tiles := t.tiles, notices := t.notices, frags := t.frags } ∧ t.fr = { s.fr with pc := s.fr.pc + 4 }
          ∧ t.tileAt h.toNat = { e with
              base := s.getS a, task := false, stampV := false, state := 1, span := fieldOf (s.getS b) 33 31,
              etype := fieldOf (s.getS b) 30 27, rowsM1 := fieldOf (s.getS b) 26 15, rsec := fieldOf (s.getS b) 14 0,
              failedFills := [] })
      ∧ (s.attempts = [] → e.pendingEmpty = false →
        ((s.getS a).toNat = 1 ∨ (s.getS a).toNat = 2 ∧ e.state ≠ 0 ∨ (s.getS a).toNat = 3 ∧ (e.state = 2 ∨ e.state = 3)) →
        e.finalDue = false →
        ∃ t, exec (.tset h a) s = .next t
          ∧ t = { s with tiles := t.tiles, notices := t.notices, frags := t.frags } ∧ t.fr = { s.fr with pc := s.fr.pc + 4 }
          ∧ t.tileAt h.toNat = { e with state := (s.getS a).toNat })
      ∧ (s.attempts = [] → e.pendingEmpty = false → e.finalDue = false → (s.getS a).toNat = 0 →
        ∃ t, exec (.tset h a) s = .next t
          ∧ t = { s with tiles := t.tiles, notices := t.notices, frags := t.frags } ∧ t.fr = { s.fr with pc := s.fr.pc + 4 }
          ∧ (e.inFlight = 0 → t.tileAt h.toNat = { e with state := 0, failedFills := [] })
          ∧ (e.inFlight ≠ 0 → t.tileAt h.toNat = { e with pendingEmpty := true }))
      ∧ (∃ t, exec (.tqry d h sel) s = .next t ∧ s.ScalarDone t d (if sel = 0 then e.word0 else e.base)))
    ∧ (s.seat.partSize ≤ h.toNat → s.TrapFree → ∀ i ∈ [Instr.tdef h a b, .tset h a, .tqry d h sel],
      ∃ t, exec i s = .next t ∧ s.Trapped t 0x25 0 1 s.fr.pc 0 (s.tinfoWord 0))

/-! ## Transactions (R204 to R228) -/

/-- R205 to R210: `tbeg` without an open attempt in the wave opens one with the handler its offset names and a checkpoint of
the fragment, with an age stamp taken if none is held; inside the fragment's own attempt of depth below 4 it adds 1 to the
depth; `orelse` adds an alternative with a checkpoint, up to four. Nothing else but the program counter changes.
R208: `orelse`, `tend`, `tabrt`, `retry` and `twatch` outside an attempt raise NEST (cause 0x30). -/
def Obligations.OpeningAnAttempt : Prop :=
  (∀ (s : State) (off : BitVec 25) (a : Attempt),
    (s.wv.tx = none → ∃ t b, exec (.tbeg off) s = .next t ∧ s.OnlyWave t ∧ t.wv = { s.wv with tx := some b }
      ∧ b.owner = s.cur.frag ∧ b.depth = 1 ∧ b.handler = s.fr.pc + BitVec.ofInt 64 (4 * off.toInt)
      ∧ b.checkpoint.s = s.fr.s ∧ b.checkpoint.p = s.fr.p ∧ b.checkpoint.mr = s.fr.mr ∧ b.checkpoint.lmask = s.fr.lmask
      ∧ b.checkpoint.depth = s.fr.depth ∧ b.checkpoint.rblk = s.wv.rblk
      ∧ b.alts = [] ∧ b.reads = [] ∧ b.writes = [] ∧ b.cmds = [] ∧ b.tokenOps = []
      ∧ t.fr = (if s.fr.ageValid then { s.fr with pc := s.fr.pc + 4 } else { s.fr with
          pc := s.fr.pc + 4, ageTick := BitVec.ofNat 64 (s.coreTick s.cur.core),
          ageMember := s.chip * 2 ^ 14 + s.cur.core * 2 ^ 6 + s.cur.wave, ageValid := true, attempts := 0 }))
    ∧ (s.wv.tx = some a → a.owner = s.cur.frag → a.depth < 4 →
      exec (.tbeg off) s = .next ((s.setWv { s.wv with tx := some { a with depth := a.depth + 1 } }).setFr
        { s.fr with pc := s.fr.pc + 4 }))
    ∧ (s.wv.tx = some a → a.owner = s.cur.frag → a.alts.length < 4 →
      ∃ t alt, exec (.orelse off) s = .next t
        ∧ t = (s.setWv { s.wv with tx := some { a with alts := alt :: a.alts } }).setFr { s.fr with pc := s.fr.pc + 4 }
        ∧ alt.target = s.fr.pc + BitVec.ofInt 64 (4 * off.toInt) ∧ alt.depth = a.depth ∧ alt.checkpoint.s = s.fr.s
        ∧ alt.checkpoint.p = s.fr.p ∧ alt.checkpoint.mr = s.fr.mr ∧ alt.checkpoint.lmask = s.fr.lmask))
    ∧ (∀ (s : State) (off : BitVec 25) (code a : BitVec 6), s.TrapFree →
    ∀ i ∈ [Instr.orelse off, .tend, .tabrt code, .retry, .twatch a],
      ∃ t, exec i s = .next t ∧ s.Trapped t 0x30 0 0 s.fr.pc 0 (s.tinfoWord 0))

/-- R205, R207, R212, R228: `tend` of a nested attempt takes 1 from the depth and closes the alternatives of that depth; of
the outermost, with no stack entry of the fragment pushed since it opened, no command or token operation buffered, no access on its way, no other attempt
open and every line written still pinned, it stores the bytes the attempt wrote, closes it and clears the transaction
fields.
What is the model's own in it is in log entry 53. -/
def Obligations.CommitResults : Prop :=
  ∀ (s : State) (a : Attempt), s.wv.tx = some a → a.owner = s.cur.frag →
    (1 < a.depth → exec .tend s = .next ((s.setWv { s.wv with tx := some { a with
        depth := a.depth - 1, alts := a.alts.filter (fun x => decide (x.depth ≠ a.depth)) } }).setFr
          { s.fr with pc := s.fr.pc + 4 }))
    ∧ (a.depth = 1 → (∀ e ∈ s.wv.entriesOf s.cur.frag, e.num < a.checkpoint.stackMark) → s.accesses = [] → a.cmds = [] →
      a.tokenOps = [] → (∀ x ∈ s.attempts, x.1 = s.cur) → (s.setWv { s.wv with tx := none }).attempts = [] →
      (∀ w ∈ a.writes, s.linePinned w.place.key = true) →
      ∃ t, exec .tend s = .next t
        ∧ t = { s with mem := t.mem, notices := t.notices, frags := t.frags, waves := t.waves }
        ∧ s.Stored t (a.writes.filterMap (fun w => w.byte.map (fun b => (w.place, b))))
        ∧ t.wv = { s.wv with tx := none }
        ∧ t.fr = { s.fr with
            pc := s.fr.pc + 4, due := [], ageValid := false, attempts := 0, txStatus := 0, txCode := 0, wake := 0,
            txAddr1 := 0, txAddr2 := 0 })

/-- R206, R213, R221, R222: `tabrt` abandons the attempt: the fragment is at the handler with the registers of its checkpoint,
status 4 and the code, one more attempt counted up to 255 and no age stamp; the vector registers that the attempt did not
write are as they were, and no byte of memory has changed.
R206, R211, R223: `retry` with an open alternative rolls back to the newest: its target, its checkpoint, the attempt's
writes, commands and token operations cut to what was there, and the attempt goes on; without one the attempt ends with
status 0 and the fragment sleeps on the words it read, or with none read backs off for 4,096 cycles.
What is the model's own in it is in log entry 15. -/
def Obligations.AbandonmentAndRetryResults : Prop :=
  (∀ (s : State) (code : BitVec 6) (a : Attempt), s.wv.tx = some a → a.owner = s.cur.frag →
    s.wv.rblk = a.checkpoint.rblk →
    ∃ t, exec (.tabrt code) s = .next t ∧ s.MemSame t ∧ t.wv.tx = none ∧ t.fr.pc = a.handler
      ∧ t.fr.s = a.checkpoint.s ∧ t.fr.p = a.checkpoint.p ∧ t.fr.mr = a.checkpoint.mr ∧ t.fr.lmask = a.checkpoint.lmask
      ∧ t.fr.depth = a.checkpoint.depth ∧ t.fr.txStatus = 4 ∧ t.fr.txCode = code.toNat
      ∧ t.fr.attempts = min 255 (s.fr.attempts + 1) ∧ t.fr.ageValid = false ∧ t.fr.txAddr1 = s.fr.pc
      ∧ (∀ r : BitVec 7, r.toNat ∉ a.vlog.map (·.1) → t.getV r = s.getV r)
      ∧ t = { s with frags := t.frags, waves := t.waves, accs := t.accs, fresh := t.fresh })
    ∧ (∀ (s : State) (a : Attempt), s.wv.tx = some a → a.owner = s.cur.frag →
    (∀ alt rest, a.alts = alt :: rest → s.wv.rblk = alt.checkpoint.rblk →
      ∃ t b, exec .retry s = .next t ∧ t.wv.tx = some b ∧ b.alts = rest ∧ b.depth = alt.depth ∧ b.owner = a.owner
        ∧ b.handler = a.handler ∧ b.reads = a.reads ∧ b.writes = a.writes.take alt.writes ∧ b.cmds = a.cmds.take alt.cmds
        ∧ b.tokenOps = a.tokenOps.take alt.tokenOps
        ∧ t.fr.pc = alt.target ∧ t.fr.s = alt.checkpoint.s ∧ t.fr.p = alt.checkpoint.p ∧ t.fr.mr = alt.checkpoint.mr
        ∧ t.fr.lmask = alt.checkpoint.lmask ∧ t.fr.status = s.fr.status ∧ s.MemSame t)
    ∧ (a.alts = [] → s.wv.rblk = a.checkpoint.rblk → a.reads = [] →
      ∃ t, exec .retry s = .next t ∧ t.wv.tx = none ∧ t.fr.pc = a.handler ∧ t.fr.txStatus = 0
        ∧ t.fr.status = .backoff (s.cycle + 4096) true ∧ s.MemSame t)
    ∧ (a.alts = [] → s.wv.rblk = a.checkpoint.rblk → a.reads ≠ [] → (∀ k x, findAt s.frags k = some x → k ≠ s.cur.key →
        ∀ w, x.watches w = false) → s.frags.length = 1 → a.reads.length ≤ 64 →
      ∃ t, exec .retry s = .next t ∧ t.wv.tx = none ∧ t.fr.pc = a.handler ∧ t.fr.txStatus = 0
        ∧ t.fr.status = .asleep (a.reads.map (·.1)) true s.cycle ∧ s.MemSame t))

/-- R213, R228: `tstat` reads TXSTAT, the two addresses or the age stamp; `tdepth` the depth and the number of open
alternatives; `twatch` inside an attempt, of an address that may be watched, with no rival attempt and room in the read set,
puts its sector there unless it is in it.
R223 to R225, R228: a wake notice makes every fragment of its core that is registered on its word ready, with WAKE 1, or 2
where the word was written before its registration was complete, after a `retry`, and without a notice nothing changes; a spurious
wake makes them ready with WAKE 1; a back-off that is over makes its fragment ready with WAKE 3 after a `retry`; a wait for an
allowance that ends so is counted for its wave (R369).
What is the model's own in it is in log entry 76. -/
def Obligations.StatusAndWakeResults : Prop :=
  (∀ (s : State) (d r : BitVec 6),
    (∃ t x, exec (.tstat d 0) s = .next t ∧ s.ScalarDone t d x ∧ s.TxstatHolds x)
    ∧ (∃ t, exec (.tstat d 1) s = .next t ∧ s.ScalarDone t d s.fr.txAddr1)
    ∧ (∃ t, exec (.tstat d 2) s = .next t ∧ s.ScalarDone t d s.fr.txAddr2)
    ∧ (∃ t, exec (.tstat d 3) s = .next t ∧ s.ScalarDone t d (if s.fr.ageValid then s.fr.ageTick else 0))
    ∧ (s.inTx = false → ∃ t, exec (.tdepth d) s = .next t ∧ s.ScalarDone t d 0)
    ∧ (∀ a, s.wv.tx = some a → a.owner = s.cur.frag →
      (∃ t, exec (.tdepth d) s = .next t ∧ s.ScalarDone t d (BitVec.ofNat 64 (a.depth + 256 * a.alts.length)))
      ∧ ∀ p, s.xlateAll [s.getS r] .read = .ok [(p, .here)] → p.isHost = false → p.kind ≠ 1 →
        (∀ x ∈ s.attempts, x.1 = s.cur) →
        ((∀ y ∈ a.reads, y.1 ≠ .sector (sectorOf p.key)) → a.reads.length < 64 →
          exec (.twatch r) s = .next ((s.setWv { s.wv with tx := some { a with
              reads := a.reads ++ [(.sector (sectorOf p.key), p.va &&& ~~~127)] } }).setFr { s.fr with pc := s.fr.pc + 4 }))
        ∧ ((∃ y ∈ a.reads, y.1 = .sector (sectorOf p.key)) →
          exec (.twatch r) s = .next (s.setFr { s.fr with pc := s.fr.pc + 4 }))))
    ∧ (∀ (s : State) (core c : Nat) (word : Watch) (early handler spurious : Bool) (f : FragId) (x : Frag) (ws : List Watch) (since : Nat),
    early = (!spurious && s.notices.any (fun n => n.core == core && n.word == word && n.early.contains f.key)) →
    (findAt s.frags f.key = some x → f.core = core → f.wave < 64 → f.frag < 8 → x.status = .asleep ws handler since →
      word ∈ ws → spurious = true ∨ s.notices.any (fun n => n.core == core && n.word == word) = true →
      ∃ t, exec (.wakeNotice core word spurious) s = .next t ∧ s.MemSame t
        ∧ t.frOf f = { x with
            status := .ready, wake := if handler then (if early then 2 else 1) else x.wake, allowWait := none }
        ∧ ∀ n ∈ t.notices, n ∈ s.notices ∧ (spurious = true ∨ n.core ≠ core ∨ n.word ≠ word))
    ∧ (s.notices.any (fun n => n.core == core && n.word == word) = false → exec (.wakeNotice core word false) s = .next s)
    ∧ ((s.frOf f).status = .backoff c handler → c ≤ s.cycle →
      ((s.frOf f).allowWait = none → exec (.wakeBackoffExpiry f) s = .next (s.setFrOf f { s.frOf f with
        status := .ready, wake := if handler then 3 else (s.frOf f).wake }))
      ∧ ∀ k since', (s.frOf f).allowWait = some (k, since') → ∃ t, exec (.wakeBackoffExpiry f) s = .next t
        ∧ t = { s with waves := t.waves, frags := t.frags }
        ∧ t.wvOf f = { s.wvOf f with
            waited := putAt (s.wvOf f).waited k (getAt 0 (s.wvOf f).waited k + (s.cycle - since')) }
        ∧ t.frOf f = { s.frOf f with
            status := .ready, wake := if handler then 3 else (s.frOf f).wake, allowWait := none }))

/-! ## The matrix engine (R232 to R252) -/

/-- R236, R241, R245: a product or `msca` whose checks pass, outside an attempt, with no access on its way, no attempt open on
the device and no instruction pending on its core, joins the queue of the core's matrix engine with what it has read, and
the fragment goes on; nothing else differs but notices of the bank-state word and the counter of free values.
What is the model's own in it is in log entry 4. -/
def Obligations.MatrixIssueResults : Prop :=
  ∀ (s : State) (d a : BitVec 4) (h b : BitVec 6) (form : ProductForm) (i : Instr) (k : MatKind) (parts : List Part)
    (e : EType), s.attempts = [] → s.inTx = false → s.accesses = [] → (s.bank s.cur.core).queue = [] →
    ((i, form) ∈ [(Instr.mma d h b, ProductForm.mma), (.mmaz d h b, .mmaz), (.mmab d h b, .mmab)] →
      etypeOf s.etypeCode = some e →
      s.productPlan s.waveOwner s.matUser s.readByte form d.toNat h.toNat (s.getS b) e s.sat = .ok (k, parts) →
      ∃ t, exec i s = .next t
        ∧ t = { s with banks := t.banks, notices := t.notices, frags := t.frags, fresh := s.fresh + 1 }
        ∧ t.bank s.cur.core = { s.bank s.cur.core with queue := [s.waveMat k] }
        ∧ t.fr = { s.fr with pc := s.fr.pc + 4 })
    ∧ (s.scalePlan s.waveOwner s.matUser s.readByte d.toNat a.toNat (s.getS b) = .ok (k, parts) →
      ∃ t, exec (.msca d a b) s = .next t
        ∧ t = { s with banks := t.banks, notices := t.notices, frags := t.frags, fresh := s.fresh + 1 }
        ∧ t.bank s.cur.core = { s.bank s.cur.core with queue := [s.waveMat k] }
        ∧ t.fr = { s.fr with pc := s.fr.pc + 4 })

/-- R241: when a product completes, each accumulator element of a live row and a column of the product is what the
accumulation of its groups makes of its value before, or of 0 under `mmaz`; no element outside its rows and columns
changes.
R236, R241, R248, R249, R251: MATRIX_INSTRUCTION_COMPLETE takes the oldest pending instruction off its core's queue with its
effect on the accumulators and ORs its flags into FSTAT of the wave that issued it; MLDB_FILL_COMPLETE takes the oldest fill,
and STI becomes full with the last; `mswap` with a full inactive set and nothing pending makes it active.
What is the model's own in it is in log entry 64. -/
def Obligations.MatrixProductResults : Prop :=
  (∀ (s : State) (core : Nat) (o : MatOp) (d m n path etype : Nat) (zero sat : Bool) (rows : List (Nat × List (List Nat)))
    (ws : Tab WeightGroup) (e : EType), o.kind = .product d m n zero path etype sat rows ws → etypeOf etype = some e →
    m ≤ 8 → (∀ r ∈ rows, r.1 < m) → (rows.map (·.1)).Nodup →
    (∀ r ∈ rows, ∀ j < n, (s.applyMat core o).1.acc (productKey o.oper core d r.1 j)
      = BitVec.ofNat 32 (accumulate path e sat ws j r.2
          (if zero then 0 else (s.acc (productKey o.oper core d r.1 j)).toNat)).1)
    ∧ (∀ k, (∀ i < m, ∀ j < n, k ≠ productKey o.oper core d i j) → (s.applyMat core o).1.acc k = s.acc k)
    ∧ (s.applyMat core o).1 = { s with accs := (s.applyMat core o).1.accs })
    ∧ (∀ (s : State) (core : Nat), s.attempts = [] →
    (∀ o rest, (s.bank core).queue = o :: rest → o.carried = none →
      ∃ t, exec (.matrixInstructionComplete core) s = .next t
        ∧ t = { s with accs := (s.applyMat core o).1.accs, waves := t.waves, banks := t.banks, notices := t.notices }
        ∧ t.bank core = { s.bank core with queue := rest }
        ∧ ((findAt s.waves o.agent.waveKey).isSome → (s.wvOf o.agent).task = o.task →
            t.wvOf o.agent = { s.wvOf o.agent with fstat := (s.wvOf o.agent).fstat ||| (s.applyMat core o).2 })
        ∧ ∀ k, k ≠ o.agent.waveKey → findAt t.waves k = findAt s.waves k)
    ∧ (∀ f rest, (s.bank core).fills = f :: rest →
      ∃ t, exec (.mldbFillComplete core) s = .next t
        ∧ t = { s with banks := t.banks, notices := t.notices, fresh := s.fresh + 1 }
        ∧ (t.bank core).fills = rest ∧ (t.bank core).inactive.st = (if rest = [] then 2 else 1)
        ∧ (t.bank core).inactive.tag = f.tag ∧ (t.bank core).inactive.arr = f.arr
        ∧ (t.bank core).inactive.user = .context f.ctx ∧ (t.bank core).active = (s.bank core).active)
    ∧ (core = s.cur.core → s.inTx = false → s.ownsBank core s.ctxId = false → s.setsTaken s.matUser = false →
      (s.bank core).inactive.st = 2 → (s.bank core).queue = [] →
      ∃ t, exec .mswap s = .next t ∧ t = { s with banks := t.banks, notices := t.notices, frags := t.frags }
        ∧ (t.bank core).active = (s.bank core).inactive ∧ (t.bank core).inactive = BankSet.reset
        ∧ (t.bank core).swaps = (s.bank core).swaps + 1 ∧ t.fr = { s.fr with pc := s.fr.pc + 4 }))

/-- R246 to R248, R250: `mrd` gives the guarded lanes of an accumulator row and with its bit 5 zeroes them, `mwr` writes them,
`mzero` makes a run of accumulator tiles read 0, `mldb` queues its fill and empties the inactive set for it, `mqry` reads the
bank-state word of R233; with nothing pending on the core, outside an attempt, and no attempt open on the device.
What is the model's own in it is in log entry 64. -/
def Obligations.AccumulatorMoveResults : Prop :=
  ∀ (s : State) (d4 : BitVec 4) (d a b : BitVec 6) (n : BitVec 5) (x : Word), x = s.getS b →
    s.attempts = [] → s.inTx = false → (s.bank s.cur.core).queue = [] →
    (s.HoldsRegs [d.setWidth 7] → d4.toNat < s.seat.accSize → fieldOf x 63 6 = 0 →
      ∃ t, exec (.mrd d d4 b) s = .next t
        ∧ s.VectorDone { t with accs := s.accs } (d.setWidth 7) (fun l => (s.acc (s.accLane d4.toNat x l), 0))
        ∧ (x.getLsbD 5 = false → t.accs = s.accs)
        ∧ (x.getLsbD 5 = true → (∀ l ∈ s.guarded, t.acc (s.accLane d4.toNat x l) = 0)
            ∧ ∀ k, (∀ l ∈ s.guarded, k ≠ s.accLane d4.toNat x l) → t.acc k = s.acc k))
    ∧ (s.HoldsRegs [a.setWidth 7] → d4.toNat < s.seat.accSize → fieldOf x 63 5 = 0 →
      ∃ t, exec (.mwr d4 a b) s = .next t ∧ t = { s with accs := t.accs, frags := t.frags }
        ∧ t.fr = { s.fr with pc := s.fr.pc + 4 }
        ∧ (∀ l ∈ s.guarded, t.acc (s.accLane d4.toNat x l) = laneOf (s.getV (a.setWidth 7)) l)
        ∧ ∀ k, (∀ l ∈ s.guarded, k ≠ s.accLane d4.toNat x l) → t.acc k = s.acc k)
    ∧ (d4.toNat + n.toNat ≤ s.seat.accSize →
      ∃ t, exec (.mzero d4 n) s = .next t ∧ t = { s with accs := t.accs, frags := t.frags }
        ∧ t.fr = { s.fr with pc := s.fr.pc + 4 }
        ∧ (∀ k < 1024 * n.toNat, t.acc (accKey s.tk.oper s.cur.core d4.toNat 0 0 + k) = 0)
        ∧ ∀ k, k < accKey s.tk.oper s.cur.core d4.toNat 0 0
            ∨ accKey s.tk.oper s.cur.core d4.toNat 0 0 + 1024 * n.toNat ≤ k → t.acc k = s.acc k)
    ∧ (∀ f, s.fillPlan s.matUser a.toNat x = .ok f →
      ∃ t, exec (.mldb a b) s = .next t
        ∧ t = { s with banks := t.banks, notices := t.notices, frags := t.frags, fresh := s.fresh + 1 }
        ∧ (t.bank s.cur.core).fills = (s.bank s.cur.core).fills ++ [f] ∧ (t.bank s.cur.core).inactive.st = 1
        ∧ (t.bank s.cur.core).inactive.user = .context s.ctxId
        ∧ (t.bank s.cur.core).active = (s.bank s.cur.core).active ∧ t.fr = { s.fr with pc := s.fr.pc + 4 })
    ∧ (∃ t w, exec (.mqry d) s = .next t ∧ s.ScalarDone t d w ∧ s.BankWordHolds s.matUser w)

/-! ## The copy engine (R253 to R270) -/

/-- R253 to R256, R264: a copy command whose checks pass, outside an attempt, with an entry free and a number left, draws the
next number of its counter and joins its core's queue with the words of its block and MR; a ready source tile becomes
draining; the fragment goes on.
R254, R267: COPY_COMMAND_START makes the command that starts next active where fewer than four are and its checks pass;
where they do not, its counter takes the error state with its number and a COPY_FAULT record is posted.
R251, R261: a carried product whose copy part has been performed issues to the matrix engine as the copy engine's, with the
element type and saturation that MR had at the issue of its `cpym`.
What is the model's own in it is in log entries 9 and 46. -/
def Obligations.CopyIssueAndStartResults : Prop :=
  (∀ (s : State) (b : BitVec 6) (tl : BitVec 4) (i : Instr) (fn : Nat) (ws : List Word), s.attempts = [] →
    s.inTx = false →
    (i, fn) ∈ [(Instr.cpy b tl, 0), (.cpy2d b tl, 1), (.cgath b tl, 2), (.cscat b tl, 3), (.cfill b tl, 4), (.cpym b tl, 5)] →
    ws = (List.range (if fn = 0 ∨ fn = 4 then 4 else if fn = 5 then 9 else 7)).map
      (fun k => s.getS (BitVec.ofNat 6 (b.toNat + k))) →
    (fn = 5 → carriedOk (BitVec.ofNat 32 (ws.getD 7 0).toNat) = true) → s.copyCheck fn ws = none →
    s.copyRoom s.tk.oper s.cur.core = true → (s.counter s.tk.oper s.cur.core tl.toNat).issued < 2 ^ 63 - 1 →
    ∃ t c, exec i s = .next t
      ∧ t = { s with copies := t.copies, seats := t.seats, tiles := t.tiles, notices := t.notices, frags := t.frags }
      ∧ t.fr = { s.fr with pc := s.fr.pc + 4 }
      ∧ (t.copyRow s.cur.core).cmds = (s.copyRow s.cur.core).cmds ++ [c]
      ∧ c.fn = fn ∧ c.words = ws ∧ c.mr = s.fr.mr ∧ c.tl = tl.toNat ∧ c.status = .waiting ∧ c.oper = s.tk.oper
      ∧ c.n = (s.counter s.tk.oper s.cur.core tl.toNat).issued + 1
      ∧ t.counter s.tk.oper s.cur.core tl.toNat
          = { s.counter s.tk.oper s.cur.core tl.toNat with issued := (s.counter s.tk.oper s.cur.core tl.toNat).issued + 1 })
    ∧ (∀ (s : State) (core : Nat) (c : CopyCmd), s.nextCopy core = some c → s.attempts = [] →
    (s.copyRow core).cmds.countP (fun x => x.status == .active) < 4 →
    (s.copyRefused core c = none →
      ∃ t, exec (.copyCommandStart core c.id) s = .next t ∧ t = { s with copies := t.copies }
        ∧ (t.copyRow core).cmds
            = (s.copyRow core).cmds.map (fun x => if x.id = c.id then { c with status := .active } else x))
    ∧ (∀ detail va, s.copyRefused core c = some (detail, va) → c.tl < 16 →
      ∃ t r, exec (.copyCommandStart core c.id) s = .next t ∧ r ∈ t.records ∧ r.cause = 0x50 ∧ r.detail = detail
        ∧ r.word7 = c.n ∧ (t.counter c.oper core c.tl).error = true
        ∧ (∀ x ∈ (t.copyRow core).cmds, x.id ≠ c.id) ∧ s.MemSame t))
    ∧ (∀ (s : State) (core : Nat) (c : CopyCmd) (form : ProductForm) (e : EType) (k : MatKind) (parts : List Part),
    s.attempts = [] → s.accesses = [] → (s.bank core).queue = [] →
    (s.copyRow core).cmds.find? (fun x => x.id == c.id) = some c → c.fn = 5 → (s.seatOf c.oper core).state ≠ .saved →
    c.status = .active → c.carrying = false → c.poison = none → s.copyDone core c = true →
    (fieldOf (c.w 7) 6 0, form) ∈ [(0, ProductForm.mma), (1, .mmaz), (2, .mmab)] →
    etypeOf (fieldOf (BitVec.ofNat 64 c.mr.toNat) 7 4) = some e →
    s.productPlan (c.owner core) (s.copyUser core c) s.mem.readByte form (fieldOf (c.w 7) 22 19) (fieldOf (c.w 7) 18 13) (c.w 8) e
      (c.mr.getLsbD 10) = .ok (k, parts) →
    ∃ t, exec (.carriedInstructionIssue core c.id) s = .next t
      ∧ t = { s with
          copies := t.copies, banks := t.banks, notices := t.notices, fresh := s.fresh + 1,
          fetched := s.fetched.filter (fun x => !x.of (c.owner core)) }
      ∧ t.bank core = { s.bank core with queue := [{
          oper := c.oper, ctx := c.ctx, agent := c.agent, task := c.task, carried := some c.id, kind := k }] }
      ∧ (t.copyRow core).cmds = (s.copyRow core).cmds.map (fun x => if x.id = c.id then { c with carrying := true } else x))

/-- R257, R263: one access of a `cpy` of at most a sector from memory to memory, source and destination each within a sector
that can be reached, puts every byte of the source at its place in the destination, and every other byte is as it was.
R262, R264, R266: COPY_COMMAND_COMPLETE of a command that has moved bytes, has none left, none unacknowledged at another device
(R113), and carries nothing completes its
number and frees its entry; with FIN, no earlier fill of the tile outstanding or failed, its destination tile becomes ready
with the destination span as its stamp.
What is the model's own in it is in log entries 5 and 9. -/
def Obligations.CopyTransferResults : Prop :=
  (∀ (s : State) (core : Nat) (c : CopyCmd) (p q : Place), s.attempts = [] → s.accesses = [] → s.mem.poison = [] →
    s.bridgesDown = [] → (s.copyRow core).cmds.find? (s.copyCan core) = some c → c.fn = 0 → c.srcTile = none → c.dstTile = none →
    c.row = 0 → c.sec = 0 → c.w 3 = 0 → 0 < (c.w 2).toNat → (c.w 0).toNat % 128 + (c.w 2).toNat ≤ 128 →
    (c.w 1).toNat % 128 + (c.w 2).toNat ≤ 128 →
    s.translate c.oper core c.ctx (c.w 0 &&& ~~~127) .read = .ok (p, .here) → p.isHost = false →
    s.translate c.oper core c.ctx (c.w 1 &&& ~~~127) .write = .ok (q, .here) → q.isHost = false →
    (∀ j < 128, s.lineLost (q.key + j) = false ∧ s.imageOf (q.plus j) = none) →
    ∃ t, exec (.copySectorAccess core c.id) s = .next t
      ∧ t = { s with
          copies := t.copies, mem := t.mem, notices := t.notices, fresh := s.fresh + 1,
          fetched := s.fetched.filter (fun x => !x.of (c.owner core)) }
      ∧ (∀ j < (c.w 2).toNat, t.mem.readByte (q.plus ((c.w 1).toNat % 128 + j))
          = s.mem.readByte (p.plus ((c.w 0).toNat % 128 + j)))
      ∧ s.MemSameBut t ((List.range (c.w 2).toNat).map (fun j => q.plus ((c.w 1).toNat % 128 + j))))
    ∧ (∀ (s : State) (core : Nat) (c : CopyCmd), s.attempts = [] → (s.copyRow core).cmds.find? (fun x => x.id == c.id) = some c →
    c.status = .active → s.copyDone core c = true → c.poison = none → c.fn ≠ 5 → c.moved = true → c.tl < 16 →
    c.srcTile = none → s.writesOut (c.owner core) = false →
    (c.dstTile = none →
      ∃ t, exec (.copyCommandComplete core c.id) s = .next t
        ∧ t = { s with copies := t.copies, seats := t.seats, notices := t.notices }
        ∧ (t.copyRow core).cmds = (s.copyRow core).cmds.filter (fun x => x.id != c.id)
        ∧ t.counter c.oper core c.tl = (s.counter c.oper core c.tl).complete c.n)
    ∧ (∀ e, c.dstTile = some e → (c.w 3).getLsbD 31 = true → c.prior = [] → c.stamped = false →
      (s.tileOf core e).failedFills = [] → (s.tileOf core e).state = 1 → (s.tileOf core e).pendingEmpty = false →
      ∃ t, exec (.copyCommandComplete core c.id) s = .next t
        ∧ (t.tileOf core e).state = 2 ∧ (t.tileOf core e).stampV = true
        ∧ ((s.tileOf core e).stampV = false ∨ fieldOf (c.w 3) 10 8 ≠ (s.tileOf core e).span →
            (t.tileOf core e).stamp = fieldOf (c.w 3) 10 8)
        ∧ (∀ x ∈ (t.copyRow core).cmds, x.id ≠ c.id)
        ∧ t.counter c.oper core c.tl = (s.counter c.oper core c.tl).complete c.n))

/-- R111, R264: a counter whose next number completes with no later one waiting takes it as its value; a number that completes
out of turn waits, and the value stays.
R265, R266: outside an attempt `tlrd` reads a counter's value with the error bit, or the number last issued; `tlinc` takes
the next number, which completes, and gives it; `tlinc.c` of a counter in error clears the error, gives the failed number and
counts it as completed, and of one that is not gives 0. -/
def Obligations.TimelineResults : Prop :=
  (∀ (t : Timeline) (n : Nat), t.done = [] → t.fails = [] → t.error = false →
    (n = t.value + 1 → (t.complete n).value = n ∧ (t.complete n).done = [])
    ∧ (t.value + 1 < n → (t.complete n).value = t.value ∧ (t.complete n).done = [n]
        ∧ (n = t.value + 2 → ((t.complete n).complete (t.value + 1)).value = t.value + 2))
    ∧ (t.complete n).error = false ∧ (t.complete n).issued = t.issued)
    ∧ (∀ (s : State) (d : BitVec 6) (tl : BitVec 4) (k : Timeline), k = s.counter s.tk.oper s.cur.core tl.toNat →
    s.inTx = false → s.attempts = [] →
    (∃ t, exec (.tlrd d tl 0) s = .next t
      ∧ s.ScalarDone t d (BitVec.ofNat 64 ((if k.error then 2 ^ 63 else 0) + k.value)))
    ∧ (∃ t, exec (.tlrd d tl 1) s = .next t ∧ s.ScalarDone t d (BitVec.ofNat 64 k.issued))
    ∧ (k.issued < 2 ^ 63 - 1 → ∃ t, exec (.tlinc d tl) s = .next t
      ∧ t = { s with seats := t.seats, notices := t.notices, frags := t.frags }
      ∧ s.fr.OnlyScalar t.fr d ∧ t.getS d = (if d = 0 then 0 else BitVec.ofNat 64 (k.issued + 1)) ∧ t.fr.pc = s.fr.pc + 4
      ∧ t.counter s.tk.oper s.cur.core tl.toNat = ({ k with issued := k.issued + 1 } : Timeline).complete (k.issued + 1))
    ∧ (k.error = true → ∃ t, exec (.tlincC d tl) s = .next t
      ∧ t = { s with seats := t.seats, tiles := t.tiles, notices := t.notices, frags := t.frags }
      ∧ s.fr.OnlyScalar t.fr d ∧ t.getS d = (if d = 0 then 0 else BitVec.ofNat 64 k.failed) ∧ t.fr.pc = s.fr.pc + 4
      ∧ t.counter s.tk.oper s.cur.core tl.toNat = k.clear)
    ∧ (k.error = false → ∃ t, exec (.tlincC d tl) s = .next t ∧ s.ScalarDone t d 0))

/-! ## Churns (R272 to R307) -/

/-- R298 to R302: outside an attempt, with no access on its way, `xload` of a valid image into a quiet slot within the table
store puts the image into the slot and takes it from the churns, where no invocation of the slot is parked with tokens; `xswap` to another opcode version of the same route plane
makes its plane the active one and the present one the previous; `xdrop` of a quiet slot empties it; `xmark` injects the
marker into the wave's open invocations of the slot; `xqry` reads the slot's state word, or 0. -/
def Obligations.GraphSlotInstructionResults : Prop :=
  ∀ (s : State) (x : BitVec 4) (d a : BitVec 6) (data : List Byte),
    s.inTx = false → s.accesses = [] →
    (s.readImage (s.getS a) = .ok (s, data) → imageDetail data x.toNat false none = 0 →
      s.loadedSlots s.cur.core s.ctxId - (if (s.image s.cur.core s.ctxId x.toNat).isSome then 1 else 0)
        < s.storeEntries s.cur.core s.ctxId →
      ((s.image s.cur.core s.ctxId x.toNat).isSome = true → s.slotQuiet s.cur.core s.ctxId x.toNat = true) →
      (∀ n ∈ s.parkedOf s.cur.core s.ctxId x.toNat, n.tokens = 0 ∧ n.unfinished = false) →
      ∃ t, exec (.xload x a) s = .next t ∧ t = { s with images := t.images, churns := t.churns, frags := t.frags }
        ∧ t.image s.cur.core s.ctxId x.toNat = some (loadedImage data)
        ∧ (∀ k, k ≠ imageKey s.cur.core s.ctxId x.toNat → findAt t.images k = findAt s.images k)
        ∧ (∀ i < 4, t.churn s.cur.core i = if (s.churn s.cur.core i).has s.ctxId x.toNat then Churn.reset
            else s.churn s.cur.core i)
        ∧ t.fr = { s.fr with pc := s.fr.pc + 4 })
    ∧ (s.readImage (s.getS a) = .ok (s, data) → imageDetail data x.toNat false none ≠ 0 → s.TrapFree →
      ∃ t, exec (.xload x a) s = .next t
        ∧ s.Trapped t 0x61 0 (imageDetail data x.toNat false none) s.fr.pc (s.getS a) (s.tinfoWord 0))
    ∧ (∀ g, s.readImage (s.getS a) = .ok (s, data) → s.image s.cur.core s.ctxId x.toNat = some g →
      imageDetail data x.toNat true (some g) = 0 →
      ((loadedImage data).rv = g.rv → s.oldTokens s.cur.core s.ctxId x.toNat g = false → (loadedImage data).ov ≠ g.ov →
        g.strm = false →
        ∃ t, exec (.xswap x a) s = .next t ∧ t = { s with images := t.images, frags := t.frags }
          ∧ t.image s.cur.core s.ctxId x.toNat = some { g with
              ov := (loadedImage data).ov, ovp := g.ov, plane := (loadedImage data).plane, prev := g.plane }
          ∧ (∀ k, k ≠ imageKey s.cur.core s.ctxId x.toNat → findAt t.images k = findAt s.images k)
          ∧ t.fr = { s.fr with pc := s.fr.pc + 4 })
      ∧ (s.TrapFree → ∀ n, n = (if (loadedImage data).rv ≠ g.rv then 1 else
            if s.oldTokens s.cur.core s.ctxId x.toNat g then 2 else if (loadedImage data).ov = g.ov then 4 else 0) → n ≠ 0 →
        ∃ t, exec (.xswap x a) s = .next t ∧ s.Trapped t 0x63 0 n s.fr.pc 0 (s.tinfoWord 0)))
    ∧ (s.image s.cur.core s.ctxId x.toNat = none →
      exec (.xdrop x) s = .next (s.setFr { s.fr with pc := s.fr.pc + 4 }))
    ∧ (s.image s.cur.core s.ctxId x.toNat ≠ none → (s.churnRow s.cur.core).parked = [] →
      s.slotQuiet s.cur.core s.ctxId x.toNat = true →
      (∀ n ∈ s.netsOf s.cur.core s.ctxId x.toNat, n.openInv = none) →
      ∃ t, exec (.xdrop x) s = .next t ∧ t = { s with images := t.images, churns := t.churns, frags := t.frags }
        ∧ t.image s.cur.core s.ctxId x.toNat = none
        ∧ (∀ k, k ≠ imageKey s.cur.core s.ctxId x.toNat → findAt t.images k = findAt s.images k)
        ∧ (∀ i < 4, t.churn s.cur.core i = if (s.churn s.cur.core i).has s.ctxId x.toNat then Churn.reset
            else s.churn s.cur.core i)
        ∧ t.fr = { s.fr with pc := s.fr.pc + 4 })
    ∧ (∀ g i n, s.image s.cur.core s.ctxId x.toNat = some g → s.ownParked x.toNat = none → i < 4 →
      (s.churn s.cur.core i).net = some n → n.ctx = s.ctxId → n.slot = x.toNat → n.ownedBy s.cur.waveKey s.wv.task = true →
      ∃ t, exec (.xmark x) s = .next t ∧ t = { s with waves := t.waves, churns := t.churns, frags := t.frags }
        ∧ t.churn s.cur.core i = { s.churn s.cur.core i with net := some (n.mark g), rounds := 0 }
        ∧ (n.mark g).openInv = n.invs.find? (fun v => !v.marked && v.num != (n.openInv.map (·.num)).getD 0)
        ∧ t.fr = { s.fr with pc := s.fr.pc + 4 })
    ∧ (s.image s.cur.core s.ctxId x.toNat = none → ∃ t, exec (.xqry d x) s = .next t ∧ s.ScalarDone t d 0)
    ∧ (∀ g, s.image s.cur.core s.ctxId x.toNat = some g → ∃ t w, exec (.xqry d x) s = .next t ∧ s.ScalarDone t d w
        ∧ s.SlotWordHolds s.cur.core s.ctxId x.toNat g w)

/-- R274, R288, R298, R303: an `xop` of a loaded slot with registers the wave holds and a churn to go to is entered in the
churn's open or in a new invocation, and hands the tokens of its beats, element by element of its source registers, to the
sources of its graph; the fragment goes on. A slot that is not loaded raises UNLOADED, class 1. -/
def Obligations.GraphOperationResults : Prop :=
  ∀ (s : State) (n : BitVec 4) (d a b : BitVec 7) (imm : BitVec 4), s.HoldsRegs [a, b, d] →
    (∀ g i load net, s.image s.cur.core s.ctxId n.toNat = some g → s.inTx = false →
      (g.dst2 = true → d.toNat + 1 < 8 * s.wv.rblk) → s.chooseChurn n.toNat g = some (i, load) → load = none ∨ load = some none →
      net = (match load with
        | none => ((s.churn s.cur.core i).net).getD (g.freshNet s.ctxId n.toNat)
        | some _ => g.freshNet s.ctxId n.toNat) →
      ∃ t m, exec (.xop n d a b imm) s = .next t
        ∧ t = { s with churns := t.churns, frags := t.frags } ∧ t.fr = { s.fr with churnWait := none, pc := s.fr.pc + 4 }
        ∧ t.churn s.cur.core i = {
            net := some m, returns := (if load = none then (s.churn s.cur.core i).returns else 0), rounds := 0,
            lastXop := s.cycle }
        ∧ (∀ j < 4, j ≠ i → t.churn s.cur.core j = s.churn s.cur.core j)
        ∧ (t.churnRow s.cur.core).nextXop = (s.churnRow s.cur.core).nextXop + 1
        ∧ (∃ v ∈ m.invs, v.xops.getLast? = some (s.newXop d.toNat g.dst2))
        ∧ m.queues = net.queues
        ∧ ∀ ep ∈ g.sources, ∀ c < 16, m.pendAt ep c = net.pendAt ep c ++ s.beatTokens g d a b imm ep c)
    ∧ (s.image s.cur.core s.ctxId n.toNat = none → s.TrapFree →
      ∃ t, exec (.xop n d a b imm) s = .next t ∧ s.Trapped t 0x60 1 0 s.fr.pc 0 (s.tinfoWord 0))

/-- R279, R283, R289 to R294, R304: CHURN_ELEMENT_FIRE makes the step that a position has, an element that can fire taking a
token of each input and sending its result on every link; AG_STEP of a read sends the word of each lane copy and moves its
counters on; QUIESCENCE_ROUND counts rounds without tokens, returns and replies; STREAM_PARK parks the invocation idle longest
while an `xop` starves and no reply is outstanding, once its state can be written to the save area; XOP_COMPLETE writes the guarded lanes of the destination. -/
def Obligations.GraphEventResults : Prop :=
  ∀ (s : State) (core i : Nat) (n : Net) (g : ChurnImage), i < 4 → (s.churn core i).net = some n →
    s.image core n.ctx n.slot = some g →
    (∀ copy pos, copy < 16 → pos < 24 → (g.into pos).find? (n.stale copy) = none → n.canFire g copy pos = true →
      ∃ t, exec (.churnElementFire core i copy pos) s = .next t ∧ t = { s with churns := t.churns, waves := t.waves }
        ∧ (t.churn core i).net = some (n.fire g copy pos).net
        ∧ (n.fire g copy pos).net.firedAt pos copy = n.firedAt pos copy + 1)
    ∧ (∀ copy ep item rest, copy < 16 → 32 ≤ ep → ep ≤ 35 → n.pendAt ep copy = item :: rest → item.isToken = true →
      n.roomOut g copy ep = true →
      ∃ t m, exec (.churnElementFire core i copy ep) s = .next t ∧ t = { s with churns := t.churns, waves := t.waves }
        ∧ (t.churn core i).net = some m ∧ m.pendAt ep copy = rest
        ∧ ∀ l ∈ g.outOf ep, m.q l.2 copy = n.q l.2 copy ++ [item])
    ∧ (∀ ag a e xs ps (v num : Nat) (x : Option XopRec) (o : Owner) (word : Nat → Lane), ag < 2 → a = n.ag ag → num = n.passedAt (24 + ag) 0 → v = n.versionAt g num →
      e = entryAt (g.planeFor v) (24 + ag) → x = (n.inv num).bind (fun w => w.xopOf (n.firedAt (24 + ag) 0)) →
      entryOp e = 0x20 → a.stopped = none → a.abandoned = false → a.over e = false → s.accesses = [] → s.bridgesDown = [] →
      (∀ c < 16, (g.into (24 + ag)).find? (n.stale c) = none ∧ (g.into (24 + ag)).all (n.ready c) = true
        ∧ n.roomOut g c (24 + ag) = true) →
      aligned (agAddress e a) 4 = true →
      s.xlateEngine { oper := (x.map (fun r => (s.taskOf r.agent).oper)).getD 0, core := core, ctx := n.ctx, boarded := 0 }
        (distinctWords (((upFrom 0 64).map (fun k => agAddress e a + BitVec.ofNat 64 k)).map sectorVa)) .read = .ok xs →
      ps = placesIn ((distinctWords (((upFrom 0 64).map (fun k => agAddress e a + BitVec.ofNat 64 k)).map sectorVa)).zip xs)
        ((upFrom 0 64).map (fun k => agAddress e a + BitVec.ofNat 64 k)) →
      o = agOwner core i ag n x → s.allFetched o ps = true → ps.any (s.enginePoison o) = false →
      (∀ c, word c = BitVec.ofNat 32 (ofBytes (((ps.map (s.engineByte o s.mem.readByte)).drop (4 * c)).take 4))) →
      ∃ t m, exec (.agStep core i ag) s = .next t
        ∧ t = { s with churns := t.churns, waves := t.waves, fetched := s.fetched.filter (fun y => !y.of o) }
        ∧ (t.churn core i).net = some m
        ∧ m = { (n.agMove g (24 + ag) v (some (fun c => tokenOf (entryMod e % 2) (word c)))).setAg ag (a.next e) with
            invs := m.invs }
        ∧ ((∀ c < 16, tokenFlags (entryMod e % 2) (word c) = 0) → m.invs = n.invs))
    ∧ ((s.churnRow core).parked = [] → ∃ t, exec (.quiescenceRound core i) s = .next t ∧ t = { s with churns := t.churns }
        ∧ t.churn core i = { s.churn core i with
            returns := 0
            rounds := if n.tokens = 0 ∧ n.unfinished = false ∧ (s.churn core i).returns = 0 ∧ s.replyCount core i = 0
              then min 2 ((s.churn core i).rounds + 1) else 0 }
        ∧ ∀ j < 4, j ≠ i → t.churn core j = s.churn core j)
    ∧ ((∃ x ∈ s.frags, (fragIdOf x.1).core = core ∧ ∃ c, x.2.churnWait = some c ∧ c + 1024 ≤ s.cycle) →
      s.idlest core = some i → s.replyCount core i = 0 →
      (∀ u : State, s.saveStop n.ctx (s.saveRest n.ctx core) = none → u = s.saveFree n.ctx (s.saveRest n.ctx core) →
        ∃ t, exec (.streamPark core i) s = .next t ∧ t = { u with churns := t.churns }
          ∧ (t.churnRow core).parked = (u.churnRow core).parked ++ [n] ∧ t.churn core i = Churn.reset
          ∧ ∀ j < 4, j ≠ i → t.churn core j = u.churn core j)
      ∧ ∀ e, s.saveStop n.ctx (s.saveRest n.ctx core) = some e →
        exec (.streamPark core i) s = .next (s.askHub (.save n.ctx) n.ctx 2 e))
    ∧ (∀ id v j x, n.findXop id = some (v, j, x) → g.dst2 = false → x.regs = [x.regs.headD 0] → x.regs.headD 0 < 128 →
      (∀ k < 4, k ≠ i → ∀ m, (s.churn core k).net = some m → m.findXop id = none) → s.xopWave x = true →
      n.arrived g v.num j = true → n.agsDone g v.num j = true → n.settled g v.num j = true → s.replyCount core i = 0 →
      ∃ t, exec (.xopComplete core id) s = .next t
        ∧ t = { s with churns := t.churns, waves := t.waves, images := t.images }
        ∧ (∀ l < 32, laneOf ((t.wvOf x.agent).v.toList.getD (x.regs.headD 0) zeroReg) l = if l ∈ x.guarded
            then ((n.laneOut g v.num j 0 (roundingOf x.round) l).map (·.1)).getD 0
            else laneOf ((s.wvOf x.agent).v.toList.getD (x.regs.headD 0) zeroReg) l)
        ∧ (∀ r < 128, r ≠ x.regs.headD 0 →
            (t.wvOf x.agent).v.toList.getD r zeroReg = (s.wvOf x.agent).v.toList.getD r zeroReg)
        ∧ ∀ k, k ≠ x.agent.waveKey → findAt t.waves k = findAt s.waves k)

/-! ## Milk rounds (R308 to R331) -/

/-- R313 to R315, R328: outside an attempt the boarding forms write their status to s[d]: `mrboard` boards every slot of its
operator on a round that admits the context, at a stop of STOPV, where no core is served otherwise; `mrboard.t` declares its
task aboard under the tag of the active set; `mrleave` and `mrleave.t` undo the two; `mrstat` reads the word selected.
What is the model's own in it is in log entry 47. -/
def Obligations.BoardingInstructionResults : Prop :=
  ∀ (s : State) (d a : BitVec 6) (w : Word) (n stop st : Nat), w = s.getS a → n = fieldOf w 5 0 → stop = fieldOf w 11 8 →
    s.inTx = false → s.tk.oper ≠ 0 →
    (st = (if fieldOf w 63 12 ≠ 0 ∨ fieldOf w 7 6 ≠ 0 then 3 else
        match findAt s.rounds n with
        | none => 1
        | some r => if r.ctx ≠ s.ctxId ∧ s.ctxId ∉ r.shared then 1
            else if r.stopv.getLsbD stop = false then 3
            else if ∃ x ∈ s.seatsOf s.tk.oper, x.2.boarded = n + 1 ∧ x.2.stop = stop then 0
            else if s.boardClash s.tk.oper n stop then 2 else 9) →
      ∃ t, exec (.mrboard d a) s = .next t ∧ t = { s with seats := t.seats, frags := t.frags }
        ∧ s.fr.OnlyScalar t.fr d ∧ t.getS d = (if d = 0 then 0 else if st = 9 then 0 else BitVec.ofNat 64 st)
        ∧ t.fr.pc = s.fr.pc + 4 ∧ (st ≠ 9 → t.seats = s.seats)
        ∧ (st = 9 → ∀ k, findAt t.seats k = (findAt s.seats k).map (fun q =>
            if k / 256 = s.tk.oper ∧ q.held = true then { q with boarded := n + 1, stop := stop, leaving := false } else q)))
    ∧ (fieldOf w 63 16 = 0 → s.seat.boarded ≠ 0 → s.seat.leaving = false → s.tk.aboard = false →
      (s.bank s.cur.core).inactive.st ≠ 2 → (s.bank s.cur.core).active.st = 2 →
      (s.bank s.cur.core).active.user = .round (s.seat.boarded - 1) → (s.bank s.cur.core).active.tag = fieldOf w 15 0 →
      ∃ t, exec (.mrboardT d a) s = .next t
        ∧ t = { s with tasks := putAt s.tasks s.wv.task { s.tk with aboard := true }, frags := t.frags }
        ∧ s.fr.OnlyScalar t.fr d ∧ t.getS d = 0 ∧ t.fr.pc = s.fr.pc + 4)
    ∧ (∀ c, c = (if fieldOf w 63 16 ≠ 0 then 3 else if s.seat.boarded = 0 ∨ s.seat.leaving then 4 else
          if s.tk.aboard then 0 else if (s.bank s.cur.core).inactive.st = 2 then 5 else
          if (s.bank s.cur.core).active.st ≠ 2 ∨ (s.bank s.cur.core).active.user ≠ .round (s.seat.boarded - 1)
            ∨ (s.bank s.cur.core).active.tag ≠ fieldOf w 15 0 then 6 else 9) → c ≠ 9 →
        (∀ k, (s.bank s.cur.core).active.user ≠ .context k) →
      ∃ t, exec (.mrboardT d a) s = .next t ∧ s.ScalarDone t d (BitVec.ofNat 64 c))
    ∧ ((∃ x ∈ s.seatsOf s.tk.oper, x.2.boarded ≠ 0) →
      ∃ t, exec (.mrleave d) s = .next t ∧ t = { s with seats := t.seats, frags := t.frags }
        ∧ s.fr.OnlyScalar t.fr d ∧ t.getS d = 0 ∧ t.fr.pc = s.fr.pc + 4
        ∧ ∀ k, findAt t.seats k = (findAt s.seats k).map (fun q =>
            if k / 256 = s.tk.oper ∧ q.held = true ∧ q.boarded ≠ 0 then { q with leaving := true } else q))
    ∧ ((∀ x ∈ s.seatsOf s.tk.oper, x.2.boarded = 0) → ∃ t, exec (.mrleave d) s = .next t ∧ s.ScalarDone t d 4)
    ∧ (s.seat.boarded ≠ 0 → ∃ t, exec (.mrleaveT d) s = .next t
        ∧ t = { s with tasks := putAt s.tasks s.wv.task { s.tk with aboard := false }, frags := t.frags }
        ∧ s.fr.OnlyScalar t.fr d ∧ t.getS d = 0 ∧ t.fr.pc = s.fr.pc + 4)
    ∧ (s.seat.boarded = 0 → ∃ t, exec (.mrleaveT d) s = .next t ∧ s.ScalarDone t d 4)
    ∧ (∃ t x, exec (.mrstat d a) s = .next t ∧ s.ScalarDone t d x ∧ s.MrstatHolds w x)

/-- R314, R316 to R318, R321, R327: with no attempt open, a core that is boarded and free of fills and products is taken over with empty sets; a
leaving slot with no task aboard is detached; a group that is skipped is passed, one that every served core can take starts,
and one that waits starts without the others at the pass-over limit; a block that decodes and whose checksum holds fills its
macro on every core of the group; the end-of-group entry makes the sets full under its tag; and a full set is swapped in.
What is the model's own in it is in log entry 47. -/
def Obligations.MilkRoundEvents : Prop :=
  ∀ (s : State) (core n : Nat), s.attempts = [] →
    (s.boardedSeats core ≠ [] → (s.bank core).own = false → (s.bank core).fills = [] → (s.bank core).pend = 0 →
      ∃ t, exec (.boardCoreTakeover core) s = .next t ∧ t = { s with banks := t.banks, notices := t.notices }
        ∧ t.bank core = { s.bank core with
            active := BankSet.reset, inactive := BankSet.reset, own := true, ownSwap := none })
    ∧ (∀ slot oper, oper = getAt 0 s.slotMap (core * 8 + slot) → oper ≠ 0 → (s.seatOf oper core).held = true →
      (s.seatOf oper core).leaving = true → (s.seatOf oper core).boarded ≠ 0 → s.aboardOn core oper = false →
      (s.bank core).own = true ∨ 1 < (s.boardedSeats core).length →
      ∃ t, exec (.slotDetach core slot) s = .next t
        ∧ t = { s with seats := t.seats, banks := t.banks, rounds := t.rounds, notices := t.notices }
        ∧ t.seats = putAt s.seats (seatKey oper core) { s.seatOf oper core with boarded := 0, stop := 0, leaving := false }
        ∧ (t.boardedSeats core = [] → (s.bank core).own = true → t.bank core = { s.bank core with
            active := BankSet.reset, inactive := BankSet.reset, own := false, ownSwap := none })
        ∧ (t.boardedSeats core ≠ [] → t.bank core = s.bank core))
    ∧ (∀ r e, s.movingRound n = some (r, e) → r.group = none →
      (r.since = none → s.skips n r.latch e = true →
        exec (.groupStart n) s = .next { s with rounds := putAt s.rounds n (r.latch.past r.latch.groupEnd) })
      ∧ (r.since = none → s.skips n r.latch e = false → (s.servedBy n (entryStop e)).all s.takesGroup = false →
        exec (.groupStart n) s = .next { s with rounds := putAt s.rounds n { r.latch with since := some s.cycle } })
      ∧ (∀ i cores, i = Instr.groupStart n ∧ cores = s.servedBy n (entryStop e) ∧ cores.all s.takesGroup = true
            ∧ (r.since = none → s.skips n r.latch e = false)
          ∨ i = Instr.passOver n ∧ cores = (s.servedBy n (entryStop e)).filter s.takesGroup
            ∧ (∃ c, r.since = some c ∧ c + r.limit ≤ s.cycle) ∧ r.limit ≠ 0 →
        ∃ t, exec i s = .next t ∧ t = { s with rounds := t.rounds, banks := t.banks, notices := t.notices }
          ∧ (∃ q, findAt t.rounds n = some q ∧ q.group = some cores ∧ q.since = none ∧ q.pos = r.pos
            ∧ q.entries = r.entries ∧ q.passes = r.passes)
          ∧ (∀ c ∈ cores, t.bank c = { s.bank c with
              inactive := { (s.bank c).inactive with st := 1, pois := 0, user := .round n, groups := [] } })
          ∧ ∀ c, c ∉ cores → t.bank c = s.bank c))
    ∧ (∀ r e cores raw k, s.movingRound n = some (r, e) → r.group = some cores → cores.Nodup → endsGroup e = false →
      creamOf e = false → s.readBlock n r e 0xFFFF = .good raw k →
      ∃ t, exec (.blockDelivery n) s = .next t
        ∧ t = { s with
            rounds := t.rounds, banks := t.banks, contexts := t.contexts,
            fetched := s.fetched.filter (fun x => !x.of (Round.owner n r)) }
        ∧ findAt t.rounds n = some (r.past r.pos)
        ∧ (∀ c ∈ cores, t.bank c = { s.bank c with
            inactive := (s.bank c).inactive.fillMacro (entryArr e) (entryField e 52 50) (entryFmt e) raw })
        ∧ ∀ c, c ∉ cores → t.bank c = s.bank c)
    ∧ (∀ r e cores, s.movingRound n = some (r, e) → r.group = some cores → cores.Nodup → endsGroup e = true →
      ∃ t, exec (.endOfGroupEntry n) s = .next t
        ∧ t = { s with rounds := t.rounds, banks := t.banks, notices := t.notices }
        ∧ findAt t.rounds n = some { r.past r.pos with group := none, ltag := entryField e 143 128 }
        ∧ (∀ c ∈ cores, t.bank c = { s.bank c with inactive := { (s.bank c).inactive with
            tag := entryField e 143 128, arr := entryArr e, fmt := entryFmt e, st := 2 } })
        ∧ ∀ c, c ∉ cores → t.bank c = s.bank c)
    ∧ ((s.bank core).own = true → (s.bank core).inactive.st = 2 → (s.bank core).queue = [] →
      (∀ x ∈ s.tasks, x.2.core = core → x.2.aboard = false) →
      (∀ c, (s.bank core).ownSwap = some c → c + s.dwellOn core ≤ s.cycle) →
      ∃ t, exec (.roundSwap core) s = .next t ∧ t = { s with banks := t.banks, notices := t.notices }
        ∧ (t.bank core).active = (s.bank core).inactive ∧ (t.bank core).inactive = BankSet.reset
        ∧ (t.bank core).swaps = (s.bank core).swaps + 1 ∧ (t.bank core).ownSwap = some s.cycle
        ∧ (t.bank core).own = true)

/-! ## Tokens (R332 to R363) -/

/-- R338, R346 to R350: outside an attempt, with no access on its way and no attempt open, `tknew` gives a record the next id of
its context and puts it at the end of the queue's store, or answers 2^63 + 3 at the limit of live records; `tkpush` puts a
live row with one hop more at the end of a store that has room and ends the row, `tkfree` ends it, `tkhdr` exchanges its
header; `tkpop` takes the records that R348 picks out of the store into the rows of an empty entry. -/
def Obligations.RecordInstructionResults : Prop :=
  ∀ (s : State) (d a b : BitVec 6) (va : Word) (q : Nat), va = s.getS a →
    q = (s.getS b).toNat → s.inTx = false → s.accesses = [] → s.attempts = [] →
    (∀ bytes w0, va.toNat % 128 = 0 → q < 4096 → s.waveRead va = .ok (s, bytes) → malformed (wordsOf bytes 16) = none →
      s.queueOk s.ctxId s.cur.core q = true →
      w0 = mkWord0 (s.nextId s.ctxId) 0 0 false false
        (parentOf (wordsOf bytes 16) != 0 && s.idCancelled s.ctxId (parentOf (wordsOf bytes 16))) →
      (s.liveCount s.ctxId < (s.ctxOf s.ctxId).liveLimit → (s.queue q).spill = [] →
          (s.queue q).store.length < (s.queue q).cap →
        ∃ t, exec (.tknew d a b) s = .next t
          ∧ t = { s with contexts := t.contexts, queues := t.queues, notices := t.notices, frags := t.frags }
          ∧ t.queue q = (s.queue q).enter (stampRecord w0 (wordsOf bytes 16)) s.cycle
          ∧ t.ctxOf s.ctxId = { s.ctxOf s.ctxId with lastId := s.nextId s.ctxId }
          ∧ s.fr.OnlyScalar t.fr d ∧ t.getS d = (if d = 0 then 0 else BitVec.ofNat 64 (s.nextId s.ctxId))
          ∧ t.fr.pc = s.fr.pc + 4)
      ∧ ((s.ctxOf s.ctxId).liveLimit ≤ s.liveCount s.ctxId →
        ∃ t, exec (.tknew d a b) s = .next t ∧ s.ScalarDone t d (BitVec.ofNat 64 (2 ^ 63 + 3))))
    ∧ (∀ r, s.rowAt va = some r → q < 4096 → s.queueOk s.ctxId s.cur.core q = true → malformed (s.rowRecord r) = none →
      isCancelled r.live.w0 = false → (s.queue q).join = false → (s.queue q).spill = [] →
      (s.queue q).store.length < (s.queue q).cap →
      ∃ t, exec (.tkpush d a b) s = .next t
        ∧ t = { s with queues := t.queues, tiles := t.tiles, notices := t.notices, frags := t.frags }
        ∧ t.queue q = (s.queue q).enter (stampRecord (hopped r.live.w0) (s.rowRecord r)) s.cycle
        ∧ t.tileOf s.cur.core r.entry = { s.tileOf s.cur.core r.entry with
            live := (s.tileOf s.cur.core r.entry).live.filter (fun x => x.row != r.row) }
        ∧ s.fr.OnlyScalar t.fr d ∧ t.getS d = 0 ∧ t.fr.pc = s.fr.pc + 4)
    ∧ (∀ r, s.rowAt va = some r →
      exec (.tkfree a) s = .next ((s.setTile s.cur.core r.entry { s.tileOf s.cur.core r.entry with
        live := (s.tileOf s.cur.core r.entry).live.filter (fun x => x.row != r.row) }).setFr
          { s.fr with pc := s.fr.pc + 4 }))
    ∧ (∀ r ps, s.rowAt va = some r → (s.getS b).getLsbD 7 = false → ps = ((s.rowPlaces r).drop 8).take 8 →
      ∃ t, exec (.tkhdr d a b) s = .next t ∧ t = { s with mem := t.mem, notices := t.notices, frags := t.frags }
        ∧ s.Stored t (ps.zip (toBytes 8 (stampHdr r.live.w0 (s.getS b)).toNat))
        ∧ s.fr.OnlyScalar t.fr d ∧ t.getS d = (if d = 0 then 0 else BitVec.ofNat 64 (ofBytes (ps.map s.mem.readByte)))
        ∧ t.fr.pc = s.fr.pc + 4)
    ∧ (s.rowAt va = none → s.TrapFree → ∀ i ∈ [Instr.tkpush d a b, .tkfree a, .tkhdr d a b],
      ∃ t, exec i s = .next t ∧ s.Trapped t 0x81 0 1 s.fr.pc va (s.tinfoWord 0))
    ∧ (∀ e p rs, e = s.tileAt d.toNat → s.handleOk d.toNat = true → e.task = false → e.live = [] → va.toNat < 4096 →
      s.queueOk s.ctxId s.cur.core va.toNat = true → p = popPick (s.queue va.toNat).store → p.order ≠ [] →
      rs = recordsAt (s.queue va.toNat).store p.order →
      ∃ t, exec (.tkpop d a) s = .next t
        ∧ t = { s with queues := t.queues, mem := t.mem, tiles := t.tiles, notices := t.notices, frags := t.frags }
        ∧ t.queue va.toNat = { s.queue va.toNat with store := dropPlaces (s.queue va.toNat).store p.gone }
        ∧ s.Stored t (s.blockData s.tk.oper s.cur.core d.toNat rs)
        ∧ (t.tileOf s.cur.core (s.entryOf d.toNat)).live
            = rs.zipIdx.map (fun x => { row := x.2, w0 := x.1.getD 0 0, ctx := s.ctxId })
        ∧ t.fr = { s.fr with pc := s.fr.pc + 4 })

/-- R351 to R356: outside an attempt, with no access on its way and no attempt open, `tkroute` pushes a copy of its row for each
expert that is not full, or the row to the fallback queue, counts the experts, ends the row, and answers the dropped slots
and the number pushed; `tkcancel` answers how many records of its context it has marked; `tkcnt` stores the counters, answers
their sum and clears them; `comb` and `comb.rn` store the gated sum of their rows and raise its flags.
What is the model's own in it is in log entries 48 and 49. -/
def Obligations.RoutingAndCombineResults : Prop :=
  ∀ (s : State) (d a b : BitVec 6), s.inTx = false → s.accesses = [] →
    s.attempts = [] → s.stalled = false → s.deferring = false → s.bridgesDown = [] → s.fr.status = .ready →
    (∀ r bytes blk es dropped through base targets v, (s.getS b).toNat % 128 = 0 → s.rowAt (s.getS a) = some r →
      s.waveRead (s.getS b) = .ok (s, bytes) → blk = wordsOf bytes 16 → s.routeOk s.ctxId blk = true →
      (∀ q ∈ routeFallback blk :: (routeEntries blk).map (·.queue), s.queueOk s.ctxId s.cur.core q = true) →
      malformed (s.rowRecord r) = none → isCancelled r.live.w0 = false → es = routeEntries blk →
      dropped = (List.range es.length).filter (fun i => s.expertFull s.ctxId (((es[i]?).map (·.expert)).getD 0)) →
      through = (List.range es.length).filter (fun i => !dropped.contains i) →
      base = routeRecord (s.rowRecord r) es dropped →
      targets = (if through = [] then [(routeFallback blk, stampRecord (hopped (base.getD 0 0)) base)]
        else through.map (fun i => (((es[i]?).map (·.queue)).getD 0,
          copyFor (stampRecord (hopped (base.getD 0 0)) base) i))) →
      s.pushRecords targets = .ok v → s.liveCount s.ctxId + (targets.length - 1) ≤ (s.ctxOf s.ctxId).liveLimit →
      v.attempts = [] →
      ∃ t, exec (.tkroute d a b) s = .next t
        ∧ t = { v with
            contexts := t.contexts, rounds := t.rounds, mem := t.mem, tiles := t.tiles, notices := t.notices,
            frags := t.frags }
        ∧ t.getS d = (if d = 0 then 0 else
            BitVec.ofNat 64 ((dropped.foldl (fun m i => m + 2 ^ i) 0) * 2 ^ 16 + targets.length * 2 ^ 8))
        ∧ (∀ e, t.routed s.ctxId e = if e ∈ through.map (fun i => ((es[i]?).map (·.expert)).getD 0)
            then min (2 ^ 32 - 1) (v.routed s.ctxId e + 1) else v.routed s.ctxId e)
        ∧ (t.tileOf s.cur.core r.entry).live
            = (v.tileOf s.cur.core r.entry).live.filter (fun x => x.row != r.row))
    ∧ (fieldOf (s.getS a) 63 32 = 0 → s.borne s.ctxId (s.getS a).toNat = false →
      ∃ t, exec (.tkcancel d a) s = .next t ∧ s.ScalarDone t d 0)
    ∧ (∀ hs ids, fieldOf (s.getS a) 63 32 = 0 → s.borne s.ctxId (s.getS a).toNat = true →
      hs = s.heldRecords.filter (fun h => h.ctx == s.ctxId) → ids = chainOf hs [(s.getS a).toNat] hs.length →
      ∃ t, exec (.tkcancel d a) s = .next t
        ∧ t = { s with
            queues := t.queues, tiles := t.tiles, seats := t.seats, flights := t.flights, mem := t.mem,
            notices := t.notices, frags := t.frags }
        ∧ t.getS d = (if d = 0 then 0
            else BitVec.ofNat 64 (min (2 ^ 32 - 1) (hs.countP (fun h => ids.contains (idOf h.w0)))))
        ∧ (∀ q, findAt t.queues q = (findAt s.queues q).map (fun x => if x.ctx = s.ctxId then x.mark ids else x))
        ∧ t.fr.pc = s.fr.pc + 4)
    ∧ (∀ xs, (s.getS a).toNat % 128 = 0 →
      s.xlateAll ((List.range 8).map (fun k => s.getS a + BitVec.ofNat 64 (128 * k))) .write = .ok xs →
      (∀ x ∈ xs, x.2 = .here ∧ s.Reachable (placesFrom x.1 128)) →
      ∃ t, exec (.tkcnt d a) s = .next t
        ∧ t = { s with contexts := t.contexts, mem := t.mem, notices := t.notices, frags := t.frags }
        ∧ s.Stored t (xs.zipIdx.flatMap (fun x =>
            (placesFrom x.1.1 128).zip (((s.counterBytes s.ctxId).drop (128 * x.2)).take 128)))
        ∧ (∀ e, t.routed s.ctxId e = 0) ∧ s.fr.OnlyScalar t.fr d ∧ t.fr.pc = s.fr.pc + 4
        ∧ t.getS d = (if d = 0 then 0
            else BitVec.ofNat 64 ((List.range 256).foldl (fun n e => n + s.routed s.ctxId e) 0)))
    ∧ (∀ i rn n bytes r used src out data row f, (i, rn) ∈ [(Instr.comb d a b, false), (.combRn d a b, true)] →
      leastMisaligned [s.getS a, s.getS b, s.getS d] = none → n = fieldOf (s.getS (b + 1)) 15 0 →
      fieldOf (s.getS (b + 1)) 63 16 = 0 → 64 ≤ n → n ≤ 8192 → n % 64 = 0 → s.waveRead (s.getS a) = .ok (s, bytes) →
      r = wordsOf bytes 16 → (r.getD 1 0).getLsbD 7 = false → bodyOk r = true →
      used = (List.range (slotsOf r)).filter (fun k => statOf r k == 1 || statOf r k == 3) →
      s.xlateAll (used.map (fun k => sectorRun (s.getS b + BitVec.ofNat 64 (2 * n * k)) (2 * n))).flatten .read = .ok src →
      s.xlateAll (sectorRun (s.getS d) (2 * n)) .write = .ok out → s.allFetched s.waveOwner (src.flatMap (fun x => (placesFrom x.1 128).map (fun p => (p, x.2)))) = true →
      (∀ x ∈ src, s.Reachable (placesFrom x.1 128)
        ∧ ∀ p ∈ placesFrom x.1 128, s.enginePoison s.waveOwner (p, x.2) = false) →
      (∀ x ∈ out, x.2 = .here ∧ s.Reachable (placesFrom x.1 128)) →
      data = src.flatMap (fun x => (placesFrom x.1 128).map (fun p => s.engineByte s.waveOwner s.mem.readByte (p, x.2))) →
      combRow rn s.rounding n (used.map (fun k => fieldOf (r.getD (5 + k) 0) 63 32))
        (used.zipIdx.map (fun x => (data.drop (2 * n * x.2)).take (2 * n))) = (row, f) →
      ∃ t, exec i s = .next t
        ∧ t = { s with mem := t.mem, notices := t.notices, frags := t.frags, waves := t.waves }
        ∧ s.Stored t (out.zipIdx.flatMap (fun x => (placesFrom x.1.1 128).zip ((row.drop (128 * x.2)).take 128)))
        ∧ t.wv = { s.wv with fstat := s.wv.fstat ||| f } ∧ t.fr = { s.fr with pc := s.fr.pc + 4 })

/-- R357 to R359, R338, R340: outside an attempt a wave that may have the chain of its core feeds the guarded pairs of `skput`
to it in ascending lane order and owns it, and `skdrain` gives the pairs in rank order, the rest of the lanes a NaN and all
ones, and leaves the chain empty; SKIMMER_HANDOVER saves the owner's pairs after 256 cycles; SPILL_REFILL moves the oldest
spilled record into the store.
What is the model's own in it is in log entries 48 and 49. -/
def Obligations.SkimmerAndRefillResults : Prop :=
  ∀ (s : State) (k : BitVec 4) (a b d : BitVec 6) (core : Nat) (f : FragId) (q : Nat),
    (∀ c, s.inTx = false → s.chainFor = some c →
      (s.HoldsRegs [a.setWidth 7, b.setWidth 7] →
        ∃ t, exec (.skput k a b) s = .next t ∧ t = { s with chains := t.chains, waves := t.waves, frags := t.frags }
          ∧ t.chain s.cur.core = s.guarded.foldl (fun x l => { x with
              pairs := (insertPair (laneOf (s.getV (a.setWidth 7)) l, laneOf (s.getV (b.setWidth 7)) l) x.pairs).take x.k })
            { c with owner := some (s.cur.waveKey, s.wv.task), k := if c.k = 0 then k.toNat else c.k, lastPut := s.cycle }
          ∧ t.wv = { s.wv with savedChain := none } ∧ t.fr = { s.fr with skimWait := none, pc := s.fr.pc + 4 })
      ∧ (s.HoldsRegs [d.setWidth 7, d.setWidth 7 + 1] →
        ∃ t, exec (.skdrain d) s = .next t ∧ t = { s with chains := t.chains, waves := t.waves, frags := t.frags }
          ∧ t.chain s.cur.core = { Chain.reset with lastPut := (s.chain s.cur.core).lastPut }
          ∧ (∀ l < 32, laneOf (t.getV (d.setWidth 7)) l = if l ∈ s.guarded then (c.pairs.getD l (0x7FC00000, 0)).1
              else laneOf (s.getV (d.setWidth 7)) l)
          ∧ (∀ l < 32, laneOf (t.getV (d.setWidth 7 + 1)) l = if l ∈ s.guarded then (c.pairs.getD l (0, 0xFFFFFFFF)).2
              else laneOf (s.getV (d.setWidth 7 + 1)) l)
          ∧ (∀ r, r ≠ d.setWidth 7 → r ≠ d.setWidth 7 + 1 → t.getV r = s.getV r)
          ∧ t.fr = { s.fr with skimWait := none, pc := s.fr.pc + 4 }))
    ∧ (∀ o since, (s.chain core).owner = some o → (s.frOf f).skimWait = some since → f.core = core → o.1 ≠ f.waveKey →
      since + 256 ≤ s.cycle → (s.chain core).lastPut + 256 ≤ s.cycle →
      ∃ t, exec (.skimmerHandover core f) s = .next t ∧ t = { s with chains := t.chains, waves := t.waves }
        ∧ t.chain core = { Chain.reset with
            owner := some (f.waveKey, (s.wvOf f).task), lastPut := (s.chain core).lastPut }
        ∧ getAt Wave.reset t.waves o.1 = { getAt Wave.reset s.waves o.1 with
            savedChain := some ((s.chain core).k, (s.chain core).pairs) })
    ∧ (∀ e rest p xs o, s.attempts = [] → (s.queue q).spill = e :: rest → (s.queue q).store.length < (s.queue q).cap →
      s.spillPlace q e.pos .read = .ok p → xs = (placesFrom p.1 128).map (fun y => (y, p.2)) →
      o = s.queueOwner q → s.writesOut o = false → s.allFetched o xs = true → xs.any (s.enginePoison o) = false →
      ∃ t, exec (.spillRefill q) s = .next t
        ∧ t = { s with queues := t.queues, notices := t.notices, asks := t.asks, fetched := t.fetched }
        ∧ (∀ y, y ∈ t.asks ↔ y ∈ s.asks ∧ y.owner ≠ .spill q)
        ∧ (∀ y, y ∈ t.fetched ↔ y ∈ s.fetched ∧ y.issuer ≠ .frontEnd (.spill q) ∧ y.of o = false)
        ∧ (t.queue q).spill = rest
        ∧ (isCancelled e.w0 = false → t.queue q = ({ s.queue q with spill := rest } : TokenQueue).enter
            (stampRecord e.w0 (wordsOf (xs.map (s.engineByte o s.mem.readByte)) 16)) e.stamp)
        ∧ (isCancelled e.w0 = true → (t.queue q).store.length = (s.queue q).store.length)
        ∧ ∀ j, j ≠ q → t.queue j = s.queue j)

/-! ## Bridge engine, accesses on their way, and task start -/

/-- R368, R369, R375 to R384: `tick` reads the core's tick, within 1 of the device's; outside an attempt `pksend` to a queue of
this chip, with a stream and allowance for its flits, ends its row and puts the packet on its way; a packet without a row
enters its queue and its flits are on their way back, which ALLOWANCE_RETURN gives back to the stream; a wave that has waited
2^20 cycles is reported; streams open and close, ports go down and are restored, a route that has been gone for the route timeout
fails what is held for it, and TICK_SYNC measures how far the tick is from the root's.
What is the model's own in it is in log entries 28, 44, 50, 59 and 69. -/
def Obligations.BridgeEngineResults : Prop :=
  ∀ (s : State) (d a b : BitVec 6),
    (∃ t x, exec (.tick d) s = .next t ∧ s.ScalarDone t d x
      ∧ (x = BitVec.ofNat 64 s.tick ∨ x = BitVec.ofNat 64 (s.tick + 1)))
    ∧ (∀ dw drowa r k bytes, s.inTx = false → s.accesses = [] → s.attempts = [] → dw = s.getS b → drowa = s.getS (b + 1) →
      s.rowAt (s.getS a) = some r → fieldOf dw 31 25 = 0 → fieldOf dw 63 42 = 0 → dstRows dw ≤ 960 →
      (dstRows dw ≠ 0 → fieldOf drowa 5 0 = 0 ∧ fieldOf drowa 63 49 = 0 ∧ fieldOf ((s.rowRecord r).getD 3 0) 5 0 = 0) →
      malformed (s.rowRecord r) = none → dstChip dw = s.chip →
      s.streamTo s.ctxId s.cur.core (dstChip dw) (dstQueue dw) = some k → isCancelled r.live.w0 = false →
      s.packetRow ((s.rowRecord r).getD 3 0) (dstRows dw) = .ok (s, bytes) →
      packetFlits dw bytes + getAt 0 s.inUse k ≤ 1024 →
      ∃ t f, exec (.pksend d a b) s = .next t
        ∧ t = { s with
            inUse := t.inUse, tiles := t.tiles, flights := t.flights, accesses := t.accesses, notices := t.notices,
            frags := t.frags }
        ∧ t.flights = s.flights ++ [f] ∧ f.stream = k ∧ f.flits = packetFlits dw bytes ∧ f.queue = dstQueue dw
        ∧ f.ctx = k % 65536 ∧ f.row = bytes ∧ f.rowAddr = drowa.toNat ∧ f.remote = none ∧ f.stopped = none
        ∧ f.record = (if dstRows dw = 0 then stampRecord (hopped r.live.w0) (s.rowRecord r)
            else (stampRecord (hopped r.live.w0) (s.rowRecord r)).set 3 drowa)
        ∧ getAt 0 t.inUse k = getAt 0 s.inUse k + packetFlits dw bytes
        ∧ (t.tileOf s.cur.core r.entry).live
            = (s.tileOf s.cur.core r.entry).live.filter (fun x => x.row != r.row)
        ∧ s.fr.OnlyScalar t.fr d ∧ t.getS d = 0 ∧ t.fr.pc = s.fr.pc + 4)
    ∧ (∀ n f, s.attempts = [] → s.flights.find? (fun g => g.id == n) = some f → f.stopped = none → f.remote = none →
      s.heldBehind f = false → s.packetOk f = true → s.flightCut f = false → s.writesOut f.owner = false → f.row = [] → (s.queue f.queue).join = false →
      (s.queue f.queue).spill = [] → (s.queue f.queue).store.length < (s.queue f.queue).cap →
      ∃ t, exec (.packetArrival (.onChip n)) s = .next t
        ∧ t = { s with flights := t.flights, queues := t.queues, notices := t.notices, accesses := t.accesses,
                       returns := t.returns }
        ∧ t.queue f.queue = (s.queue f.queue).enter f.record s.cycle
        ∧ t.returns = s.returns ++ [(f.stream, f.flits)] ∧ (∀ g ∈ t.flights, g.id ≠ n))
    ∧ (∀ k n, s.attempts = [] → streamChip k = s.chip → (k, n) ∈ s.returns →
      ∃ t, exec (.allowanceReturn k n) s = .next t
        ∧ t = { s with returns := s.returns.erase (k, n), inUse := t.inUse, notices := t.notices }
        ∧ getAt 0 t.inUse k = getAt 0 s.inUse k - n ∧ ∀ j, j ≠ k → getAt 0 t.inUse j = getAt 0 s.inUse j)
    ∧ (∀ f k since, (s.frOf f).allowWait = some (k, since) →
      2 ^ 20 ≤ getAt 0 (s.wvOf f).waited k + (s.cycle - since) →
      ∃ t r, exec (.allowanceWaitExpiry f) s = .next t ∧ t = { s with records := t.records } ∧ r ∈ t.records
        ∧ r.cause = 0x91 ∧ r.stream = k ∧ r.core = f.core)
    ∧ (∀ k, (streamChip k ≠ s.chip → ∃ t, exec (.streamOpenReport k) s = .next t ∧ t = { s with opened := t.opened }
          ∧ ∀ j, j ∈ t.opened ↔ j ∈ s.opened ∨ j = k)
        ∧ ∃ t, exec (.streamCloseReport k) s = .next t ∧ t = { s with opened := t.opened }
          ∧ ∀ j, j ∈ t.opened ↔ j ∈ s.opened ∧ j ≠ k)
    ∧ (∀ p, p < 12 → p ∉ s.portsDown → ∃ t r, exec (.portDown p) s = .next t ∧ t.portsDown = s.portsDown ++ [p]
        ∧ t = { s with portsDown := t.portsDown, routeLost := t.routeLost, unreachable := t.unreachable,
                       records := t.records, accesses := t.accesses, replies := t.replies }
        ∧ r ∈ t.records ∧ r.cause = 0x90 ∧ r.detail = 1 ∧ r.more6 = p * 2 ^ 44
        ∧ ∀ c, t.routeUp c = (getAt [] s.routes c).any (fun q => q != p && !s.portsDown.contains q))
    ∧ (∀ p, ∃ t, exec (.portRestore p) s = .next t
        ∧ t = { s with portsDown := t.portsDown, routeLost := t.routeLost, unreachable := t.unreachable,
                       accesses := t.accesses, replies := t.replies }
        ∧ ∀ q, q ∈ t.portsDown ↔ q ∈ s.portsDown ∧ q ≠ p)
    ∧ (∀ c since, c < 4096 → findAt s.routeLost c = some since → since + s.routeTimeout ≤ s.tick →
      ∃ t, exec (.routeTimeout c) s = .next t
        ∧ (s.copies = [] →
          t = { s with accesses := t.accesses, frags := t.frags, unreachable := t.unreachable, records := t.records })
        ∧ c ∈ t.unreachable ∧ (∀ x ∈ t.accesses, x.target = .chip c → x.sent = true → x.failed = true)
        ∧ ∀ x ∈ (s.loseCopies c).accesses, x.target = .chip c → x.sent = true → x.failed = false →
          ∃ r ∈ t.records, r.cause = 0x90 ∧ r.detail = 3 ∧ r.word7 = c ∧ r.ctx = x.ctx)
    ∧ (∀ (m : BitVec 64) (off : Int), off = (m.toNat : Int) - s.tick →
        (off.natAbs ≤ 2 → ∃ t, exec (.tickSync m) s = .next t
          ∧ t = { s with tickOff := off, slewed := t.slewed, synced := true })
        ∧ (2 < off.natAbs → ∃ t r, exec (.tickSync m) s = .next t
          ∧ t = { s with tickOff := off, slewed := t.slewed, synced := false, records := t.records }
          ∧ r ∈ t.records ∧ r.cause = 0x90 ∧ r.detail = 2))

/-- R99, R112, R113, R116, R200 to R202, R379, R426: the one access on its way is performed, a store putting its bytes at its
places, a load giving its register the bytes and its waiting fragment leave to go on; a request of another chip is answered,
one with a number performed once; an answer from another chip is delivered; what a walk finds is held, a translation or an entry
that is not present; a fetch that fails suspends; an uncorrectable error poisons its sector; a corrected error is counted, and a
lasting location retired.
What is the model's own in it is in log entries 5, 36, 61, 69, 72 and 85. -/
def Obligations.MemorySystemEvents : Prop :=
  ∀ (s : State) (n : Nat), s.attempts = [] →
    (∀ a i c, s.accesses = [a] → a.id = n → (i, a.target) ∈ [(Instr.memoryAccessPerformed n, Target.here),
        (.peerArrival n, .peer c)] → a.final = none → (∀ k ∈ a.op.keys, s.lineLost k = false ∧ s.linePinned k = true) →
      (∀ data, s.redirect a.op = .store data → (∀ got, (s.frOf a.agent).status ≠ .awaiting n got) →
        (s.frOf a.agent).status ≠ .fetching →
        ∃ t, exec i s = .next t ∧ t = { s with accesses := [], mem := t.mem, notices := t.notices } ∧ s.Stored t data)
      ∧ (∀ ps d, s.redirect a.op = .load ps (.scalar d) → d < 64 → (s.frOf a.agent).status = .awaiting n [] →
        a.ofWave = true → a.sent = true → (∀ p ∈ ps, s.mem.poisoned p.key = false) →
        ∃ t f, exec i s = .next t ∧ t = { s with accesses := [], frags := t.frags }
          ∧ f = (s.frOf a.agent).setS (BitVec.ofNat 6 d) (BitVec.ofNat 64 (ofBytes (ps.map s.mem.readByte)))
          ∧ t.frOf a.agent = { f with status := .ready, pc := f.pc + 4 }
          ∧ ∀ k, k ≠ a.agent.key → findAt t.frags k = findAt s.frags k))
    ∧ (∀ r : RemoteRequest, (∀ p ∈ requestPlaces r, localOk p.key = true) → s.bridgesDown = [] →
      (∀ k, r.seq = none → r.op = .read k → exec (.remoteRequestArrival r) s = .next { s with
        replies := s.replies ++ [.remote r.chip r.die none ((requestPlaces r).map s.mem.readByte)
          ((requestPlaces r).any (fun p => s.mem.poisoned p.key)) 0] })
      ∧ (∀ q data poisoned, r.seq = some q → r.op = .write data poisoned → (poisoned = true → s.accesses = []) →
        (s.window (pairKey r.chip r.die)).has q = false →
        ∃ t, exec (.remoteRequestArrival r) s = .next t
          ∧ t = { s with mem := t.mem, notices := t.notices, peerSeq := t.peerSeq, replies := t.replies }
          ∧ s.Stored t (((requestPlaces r).zip data).filterMap (fun x => x.2.map (fun y => (x.1, y))))
          ∧ (poisoned = true → ∀ p ∈ (requestPlaces r).head?, t.mem.poisoned p.key = true)
          ∧ t.replies = s.replies ++ [.remote r.chip r.die (some q) [] false 0])
      ∧ (∀ q, r.seq = some q → (s.window (pairKey r.chip r.die)).has q = true →
        ∃ t, exec (.remoteRequestArrival r) s = .next t ∧ t = { s with replies := t.replies }
          ∧ t.replies.length = s.replies.length + 1))
    ∧ (∀ a c, s.accesses = [a] → a.id = n → a.target = .chip c → a.sent = true → a.failed = false → a.ofWave = true →
      a.final = none →
      (∀ x, a.op = .store x → (s.wvOf a.agent).task = a.task → (∀ got, (s.frOf a.agent).status ≠ .awaiting n got) →
        (s.frOf a.agent).status ≠ .fetching →
        exec (.remoteResponse n [] false) s = .next ({ s with accesses := [] }.setWvOf a.agent
          { s.wvOf a.agent with acks := (s.wvOf a.agent).acks - 1 }))
      ∧ (∀ ps d data, a.op = .load ps (.scalar d) → d < 64 → (s.frOf a.agent).status = .awaiting n [] →
        data.length = a.op.answerSize →
        ∃ t f, exec (.remoteResponse n data false) s = .next t ∧ t = { s with accesses := [], frags := t.frags }
          ∧ f = (s.frOf a.agent).setS (BitVec.ofNat 6 d) (BitVec.ofNat 64 (ofBytes (a.op.answerBytes data)))
          ∧ t.frOf a.agent = { f with status := .ready, pc := f.pc + 4 }))
    ∧ (∀ core ctx va, core < 256 → va.toNat < windowBase → (s.tlb.filter (·.core == core)).length < 64 →
      (s.tlb.filter (·.core == sharedTlb core)).length < 16384 →
      (∀ l, s.walk core ctx va.toNat = .ok l → ∃ t e e', exec (.pageWalkComplete core ctx va) s = .next t
        ∧ t = { s with tlb := e :: e' :: s.tlb, walks := t.walks } ∧ e.core = core ∧ e.ctx = ctx
        ∧ e.va = va.toNat / l.size * l.size ∧ e.size = l.size ∧ e.pa = l.pa ∧ e.keyId = l.keyId ∧ e.kind = l.kind
        ∧ e.cached = l.cached ∧ e.exec = l.exec ∧ e.write = l.write ∧ e.read = l.read ∧ e.home = l.home ∧ e.missing = none
        ∧ e' = { e with core := sharedTlb core })
      ∧ ∀ n, s.walk core ctx va.toNat = .error n → n ≠ 6 → ∃ t e, exec (.pageWalkComplete core ctx va) s = .next t
        ∧ t = { s with tlb := e :: { e with core := sharedTlb core } :: s.tlb, walks := t.walks } ∧ e.core = core ∧ e.ctx = ctx
        ∧ e.missing = some n ∧ e.va ≤ va.toNat ∧ va.toNat < e.va + e.size)
    ∧ (∀ cause detail, s.inTx = false → s.xlate s.fr.pc .fetch = .error (cause, detail) →
      ∃ t r, exec .instructionFetchFault s = .next t ∧ r ∈ t.records ∧ s.cur ∈ r.suspended
        ∧ r.ctx = s.ctxId ∧ r.access = Need.fetch.code ∧ r.page = s.pageOf s.cur.core s.ctxId s.fr.pc
        ∧ ((∀ x ∈ s.records, x.merges
            { s.waveRecord s.cur cause detail Need.fetch.code s.fr.pc with
              page := s.pageOf s.cur.core s.ctxId s.fr.pc, suspended := [s.cur] } = false) →
          r.cause = cause ∧ r.detail = detail ∧ r.va = s.fr.pc)
        ∧ t = { s with records := t.records, frags := t.frags }
        ∧ t.fr = { s.fr with status := .suspended r.id })
    ∧ (∀ loc sector, s.accesses = [] → localOk n = true → (loc, sector) ∈ [(RasLocation.hbmRow n, none), (.vaultRow n, none),
        (.l1Way 0 0, some n), (.l2Way 0 0 0, some n)] → locationOk loc = true →
      ∃ t, exec (.uncorrectableError { loc := loc, sector := sector }) s = .next t ∧ t.mem.poisoned n = true
        ∧ t.frags = s.frags ∧ t.waves = s.waves)
    ∧ (∀ d b, exec (.correctedError (.dieBridge d b)) s = .next s)
    ∧ (∀ l w kept, locationOk l = true → RasLocation.holdsBits l = true → w = windowOf l → locationName l = l →
      kept = s.ras.counts.filter (fun c => decide (s.tick < c.2 + (windowOf c.1).1)) ++ [(l, s.tick)] →
      (kept.countP (fun c => c.1 == l) < w.2 → exec (.correctedError l) s
        = .next { s with ras := { s.ras with counts := kept, corrected := s.ras.corrected + 1 } })
      ∧ (∀ c k, l = .l1Way c k → w.2 ≤ kept.countP (fun c => c.1 == l) → 12 < s.l1Ways c → l ∉ s.ras.retired →
        ∃ t, exec (.correctedError l) s = .next t ∧ t.ras.retired = s.ras.retired ++ [l]
          ∧ t.l1Ways c + 1 = s.l1Ways c ∧ t.ras.corrected = s.ras.corrected + 1))

/-- R22 to R24, R29 to R33, R35: a task that starts takes wave slots and blocks of its core for its gang, each wave begun with
the registers that R22 gives; a firing takes the records that R30 picks out of the queue into the record block of an entry,
which fills, and makes a task that waits to start; a wave ready for 256 cycles rises by one class; and a refill adds each
limit to its bucket, capped at four times the limit.
What is the model's own in it is in log entries 11, 48 and 54. -/
def Obligations.TaskStartAndFiring : Prop :=
  ∀ (s : State) (core : Nat),
    (∀ key t o slots, (s.coreOf core).lastStart ≠ some s.cycle → s.nextStart core = some (key, t) → t.state = .queued →
      t.core = core → o = getAt Operator.reset s.operators t.oper → slots = chooseFrom s.fresh o.gang.1 (s.freeSlots core) →
      core < 256 →
      ∃ u t1, exec (.taskStart core) s = .next u
        ∧ u = { s with fresh := s.fresh + 1, cores := u.cores, tasks := u.tasks, waves := u.waves, frags := u.frags }
        ∧ t1 = { t with
            state := .running, number := (s.coreOf core).taskCount % 65536, age := s.cycle, waves := slots }
        ∧ findAt u.tasks key = some t1
        ∧ u.coreOf core = { s.coreOf core with
            taskCount := (s.coreOf core).taskCount + 1, freeBlocks := (s.coreOf core).freeBlocks - o.gang.2,
            lastStart := some s.cycle }
        ∧ ∀ x ∈ slots.zip (gangWaves o.roles), ∀ f : FragId, f = { core := core, wave := x.1, frag := 0 } →
          u.wvOf f = { Wave.reset with
            task := key, roleClass := x.2.1.cls, rblk := x.2.1.regs, tvec := (s.ctxOf t.ctx).tvec }
          ∧ (u.frOf f).pc = x.2.1.entry ∧ (u.frOf f).mr = x.2.1.mrInit ∧ (u.frOf f).lmask = BitVec.allOnes 32
          ∧ (u.frOf f).depth = 0 ∧ (u.frOf f).status = .ready
          ∧ (u.frOf f).getS 1 = BitVec.ofNat 64 (t.tile - (s.seatOf t.oper core).partBase)
          ∧ (u.frOf f).getS 2 = x.2.1.arg ∧ (u.frOf f).getS 3 = BitVec.ofNat 64 x.2.2
          ∧ (u.frOf f).getS 4 = BitVec.ofNat 64 (windowBase + 255 * 2 ^ 24 + 1024 * (t.tile - (s.seatOf t.oper core).partBase))
          ∧ (u.frOf f).getS 5 = BitVec.ofNat 64 t.rows
          ∧ (u.frOf f).getS 63 = x.2.1.stkBase + BitVec.ofNat 64 ((x.2.2 + 1) * x.2.1.stkSize)
          ∧ (∀ n : BitVec 6, n = 0 ∨ 6 ≤ n.toNat ∧ n.toNat ≤ 62 → (u.frOf f).getS n = 0)
          ∧ (u.frOf f).p.toList = BitVec.allOnes 32 :: List.replicate 7 0)
    ∧ (∀ q x oper o c p rs, s.attempts = [] → findAt s.queues q = some x → s.feeds q = some (oper, o) →
      s.nextPail oper o x.lastCore = some c → s.firingDue x o.timeout = true → p = firePick x.store o.timeout s.cycle →
      rs = recordsAt x.store p.order → rs ≠ [] →
      ∃ t e key, exec (.pailFiring q) s = .next t ∧ e ∈ s.openEntries oper c ∧ key = s.nextTask
        ∧ t = { s with
            fresh := s.fresh + 1, queues := t.queues, mem := t.mem, tiles := t.tiles, tasks := t.tasks,
            contexts := t.contexts, notices := t.notices, lastTask := key }
        ∧ t.queue q = { x with store := dropPlaces x.store p.gone, lastCore := c }
        ∧ s.Stored t (s.blockData oper c (e - (s.seatOf oper c).partBase) rs)
        ∧ (t.tileOf c e).state = 1 ∧ (t.tileOf c e).task = true ∧ (t.tileOf c e).liveTask = key
        ∧ (t.tileOf c e).live = rs.zipIdx.map (fun y => { row := y.2, w0 := y.1.getD 0 0, ctx := o.ctx })
        ∧ (∃ k, findAt t.tasks key = some k ∧ k.state = .queued ∧ k.core = c ∧ k.oper = oper ∧ k.ctx = o.ctx
          ∧ k.tile = e ∧ k.rows = rs.length ∧ k.fired = s.cycle))
    ∧ (∀ wave f, f = ({ core := core, wave := wave, frag := 0 } : FragId) → (findAt s.waves f.waveKey).isSome = true →
      256 * ((s.wvOf f).raised + 1) ≤ (s.wvOf f).readyCycles → (s.wvOf f).roleClass + (s.wvOf f).raised < 3 →
      exec (.waveClassRaise core wave) s = .next (s.setWvOf f { s.wvOf f with raised := (s.wvOf f).raised + 1 }))
    ∧ (s.refills < s.cycle / 600 → ∃ t, exec .budgetRefill s = .next t ∧ t = { s with refills := s.refills + 1,
                                                                                       contexts := t.contexts }
        ∧ ∀ c x, findAt s.contexts c = some x → ∃ y, findAt t.contexts c = some y
          ∧ ∀ (k : Fin 4) (r : Nat), r < 3 → y.budgets[k].limits = x.budgets[k].limits
            ∧ (y.budgets[k].buckets.getD r 0 = if x.budgets[k].limits.getD r 0 = 0 then x.budgets[k].buckets.getD r 0
                else min (4 * (x.budgets[k].limits.getD r 0 : Int))
                  (x.budgets[k].buckets.getD r 0 + (x.budgets[k].limits.getD r 0 : Int))))

/-! ## Host queues and host commands (R391 to R423) -/

/-- R395 to R399, R403: a command that the first checks refuse, or that names no opcode, completes with its status and no other
effect; one whose SEQ is not the next stops the queue, state 3 where the ring has been lapped and 4 otherwise; a command
completed moves HQ_CONS to its SEQ and, with EV or a status that is not 0, posts its event; an event that has room is
written to the ring and its number is the posted one; a doorbell beyond the ring stops the queue.
What is the model's own in it is in log entries 18, 24 and 40. -/
def Obligations.CommandCompletion : Prop :=
  ∀ (s s0 : State) (q op : Nat) (c : HostCmd),
    (∀ k, s.Commands s0 q op c → c.begun = false → s0.commandFault c op = k + 1 → op < 0x1A →
      ∀ p ∈ [(Instr.nop q, 0x00), (.qcreate q, 0x01), (.setbudget q, 0x10), (.submit q, 0x09), (.launch q, 0x0A), (.kill q, 0x0F)],
        p.2 = op → exec p.1 s = .next (s0.finishCommand c (k + 1) 0 0))
    ∧ (s.Commands s0 q op c → c.begun = false → 0x1A ≤ op → exec (.nop q) s = .next (s0.finishCommand c 1 0 0))
    ∧ (s0 = s.sweep.pollThrottles → s0.canCommand q = true → c = s0.commandOf q → (c.w 0).toNat ≠ c.seq →
      exec (.nop q) s = .next (s0.stopRing q
        (if c.seq < (c.w 0).toNat ∧ ((c.w 0).toNat - c.seq) % 2 ^ (s0.hq q).logN = 0 then 3 else 4)))
    ∧ (s0.canCommand q = false → s0 = s.sweep.pollThrottles → exec (.nop q) s = .next s0)
    ∧ (∀ status result detail, s.attempts = [] → (s.finishCommand c status result detail).frags = s.frags
        ∧ (s.finishCommand c status result detail).waves = s.waves)
    ∧ (∀ status result detail, ((s.finishCommand c status result detail).hq c.queue).cons = c.seq
        ∧ ((s.finishCommand c status result detail).hq c.queue).begun = []
        ∧ (c.ev = false → status = 0 → ((s.finishCommand c status result detail).hq c.queue).evPost = (s.hq c.queue).evPost)
        ∧ (c.ev = true ∨ status ≠ 0 → s.hostWorks = true → s.ras.recovering = false → (s.hq c.queue).held = [] → (s.hq c.queue).st = 1 →
            (s.hq c.queue).evPost + 1 ≤ (s.hq c.queue).evHead + 2 ^ (s.hq c.queue).logM →
            ((s.finishCommand c status result detail).hq c.queue).evPost = (s.hq c.queue).evPost + 1))
    ∧ (∀ ws, s.hostWorks = true → (s.hq q).held = [] → (s.hq q).evHead + 2 ^ (s.hq q).logM < (s.hq q).evPost + 1 →
        (s.postEvent q ws).hq q = { s.hq q with held := [ws] })
    ∧ (∀ v : Word, (s.hq q).st = 1 → (s.hq q).dbVal < v.toNat →
      (v.toNat ≤ (s.hq q).cons + 2 ^ (s.hq q).logN →
        exec (.hqDoorbell q v) s = .next (s.setHq q { s.hq q with dbVal := v.toNat }))
      ∧ ((s.hq q).cons + 2 ^ (s.hq q).logN < v.toNat → s.hostWorks = true → s.ras.recovering = false →
        ∃ t, exec (.hqDoorbell q v) s = .next t ∧ (t.hq q).st = 3 ∧ (t.hq q).cons = (s.hq q).cons))

/-- R391, R393, R398, R399, R403, R407 to R411, R415: what the commands on queues, contexts, budgets, keys, groups and graphs do
before they complete with status 0; CTXCREATE and INSTALL complete with status 7 where what they read cannot be read, and INSTALL
waits where it has to be asked for.
What is the model's own in it is in log entries 26, 27, 29, 30, 37, 39 and 40. -/
def Obligations.ContextAndGraphCommands : Prop :=
  ∀ (s s0 : State) (q : Nat) (c : HostCmd),
    (s.CommandReady s0 q 0x00 c → exec (.nop q) s = .next (s0.finishCommand c 0 0 0))
    ∧ (∀ h n, s.CommandReady s0 q 0x01 c → h = c.newQueue → n = c.f 6 12 0 → n ≠ 0 → ringSizesOk h.logN h.logM = true →
      h.cmdBase % 64 = 0 → h.evBase % 64 = 0 → h.stbBase % 64 = 0 → (findAt s0.contexts h.ctx).isSome = true →
      (s0.hq n).st = 0 ∨ (s0.hq n).st = 2 → (s0.hq n).held = [] →
      s0.hostQueues.countP (fun x => x.1 != 0 && x.2.ctx == h.ctx && x.2.inUse) < 1024 → s0.hostWorks = true →
      ∃ u : State, exec (.qcreate q) s = .next (u.finishCommand c 0 0 0) ∧ (u.hq n).st = 1 ∧ (u.hq n).ctx = c.f 5 47 32
        ∧ (u.hq n).logN = c.f 5 4 0 ∧ (u.hq n).logM = c.f 5 12 8 ∧ (u.hq n).vector = c.f 5 26 16
        ∧ (u.hq n).cmdBase = (c.w 2).toNat ∧ (u.hq n).evBase = (c.w 3).toNat ∧ (u.hq n).stbBase = (c.w 4).toNat
        ∧ (u.hq n).cons = 0 ∧ (u.hq n).evPost = 0 ∧ (u.hq n).dbVal = 0 ∧ ∀ j, j ≠ n → u.hq j = s0.hq j)
    ∧ (∀ n, s.CommandReady s0 q 0x02 c → n = c.f 2 12 0 → n ≠ 0 → (s0.hq n).inUse = true → s0.hostWorks = true →
      ∃ u : State, exec (.qdestroy q) s = .next (u.finishCommand c 0 0 0) ∧ (u.hq n).st = 2
        ∧ (∀ l ∈ u.launches, l.queue = n → l.started = true) ∧ ∀ j, j ≠ n → u.hq j = s0.hq j)
    ∧ (∀ n, s.CommandReady s0 q 0x03 c → n = c.f 2 12 0 → n ≠ 0 → (s0.hq n).inUse = true → (s0.hq n).held = [] →
      s0.hostWorks = true → ∃ u : State, exec (.qrestart q) s = .next (u.finishCommand c 0 0 0) ∧ (u.hq n).st = 1
        ∧ (u.hq n).dbVal = (s0.hq n).cons ∧ (u.hq n).cons = (s0.hq n).cons ∧ ∀ j, j ≠ n → u.hq j = s0.hq j)
    ∧ (∀ v k, s.CommandReady s0 q 0x04 c → s0.control.failed = false → (c.w 2).toNat % 64 = 0 →
      s0.descNat (c.reader 0) (c.w 2).toNat 128 = .ok v → ctxDescOk v = true → findAt s0.contexts (bitsOf v 15 0) = none →
      s0.freeKey = some k →
      exec (.ctxcreate q) s = .next ((s0.setCtx (bitsOf v 15 0) (contextOf v k s0.tick)).finishCommand c 0 0 0)
        ∧ (contextOf v k s0.tick).state = .active ∧ (contextOf v k s0.tick).keyId = k
        ∧ (contextOf v k s0.tick).root = bitsOf v 127 64 ∧ (contextOf v k s0.tick).tvec.toNat = bitsOf v 191 128 % 2 ^ 64)
    ∧ (∀ e, s.CommandReady s0 q 0x04 c → s0.control.failed = false → (c.w 2).toNat % 64 = 0 →
      s0.descNat (c.reader 0) (c.w 2).toNat 128 = .error e → e.fails = true →
      exec (.ctxcreate q) s = .next (s0.finishCommand c 7 0 0))
    ∧ (∀ (x : Nat) (u : State), s.CommandReady s0 q 0x05 c → x = c.f 2 15 0 → x ≠ 0 → (findAt s0.contexts x).isSome = true →
      u = (s0.destroy x).sweep →
      (findAt u.contexts x = none → exec (.ctxdestroy q) s = .next (u.finishCommand c 0 0 0))
      ∧ (∀ v, v = s0.setCtx x { s0.ctxOf x with frozen := true } → (findAt u.contexts x).isSome = true →
        exec (.ctxdestroy q) s = .next (v.setHq q { v.hq q with begun := c.words })))
    ∧ (∀ x k b, s.CommandReady s0 q 0x10 c → x = c.f 2 15 0 → k = c.f 2 17 16 → (findAt s0.contexts x).isSome = true →
      b = (s0.ctxOf x).budgets.toList.getD k Budget.reset →
      ∃ u : State, exec (.setbudget q) s = .next (u.finishCommand c 0 0 0) ∧ u = { s0 with contexts := u.contexts }
        ∧ ((u.ctxOf x).budgets.toList.getD k Budget.reset).limits = [(c.w 3).toNat, (c.w 4).toNat, (c.w 5).toNat]
        ∧ (∀ i < 3, ((u.ctxOf x).budgets.toList.getD k Budget.reset).buckets.getD i 0 =
            if (c.w (3 + i)).toNat = b.limits.getD i 0 then b.buckets.getD i 0 else ((c.w (3 + i)).toNat : Int))
        ∧ (∀ j < 4, j ≠ k → (u.ctxOf x).budgets.toList.getD j Budget.reset = (s0.ctxOf x).budgets.toList.getD j Budget.reset)
        ∧ ∀ y, y ≠ x → u.ctxOf y = s0.ctxOf y)
    ∧ (s.CommandReady s0 q 0x11 c → (c.w 2).toNat % 8 = 0 → s0.hostWorks = true →
      exec (.qbudget q) s = .next ((s0.hostWrite (c.w 2).toNat ((s0.ctxOf c.ctx).budgets.toList.flatMap (fun b =>
        [0, 1, 2].flatMap (fun i => toBytes 8 (BitVec.ofInt 64 (b.buckets.getD i 0)).toNat)))).finishCommand c 0 0 0))
    ∧ (∀ k, s.CommandReady s0 q 0x14 c → (findAt s0.contexts (c.f 2 15 0)).isSome = true →
      (findAt s0.contexts (c.f 2 31 16)).isSome = true → s0.freeKey = some k →
      exec (.keyalloc q) s = .next (({ s0 with sharedKeys := s0.sharedKeys ++ [(k, c.f 2 15 0, c.f 2 31 16)] } :
        State).finishCommand c 0 (BitVec.ofNat 64 k) 0)
      ∧ 1 ≤ k ∧ k < 1024 ∧ (∀ x ∈ s0.contexts, x.2.keyId ≠ k) ∧ ∀ x ∈ s0.sharedKeys, x.1 ≠ k)
    ∧ (∀ m, s.CommandReady s0 q 0x06 c → (findAt s0.contexts (c.f 2 31 16)).isSome = true →
      (∀ x ∈ s0.operators, x.2.group ≠ c.f 2 7 0) →
      ((c.w 2).getLsbD 32 = false →
        exec (.groupset q) s = .next (({ s0 with groups := dropAt s0.groups (c.f 2 7 0) } : State).finishCommand c 0 0 0))
      ∧ ((c.w 2).getLsbD 32 = true → s0.descNat (c.reader 0) (c.w 3).toNat 32 = .ok m → m ≠ 0 →
        ∃ (u : State) (g : Group), exec (.groupset q) s = .next (u.finishCommand c 0 0 0) ∧ u = { s0 with groups := u.groups }
          ∧ findAt u.groups (c.f 2 7 0) = some g ∧ g.valid = true ∧ g.ctx = c.f 2 31 16
          ∧ ∀ k, k ∈ g.members ↔ k < 256 ∧ m.testBit k = true))
    ∧ (∀ (u : State), s.CommandReady s0 q 0x07 c → s0.installGraph (c.reader c.ctx) (c.w 2).toNat = .ok (u, 0) →
      exec (.install q) s = .next (u.finishCommand c 0 0 0))
    ∧ (∀ e, s.CommandReady s0 q 0x07 c → s0.installGraph (c.reader c.ctx) (c.w 2).toNat = .error e →
      (e.fails = true → exec (.install q) s = .next (s0.finishCommand c 7 0 0))
      ∧ (e.fails = false → exec (.install q) s = .next (s0.askHub (.queue q) c.ctx 1 e)))
    ∧ (∀ (g : Nat) (u : State), s.CommandReady s0 q 0x08 c → g = c.f 2 15 0 → (s0.ctxOf c.ctx).state = .active → s0.hasGraph c.ctx g = true →
      u = s0.leaveGraph c.ctx g →
      (u.graphDrained c.ctx g = true → exec (.remove q) s = .next ((u.removeGraph c.ctx g).finishCommand c 0 0 0))
      ∧ (u.graphDrained c.ctx g = false → exec (.remove q) s = .next (u.setHq q { u.hq q with begun := c.words }))
      ∧ u = { s0 with operators := u.operators, seats := u.seats }
      ∧ ∀ o core, (getAt Operator.reset s0.operators o).ctx = c.ctx → (getAt Operator.reset s0.operators o).graph = g →
        (getAt Operator.reset s0.operators o).removed = false → (findAt s0.operators o).isSome = true → core < 256 →
        (s0.seatOf o core).state = .installed → (u.seatOf o core).state = .draining)

/-- R382, R385, R401, R402, R404, R407, R412 to R414, R416 to R419, R422, R423: what the commands on work, pre-emption, faults,
routes, rounds and the run list do before they complete, and the steps by which a launch starts and completes and a turn of
the run list ends.
What is the model's own in it is in log entries 29, 32, 41, 42 and 43. -/
def Obligations.WorkAndFaultCommands : Prop :=
  ∀ (s s0 : State) (q : Nat) (c : HostCmd),
    (∀ n x r, s.CommandReady s0 q 0x09 c → q = 0 → (s0.ctxOf c.ctx).state = .active → findAt s0.queues (c.f 3 11 0) = some x →
      x.ctx = c.ctx → n = c.f 4 12 0 → n ≤ 4096 → (c.w 2).toNat % 128 = 0 → s0.isThrottled c.ctx x.graph = false →
      s0.hostWorks = true → s0.makeRecords c.ctx (c.f 3 11 0) (s0.readImages (c.reader c.ctx) (c.w 2).toNat n) = .ok r →
      exec (.submit q) s = .next ((r.1.hostWrite (c.w 5).toNat (r.2.flatMap (toBytes 8))).finishCommand c 0
        (BitVec.ofNat 64 (r.2.countP (fun w => decide (w < 2 ^ 63)))) 0))
    ∧ (s.CommandReady s0 q 0x0A c → (s0.ctxOf c.ctx).state = .active → c.f 2 28 16 ≤ 4096 → (c.w 3).toNat % 128 = 0 →
      s0.hasGraph c.ctx (c.f 2 15 0) = true →
      ∃ t l, exec (.launch q) s = .next t
        ∧ t = { s0 with launches := s0.launches ++ [l], hostQueues := putAt s0.hostQueues q { s0.hq q with begun := c.words } }
        ∧ l.queue = q ∧ l.seq = c.seq ∧ l.ctx = c.ctx ∧ l.graph = c.f 2 15 0 ∧ l.count = c.f 2 28 16 ∧ l.started = false
        ∧ l.tick = (c.w 4).toNat ∧ (l.late = true ↔ (c.w 4).toNat ≠ 0 ∧ (c.w 4).toNat < s0.tick))
    ∧ (∀ n l k r, s0 = s.sweep.pollThrottles → s0.launches.find? (fun m => m.id == n) = some l → l.started = false →
      (s0.hq l.queue).st = 1 → (s0.hq l.queue).begun ≠ [] → (s0.hq l.queue).held = [] → s0.ras.recovering = false →
      s0.launchFree l = true → l.tick ≤ s0.tick → s0.isThrottled l.ctx l.graph = false → (s0.ctxOf l.ctx).state = .active →
      s0.graphInput l.ctx l.graph = some k →
      s0.makeRecords l.ctx k (s0.readImages l.reader l.records.toNat l.count) = .ok r →
      imagesWait (s0.readImages l.reader l.records.toNat l.count) = none →
      ∃ u : State, exec (.launchStart n) s = .next (u.finishCommand (s0.commandOf l.queue) 0 0 (if l.late then 1 else 0))
        ∧ u = { r.1 with launches := u.launches, asks := u.asks, fetched := u.fetched }
        ∧ u.launches = r.1.launches.map (fun m => if m.id = l.id then { l with
            started := true, made := r.2.countP (fun w => decide (w < 2 ^ 63)), missed := missedWord r.2 } else m))
    ∧ (∀ n l, s0 = s.sweep → s0.launches.find? (fun m => m.id == n) = some l → l.started = true →
      s0.graphIdle l.ctx l.graph = true → s0.ras.recovering = false → s0.hostWorks = true →
      ((s0.launches.map (·.id)).Nodup →
        (∀ m ∈ s0.launches, m.started = true → m.ctx = l.ctx → m.graph = l.graph → m.queue = 0) →
        ∃ t, exec (.launchComplete n) s = .next t
          ∧ ∀ m, m ∈ t.launches ↔ m ∈ s0.launches ∧ ¬(m.started = true ∧ m.ctx = l.ctx ∧ m.graph = l.graph))
      ∧ (s0.startedLaunches l.ctx l.graph = [l] → l.queue = 0 →
        ∃ u : State, exec (.launchComplete n) s = .next (u.postEvent 0 (l.event 0))
          ∧ u.launches = s0.launches.filter (fun m => m.id != l.id)
          ∧ (l.fence.toNat = 0 → u.mem = s0.mem)
          ∧ (l.fence.toNat ≠ 0 → u.mem = (s0.hostWrite l.fence.toNat (toBytes 8 l.fenceValue.toNat)).mem)))
    ∧ (∀ x, s.CommandReady s0 q 0x0B c → x = c.f 2 15 0 → x ≠ 0 → (findAt s0.contexts x).isSome = true →
      (s0.ctxOf x).state = .active →
      ∃ u : State, exec (.preempt q) s = .next (u.finishCommand c 0 0 0) ∧ u = { s0 with contexts := u.contexts, seats := u.seats }
        ∧ (u.ctxOf x).state = .draining ∧ (u.ctxOf x).preemptAt = s0.tick
        ∧ ∀ o core, (getAt Operator.reset s0.operators o).ctx = x → core < 256 → (s0.seatOf o core).state = .installed →
          (u.seatOf o core).state = .draining)
    ∧ (∀ (x : Nat) (u : State), s.CommandReady s0 q 0x0C c → x = c.f 2 15 0 → x ≠ 0 → (findAt s0.contexts x).isSome = true →
      (s0.ctxOf x).state = .saved → s0.restoreContext x = some u → s0.restoreStop x = none → exec (.restore q) s = .next (u.finishCommand c 0 0 0))
    ∧ (∀ x lo hi, s.CommandReady s0 q 0x0D c → x = c.f 2 15 0 → (findAt s0.contexts x).isSome = true → (lo, hi) = c.range →
      s0.usesRange x lo hi = false →
      ∃ u : State, exec (.inval q) s = .next (u.finishCommand c 0 0 0) ∧ u = { s0 with tlb := u.tlb, walks := u.walks }
        ∧ ∀ e, e ∈ u.tlb ↔ e ∈ s0.tlb ∧ ¬(e.ctx = x ∧ e.va < hi ∧ lo < e.va + e.size))
    ∧ (∀ r, s0.commandRecord (c.w 2).toNat = some r →
      (s.CommandReady s0 q 0x0E c → (s0.ctxOf r.ctx).state ≠ .saved →
        exec (.replay q) s = .next ((s0.replayRecord r.id).finishCommand c 0 0 0))
      ∧ (s.CommandReady s0 q 0x0F c → exec (.kill q) s = .next ((s0.terminate r.ctx).sweep.finishCommand c 0 0 0)))
    ∧ (∀ x, s.CommandReady s0 q 0x12 c → s0.tasks.find? (fun y => y.2.core == c.f 2 7 0 && y.2.number == c.f 2 31 16
        && y.2.ctx == c.ctx && y.2.state == .running) = some x →
      ∃ u : State, exec (.release q) s = .next (u.finishCommand c 0 0 0) ∧ u = { s0 with waves := u.waves }
        ∧ ∀ k, findAt u.waves k = (findAt s0.waves k).map (fun w =>
          if k ∈ x.2.waves.map (fun y => c.f 2 7 0 * 64 + y) then { w with holds := w.holds.filter (· ≠ 64) } else w))
    ∧ (s.CommandReady s0 q 0x13 c → (findAt s0.contexts (c.f 2 15 0)).isSome = true →
      exec (.resume q) s = .next ((s0.resumeContext (c.f 2 15 0)).finishCommand c 0 0 0))
    ∧ (∀ oper k, s.CommandReady s0 q 0x18 c → findAt s0.slotMap (c.f 2 7 0 * 8 + c.f 2 10 8) = some oper →
      (getAt Operator.reset s0.operators oper).ctx = c.ctx → k = s0.counter oper (c.f 2 7 0) (c.f 2 15 12) →
      s0.attempts = [] →
      ∃ u : State, exec (.clearerr q) s = .next (u.finishCommand c 0 (if k.error then BitVec.ofNat 64 k.failed else 0) 0)
        ∧ (k.error = true → u.counter oper (c.f 2 7 0) (c.f 2 15 12) = k.clear))
    ∧ (∀ es, s.CommandReady s0 q 0x15 c → 1 ≤ c.f 3 12 0 → c.f 3 12 0 ≤ 4096 →
      s0.descArray (c.reader 0) (c.w 2).toNat 16 (c.f 3 12 0) = .ok es → es.all (routeEntryOk s0.chip) = true →
      (es.map (fun v => bitsOf v 11 0)).Nodup →
      ∃ u : State, exec (.routeset q) s = .next (u.finishCommand c 0 0 0) ∧ (∀ v ∈ es, findAt u.routes (bitsOf v 11 0) = some (routePorts v))
        ∧ (∀ k, (∀ v ∈ es, k ≠ bitsOf v 11 0) → getAt [] u.routes k = [])
        ∧ u.routeTimeout = (if (c.w 4).toNat = 0 then 10000000 else 1000 * (c.w 4).toNat) ∧ u.tickRoot = c.f 5 11 0)
    ∧ (∀ r b, s.CommandReady s0 q 0x19 c → findAt s0.rounds (c.f 2 5 0) = some r → b = c.f 3 15 0 →
      (findAt s0.contexts b).isSome = true → b ≠ r.ctx →
      ∃ (u : State) (t : Round), exec (.roundshare q) s = .next (u.finishCommand c 0 0 0) ∧ u = { s0 with rounds := u.rounds }
        ∧ findAt u.rounds (c.f 2 5 0) = some t ∧ t = { r with shared := t.shared }
        ∧ ∀ x, x ∈ t.shared ↔ (x ∈ r.shared ∧ x ≠ b) ∨ (x = b ∧ (c.w 4).getLsbD 0 = true))
    ∧ (∀ (es : List Nat) (u : State), s.CommandReady s0 q 0x17 c → 1 ≤ c.f 3 12 0 → c.f 3 12 0 ≤ 4096 →
      s0.descArray (c.reader 0) (c.w 2).toNat 8 (c.f 3 12 0) = .ok es → es.all s0.runEntryOk = true →
      u = ({ s0 with runList := some { entries := es.map runEntryOf, pos := 0, since := s0.tick } } : State).resumeTurn →
      exec (.runlist q) s = .next (u.finishCommand c 0 0 0))
    ∧ (∀ l e, s.runList = some l → l.entries[l.pos]? = some e → l.since + 1000 * e.quantum ≤ s.tick → s.ras.recovering = false →
      e.reside = true → (∀ x, (s.ctxOf x).state = .saved → (s.ctxOf x).turnSaved = false) →
      exec .quantumEnd s = .next { s with runList := some { l with pos := (l.pos + 1) % l.entries.length, since := s.tick } })
    ∧ (∀ test : HealthTest, s.CommandReady s0 q 0x16 c → (∀ x ∈ s0.contexts, x.1 = 0) → (∀ x ∈ s0.hostQueues, x.1 ≠ 0 → x.2.st ≠ 1) →
      ∃ u : State, exec (.turnover q test) s = .next (u.finishCommand c 0 (if u.ras.health = 1 then 0 else 1) 0)
        ∧ u.contexts = [(0, Context.service)] ∧ u.operators = [] ∧ u.tasks = [] ∧ u.frags = [] ∧ u.waves = [] ∧ u.queues = []
        ∧ u.routes = s0.routes ∧ u.tick = s0.tick ∧ u.control.ide = []
        ∧ (u.ras.health = 1 → test.ok = true ∧ ∀ l ∈ test.bad, locationOk l = true → RasLocation.holdsBits l = true →
            locationName l ∈ u.ras.retired)
        ∧ ((∀ l ∈ test.bad, locationOk l = true →
              RasLocation.holdsBits l = false ∨ s0.outOfUse (locationName l) = true) →
            (u.ras.health = 1 ↔ test.ok = true))
        ∧ (u.ras.health ≠ 1 → u.ras.health = 2 ∧ u.control.failed = true ∧ u.control.fwstat = 5))

/-- R388 to R392, R395 to R397, R425: what the registers of BAR0 do when they are written: the load registers, the admin queue,
doorbells and event heads; firmware and configuration loads and the end of bring-up; MSI-X messages; and what power-on, a
cold reset and a function-level reset leave.
What is the model's own in it is in log entries 12, 19, 20, 21, 23, 24 and 45. -/
def Obligations.RegisterAndResetResults : Prop :=
  ∀ (s : State) (v : Word),
    (∀ p ∈ [(Instr.registerWrite 0x20 8 1, 1), (.fwLoad, 1), (.registerWrite 0x20 8 2, 2), (.configLoad, 2)],
      s.control.fwstat ≠ 3 → s.control.fwstat ≠ 4 → exec p.1 s = .next { s with
        control := { s.control with
          loading := p.2, resume := s.control.fwstat, fwstat := 3, loads := s.control.loads + 1 } })
    ∧ (s.control.fwstat ≠ 3 → s.control.fwstat ≠ 4 →
      exec (.registerWrite 0x10 8 v) s = .next { s with control := { s.control with fwAddr := v } }
      ∧ exec (.registerWrite 0x18 8 v) s = .next { s with control := { s.control with fwLen := v } })
    ∧ (s.control.fwstat = 3 ∨ s.control.fwstat = 4 → exec (.registerWrite 0x10 8 v) s = .next s
      ∧ exec (.registerWrite 0x18 8 v) s = .next s ∧ exec (.registerWrite 0x20 8 v) s = .next s)
    ∧ (∀ x y : BitVec 32, s.control.aqEnabled = false → ∃ t u : State,
      exec (.registerWrite 0x40 4 (x.setWidth 64)) s = .next t ∧ exec (.registerWrite 0x44 4 (y.setWidth 64)) t = .next u
        ∧ u.control.aqCmd = BitVec.ofNat 64 (y.toNat * 2 ^ 32 + x.toNat) ∧ u.control.aqEv = s.control.aqEv)
    ∧ (s.control.fwstat = 3 → s.control.loading = 1 →
      exec (.fwLoadComplete true v) s = .next { s with
        control := { s.control with loading := 0, fwstat := 4, fwVersion := v, image := s.control.loads } }
      ∧ exec (.fwLoadComplete false v) s = .next { s with control := { s.control with loading := 0, fwstat := 2 } })
    ∧ (∀ ok, s.control.fwstat = 3 → s.control.loading = 2 → exec (.configLoadComplete ok) s = .next { s with
        control := { s.control with
          loading := 0, fwstat := s.control.resume, cfgstat := if ok then 1 else 2
          blocks := if ok then s.control.blocks ++ [s.control.loads] else s.control.blocks } })
    ∧ (∀ (chip : BitVec 12) bad (b : BringUp), s.control.fwstat = 4 →
      (∀ l ∈ bad, locationOk l = true → RasLocation.holdsBits l = true ∧ s.outOfUse (locationName l) = true) →
      (s.control.failed = false → s.control.everReady = false →
        ∃ t, exec (.bringUpComplete { ok := true, bad := bad } chip b) s = .next t
          ∧ t = { s with
            control := { s.control with fwstat := 1, everReady := true }, ras := { s.ras with health := 1 }
            mem := s.mem.clearedBut (fun k => !isKeyed k)
            chip := chip.toNat, tick := b.epoch.toNat, cycle := 0, refills := 0, routes := cleanTable chip.toNat b.routes
            tickRoot := b.root, routeLost := t.routeLost, unreachable := t.unreachable, accesses := t.accesses
            replies := t.replies })
      ∧ exec (.bringUpComplete { ok := false, bad := bad } chip b) s = .next { s with
          control := { s.control with fwstat := 5, failed := true }, ras := { s.ras with health := 2 } })
    ∧ (∀ i ∈ [Instr.aqEnable, .registerWrite 0x60 8 1], s.control.fwstat = 1 → s.control.aqEnabled = false →
      ringSizesOk (fieldOf s.control.aqSize 4 0) (fieldOf s.control.aqSize 12 8) = true → s.hostWorks = true →
      (s.hq 0).held = [] → ∃ t, exec i s = .next t ∧ t.control = { s.control with aqEnabled := true } ∧ (t.hq 0).st = 1
        ∧ (t.hq 0).cons = 0 ∧ (t.hq 0).evPost = 0 ∧ (t.hq 0).dbVal = 0 ∧ (t.hq 0).cmdBase = s.control.aqCmd.toNat
        ∧ (t.hq 0).evBase = s.control.aqEv.toNat ∧ (t.hq 0).stbBase = s.control.aqStb.toNat
        ∧ (t.hq 0).logN = fieldOf s.control.aqSize 4 0 ∧ (t.hq 0).logM = fieldOf s.control.aqSize 12 8)
    ∧ (∀ i ∈ [Instr.aqDisable, .registerWrite 0x60 8 0], s.control.aqEnabled = true → s.hostWorks = true →
      ∃ t, exec i s = .next t ∧ t.control = { s.control with aqEnabled := false } ∧ (t.hq 0).st = 2
        ∧ ∀ j, j ≠ 0 → t.hq j = s.hq j)
    ∧ (∀ q, (s.hq q).st ≠ 0 → (s.hq q).evHead ≤ v.toNat →
      ((s.hq q).held = [] → exec (.hqEvhead q v) s = .next (s.setHq q { s.hq q with evHead := v.toNat }))
      ∧ (∀ ws, (s.hq q).held = [ws] → (s.hq q).st = 1 → s.hostWorks = true → s.ras.recovering = false →
        (s.hq q).evPost + 1 ≤ v.toNat + 2 ^ (s.hq q).logM →
        ∃ t, exec (.hqEvhead q v) s = .next t ∧ (t.hq q).held = [] ∧ (t.hq q).evPost = (s.hq q).evPost + 1
          ∧ (t.hq q).evHead = v.toNat))
    ∧ (∀ q, q < 8192 → exec (.registerWrite (0x1000000 + 4096 * q) 8 v) s = exec (.hqDoorbell q v) s
      ∧ exec (.registerWrite (0x1000000 + 4096 * q + 8) 8 v) s = exec (.hqEvhead q v) s)
    ∧ (∀ n, n ∈ s.msixDue → findAt s.msixLast n = none → exec (.msixMessage n) s = .next { s with
        msixDue := s.msixDue.filter (· ≠ n), msixLast := putAt s.msixLast n s.tick, replies := s.replies ++ [.msix n] })
    ∧ (∀ i ∈ [Instr.powerOn, .coldReset], ∃ t, exec i s = .next t ∧ t.control = State.reset.control
        ∧ t.frags = [] ∧ t.waves = [] ∧ t.tasks = [] ∧ t.operators = [] ∧ t.hostQueues = []
        ∧ t.contexts = State.reset.contexts ∧ t.chip = 0 ∧ t.tick = 0 ∧ t.cycle = 0 ∧ t.routes = [] ∧ t.records = [])
    ∧ ((∀ x ∈ s.contexts, x.1 = 0) → s.contexts.length = 1 → s.operators = [] → s.tasks = [] → s.rounds = [] → s.seats = [] →
      s.accesses = [] → ∃ t, exec .flr s = .next t ∧ t.control = { s.control with aqEnabled := false }
        ∧ (∀ q, (t.hq q).st ≠ 1) ∧ (∀ p, p.key < hostBase → t.mem.readByte p = s.mem.readByte p)
        ∧ t.contexts = [(0, Context.service)])

/-! ## Time, RAS, power and management (R417 to R430) -/

/-- R414, R417, R419 to R421: the drain window that closes, the save that a context reaches, its deadline and its save period,
the two watchdogs, and the reading of fault records.
What is the model's own in it is in log entries 17, 31 and 33. -/
def Obligations.DrainingAndWatchdogs : Prop :=
  ∀ (s : State) (x : Nat),
    ((s.ctxOf x).state = .draining → (s.ctxOf x).windowClosed = false →
      (s.ctxOf x).preemptAt + 1000 * (s.ctxOf x).drain ≤ s.tick →
      exec (.drainWindowClose x) s = .next (s.setCtx x { s.ctxOf x with windowClosed := true }))
    ∧ ((s.ctxOf x).state = .draining → (s.ctxOf x).windowClosed = true ∨ s.tasksOf x = [] → s.saveHeld x = false →
      s.netsIn x = [] → s.netsQuiet x = true → s.copyHeld x = false → s.runList = none →
      s.saveStop x (s.saveSectors x ++ (s.drainingSeats x).flatMap (fun k => s.imageSectors (k / 256) (k % 256))) = none →
      ∃ t, exec (.preemptSaveComplete x) s = .next t ∧ (t.ctxOf x).state = .saved)
    ∧ ((s.ctxOf x).state = .draining → (s.ctxOf x).forced = false →
      (s.ctxOf x).preemptAt + 1000 * (s.ctxOf x).deadline ≤ s.tick →
      exec (.preemptDeadlineExpiry x) s = .next ((s.forceReset x).report { FaultRecord.blank with
          cause := 0xA1, ctx := x, agent := 6, word7 := (s.tasksOf x).foldl (fun n k => n + s.taskRows k) 0 })
        ∧ ((s.forceReset x).ctxOf x).forced = true)
    ∧ ((s.ctxOf x).state = .draining → (s.ctxOf x).preemptAt + 1000 * (s.ctxOf x).savePeriod ≤ s.tick →
      exec (.savePeriodExpiry x) s = .next (((s.loseContext x).report { FaultRecord.blank with
          cause := 0xA2, ctx := x, agent := 6 }).sweep)
        ∧ ((s.loseContext x).ctxOf x).state = .lost)
    ∧ (x ≠ 0 → (s.ctxOf x).state = .active → (findAt s.contexts x).isSome = true →
      (∃ y ∈ s.tasks, y.2.ctx = x ∧ y.2.state ≠ .ended) → (s.ctxOf x).progressAt + 1000 * (s.ctxOf x).progress ≤ s.tick →
      exec (.watchdogExpiry x) s = .next (((s.terminate x).report { FaultRecord.blank with
          cause := 0xA0, ctx := x, agent := 6 }).sweep)
        ∧ ((s.terminate x).ctxOf x).state = .terminated)
    ∧ (∀ n r, s.records.find? (fun y => y.id == n) = some r → r.replayable = true → r.deferred = false →
      (s.ctxOf r.ctx).faultPeriod ≠ 0 → r.arisen + 1000 * (s.ctxOf r.ctx).faultPeriod ≤ s.tick →
      exec (.faultPeriodExpiry n) s = .next (s.terminate r.ctx).sweep)
    ∧ (∀ die, die ≤ 8 → (∀ r ∈ s.records, r.posted = true ∧ r.cause ≠ causeSPILLFULL ∧ r.cause ≠ causeSPILLFAULT) →
      s.attempts = [] → ∃ t, exec (.faultRecordRead die) s = .next t
        ∧ t.records = s.records.map (fun r =>
            if (if r.core / 32 = 2047 then 8 else r.core / 32) = die then { r with wasRead := true } else r)
        ∧ t.throttles = s.throttles)

/-- R381, R388, R392, R405, R424, R426 to R430: a die bridge that goes down, the lock-step pair, the clock's steps, the trip
of a hot junction, ageing, the answers to management, page requests and accesses through BAR2.
What is the model's own in it is in log entries 34, 35, 37, 38 and 59. -/
def Obligations.ReliabilityPowerAndHostAccess : Prop :=
  ∀ s : State,
    (∀ die bridge, die < 8 → bridge < 4 → die * 4 + bridge ∉ s.bridgesDown → ∃ t, exec (.dieBridgeDown die bridge) s = .next t
        ∧ t.bridgesDown = s.bridgesDown ++ [die * 4 + bridge] ∧ t.control = { s.control with degraded := true }
        ∧ t.ras.retired = s.ras.retired ++ [.dieBridge die bridge])
    ∧ (s.ras.recovering = false → ∃ t, exec .lockstepMismatch s = .next t ∧ t.ras.recovering = true
        ∧ (∀ l, l ∈ t.launches ↔ l ∈ s.launches ∧ (l.started = true ∨ findAt s.hostQueues l.queue = none))
        ∧ (∀ q, (t.hq q).begun = [])
        ∧ (∀ q x, (findAt s.hostQueues q).isSome = true → fieldOf ((s.hq q).begun.getD 1 0) 7 0 = 0x05 →
          x = fieldOf ((s.hq q).begun.getD 2 0) 15 0 → (findAt s.contexts x).isSome = true → (t.ctxOf x).frozen = false)
        ∧ ((s.ras.mismatches.filter (fun n => decide (s.tick < n + 3600000000000))).length < 2 → t.control = s.control)
        ∧ (2 ≤ (s.ras.mismatches.filter (fun n => decide (s.tick < n + 3600000000000))).length →
            t.control = { s.control with fwstat := 5, failed := true }))
    ∧ (s.ras.recovering = true → s.hostWorks = true → (∀ q, (s.hq q).dbVal ≤ (s.hq q).cons + 2 ^ (s.hq q).logN) →
      ∃ t, exec .lockstepRecoveryEnd s = .next t ∧ t.ras = { s.ras with recovering := false }
        ∧ t.launches = s.launches)
    ∧ (∀ u, u = { s with
        power := { s.power with clock := if 25 < s.power.clock then s.power.clock - 25 else s.power.clock } } →
      exec .thermalThrottle s = .next u
      ∧ (s.power.cap < s.power.average ∨ s.power.throttling = true ∧ s.power.cap = s.power.average →
        exec .powerCapThrottle s = .next { u with power := { u.power with throttling := true } })
      ∧ (s.power.average < s.power.cap ∨ s.power.throttling = false ∧ s.power.cap = s.power.average →
        exec .powerCapThrottle s = .next { s with power := { s.power with throttling := false } }))
    ∧ exec .inputVoltageFault s = .next { s with
        power := { s.power with stopped := true }, replies := s.replies ++ [.voltageFault] }
    ∧ (s.power.tripped = false → ∃ t, exec .thermalTrip s = .next t
        ∧ t.power = { s.power with stopped := true, tripped := true }
        ∧ ∀ x y, findAt s.contexts x = some y → y.destroying = false →
          (t.ctxOf x).state = .lost ∨ (t.ctxOf x).state = .terminated)
    ∧ (∀ die margin, die < 8 → margin ≤ 100 → (∀ n, findAt s.power.sampled die = some n → n + 1000000000 ≤ s.tick) →
      exec (.ageingSample die margin) s = .next { s with power := { s.power with
          samples := putAt s.power.samples die margin, sampled := putAt s.power.sampled die s.tick } })
    ∧ (s.power.planned + s.power.period * 60000000000 ≤ s.tick → ∃ t, exec .marginReplan s = .next t
        ∧ t.power.margins = s.power.samples ∧ t.power.planned = s.tick
        ∧ ((s.power.samples.map (·.1)).Nodup → ∀ x ∈ s.power.samples,
          getAt 0 t.power.voltages x.1 = max (getAt 0 s.power.voltages x.1) (Config.supply x.1 x.2))
        ∧ (∀ die, getAt 0 s.power.voltages die ≤ getAt 0 t.power.voltages die)
        ∧ ((∀ x ∈ s.power.samples, x.2 < 100) →
          t = { s with power := { s.power with margins := s.power.samples, planned := s.tick, voltages := t.power.voltages } })
        ∧ ((∃ x ∈ s.power.samples, 100 ≤ x.2) → 25 < s.power.clock → t.power.clock = s.power.clock - 25))
    ∧ (∀ w, (1000 ≤ w → w ≤ 3200 → exec (.pldmRequest (.setPowerCap w)) s = .next { s with
          power := { s.power with cap := w }, replies := s.replies ++ [.setting true] })
        ∧ (w < 1000 ∨ 3200 < w → exec (.pldmRequest (.setPowerCap w)) s = .next { s with
          replies := s.replies ++ [.setting false] })
        ∧ (1 ≤ w → w ≤ 60 → exec (.pldmRequest (.setReplanPeriod w)) s = .next { s with
          power := { s.power with period := w }, replies := s.replies ++ [.setting true] }))
    ∧ (∀ b, exec (.spdmRequest (.measurements b)) s = .next { s with
        fresh := s.fresh + 1
        replies := s.replies ++ [.measurements b (Config.digest 0) (Config.digest s.control.image)
          (s.control.blocks.map Config.digest) s.control.fwVersion s.ras.health (Config.mapDigest s.ras.retired) s.ras.retired
          (Config.signature s.fresh 1) (Config.signature s.fresh 2)] })
    ∧ (∀ n, n ∉ s.control.ide →
      (s.control.ide.length < 4 → exec (.spdmRequest (.ideGo n)) s = .next { s with
        control := { s.control with ide := s.control.ide ++ [n] }, replies := s.replies ++ [.setting true] })
      ∧ (4 ≤ s.control.ide.length → exec (.spdmRequest (.ideGo n)) s = .next { s with
        replies := s.replies ++ [.setting false] }))
    ∧ (∀ page, s.pageWanted page = true → s.bar2 = [] → ∃ t, exec (.priResponse page true) s = .next t ∧ page ∈ t.ats
        ∧ ∀ f ∈ s.fragsOnPage page, (t.frOf f.1).status = .ready)
    ∧ (∀ off a, HostAccess.ok a off = true → s.bar2 = [] → s.aperture (off / 2 ^ 30) = none →
      ∃ t, exec (.hostBar2Access off a) s = .next t
        ∧ t = { s with replies := s.replies ++ [.hostAccess off [] false true], asks := t.asks, fetched := t.fetched })
    ∧ (∀ off n x base xs who, n ≤ 4096 → s.bar2 = [] → s.hostStoreOut = false → s.aperture (off / 2 ^ 30) = some (x, base) →
      who = AskOwner.bar2 off (.read n) → s.hubBytes who x (base + off % 2 ^ 30) n .read = .ok xs →
      s.allFetched (who.owner x) xs = true →
      (∀ p ∈ xs, p.2 = .here ∧ s.mem.poisoned p.1.key = false) →
      ∃ t, exec (.hostBar2Access off (.read n)) s = .next t
        ∧ t = { s with replies := t.replies, asks := t.asks, fetched := t.fetched }
        ∧ t.replies = s.replies ++ [.hostAccess off (xs.map (fun p => s.mem.readByte p.1)) false false])
    ∧ (∀ off a x base page va who, HostAccess.ok a off = true → s.bar2 = [] → s.hostStoreOut = false →
      s.aperture (off / 2 ^ 30) = some (x, base) → who = AskOwner.bar2 off a →
      s.hubBytes who x (base + off % 2 ^ 30) (HostAccess.size a) (HostAccess.need a) = .error (.page page va) →
      ∃ t, exec (.hostBar2Access off a) s = .next t ∧ t = { s with bar2 := [(off, a)], asks := t.asks }
        ∧ ∃ y ∈ t.asks, y.owner = who ∧ y.page = page)
    ∧ (∀ off a y rest, HostAccess.ok a off = true → s.bar2 = y :: rest → s.hostStoreOut = true →
      (s.aperture (y.1 / 2 ^ 30)).isSome = true →
      exec (.hostBar2Access off a) s = .next { s with bar2 := s.bar2 ++ [(off, a)] })

/-! ## The step, decoding, and the whole machine -/

/-- R69, R73, R121: once the waiters that must go on have, a fragment that may issue, named by the tape or, with nothing on it,
chosen, fetches the word at its program counter; bytes that decode to an instruction `i` make the step the execution of `i`, once
what `i` interlocks on has been performed, and what follows an instruction follows; a fragment whose next instruction has operands
that cannot be free yet may not issue; bytes that decode to none make it the illegal-instruction trap of their word. R149: with
DBG.SS set and no trap active, an instruction that completes outside an attempt is followed by the single-step trap, at once or once
what it waits for has come, and a trap that is owed is taken before the next instruction; inside an attempt, or with a trap active,
none follows. R33, R34: a fragment that may issue is ready, its wave has not issued in this cycle and fewer than four of its core
have, and no ready fragment of its wave has waited longer; no cycle passes while a fragment may issue. The steps without an encoding:
one that the tape names, and that the clocks and the firmware pair allow, is the execution of its row; with nothing on the tape and
no fragment that may issue, time passes.
The tape is the model's own (log entries 1 and 62), and that a trap is owed is log entry 67. -/
def Obligations.StepRunsWhatIsNext : Prop :=
  (∀ (s t c : State) (f : FragId) (dfr : Bool) (p : Place) (w : BitVec 32),
    (t = s.releaseAll ∧ t.inputs = [] ∧ f = t.nextIssuer ∧ dfr = false
      ∨ ∃ rest, s.releaseAll.inputs = .issue f dfr :: rest ∧ t = { s.releaseAll with inputs := rest }) →
    t.mayIssue f = true → t.power.stopped = false → c = t.choose f dfr → c.fr.due = [] →
    (c.stepOwed c.cur = true → step s = .next ((c.stepTrap c.cur).passFrag c.cur))
    ∧ (c.stepOwed c.cur = false → c.xlateAll [c.fr.pc] .fetch = .ok [(p, .here)] → c.allFetched c.waveOwner (wordPlaces (p, .here)) = true →
    c.mem.poisoned p.key = false → w = BitVec.ofNat 32 (ofBytes ((placesFrom p 4).map c.mem.readByte)) →
    (∀ i, decode ((placesFrom p 4).map c.mem.readByte) = .ok i → c.operandsFree i = true →
      (c.settleFor i).movedOn c = false → (c.settleFor i).interlocks i = [] →
      step s = (c.settleFor i).finishIssue (exec i ((c.settleFor i).noteWord w)))
    ∧ (∀ e, decode ((placesFrom p 4).map c.mem.readByte) = .error e →
      step s = c.finishIssue (exec (.illegalInstruction w) (c.noteWord w)))))
    ∧ (∀ t u : State,
      (∀ i, t.accesses = [] → t.settleFor i = t ∧ t.interlocks i = [])
      ∧ (t.wv.dbgSS = false → u.heldBack = false → t.finishIssue (.next u) = .next ((u.dropFetched t.waveOwner).noteIssued t))
      ∧ (u.stalled = true → t.finishIssue (.next u)
        = .next ((u.setFr { u.fr with word := t.fr.word, stepDue := t.fr.stepDue }).passFrag t.cur))
      ∧ (t.wv.dbgSS = true → t.wv.active = false → u.heldBack = false → ∀ v, v = (u.dropFetched t.waveOwner).noteIssued t →
        (findAt v.frags v.cur.key).isSome = true → v.wv.active = false →
        (∀ n got, v.fr.status = .awaiting n got ∨ v.fr.status = .atReconv n →
          t.finishIssue (.next u) = .next (v.setFr { v.fr with stepDue := true }))
        ∧ (v.fr.status = .ready → v.inTx = true → t.finishIssue (.next u) = .next v)
        ∧ (v.fr.status = .ready → v.inTx = false → v.wv.dbgHold = false → ∃ w, t.finishIssue (.next u) = .next w
          ∧ (v.setFr { v.fr with stepDue := false }).Trapped w 0x07 2 0 v.fr.pc 0 (BitVec.ofNat 64 v.fr.word.toNat)))
      ∧ (t.wv.dbgSS = true → t.wv.active = true → u.heldBack = false →
        t.finishIssue (.next u) = .next ((u.dropFetched t.waveOwner).noteIssued t)))
    ∧ (∀ (s : State) (f : FragId), s.mayIssue f = true →
      s.isOpen f = true ∧ (s.coreOf f.core).issued.length < 4 ∧ f.wave ∉ (s.coreOf f.core).issued
      ∧ ∀ k ∈ s.fragsOf f.core f.wave, s.isOpen { f with frag := k } = true → (s.frOf { f with frag := k }).idle ≤ (s.frOf f).idle)
    ∧ (∀ (s c : State) (f : FragId) (p : Place) (i : Instr), c = s.choose f false → c.fr.due = [] → c.stepOwed c.cur = false →
      c.xlateAll [c.fr.pc] .fetch = .ok [(p, .here)] → c.allFetched c.waveOwner (wordPlaces (p, .here)) = true →
      c.mem.poisoned p.key = false → decode ((placesFrom p 4).map c.mem.readByte) = .ok i → c.operandsFree i = false →
      s.mayIssue f = false)
    ∧ (∀ (s t : State) (i : Instr) (rest : List Input), t = { s.releaseAll with inputs := rest } →
    (s.releaseAll.inputs = .event i :: rest → Instr.isMove i = true → t.allows i = true → step s = exec i t)
    ∧ (s.power.stopped = false → s.ras.recovering = false → s.power.tripped = false → s.allows i = true)
    ∧ (∀ n ns, s.anyMayIssue = true → (s.elapse n ns).cycle = s.cycle)
    ∧ (∀ c ns, s.releaseAll.inputs = .elapse c ns :: rest → t.power.stopped = false → step s = .next (t.elapse c ns).sweep.goBar2)
    ∧ (s.releaseAll.inputs = [] → s.releaseAll.mayIssue s.releaseAll.nextIssuer = false → s.releaseAll.power.stopped = false →
      step s = .next (s.releaseAll.elapse 1 1).sweep.goBar2))

/-- Words that the manual writes out for instructions of each family decode to those instructions, and words that R73 refuses are
refused (R73, R84, R118, R122, R137, R178, R183, R208, R253, R265, R373, and the tables of words beside R236, R297, R312 and R344). -/
def Obligations.WrittenWordsDecode : Prop :=
  decodeWord 0x04285FFD = .ok (.saddi 5 2 0x1FFD) ∧ decodeWord 0x20000000 = .ok .ret
    ∧ decodeWord 0x20202488 = .error .reserved ∧ decodeWord 0x20200488 = .ok (.srd 4 9)
    ∧ decodeWord 0x2000E789 = .ok (.swr 7 15) ∧ decodeWord 0x20280106 = .ok (.racq 5 2)
    ∧ decodeWord 0x20281106 = .ok (.racqE 5 2) ∧ decodeWord 0x24009473 = .ok (.mode 2 2 1 0 7 3)
    ∧ decodeWord 0x28A00002 = .ok (.vbr 2 1 2) ∧ decodeWord 0x2A020000 = .ok (.reconv 1)
    ∧ decodeWord 0x442048A3 = .ok (.vfma 8 9 10) ∧ decodeWord 0x420C6801 = .ok (.vcmpne 3 13 0)
    ∧ decodeWord 0x48284815 = .ok (.vslide 10 9 1) ∧ decodeWord 0x483408D1 = .ok (.vbperm 13 1 13)
    ∧ decodeWord 0x600C2002 = .ok (.vld 3 2 2) ∧ decodeWord 0x62202002 = .ok (.vst 8 2 2)
    ∧ decodeWord 0x74042120 = .ok (.aadd 1 2 9) ∧ decodeWord 0x74042130 = .ok (.aaddN 1 2 9)
    ∧ decodeWord 0x80000000 = .ok (.tbeg 0) ∧ decodeWord 0x82000003 = .ok (.orelse 3) ∧ decodeWord 0x84000000 = .ok .tend
    ∧ decodeWord 0x84000281 = .ok (.tabrt 5) ∧ decodeWord 0x84500083 = .ok (.tstat 10 1)
    ∧ decodeWord 0x90002480 = .ok (.mma 0 1 9) ∧ decodeWord 0x9000C505 = .ok (.mwr 0 6 10)
    ∧ decodeWord 0xA0418000 = .ok (.cpy 8 3) ∧ decodeWord 0xA2486081 = .ok (.tlincC 9 3)
    ∧ decodeWord 0xB01D4000 = .ok (.xload 3 42) ∧ decodeWord 0xE6100820 = .ok (.xop 3 4 1 2 0)
    ∧ decodeWord 0xB8516080 = .ok (.mrboardT 10 11) ∧ decodeWord 0xB8616002 = .ok (.mrstat 12 11)
    ∧ decodeWord 0xC0516600 = .ok (.tknew 10 11 12) ∧ decodeWord 0xC0594007 = .ok (.tkcnt 11 10)
    ∧ decodeWord 0xC8D2EC00 = .ok (.pksend 26 23 24) ∧ decodeWord 0xC8280001 = .ok (.tick 5)
    ∧ decodeWord 0x26000009 = .error .function ∧ decodeWord 0x00000000 = .error .major
    ∧ decodeWord 0x20000106 = .ok (.racq 0 2) ∧ decodeWord 0x20000006 = .error .countRange
    ∧ decodeWord 0x20000A88 = .error .specialRegister

/-- R70 to R76: every well-formed instruction has a word, and the decoder gives that instruction, with every operand at every
value that its field admits, for the word. -/
def Obligations.DecodingInvertsEncoding : Prop :=
  ∀ i : Instr, i.isWord = true → i.wellFormed = true → ∃ w, encode i = some w ∧ decodeWord w = .ok i

/-- R70 to R76: whatever word the decoder accepts, the instruction that it gives is well formed, and its own word is that
word; so two words never give one instruction. -/
def Obligations.EncodingInvertsDecoding : Prop :=
  ∀ (w : BitVec 32) (i : Instr), decodeWord w = .ok i → i.wellFormed = true ∧ encode i = some w

/-- Every step of the device keeps the canonical form of memory: addresses strictly rising and no entry equal to what an
unlisted address reads as, so that equal memories are equal data.
What is the model's own in it is in log entry 13. -/
def Obligations.EveryStepKeepsMemoryCanonical : Prop :=
  ∀ s t : State, s.Inv → step s = .next t → t.Inv

/-- No step of the device is a fault or a refusal: every instruction and every event of the opcode table has an effect, takes
an exception, waits, or leaves the machine as it is.
What is the model's own in it is in log entries 2 and 60. -/
def Obligations.EveryStepAnswersNext : Prop :=
  ∀ s : State, ∃ t, step s = .next t

/-- R390, R392, R425: at reset the registers of BAR0 read their reset values, there is no wave, task, operator or queue, the one
context is the service context, and memory is canonical with nothing listed. CHIP and the tick at reset are the model's choice
(log entry 12). -/
def Obligations.ResetState : Prop :=
  State.reset.Inv ∧ State.reset.barRead 0x00 = 0x12800001 ∧ (∀ off, off ≠ 0 → off < 0x200000 → State.reset.barRead off = 0)
    ∧ State.reset.frags = [] ∧ State.reset.waves = [] ∧ State.reset.tasks = [] ∧ State.reset.operators = []
    ∧ State.reset.queues = [] ∧ State.reset.hostQueues = [] ∧ State.reset.mem.bytes = []
    ∧ (∀ x, x ≠ 0 → findAt State.reset.contexts x = none) ∧ State.reset.control.fwstat = 0
    ∧ (∀ i ∈ [Instr.aqEnable, .hqDoorbell 0 1, .nop 0], exec i State.reset = .next State.reset)
end

