-- ==== Sys2Proof/Laws/Tab.lean ====
section
/-! SUPPORT. What the tables of State do: reading a row after writing, dropping or mapping one, and the rise of the keys. -/

namespace Sys2Proof.Machine

@[simp] theorem findAt_nil {α : Type} (k : Nat) : findAt ([] : Tab α) k = none := rfl

theorem findAt_cons {α : Type} (j : Nat) (v : α) (r : Tab α) (k : Nat) :
    findAt ((j, v) :: r) k = if j = k then some v else findAt r k := rfl

/-- A row that has been set is read back. -/
@[simp] theorem findAt_putAt_same {α : Type} (t : Tab α) (k : Nat) (v : α) : findAt (putAt t k v) k = some v := by
  induction t with
  | nil => simp [putAt, findAt]
  | cons x r ih =>
    obtain ⟨j, w⟩ := x
    simp only [putAt]
    split
    · simp [findAt]
    · split
      · simp [findAt]
      · rename_i h
        simp [findAt, h, ih]

/-- A row that is set leaves every other row as it was. -/
theorem findAt_putAt_ne {α : Type} (t : Tab α) {k k' : Nat} (v : α) (h : k' ≠ k) :
    findAt (putAt t k v) k' = findAt t k' := by
  induction t with
  | nil => simp [putAt, findAt, Ne.symm h]
  | cons x r ih =>
    obtain ⟨j, w⟩ := x
    simp only [putAt]
    split
    · simp [findAt_cons, Ne.symm h]
    · split
      · rename_i h2
        subst h2
        simp [findAt_cons, Ne.symm h]
      · simp [findAt_cons, ih]

@[simp] theorem getAt_putAt_same {α : Type} (d : α) (t : Tab α) (k : Nat) (v : α) : getAt d (putAt t k v) k = v := by
  simp [getAt]

theorem getAt_putAt_ne {α : Type} (d : α) (t : Tab α) {k k' : Nat} (v : α) (h : k' ≠ k) :
    getAt d (putAt t k v) k' = getAt d t k' := by
  simp [getAt, findAt_putAt_ne t v h]

/-- Of two settings of one row the second counts. -/
@[simp] theorem putAt_putAt {α : Type} (t : Tab α) (k : Nat) (v w : α) : putAt (putAt t k v) k w = putAt t k w := by
  induction t with
  | nil => simp [putAt]
  | cons x r ih =>
    obtain ⟨j, u⟩ := x
    by_cases h1 : k < j
    · simp [putAt, h1]
    · by_cases h2 : j = k
      · subst h2
        simp [putAt]
      · simp [putAt, h1, h2, ih]

/-- A row that has been dropped is not there. -/
@[simp] theorem findAt_dropAt_same {α : Type} (t : Tab α) (k : Nat) : findAt (dropAt t k) k = none := by
  induction t with
  | nil => rfl
  | cons x r ih =>
    obtain ⟨j, w⟩ := x
    by_cases h : j = k
    · simpa [dropAt, h] using ih
    · simpa [dropAt, h, findAt_cons] using ih

/-- A row that is dropped leaves every other row as it was. -/
theorem findAt_dropAt_ne {α : Type} (t : Tab α) {k k' : Nat} (h : k' ≠ k) : findAt (dropAt t k) k' = findAt t k' := by
  induction t with
  | nil => rfl
  | cons x r ih =>
    obtain ⟨j, w⟩ := x
    by_cases hj : j = k
    · simpa [dropAt, hj, findAt_cons, Ne.symm h] using ih
    · by_cases hk : j = k'
      · simp [dropAt, findAt_cons, hk, h]
      · simpa [dropAt, hj, hk, findAt_cons] using ih

/-- Putting a row back as it reads changes what nothing reads. -/
theorem findAt_mapTab {α : Type} (f : Nat → α → α) (t : Tab α) (k : Nat) :
    findAt (mapTab f t) k = (findAt t k).map (f k) := by
  induction t with
  | nil => rfl
  | cons x r ih =>
    obtain ⟨j, w⟩ := x
    by_cases h : j = k
    · simp [mapTab, findAt_cons, h]
    · simpa [mapTab, findAt_cons, h] using ih

end Sys2Proof.Machine
end

