-- ==== Sys2Proof/Laws/Memory.lean ====
section
/-! SUPPORT. Memory: reading a byte after a write, and the canonical form that every operation on memory keeps. -/

namespace Sys2Proof.Machine

/-! ## The rise of the keys -/

/-- The keys rise exactly where each lies below all that follow it. -/
theorem risingKeys_iff {α : Type} (t : Tab α) : risingKeys t = true ↔ t.Pairwise (fun x y => x.1 < y.1) := by
  induction t with
  | nil => simp [risingKeys]
  | cons x r ih =>
    obtain ⟨a, u⟩ := x
    cases r with
    | nil => simp [risingKeys]
    | cons y r =>
      obtain ⟨b, v⟩ := y
      simp only [risingKeys, Bool.and_eq_true, decide_eq_true_eq, ih, List.pairwise_cons]
      constructor
      · rintro ⟨h, h1, h2⟩
        refine ⟨fun z hz => ?_, h1, h2⟩
        rcases List.mem_cons.1 hz with rfl | hz
        · exact h
        · exact Nat.lt_trans h (h1 z hz)
      · rintro ⟨h, h1, h2⟩
        exact ⟨h _ (List.mem_cons_self ..), h1, h2⟩

/-- A row of a table that `putAt` made is the new one or an old one. -/
theorem mem_putAt {α : Type} {t : Tab α} {k : Nat} {v : α} {x : Nat × α} (h : x ∈ putAt t k v) : x = (k, v) ∨ x ∈ t := by
  induction t with
  | nil => left; simpa [putAt] using h
  | cons y r ih =>
    obtain ⟨j, w⟩ := y
    simp only [putAt] at h
    split at h
    · rcases List.mem_cons.1 h with h | h
      · exact Or.inl h
      · exact Or.inr h
    · split at h
      · rcases List.mem_cons.1 h with h | h
        · exact Or.inl h
        · exact Or.inr (List.mem_cons_of_mem _ h)
      · rcases List.mem_cons.1 h with h | h
        · exact Or.inr (h ▸ List.mem_cons_self ..)
        · rcases ih h with h | h
          · exact Or.inl h
          · exact Or.inr (List.mem_cons_of_mem _ h)

/-- Setting a row keeps the rise of the keys. -/
theorem risingKeys_putAt {α : Type} {t : Tab α} (k : Nat) (v : α) (h : risingKeys t = true) :
    risingKeys (putAt t k v) = true := by
  rw [risingKeys_iff] at h ⊢
  induction t with
  | nil => simp [putAt]
  | cons y r ih =>
    obtain ⟨j, w⟩ := y
    rw [List.pairwise_cons] at h
    simp only [putAt]
    split
    · rename_i hk
      rw [List.pairwise_cons, List.pairwise_cons]
      refine ⟨fun z hz => ?_, h⟩
      rcases List.mem_cons.1 hz with rfl | hz
      · exact hk
      · exact Nat.lt_trans hk (h.1 z hz)
    · split
      · rename_i hk
        subst hk
        exact List.pairwise_cons.2 h
      · rename_i h1 h2
        refine List.pairwise_cons.2 ⟨fun z hz => ?_, ih h.2⟩
        rcases mem_putAt hz with rfl | hz
        · show j < k
          omega
        · exact h.1 z hz

/-- Leaving rows out keeps the rise of the keys. -/
theorem risingKeys_filter {α : Type} {t : Tab α} (p : Nat × α → Bool) (h : risingKeys t = true) :
    risingKeys (t.filter p) = true := by
  rw [risingKeys_iff] at h ⊢
  exact h.filter p

/-- Dropping a row keeps the rise of the keys. -/
theorem risingKeys_dropAt {α : Type} {t : Tab α} (k : Nat) (h : risingKeys t = true) :
    risingKeys (dropAt t k) = true := risingKeys_filter _ h

/-- Mapping the rows keeps the rise of the keys. -/
theorem risingKeys_mapTab {α : Type} {t : Tab α} (f : Nat → α → α) (h : risingKeys t = true) :
    risingKeys (mapTab f t) = true := by
  rw [risingKeys_iff] at h ⊢
  exact List.pairwise_map.2 h

/-! ## The canonical form -/

/-- What the canonical form says. -/
theorem Memory.wf_iff (m : Memory) : m.wf = true ↔
    risingKeys m.bytes = true ∧ (∀ x ∈ m.bytes, unlisted x.1 ≠ some x.2) ∧ risingKeys m.keys = true
      ∧ (∀ x ∈ m.keys, x.2 ≠ 0) := by
  simp only [Memory.wf, Bool.and_eq_true, List.all_eq_true, decide_eq_true_eq, and_assoc]

/-- Memories with the same bytes and key ids have the canonical form alike. -/
theorem Memory.wf_congr {m n : Memory} (hb : n.bytes = m.bytes) (hk : n.keys = m.keys) (h : m.wf = true) :
    n.wf = true := by
  rw [Memory.wf_iff] at h ⊢
  rwa [hb, hk]

/-- Leaving bytes and key ids out keeps the canonical form. -/
theorem Memory.wf_filter {m n : Memory} (p : Nat × Byte → Bool) (q : Nat × Nat → Bool)
    (hb : n.bytes = m.bytes.filter p) (hk : n.keys = m.keys.filter q) (h : m.wf = true) : n.wf = true := by
  rw [Memory.wf_iff] at h ⊢
  rw [hb, hk]
  exact ⟨risingKeys_filter p h.1, fun x hx => h.2.1 x (List.mem_filter.1 hx).1, risingKeys_filter q h.2.2.1,
    fun x hx => h.2.2.2 x (List.mem_filter.1 hx).1⟩

/-- Storing a byte keeps the canonical form. -/
theorem Memory.writeByte_wf {m : Memory} (p : Place) (b : Byte) (h : m.wf = true) : (m.writeByte p b).wf = true := by
  rw [Memory.wf_iff] at h ⊢
  obtain ⟨h1, h2, h3, h4⟩ := h
  simp only [Memory.writeByte]
  refine ⟨?_, ?_, ?_, ?_⟩
  · split
    · exact risingKeys_dropAt _ h1
    · exact risingKeys_putAt _ _ h1
  · intro x hx
    split at hx
    · exact h2 x (List.mem_filter.1 hx).1
    · rename_i hn
      rcases mem_putAt hx with rfl | hx
      · exact hn
      · exact h2 x hx
  · split
    · exact risingKeys_putAt _ _ h3
    · exact risingKeys_dropAt _ h3
  · intro x hx
    split at hx
    · rename_i hn
      rcases mem_putAt hx with rfl | hx
      · simp only [Bool.and_eq_true, bne_iff_ne] at hn
        exact hn.2
      · exact h4 x hx
    · exact h4 x (List.mem_filter.1 hx).1

/-- Storing bytes keeps the canonical form. -/
theorem Memory.writeBytes_wf {m : Memory} (data : List (Place × Byte)) (h : m.wf = true) :
    (m.writeBytes data).wf = true := by
  induction data generalizing m with
  | nil => exact h
  | cons x r ih => exact ih (Memory.writeByte_wf x.1 x.2 h)

/-- Clearing poison marks keeps the canonical form. -/
theorem Memory.clearPoison_wf {m : Memory} (keys : List Nat) (h : m.wf = true) : (m.clearPoison keys).wf = true := by
  unfold Memory.clearPoison
  split
  · exact h
  · exact Memory.wf_congr rfl rfl h

/-! ## Reading after a write -/

/-- A place under the key id that a byte was written under reads that byte. -/
theorem Memory.readByte_writeByte_same (m : Memory) (p : Place) (b : Byte) : (m.writeByte p b).readByte p = b := by
  by_cases hu : unlisted p.key = some b
  · simp [Memory.readByte, Memory.writeByte, hu]
  · simp only [Memory.readByte, Memory.writeByte, if_neg hu, findAt_putAt_same]
    by_cases hk : isKeyed p.key = true <;> by_cases h0 : p.keyId = 0 <;> simp [hk, h0, getAt]

/-- A byte written at one place leaves every other place as it reads. -/
theorem Memory.readByte_writeByte_ne (m : Memory) (p q : Place) (b : Byte) (h : q.key ≠ p.key) :
    (m.writeByte p b).readByte q = m.readByte q := by
  have hb : findAt (m.writeByte p b).bytes q.key = findAt m.bytes q.key := by
    simp only [Memory.writeByte]
    split
    · exact findAt_dropAt_ne _ h
    · exact findAt_putAt_ne _ _ h
  have hk : findAt (m.writeByte p b).keys q.key = findAt m.keys q.key := by
    simp only [Memory.writeByte]
    split
    · exact findAt_putAt_ne _ _ h
    · exact findAt_dropAt_ne _ h
  have he : (m.writeByte p b).epoch = m.epoch := rfl
  unfold Memory.readByte getAt
  rw [hb, hk, he]

/-- Bytes written at some places leave every other place as it reads. -/
theorem Memory.readByte_writeBytes_ne (m : Memory) (data : List (Place × Byte)) (q : Place)
    (h : ∀ x ∈ data, x.1.key ≠ q.key) : (m.writeBytes data).readByte q = m.readByte q := by
  induction data generalizing m with
  | nil => rfl
  | cons x r ih =>
    have h1 : (m.writeByte x.1 x.2).readByte q = m.readByte q :=
      m.readByte_writeByte_ne x.1 q x.2 (Ne.symm (h x (List.mem_cons_self ..)))
    rw [← h1]
    exact ih _ (fun y hy => h y (List.mem_cons_of_mem _ hy))

/-- Clearing poison marks leaves every byte as it reads. -/
@[simp] theorem Memory.readByte_clearPoison (m : Memory) (keys : List Nat) (q : Place) :
    (m.clearPoison keys).readByte q = m.readByte q := by
  unfold Memory.clearPoison
  split <;> rfl

/-- The memory of the device after reset has the canonical form. -/
theorem reset_mem_wf : State.reset.mem.wf = true := by decide

end Sys2Proof.Machine
end

