-- ==== Sys2Proof/Laws/State.lean ====
section
/-! SUPPORT. What each update of State leaves as it was, field by field, and what its rows read as afterwards. -/

namespace Sys2Proof.Machine

/-! ## Replacing the executing fragment changes nothing else -/

@[simp] theorem State.setFr_inputs (s : State) (f : Frag) : (s.setFr f).inputs = s.inputs := rfl
@[simp] theorem State.setFr_cur (s : State) (f : Frag) : (s.setFr f).cur = s.cur := rfl
@[simp] theorem State.setFr_stalled (s : State) (f : Frag) : (s.setFr f).stalled = s.stalled := rfl
@[simp] theorem State.setFr_deferring (s : State) (f : Frag) : (s.setFr f).deferring = s.deferring := rfl
@[simp] theorem State.setFr_fresh (s : State) (f : Frag) : (s.setFr f).fresh = s.fresh := rfl
@[simp] theorem State.setFr_cycle (s : State) (f : Frag) : (s.setFr f).cycle = s.cycle := rfl
@[simp] theorem State.setFr_tick (s : State) (f : Frag) : (s.setFr f).tick = s.tick := rfl
@[simp] theorem State.setFr_refills (s : State) (f : Frag) : (s.setFr f).refills = s.refills := rfl
@[simp] theorem State.setFr_chip (s : State) (f : Frag) : (s.setFr f).chip = s.chip := rfl
@[simp] theorem State.setFr_waves (s : State) (f : Frag) : (s.setFr f).waves = s.waves := rfl
@[simp] theorem State.setFr_tasks (s : State) (f : Frag) : (s.setFr f).tasks = s.tasks := rfl
@[simp] theorem State.setFr_cores (s : State) (f : Frag) : (s.setFr f).cores = s.cores := rfl
@[simp] theorem State.setFr_operators (s : State) (f : Frag) : (s.setFr f).operators = s.operators := rfl
@[simp] theorem State.setFr_seats (s : State) (f : Frag) : (s.setFr f).seats = s.seats := rfl
@[simp] theorem State.setFr_slotMap (s : State) (f : Frag) : (s.setFr f).slotMap = s.slotMap := rfl
@[simp] theorem State.setFr_tiles (s : State) (f : Frag) : (s.setFr f).tiles = s.tiles := rfl
@[simp] theorem State.setFr_groups (s : State) (f : Frag) : (s.setFr f).groups = s.groups := rfl
@[simp] theorem State.setFr_banks (s : State) (f : Frag) : (s.setFr f).banks = s.banks := rfl
@[simp] theorem State.setFr_accs (s : State) (f : Frag) : (s.setFr f).accs = s.accs := rfl
@[simp] theorem State.setFr_copies (s : State) (f : Frag) : (s.setFr f).copies = s.copies := rfl
@[simp] theorem State.setFr_images (s : State) (f : Frag) : (s.setFr f).images = s.images := rfl
@[simp] theorem State.setFr_churns (s : State) (f : Frag) : (s.setFr f).churns = s.churns := rfl
@[simp] theorem State.setFr_churnRes (s : State) (f : Frag) : (s.setFr f).churnRes = s.churnRes := rfl
@[simp] theorem State.setFr_rounds (s : State) (f : Frag) : (s.setFr f).rounds = s.rounds := rfl
@[simp] theorem State.setFr_queues (s : State) (f : Frag) : (s.setFr f).queues = s.queues := rfl
@[simp] theorem State.setFr_flights (s : State) (f : Frag) : (s.setFr f).flights = s.flights := rfl
@[simp] theorem State.setFr_returns (s : State) (f : Frag) : (s.setFr f).returns = s.returns := rfl
@[simp] theorem State.setFr_streams (s : State) (f : Frag) : (s.setFr f).streams = s.streams := rfl
@[simp] theorem State.setFr_inUse (s : State) (f : Frag) : (s.setFr f).inUse = s.inUse := rfl
@[simp] theorem State.setFr_sendSeq (s : State) (f : Frag) : (s.setFr f).sendSeq = s.sendSeq := rfl
@[simp] theorem State.setFr_peerSeq (s : State) (f : Frag) : (s.setFr f).peerSeq = s.peerSeq := rfl
@[simp] theorem State.setFr_chains (s : State) (f : Frag) : (s.setFr f).chains = s.chains := rfl
@[simp] theorem State.setFr_routes (s : State) (f : Frag) : (s.setFr f).routes = s.routes := rfl
@[simp] theorem State.setFr_portsDown (s : State) (f : Frag) : (s.setFr f).portsDown = s.portsDown := rfl
@[simp] theorem State.setFr_bridgesDown (s : State) (f : Frag) : (s.setFr f).bridgesDown = s.bridgesDown := rfl
@[simp] theorem State.setFr_routeLost (s : State) (f : Frag) : (s.setFr f).routeLost = s.routeLost := rfl
@[simp] theorem State.setFr_routeTimeout (s : State) (f : Frag) : (s.setFr f).routeTimeout = s.routeTimeout := rfl
@[simp] theorem State.setFr_tickRoot (s : State) (f : Frag) : (s.setFr f).tickRoot = s.tickRoot := rfl
@[simp] theorem State.setFr_synced (s : State) (f : Frag) : (s.setFr f).synced = s.synced := rfl
@[simp] theorem State.setFr_opened (s : State) (f : Frag) : (s.setFr f).opened = s.opened := rfl
@[simp] theorem State.setFr_tickOff (s : State) (f : Frag) : (s.setFr f).tickOff = s.tickOff := rfl
@[simp] theorem State.setFr_slewed (s : State) (f : Frag) : (s.setFr f).slewed = s.slewed := rfl
@[simp] theorem State.setFr_walks (s : State) (f : Frag) : (s.setFr f).walks = s.walks := rfl
@[simp] theorem State.setFr_fetched (s : State) (f : Frag) : (s.setFr f).fetched = s.fetched := rfl
@[simp] theorem State.setFr_lastTask (s : State) (f : Frag) : (s.setFr f).lastTask = s.lastTask := rfl
@[simp] theorem State.setFr_asks (s : State) (f : Frag) : (s.setFr f).asks = s.asks := rfl
@[simp] theorem State.setFr_bar2 (s : State) (f : Frag) : (s.setFr f).bar2 = s.bar2 := rfl
@[simp] theorem State.setFr_replies (s : State) (f : Frag) : (s.setFr f).replies = s.replies := rfl
@[simp] theorem State.setFr_mem (s : State) (f : Frag) : (s.setFr f).mem = s.mem := rfl
@[simp] theorem State.setFr_tlb (s : State) (f : Frag) : (s.setFr f).tlb = s.tlb := rfl
@[simp] theorem State.setFr_ats (s : State) (f : Frag) : (s.setFr f).ats = s.ats := rfl
@[simp] theorem State.setFr_hostAtomics (s : State) (f : Frag) : (s.setFr f).hostAtomics = s.hostAtomics := rfl
@[simp] theorem State.setFr_unreachable (s : State) (f : Frag) : (s.setFr f).unreachable = s.unreachable := rfl
@[simp] theorem State.setFr_accesses (s : State) (f : Frag) : (s.setFr f).accesses = s.accesses := rfl
@[simp] theorem State.setFr_notices (s : State) (f : Frag) : (s.setFr f).notices = s.notices := rfl
@[simp] theorem State.setFr_records (s : State) (f : Frag) : (s.setFr f).records = s.records := rfl
@[simp] theorem State.setFr_contexts (s : State) (f : Frag) : (s.setFr f).contexts = s.contexts := rfl
@[simp] theorem State.setFr_hostQueues (s : State) (f : Frag) : (s.setFr f).hostQueues = s.hostQueues := rfl
@[simp] theorem State.setFr_msixDue (s : State) (f : Frag) : (s.setFr f).msixDue = s.msixDue := rfl
@[simp] theorem State.setFr_msixLast (s : State) (f : Frag) : (s.setFr f).msixLast = s.msixLast := rfl
@[simp] theorem State.setFr_hostWorks (s : State) (f : Frag) : (s.setFr f).hostWorks = s.hostWorks := rfl
@[simp] theorem State.setFr_lastOper (s : State) (f : Frag) : (s.setFr f).lastOper = s.lastOper := rfl
@[simp] theorem State.setFr_churnReqs (s : State) (f : Frag) : (s.setFr f).churnReqs = s.churnReqs := rfl
@[simp] theorem State.setFr_sharedKeys (s : State) (f : Frag) : (s.setFr f).sharedKeys = s.sharedKeys := rfl
@[simp] theorem State.setFr_launches (s : State) (f : Frag) : (s.setFr f).launches = s.launches := rfl
@[simp] theorem State.setFr_runList (s : State) (f : Frag) : (s.setFr f).runList = s.runList := rfl
@[simp] theorem State.setFr_throttles (s : State) (f : Frag) : (s.setFr f).throttles = s.throttles := rfl
@[simp] theorem State.setFr_control (s : State) (f : Frag) : (s.setFr f).control = s.control := rfl
@[simp] theorem State.setFr_ras (s : State) (f : Frag) : (s.setFr f).ras = s.ras := rfl
@[simp] theorem State.setFr_power (s : State) (f : Frag) : (s.setFr f).power = s.power := rfl

/-! ## Replacing the executing wave changes nothing else -/

@[simp] theorem State.setWv_inputs (s : State) (w : Wave) : (s.setWv w).inputs = s.inputs := rfl
@[simp] theorem State.setWv_cur (s : State) (w : Wave) : (s.setWv w).cur = s.cur := rfl
@[simp] theorem State.setWv_stalled (s : State) (w : Wave) : (s.setWv w).stalled = s.stalled := rfl
@[simp] theorem State.setWv_deferring (s : State) (w : Wave) : (s.setWv w).deferring = s.deferring := rfl
@[simp] theorem State.setWv_fresh (s : State) (w : Wave) : (s.setWv w).fresh = s.fresh := rfl
@[simp] theorem State.setWv_cycle (s : State) (w : Wave) : (s.setWv w).cycle = s.cycle := rfl
@[simp] theorem State.setWv_tick (s : State) (w : Wave) : (s.setWv w).tick = s.tick := rfl
@[simp] theorem State.setWv_refills (s : State) (w : Wave) : (s.setWv w).refills = s.refills := rfl
@[simp] theorem State.setWv_chip (s : State) (w : Wave) : (s.setWv w).chip = s.chip := rfl
@[simp] theorem State.setWv_frags (s : State) (w : Wave) : (s.setWv w).frags = s.frags := rfl
@[simp] theorem State.setWv_tasks (s : State) (w : Wave) : (s.setWv w).tasks = s.tasks := rfl
@[simp] theorem State.setWv_cores (s : State) (w : Wave) : (s.setWv w).cores = s.cores := rfl
@[simp] theorem State.setWv_operators (s : State) (w : Wave) : (s.setWv w).operators = s.operators := rfl
@[simp] theorem State.setWv_seats (s : State) (w : Wave) : (s.setWv w).seats = s.seats := rfl
@[simp] theorem State.setWv_slotMap (s : State) (w : Wave) : (s.setWv w).slotMap = s.slotMap := rfl
@[simp] theorem State.setWv_tiles (s : State) (w : Wave) : (s.setWv w).tiles = s.tiles := rfl
@[simp] theorem State.setWv_groups (s : State) (w : Wave) : (s.setWv w).groups = s.groups := rfl
@[simp] theorem State.setWv_banks (s : State) (w : Wave) : (s.setWv w).banks = s.banks := rfl
@[simp] theorem State.setWv_accs (s : State) (w : Wave) : (s.setWv w).accs = s.accs := rfl
@[simp] theorem State.setWv_copies (s : State) (w : Wave) : (s.setWv w).copies = s.copies := rfl
@[simp] theorem State.setWv_images (s : State) (w : Wave) : (s.setWv w).images = s.images := rfl
@[simp] theorem State.setWv_churns (s : State) (w : Wave) : (s.setWv w).churns = s.churns := rfl
@[simp] theorem State.setWv_churnRes (s : State) (w : Wave) : (s.setWv w).churnRes = s.churnRes := rfl
@[simp] theorem State.setWv_rounds (s : State) (w : Wave) : (s.setWv w).rounds = s.rounds := rfl
@[simp] theorem State.setWv_queues (s : State) (w : Wave) : (s.setWv w).queues = s.queues := rfl
@[simp] theorem State.setWv_flights (s : State) (w : Wave) : (s.setWv w).flights = s.flights := rfl
@[simp] theorem State.setWv_returns (s : State) (w : Wave) : (s.setWv w).returns = s.returns := rfl
@[simp] theorem State.setWv_streams (s : State) (w : Wave) : (s.setWv w).streams = s.streams := rfl
@[simp] theorem State.setWv_inUse (s : State) (w : Wave) : (s.setWv w).inUse = s.inUse := rfl
@[simp] theorem State.setWv_sendSeq (s : State) (w : Wave) : (s.setWv w).sendSeq = s.sendSeq := rfl
@[simp] theorem State.setWv_peerSeq (s : State) (w : Wave) : (s.setWv w).peerSeq = s.peerSeq := rfl
@[simp] theorem State.setWv_chains (s : State) (w : Wave) : (s.setWv w).chains = s.chains := rfl
@[simp] theorem State.setWv_routes (s : State) (w : Wave) : (s.setWv w).routes = s.routes := rfl
@[simp] theorem State.setWv_portsDown (s : State) (w : Wave) : (s.setWv w).portsDown = s.portsDown := rfl
@[simp] theorem State.setWv_bridgesDown (s : State) (w : Wave) : (s.setWv w).bridgesDown = s.bridgesDown := rfl
@[simp] theorem State.setWv_routeLost (s : State) (w : Wave) : (s.setWv w).routeLost = s.routeLost := rfl
@[simp] theorem State.setWv_routeTimeout (s : State) (w : Wave) : (s.setWv w).routeTimeout = s.routeTimeout := rfl
@[simp] theorem State.setWv_tickRoot (s : State) (w : Wave) : (s.setWv w).tickRoot = s.tickRoot := rfl
@[simp] theorem State.setWv_synced (s : State) (w : Wave) : (s.setWv w).synced = s.synced := rfl
@[simp] theorem State.setWv_opened (s : State) (w : Wave) : (s.setWv w).opened = s.opened := rfl
@[simp] theorem State.setWv_tickOff (s : State) (w : Wave) : (s.setWv w).tickOff = s.tickOff := rfl
@[simp] theorem State.setWv_slewed (s : State) (w : Wave) : (s.setWv w).slewed = s.slewed := rfl
@[simp] theorem State.setWv_walks (s : State) (w : Wave) : (s.setWv w).walks = s.walks := rfl
@[simp] theorem State.setWv_fetched (s : State) (w : Wave) : (s.setWv w).fetched = s.fetched := rfl
@[simp] theorem State.setWv_lastTask (s : State) (w : Wave) : (s.setWv w).lastTask = s.lastTask := rfl
@[simp] theorem State.setWv_asks (s : State) (w : Wave) : (s.setWv w).asks = s.asks := rfl
@[simp] theorem State.setWv_bar2 (s : State) (w : Wave) : (s.setWv w).bar2 = s.bar2 := rfl
@[simp] theorem State.setWv_replies (s : State) (w : Wave) : (s.setWv w).replies = s.replies := rfl
@[simp] theorem State.setWv_mem (s : State) (w : Wave) : (s.setWv w).mem = s.mem := rfl
@[simp] theorem State.setWv_tlb (s : State) (w : Wave) : (s.setWv w).tlb = s.tlb := rfl
@[simp] theorem State.setWv_ats (s : State) (w : Wave) : (s.setWv w).ats = s.ats := rfl
@[simp] theorem State.setWv_hostAtomics (s : State) (w : Wave) : (s.setWv w).hostAtomics = s.hostAtomics := rfl
@[simp] theorem State.setWv_unreachable (s : State) (w : Wave) : (s.setWv w).unreachable = s.unreachable := rfl
@[simp] theorem State.setWv_accesses (s : State) (w : Wave) : (s.setWv w).accesses = s.accesses := rfl
@[simp] theorem State.setWv_notices (s : State) (w : Wave) : (s.setWv w).notices = s.notices := rfl
@[simp] theorem State.setWv_records (s : State) (w : Wave) : (s.setWv w).records = s.records := rfl
@[simp] theorem State.setWv_contexts (s : State) (w : Wave) : (s.setWv w).contexts = s.contexts := rfl
@[simp] theorem State.setWv_hostQueues (s : State) (w : Wave) : (s.setWv w).hostQueues = s.hostQueues := rfl
@[simp] theorem State.setWv_msixDue (s : State) (w : Wave) : (s.setWv w).msixDue = s.msixDue := rfl
@[simp] theorem State.setWv_msixLast (s : State) (w : Wave) : (s.setWv w).msixLast = s.msixLast := rfl
@[simp] theorem State.setWv_hostWorks (s : State) (w : Wave) : (s.setWv w).hostWorks = s.hostWorks := rfl
@[simp] theorem State.setWv_lastOper (s : State) (w : Wave) : (s.setWv w).lastOper = s.lastOper := rfl
@[simp] theorem State.setWv_churnReqs (s : State) (w : Wave) : (s.setWv w).churnReqs = s.churnReqs := rfl
@[simp] theorem State.setWv_sharedKeys (s : State) (w : Wave) : (s.setWv w).sharedKeys = s.sharedKeys := rfl
@[simp] theorem State.setWv_launches (s : State) (w : Wave) : (s.setWv w).launches = s.launches := rfl
@[simp] theorem State.setWv_runList (s : State) (w : Wave) : (s.setWv w).runList = s.runList := rfl
@[simp] theorem State.setWv_throttles (s : State) (w : Wave) : (s.setWv w).throttles = s.throttles := rfl
@[simp] theorem State.setWv_control (s : State) (w : Wave) : (s.setWv w).control = s.control := rfl
@[simp] theorem State.setWv_ras (s : State) (w : Wave) : (s.setWv w).ras = s.ras := rfl
@[simp] theorem State.setWv_power (s : State) (w : Wave) : (s.setWv w).power = s.power := rfl

/-! ## Replacing a fragment changes nothing else -/

@[simp] theorem State.setFrOf_inputs (s : State) (i : FragId) (f : Frag) : (s.setFrOf i f).inputs = s.inputs := rfl
@[simp] theorem State.setFrOf_cur (s : State) (i : FragId) (f : Frag) : (s.setFrOf i f).cur = s.cur := rfl
@[simp] theorem State.setFrOf_stalled (s : State) (i : FragId) (f : Frag) : (s.setFrOf i f).stalled = s.stalled := rfl
@[simp] theorem State.setFrOf_deferring (s : State) (i : FragId) (f : Frag) : (s.setFrOf i f).deferring = s.deferring := rfl
@[simp] theorem State.setFrOf_fresh (s : State) (i : FragId) (f : Frag) : (s.setFrOf i f).fresh = s.fresh := rfl
@[simp] theorem State.setFrOf_cycle (s : State) (i : FragId) (f : Frag) : (s.setFrOf i f).cycle = s.cycle := rfl
@[simp] theorem State.setFrOf_tick (s : State) (i : FragId) (f : Frag) : (s.setFrOf i f).tick = s.tick := rfl
@[simp] theorem State.setFrOf_refills (s : State) (i : FragId) (f : Frag) : (s.setFrOf i f).refills = s.refills := rfl
@[simp] theorem State.setFrOf_chip (s : State) (i : FragId) (f : Frag) : (s.setFrOf i f).chip = s.chip := rfl
@[simp] theorem State.setFrOf_waves (s : State) (i : FragId) (f : Frag) : (s.setFrOf i f).waves = s.waves := rfl
@[simp] theorem State.setFrOf_tasks (s : State) (i : FragId) (f : Frag) : (s.setFrOf i f).tasks = s.tasks := rfl
@[simp] theorem State.setFrOf_cores (s : State) (i : FragId) (f : Frag) : (s.setFrOf i f).cores = s.cores := rfl
@[simp] theorem State.setFrOf_operators (s : State) (i : FragId) (f : Frag) : (s.setFrOf i f).operators = s.operators := rfl
@[simp] theorem State.setFrOf_seats (s : State) (i : FragId) (f : Frag) : (s.setFrOf i f).seats = s.seats := rfl
@[simp] theorem State.setFrOf_slotMap (s : State) (i : FragId) (f : Frag) : (s.setFrOf i f).slotMap = s.slotMap := rfl
@[simp] theorem State.setFrOf_tiles (s : State) (i : FragId) (f : Frag) : (s.setFrOf i f).tiles = s.tiles := rfl
@[simp] theorem State.setFrOf_groups (s : State) (i : FragId) (f : Frag) : (s.setFrOf i f).groups = s.groups := rfl
@[simp] theorem State.setFrOf_banks (s : State) (i : FragId) (f : Frag) : (s.setFrOf i f).banks = s.banks := rfl
@[simp] theorem State.setFrOf_accs (s : State) (i : FragId) (f : Frag) : (s.setFrOf i f).accs = s.accs := rfl
@[simp] theorem State.setFrOf_copies (s : State) (i : FragId) (f : Frag) : (s.setFrOf i f).copies = s.copies := rfl
@[simp] theorem State.setFrOf_images (s : State) (i : FragId) (f : Frag) : (s.setFrOf i f).images = s.images := rfl
@[simp] theorem State.setFrOf_churns (s : State) (i : FragId) (f : Frag) : (s.setFrOf i f).churns = s.churns := rfl
@[simp] theorem State.setFrOf_churnRes (s : State) (i : FragId) (f : Frag) : (s.setFrOf i f).churnRes = s.churnRes := rfl
@[simp] theorem State.setFrOf_rounds (s : State) (i : FragId) (f : Frag) : (s.setFrOf i f).rounds = s.rounds := rfl
@[simp] theorem State.setFrOf_queues (s : State) (i : FragId) (f : Frag) : (s.setFrOf i f).queues = s.queues := rfl
@[simp] theorem State.setFrOf_flights (s : State) (i : FragId) (f : Frag) : (s.setFrOf i f).flights = s.flights := rfl
@[simp] theorem State.setFrOf_returns (s : State) (i : FragId) (f : Frag) : (s.setFrOf i f).returns = s.returns := rfl
@[simp] theorem State.setFrOf_streams (s : State) (i : FragId) (f : Frag) : (s.setFrOf i f).streams = s.streams := rfl
@[simp] theorem State.setFrOf_inUse (s : State) (i : FragId) (f : Frag) : (s.setFrOf i f).inUse = s.inUse := rfl
@[simp] theorem State.setFrOf_sendSeq (s : State) (i : FragId) (f : Frag) : (s.setFrOf i f).sendSeq = s.sendSeq := rfl
@[simp] theorem State.setFrOf_peerSeq (s : State) (i : FragId) (f : Frag) : (s.setFrOf i f).peerSeq = s.peerSeq := rfl
@[simp] theorem State.setFrOf_chains (s : State) (i : FragId) (f : Frag) : (s.setFrOf i f).chains = s.chains := rfl
@[simp] theorem State.setFrOf_routes (s : State) (i : FragId) (f : Frag) : (s.setFrOf i f).routes = s.routes := rfl
@[simp] theorem State.setFrOf_portsDown (s : State) (i : FragId) (f : Frag) : (s.setFrOf i f).portsDown = s.portsDown := rfl
@[simp] theorem State.setFrOf_bridgesDown (s : State) (i : FragId) (f : Frag) : (s.setFrOf i f).bridgesDown = s.bridgesDown := rfl
@[simp] theorem State.setFrOf_routeLost (s : State) (i : FragId) (f : Frag) : (s.setFrOf i f).routeLost = s.routeLost := rfl
@[simp] theorem State.setFrOf_routeTimeout (s : State) (i : FragId) (f : Frag) : (s.setFrOf i f).routeTimeout = s.routeTimeout := rfl
@[simp] theorem State.setFrOf_tickRoot (s : State) (i : FragId) (f : Frag) : (s.setFrOf i f).tickRoot = s.tickRoot := rfl
@[simp] theorem State.setFrOf_synced (s : State) (i : FragId) (f : Frag) : (s.setFrOf i f).synced = s.synced := rfl
@[simp] theorem State.setFrOf_opened (s : State) (i : FragId) (f : Frag) : (s.setFrOf i f).opened = s.opened := rfl
@[simp] theorem State.setFrOf_tickOff (s : State) (i : FragId) (f : Frag) : (s.setFrOf i f).tickOff = s.tickOff := rfl
@[simp] theorem State.setFrOf_slewed (s : State) (i : FragId) (f : Frag) : (s.setFrOf i f).slewed = s.slewed := rfl
@[simp] theorem State.setFrOf_walks (s : State) (i : FragId) (f : Frag) : (s.setFrOf i f).walks = s.walks := rfl
@[simp] theorem State.setFrOf_fetched (s : State) (i : FragId) (f : Frag) : (s.setFrOf i f).fetched = s.fetched := rfl
@[simp] theorem State.setFrOf_lastTask (s : State) (i : FragId) (f : Frag) : (s.setFrOf i f).lastTask = s.lastTask := rfl
@[simp] theorem State.setFrOf_asks (s : State) (i : FragId) (f : Frag) : (s.setFrOf i f).asks = s.asks := rfl
@[simp] theorem State.setFrOf_bar2 (s : State) (i : FragId) (f : Frag) : (s.setFrOf i f).bar2 = s.bar2 := rfl
@[simp] theorem State.setFrOf_replies (s : State) (i : FragId) (f : Frag) : (s.setFrOf i f).replies = s.replies := rfl
@[simp] theorem State.setFrOf_mem (s : State) (i : FragId) (f : Frag) : (s.setFrOf i f).mem = s.mem := rfl
@[simp] theorem State.setFrOf_tlb (s : State) (i : FragId) (f : Frag) : (s.setFrOf i f).tlb = s.tlb := rfl
@[simp] theorem State.setFrOf_ats (s : State) (i : FragId) (f : Frag) : (s.setFrOf i f).ats = s.ats := rfl
@[simp] theorem State.setFrOf_hostAtomics (s : State) (i : FragId) (f : Frag) : (s.setFrOf i f).hostAtomics = s.hostAtomics := rfl
@[simp] theorem State.setFrOf_unreachable (s : State) (i : FragId) (f : Frag) : (s.setFrOf i f).unreachable = s.unreachable := rfl
@[simp] theorem State.setFrOf_accesses (s : State) (i : FragId) (f : Frag) : (s.setFrOf i f).accesses = s.accesses := rfl
@[simp] theorem State.setFrOf_notices (s : State) (i : FragId) (f : Frag) : (s.setFrOf i f).notices = s.notices := rfl
@[simp] theorem State.setFrOf_records (s : State) (i : FragId) (f : Frag) : (s.setFrOf i f).records = s.records := rfl
@[simp] theorem State.setFrOf_contexts (s : State) (i : FragId) (f : Frag) : (s.setFrOf i f).contexts = s.contexts := rfl
@[simp] theorem State.setFrOf_hostQueues (s : State) (i : FragId) (f : Frag) : (s.setFrOf i f).hostQueues = s.hostQueues := rfl
@[simp] theorem State.setFrOf_msixDue (s : State) (i : FragId) (f : Frag) : (s.setFrOf i f).msixDue = s.msixDue := rfl
@[simp] theorem State.setFrOf_msixLast (s : State) (i : FragId) (f : Frag) : (s.setFrOf i f).msixLast = s.msixLast := rfl
@[simp] theorem State.setFrOf_hostWorks (s : State) (i : FragId) (f : Frag) : (s.setFrOf i f).hostWorks = s.hostWorks := rfl
@[simp] theorem State.setFrOf_lastOper (s : State) (i : FragId) (f : Frag) : (s.setFrOf i f).lastOper = s.lastOper := rfl
@[simp] theorem State.setFrOf_churnReqs (s : State) (i : FragId) (f : Frag) : (s.setFrOf i f).churnReqs = s.churnReqs := rfl
@[simp] theorem State.setFrOf_sharedKeys (s : State) (i : FragId) (f : Frag) : (s.setFrOf i f).sharedKeys = s.sharedKeys := rfl
@[simp] theorem State.setFrOf_launches (s : State) (i : FragId) (f : Frag) : (s.setFrOf i f).launches = s.launches := rfl
@[simp] theorem State.setFrOf_runList (s : State) (i : FragId) (f : Frag) : (s.setFrOf i f).runList = s.runList := rfl
@[simp] theorem State.setFrOf_throttles (s : State) (i : FragId) (f : Frag) : (s.setFrOf i f).throttles = s.throttles := rfl
@[simp] theorem State.setFrOf_control (s : State) (i : FragId) (f : Frag) : (s.setFrOf i f).control = s.control := rfl
@[simp] theorem State.setFrOf_ras (s : State) (i : FragId) (f : Frag) : (s.setFrOf i f).ras = s.ras := rfl
@[simp] theorem State.setFrOf_power (s : State) (i : FragId) (f : Frag) : (s.setFrOf i f).power = s.power := rfl

/-! ## Replacing a wave changes nothing else -/

@[simp] theorem State.setWvOf_inputs (s : State) (i : FragId) (w : Wave) : (s.setWvOf i w).inputs = s.inputs := rfl
@[simp] theorem State.setWvOf_cur (s : State) (i : FragId) (w : Wave) : (s.setWvOf i w).cur = s.cur := rfl
@[simp] theorem State.setWvOf_stalled (s : State) (i : FragId) (w : Wave) : (s.setWvOf i w).stalled = s.stalled := rfl
@[simp] theorem State.setWvOf_deferring (s : State) (i : FragId) (w : Wave) : (s.setWvOf i w).deferring = s.deferring := rfl
@[simp] theorem State.setWvOf_fresh (s : State) (i : FragId) (w : Wave) : (s.setWvOf i w).fresh = s.fresh := rfl
@[simp] theorem State.setWvOf_cycle (s : State) (i : FragId) (w : Wave) : (s.setWvOf i w).cycle = s.cycle := rfl
@[simp] theorem State.setWvOf_tick (s : State) (i : FragId) (w : Wave) : (s.setWvOf i w).tick = s.tick := rfl
@[simp] theorem State.setWvOf_refills (s : State) (i : FragId) (w : Wave) : (s.setWvOf i w).refills = s.refills := rfl
@[simp] theorem State.setWvOf_chip (s : State) (i : FragId) (w : Wave) : (s.setWvOf i w).chip = s.chip := rfl
@[simp] theorem State.setWvOf_frags (s : State) (i : FragId) (w : Wave) : (s.setWvOf i w).frags = s.frags := rfl
@[simp] theorem State.setWvOf_tasks (s : State) (i : FragId) (w : Wave) : (s.setWvOf i w).tasks = s.tasks := rfl
@[simp] theorem State.setWvOf_cores (s : State) (i : FragId) (w : Wave) : (s.setWvOf i w).cores = s.cores := rfl
@[simp] theorem State.setWvOf_operators (s : State) (i : FragId) (w : Wave) : (s.setWvOf i w).operators = s.operators := rfl
@[simp] theorem State.setWvOf_seats (s : State) (i : FragId) (w : Wave) : (s.setWvOf i w).seats = s.seats := rfl
@[simp] theorem State.setWvOf_slotMap (s : State) (i : FragId) (w : Wave) : (s.setWvOf i w).slotMap = s.slotMap := rfl
@[simp] theorem State.setWvOf_tiles (s : State) (i : FragId) (w : Wave) : (s.setWvOf i w).tiles = s.tiles := rfl
@[simp] theorem State.setWvOf_groups (s : State) (i : FragId) (w : Wave) : (s.setWvOf i w).groups = s.groups := rfl
@[simp] theorem State.setWvOf_banks (s : State) (i : FragId) (w : Wave) : (s.setWvOf i w).banks = s.banks := rfl
@[simp] theorem State.setWvOf_accs (s : State) (i : FragId) (w : Wave) : (s.setWvOf i w).accs = s.accs := rfl
@[simp] theorem State.setWvOf_copies (s : State) (i : FragId) (w : Wave) : (s.setWvOf i w).copies = s.copies := rfl
@[simp] theorem State.setWvOf_images (s : State) (i : FragId) (w : Wave) : (s.setWvOf i w).images = s.images := rfl
@[simp] theorem State.setWvOf_churns (s : State) (i : FragId) (w : Wave) : (s.setWvOf i w).churns = s.churns := rfl
@[simp] theorem State.setWvOf_churnRes (s : State) (i : FragId) (w : Wave) : (s.setWvOf i w).churnRes = s.churnRes := rfl
@[simp] theorem State.setWvOf_rounds (s : State) (i : FragId) (w : Wave) : (s.setWvOf i w).rounds = s.rounds := rfl
@[simp] theorem State.setWvOf_queues (s : State) (i : FragId) (w : Wave) : (s.setWvOf i w).queues = s.queues := rfl
@[simp] theorem State.setWvOf_flights (s : State) (i : FragId) (w : Wave) : (s.setWvOf i w).flights = s.flights := rfl
@[simp] theorem State.setWvOf_returns (s : State) (i : FragId) (w : Wave) : (s.setWvOf i w).returns = s.returns := rfl
@[simp] theorem State.setWvOf_streams (s : State) (i : FragId) (w : Wave) : (s.setWvOf i w).streams = s.streams := rfl
@[simp] theorem State.setWvOf_inUse (s : State) (i : FragId) (w : Wave) : (s.setWvOf i w).inUse = s.inUse := rfl
@[simp] theorem State.setWvOf_sendSeq (s : State) (i : FragId) (w : Wave) : (s.setWvOf i w).sendSeq = s.sendSeq := rfl
@[simp] theorem State.setWvOf_peerSeq (s : State) (i : FragId) (w : Wave) : (s.setWvOf i w).peerSeq = s.peerSeq := rfl
@[simp] theorem State.setWvOf_chains (s : State) (i : FragId) (w : Wave) : (s.setWvOf i w).chains = s.chains := rfl
@[simp] theorem State.setWvOf_routes (s : State) (i : FragId) (w : Wave) : (s.setWvOf i w).routes = s.routes := rfl
@[simp] theorem State.setWvOf_portsDown (s : State) (i : FragId) (w : Wave) : (s.setWvOf i w).portsDown = s.portsDown := rfl
@[simp] theorem State.setWvOf_bridgesDown (s : State) (i : FragId) (w : Wave) : (s.setWvOf i w).bridgesDown = s.bridgesDown := rfl
@[simp] theorem State.setWvOf_routeLost (s : State) (i : FragId) (w : Wave) : (s.setWvOf i w).routeLost = s.routeLost := rfl
@[simp] theorem State.setWvOf_routeTimeout (s : State) (i : FragId) (w : Wave) : (s.setWvOf i w).routeTimeout = s.routeTimeout := rfl
@[simp] theorem State.setWvOf_tickRoot (s : State) (i : FragId) (w : Wave) : (s.setWvOf i w).tickRoot = s.tickRoot := rfl
@[simp] theorem State.setWvOf_synced (s : State) (i : FragId) (w : Wave) : (s.setWvOf i w).synced = s.synced := rfl
@[simp] theorem State.setWvOf_opened (s : State) (i : FragId) (w : Wave) : (s.setWvOf i w).opened = s.opened := rfl
@[simp] theorem State.setWvOf_tickOff (s : State) (i : FragId) (w : Wave) : (s.setWvOf i w).tickOff = s.tickOff := rfl
@[simp] theorem State.setWvOf_slewed (s : State) (i : FragId) (w : Wave) : (s.setWvOf i w).slewed = s.slewed := rfl
@[simp] theorem State.setWvOf_walks (s : State) (i : FragId) (w : Wave) : (s.setWvOf i w).walks = s.walks := rfl
@[simp] theorem State.setWvOf_fetched (s : State) (i : FragId) (w : Wave) : (s.setWvOf i w).fetched = s.fetched := rfl
@[simp] theorem State.setWvOf_lastTask (s : State) (i : FragId) (w : Wave) : (s.setWvOf i w).lastTask = s.lastTask := rfl
@[simp] theorem State.setWvOf_asks (s : State) (i : FragId) (w : Wave) : (s.setWvOf i w).asks = s.asks := rfl
@[simp] theorem State.setWvOf_bar2 (s : State) (i : FragId) (w : Wave) : (s.setWvOf i w).bar2 = s.bar2 := rfl
@[simp] theorem State.setWvOf_replies (s : State) (i : FragId) (w : Wave) : (s.setWvOf i w).replies = s.replies := rfl
@[simp] theorem State.setWvOf_mem (s : State) (i : FragId) (w : Wave) : (s.setWvOf i w).mem = s.mem := rfl
@[simp] theorem State.setWvOf_tlb (s : State) (i : FragId) (w : Wave) : (s.setWvOf i w).tlb = s.tlb := rfl
@[simp] theorem State.setWvOf_ats (s : State) (i : FragId) (w : Wave) : (s.setWvOf i w).ats = s.ats := rfl
@[simp] theorem State.setWvOf_hostAtomics (s : State) (i : FragId) (w : Wave) : (s.setWvOf i w).hostAtomics = s.hostAtomics := rfl
@[simp] theorem State.setWvOf_unreachable (s : State) (i : FragId) (w : Wave) : (s.setWvOf i w).unreachable = s.unreachable := rfl
@[simp] theorem State.setWvOf_accesses (s : State) (i : FragId) (w : Wave) : (s.setWvOf i w).accesses = s.accesses := rfl
@[simp] theorem State.setWvOf_notices (s : State) (i : FragId) (w : Wave) : (s.setWvOf i w).notices = s.notices := rfl
@[simp] theorem State.setWvOf_records (s : State) (i : FragId) (w : Wave) : (s.setWvOf i w).records = s.records := rfl
@[simp] theorem State.setWvOf_contexts (s : State) (i : FragId) (w : Wave) : (s.setWvOf i w).contexts = s.contexts := rfl
@[simp] theorem State.setWvOf_hostQueues (s : State) (i : FragId) (w : Wave) : (s.setWvOf i w).hostQueues = s.hostQueues := rfl
@[simp] theorem State.setWvOf_msixDue (s : State) (i : FragId) (w : Wave) : (s.setWvOf i w).msixDue = s.msixDue := rfl
@[simp] theorem State.setWvOf_msixLast (s : State) (i : FragId) (w : Wave) : (s.setWvOf i w).msixLast = s.msixLast := rfl
@[simp] theorem State.setWvOf_hostWorks (s : State) (i : FragId) (w : Wave) : (s.setWvOf i w).hostWorks = s.hostWorks := rfl
@[simp] theorem State.setWvOf_lastOper (s : State) (i : FragId) (w : Wave) : (s.setWvOf i w).lastOper = s.lastOper := rfl
@[simp] theorem State.setWvOf_churnReqs (s : State) (i : FragId) (w : Wave) : (s.setWvOf i w).churnReqs = s.churnReqs := rfl
@[simp] theorem State.setWvOf_sharedKeys (s : State) (i : FragId) (w : Wave) : (s.setWvOf i w).sharedKeys = s.sharedKeys := rfl
@[simp] theorem State.setWvOf_launches (s : State) (i : FragId) (w : Wave) : (s.setWvOf i w).launches = s.launches := rfl
@[simp] theorem State.setWvOf_runList (s : State) (i : FragId) (w : Wave) : (s.setWvOf i w).runList = s.runList := rfl
@[simp] theorem State.setWvOf_throttles (s : State) (i : FragId) (w : Wave) : (s.setWvOf i w).throttles = s.throttles := rfl
@[simp] theorem State.setWvOf_control (s : State) (i : FragId) (w : Wave) : (s.setWvOf i w).control = s.control := rfl
@[simp] theorem State.setWvOf_ras (s : State) (i : FragId) (w : Wave) : (s.setWvOf i w).ras = s.ras := rfl
@[simp] theorem State.setWvOf_power (s : State) (i : FragId) (w : Wave) : (s.setWvOf i w).power = s.power := rfl

/-! ## Replacing what an operator holds on a core changes nothing else -/

@[simp] theorem State.setSeatOf_inputs (s : State) (o c : Nat) (x : Seat) : (s.setSeatOf o c x).inputs = s.inputs := rfl
@[simp] theorem State.setSeatOf_cur (s : State) (o c : Nat) (x : Seat) : (s.setSeatOf o c x).cur = s.cur := rfl
@[simp] theorem State.setSeatOf_stalled (s : State) (o c : Nat) (x : Seat) : (s.setSeatOf o c x).stalled = s.stalled := rfl
@[simp] theorem State.setSeatOf_deferring (s : State) (o c : Nat) (x : Seat) : (s.setSeatOf o c x).deferring = s.deferring := rfl
@[simp] theorem State.setSeatOf_fresh (s : State) (o c : Nat) (x : Seat) : (s.setSeatOf o c x).fresh = s.fresh := rfl
@[simp] theorem State.setSeatOf_cycle (s : State) (o c : Nat) (x : Seat) : (s.setSeatOf o c x).cycle = s.cycle := rfl
@[simp] theorem State.setSeatOf_tick (s : State) (o c : Nat) (x : Seat) : (s.setSeatOf o c x).tick = s.tick := rfl
@[simp] theorem State.setSeatOf_refills (s : State) (o c : Nat) (x : Seat) : (s.setSeatOf o c x).refills = s.refills := rfl
@[simp] theorem State.setSeatOf_chip (s : State) (o c : Nat) (x : Seat) : (s.setSeatOf o c x).chip = s.chip := rfl
@[simp] theorem State.setSeatOf_frags (s : State) (o c : Nat) (x : Seat) : (s.setSeatOf o c x).frags = s.frags := rfl
@[simp] theorem State.setSeatOf_waves (s : State) (o c : Nat) (x : Seat) : (s.setSeatOf o c x).waves = s.waves := rfl
@[simp] theorem State.setSeatOf_tasks (s : State) (o c : Nat) (x : Seat) : (s.setSeatOf o c x).tasks = s.tasks := rfl
@[simp] theorem State.setSeatOf_cores (s : State) (o c : Nat) (x : Seat) : (s.setSeatOf o c x).cores = s.cores := rfl
@[simp] theorem State.setSeatOf_operators (s : State) (o c : Nat) (x : Seat) : (s.setSeatOf o c x).operators = s.operators := rfl
@[simp] theorem State.setSeatOf_slotMap (s : State) (o c : Nat) (x : Seat) : (s.setSeatOf o c x).slotMap = s.slotMap := rfl
@[simp] theorem State.setSeatOf_tiles (s : State) (o c : Nat) (x : Seat) : (s.setSeatOf o c x).tiles = s.tiles := rfl
@[simp] theorem State.setSeatOf_groups (s : State) (o c : Nat) (x : Seat) : (s.setSeatOf o c x).groups = s.groups := rfl
@[simp] theorem State.setSeatOf_banks (s : State) (o c : Nat) (x : Seat) : (s.setSeatOf o c x).banks = s.banks := rfl
@[simp] theorem State.setSeatOf_accs (s : State) (o c : Nat) (x : Seat) : (s.setSeatOf o c x).accs = s.accs := rfl
@[simp] theorem State.setSeatOf_copies (s : State) (o c : Nat) (x : Seat) : (s.setSeatOf o c x).copies = s.copies := rfl
@[simp] theorem State.setSeatOf_images (s : State) (o c : Nat) (x : Seat) : (s.setSeatOf o c x).images = s.images := rfl
@[simp] theorem State.setSeatOf_churns (s : State) (o c : Nat) (x : Seat) : (s.setSeatOf o c x).churns = s.churns := rfl
@[simp] theorem State.setSeatOf_churnRes (s : State) (o c : Nat) (x : Seat) : (s.setSeatOf o c x).churnRes = s.churnRes := rfl
@[simp] theorem State.setSeatOf_rounds (s : State) (o c : Nat) (x : Seat) : (s.setSeatOf o c x).rounds = s.rounds := rfl
@[simp] theorem State.setSeatOf_queues (s : State) (o c : Nat) (x : Seat) : (s.setSeatOf o c x).queues = s.queues := rfl
@[simp] theorem State.setSeatOf_flights (s : State) (o c : Nat) (x : Seat) : (s.setSeatOf o c x).flights = s.flights := rfl
@[simp] theorem State.setSeatOf_returns (s : State) (o c : Nat) (x : Seat) : (s.setSeatOf o c x).returns = s.returns := rfl
@[simp] theorem State.setSeatOf_streams (s : State) (o c : Nat) (x : Seat) : (s.setSeatOf o c x).streams = s.streams := rfl
@[simp] theorem State.setSeatOf_inUse (s : State) (o c : Nat) (x : Seat) : (s.setSeatOf o c x).inUse = s.inUse := rfl
@[simp] theorem State.setSeatOf_sendSeq (s : State) (o c : Nat) (x : Seat) : (s.setSeatOf o c x).sendSeq = s.sendSeq := rfl
@[simp] theorem State.setSeatOf_peerSeq (s : State) (o c : Nat) (x : Seat) : (s.setSeatOf o c x).peerSeq = s.peerSeq := rfl
@[simp] theorem State.setSeatOf_chains (s : State) (o c : Nat) (x : Seat) : (s.setSeatOf o c x).chains = s.chains := rfl
@[simp] theorem State.setSeatOf_routes (s : State) (o c : Nat) (x : Seat) : (s.setSeatOf o c x).routes = s.routes := rfl
@[simp] theorem State.setSeatOf_portsDown (s : State) (o c : Nat) (x : Seat) : (s.setSeatOf o c x).portsDown = s.portsDown := rfl
@[simp] theorem State.setSeatOf_bridgesDown (s : State) (o c : Nat) (x : Seat) : (s.setSeatOf o c x).bridgesDown = s.bridgesDown := rfl
@[simp] theorem State.setSeatOf_routeLost (s : State) (o c : Nat) (x : Seat) : (s.setSeatOf o c x).routeLost = s.routeLost := rfl
@[simp] theorem State.setSeatOf_routeTimeout (s : State) (o c : Nat) (x : Seat) : (s.setSeatOf o c x).routeTimeout = s.routeTimeout := rfl
@[simp] theorem State.setSeatOf_tickRoot (s : State) (o c : Nat) (x : Seat) : (s.setSeatOf o c x).tickRoot = s.tickRoot := rfl
@[simp] theorem State.setSeatOf_synced (s : State) (o c : Nat) (x : Seat) : (s.setSeatOf o c x).synced = s.synced := rfl
@[simp] theorem State.setSeatOf_opened (s : State) (o c : Nat) (x : Seat) : (s.setSeatOf o c x).opened = s.opened := rfl
@[simp] theorem State.setSeatOf_tickOff (s : State) (o c : Nat) (x : Seat) : (s.setSeatOf o c x).tickOff = s.tickOff := rfl
@[simp] theorem State.setSeatOf_slewed (s : State) (o c : Nat) (x : Seat) : (s.setSeatOf o c x).slewed = s.slewed := rfl
@[simp] theorem State.setSeatOf_walks (s : State) (o c : Nat) (x : Seat) : (s.setSeatOf o c x).walks = s.walks := rfl
@[simp] theorem State.setSeatOf_fetched (s : State) (o c : Nat) (x : Seat) : (s.setSeatOf o c x).fetched = s.fetched := rfl
@[simp] theorem State.setSeatOf_lastTask (s : State) (o c : Nat) (x : Seat) : (s.setSeatOf o c x).lastTask = s.lastTask := rfl
@[simp] theorem State.setSeatOf_asks (s : State) (o c : Nat) (x : Seat) : (s.setSeatOf o c x).asks = s.asks := rfl
@[simp] theorem State.setSeatOf_bar2 (s : State) (o c : Nat) (x : Seat) : (s.setSeatOf o c x).bar2 = s.bar2 := rfl
@[simp] theorem State.setSeatOf_replies (s : State) (o c : Nat) (x : Seat) : (s.setSeatOf o c x).replies = s.replies := rfl
@[simp] theorem State.setSeatOf_mem (s : State) (o c : Nat) (x : Seat) : (s.setSeatOf o c x).mem = s.mem := rfl
@[simp] theorem State.setSeatOf_tlb (s : State) (o c : Nat) (x : Seat) : (s.setSeatOf o c x).tlb = s.tlb := rfl
@[simp] theorem State.setSeatOf_ats (s : State) (o c : Nat) (x : Seat) : (s.setSeatOf o c x).ats = s.ats := rfl
@[simp] theorem State.setSeatOf_hostAtomics (s : State) (o c : Nat) (x : Seat) : (s.setSeatOf o c x).hostAtomics = s.hostAtomics := rfl
@[simp] theorem State.setSeatOf_unreachable (s : State) (o c : Nat) (x : Seat) : (s.setSeatOf o c x).unreachable = s.unreachable := rfl
@[simp] theorem State.setSeatOf_accesses (s : State) (o c : Nat) (x : Seat) : (s.setSeatOf o c x).accesses = s.accesses := rfl
@[simp] theorem State.setSeatOf_notices (s : State) (o c : Nat) (x : Seat) : (s.setSeatOf o c x).notices = s.notices := rfl
@[simp] theorem State.setSeatOf_records (s : State) (o c : Nat) (x : Seat) : (s.setSeatOf o c x).records = s.records := rfl
@[simp] theorem State.setSeatOf_contexts (s : State) (o c : Nat) (x : Seat) : (s.setSeatOf o c x).contexts = s.contexts := rfl
@[simp] theorem State.setSeatOf_hostQueues (s : State) (o c : Nat) (x : Seat) : (s.setSeatOf o c x).hostQueues = s.hostQueues := rfl
@[simp] theorem State.setSeatOf_msixDue (s : State) (o c : Nat) (x : Seat) : (s.setSeatOf o c x).msixDue = s.msixDue := rfl
@[simp] theorem State.setSeatOf_msixLast (s : State) (o c : Nat) (x : Seat) : (s.setSeatOf o c x).msixLast = s.msixLast := rfl
@[simp] theorem State.setSeatOf_hostWorks (s : State) (o c : Nat) (x : Seat) : (s.setSeatOf o c x).hostWorks = s.hostWorks := rfl
@[simp] theorem State.setSeatOf_lastOper (s : State) (o c : Nat) (x : Seat) : (s.setSeatOf o c x).lastOper = s.lastOper := rfl
@[simp] theorem State.setSeatOf_churnReqs (s : State) (o c : Nat) (x : Seat) : (s.setSeatOf o c x).churnReqs = s.churnReqs := rfl
@[simp] theorem State.setSeatOf_sharedKeys (s : State) (o c : Nat) (x : Seat) : (s.setSeatOf o c x).sharedKeys = s.sharedKeys := rfl
@[simp] theorem State.setSeatOf_launches (s : State) (o c : Nat) (x : Seat) : (s.setSeatOf o c x).launches = s.launches := rfl
@[simp] theorem State.setSeatOf_runList (s : State) (o c : Nat) (x : Seat) : (s.setSeatOf o c x).runList = s.runList := rfl
@[simp] theorem State.setSeatOf_throttles (s : State) (o c : Nat) (x : Seat) : (s.setSeatOf o c x).throttles = s.throttles := rfl
@[simp] theorem State.setSeatOf_control (s : State) (o c : Nat) (x : Seat) : (s.setSeatOf o c x).control = s.control := rfl
@[simp] theorem State.setSeatOf_ras (s : State) (o c : Nat) (x : Seat) : (s.setSeatOf o c x).ras = s.ras := rfl
@[simp] theorem State.setSeatOf_power (s : State) (o c : Nat) (x : Seat) : (s.setSeatOf o c x).power = s.power := rfl

/-! ## Replacing a context changes nothing else -/

@[simp] theorem State.setCtx_inputs (s : State) (c : Nat) (x : Context) : (s.setCtx c x).inputs = s.inputs := rfl
@[simp] theorem State.setCtx_cur (s : State) (c : Nat) (x : Context) : (s.setCtx c x).cur = s.cur := rfl
@[simp] theorem State.setCtx_stalled (s : State) (c : Nat) (x : Context) : (s.setCtx c x).stalled = s.stalled := rfl
@[simp] theorem State.setCtx_deferring (s : State) (c : Nat) (x : Context) : (s.setCtx c x).deferring = s.deferring := rfl
@[simp] theorem State.setCtx_fresh (s : State) (c : Nat) (x : Context) : (s.setCtx c x).fresh = s.fresh := rfl
@[simp] theorem State.setCtx_cycle (s : State) (c : Nat) (x : Context) : (s.setCtx c x).cycle = s.cycle := rfl
@[simp] theorem State.setCtx_tick (s : State) (c : Nat) (x : Context) : (s.setCtx c x).tick = s.tick := rfl
@[simp] theorem State.setCtx_refills (s : State) (c : Nat) (x : Context) : (s.setCtx c x).refills = s.refills := rfl
@[simp] theorem State.setCtx_chip (s : State) (c : Nat) (x : Context) : (s.setCtx c x).chip = s.chip := rfl
@[simp] theorem State.setCtx_frags (s : State) (c : Nat) (x : Context) : (s.setCtx c x).frags = s.frags := rfl
@[simp] theorem State.setCtx_waves (s : State) (c : Nat) (x : Context) : (s.setCtx c x).waves = s.waves := rfl
@[simp] theorem State.setCtx_tasks (s : State) (c : Nat) (x : Context) : (s.setCtx c x).tasks = s.tasks := rfl
@[simp] theorem State.setCtx_cores (s : State) (c : Nat) (x : Context) : (s.setCtx c x).cores = s.cores := rfl
@[simp] theorem State.setCtx_operators (s : State) (c : Nat) (x : Context) : (s.setCtx c x).operators = s.operators := rfl
@[simp] theorem State.setCtx_seats (s : State) (c : Nat) (x : Context) : (s.setCtx c x).seats = s.seats := rfl
@[simp] theorem State.setCtx_slotMap (s : State) (c : Nat) (x : Context) : (s.setCtx c x).slotMap = s.slotMap := rfl
@[simp] theorem State.setCtx_tiles (s : State) (c : Nat) (x : Context) : (s.setCtx c x).tiles = s.tiles := rfl
@[simp] theorem State.setCtx_groups (s : State) (c : Nat) (x : Context) : (s.setCtx c x).groups = s.groups := rfl
@[simp] theorem State.setCtx_banks (s : State) (c : Nat) (x : Context) : (s.setCtx c x).banks = s.banks := rfl
@[simp] theorem State.setCtx_accs (s : State) (c : Nat) (x : Context) : (s.setCtx c x).accs = s.accs := rfl
@[simp] theorem State.setCtx_copies (s : State) (c : Nat) (x : Context) : (s.setCtx c x).copies = s.copies := rfl
@[simp] theorem State.setCtx_images (s : State) (c : Nat) (x : Context) : (s.setCtx c x).images = s.images := rfl
@[simp] theorem State.setCtx_churns (s : State) (c : Nat) (x : Context) : (s.setCtx c x).churns = s.churns := rfl
@[simp] theorem State.setCtx_churnRes (s : State) (c : Nat) (x : Context) : (s.setCtx c x).churnRes = s.churnRes := rfl
@[simp] theorem State.setCtx_rounds (s : State) (c : Nat) (x : Context) : (s.setCtx c x).rounds = s.rounds := rfl
@[simp] theorem State.setCtx_queues (s : State) (c : Nat) (x : Context) : (s.setCtx c x).queues = s.queues := rfl
@[simp] theorem State.setCtx_flights (s : State) (c : Nat) (x : Context) : (s.setCtx c x).flights = s.flights := rfl
@[simp] theorem State.setCtx_returns (s : State) (c : Nat) (x : Context) : (s.setCtx c x).returns = s.returns := rfl
@[simp] theorem State.setCtx_streams (s : State) (c : Nat) (x : Context) : (s.setCtx c x).streams = s.streams := rfl
@[simp] theorem State.setCtx_inUse (s : State) (c : Nat) (x : Context) : (s.setCtx c x).inUse = s.inUse := rfl
@[simp] theorem State.setCtx_sendSeq (s : State) (c : Nat) (x : Context) : (s.setCtx c x).sendSeq = s.sendSeq := rfl
@[simp] theorem State.setCtx_peerSeq (s : State) (c : Nat) (x : Context) : (s.setCtx c x).peerSeq = s.peerSeq := rfl
@[simp] theorem State.setCtx_chains (s : State) (c : Nat) (x : Context) : (s.setCtx c x).chains = s.chains := rfl
@[simp] theorem State.setCtx_routes (s : State) (c : Nat) (x : Context) : (s.setCtx c x).routes = s.routes := rfl
@[simp] theorem State.setCtx_portsDown (s : State) (c : Nat) (x : Context) : (s.setCtx c x).portsDown = s.portsDown := rfl
@[simp] theorem State.setCtx_bridgesDown (s : State) (c : Nat) (x : Context) : (s.setCtx c x).bridgesDown = s.bridgesDown := rfl
@[simp] theorem State.setCtx_routeLost (s : State) (c : Nat) (x : Context) : (s.setCtx c x).routeLost = s.routeLost := rfl
@[simp] theorem State.setCtx_routeTimeout (s : State) (c : Nat) (x : Context) : (s.setCtx c x).routeTimeout = s.routeTimeout := rfl
@[simp] theorem State.setCtx_tickRoot (s : State) (c : Nat) (x : Context) : (s.setCtx c x).tickRoot = s.tickRoot := rfl
@[simp] theorem State.setCtx_synced (s : State) (c : Nat) (x : Context) : (s.setCtx c x).synced = s.synced := rfl
@[simp] theorem State.setCtx_opened (s : State) (c : Nat) (x : Context) : (s.setCtx c x).opened = s.opened := rfl
@[simp] theorem State.setCtx_tickOff (s : State) (c : Nat) (x : Context) : (s.setCtx c x).tickOff = s.tickOff := rfl
@[simp] theorem State.setCtx_slewed (s : State) (c : Nat) (x : Context) : (s.setCtx c x).slewed = s.slewed := rfl
@[simp] theorem State.setCtx_walks (s : State) (c : Nat) (x : Context) : (s.setCtx c x).walks = s.walks := rfl
@[simp] theorem State.setCtx_fetched (s : State) (c : Nat) (x : Context) : (s.setCtx c x).fetched = s.fetched := rfl
@[simp] theorem State.setCtx_lastTask (s : State) (c : Nat) (x : Context) : (s.setCtx c x).lastTask = s.lastTask := rfl
@[simp] theorem State.setCtx_asks (s : State) (c : Nat) (x : Context) : (s.setCtx c x).asks = s.asks := rfl
@[simp] theorem State.setCtx_bar2 (s : State) (c : Nat) (x : Context) : (s.setCtx c x).bar2 = s.bar2 := rfl
@[simp] theorem State.setCtx_replies (s : State) (c : Nat) (x : Context) : (s.setCtx c x).replies = s.replies := rfl
@[simp] theorem State.setCtx_mem (s : State) (c : Nat) (x : Context) : (s.setCtx c x).mem = s.mem := rfl
@[simp] theorem State.setCtx_tlb (s : State) (c : Nat) (x : Context) : (s.setCtx c x).tlb = s.tlb := rfl
@[simp] theorem State.setCtx_ats (s : State) (c : Nat) (x : Context) : (s.setCtx c x).ats = s.ats := rfl
@[simp] theorem State.setCtx_hostAtomics (s : State) (c : Nat) (x : Context) : (s.setCtx c x).hostAtomics = s.hostAtomics := rfl
@[simp] theorem State.setCtx_unreachable (s : State) (c : Nat) (x : Context) : (s.setCtx c x).unreachable = s.unreachable := rfl
@[simp] theorem State.setCtx_accesses (s : State) (c : Nat) (x : Context) : (s.setCtx c x).accesses = s.accesses := rfl
@[simp] theorem State.setCtx_notices (s : State) (c : Nat) (x : Context) : (s.setCtx c x).notices = s.notices := rfl
@[simp] theorem State.setCtx_records (s : State) (c : Nat) (x : Context) : (s.setCtx c x).records = s.records := rfl
@[simp] theorem State.setCtx_hostQueues (s : State) (c : Nat) (x : Context) : (s.setCtx c x).hostQueues = s.hostQueues := rfl
@[simp] theorem State.setCtx_msixDue (s : State) (c : Nat) (x : Context) : (s.setCtx c x).msixDue = s.msixDue := rfl
@[simp] theorem State.setCtx_msixLast (s : State) (c : Nat) (x : Context) : (s.setCtx c x).msixLast = s.msixLast := rfl
@[simp] theorem State.setCtx_hostWorks (s : State) (c : Nat) (x : Context) : (s.setCtx c x).hostWorks = s.hostWorks := rfl
@[simp] theorem State.setCtx_lastOper (s : State) (c : Nat) (x : Context) : (s.setCtx c x).lastOper = s.lastOper := rfl
@[simp] theorem State.setCtx_churnReqs (s : State) (c : Nat) (x : Context) : (s.setCtx c x).churnReqs = s.churnReqs := rfl
@[simp] theorem State.setCtx_sharedKeys (s : State) (c : Nat) (x : Context) : (s.setCtx c x).sharedKeys = s.sharedKeys := rfl
@[simp] theorem State.setCtx_launches (s : State) (c : Nat) (x : Context) : (s.setCtx c x).launches = s.launches := rfl
@[simp] theorem State.setCtx_runList (s : State) (c : Nat) (x : Context) : (s.setCtx c x).runList = s.runList := rfl
@[simp] theorem State.setCtx_throttles (s : State) (c : Nat) (x : Context) : (s.setCtx c x).throttles = s.throttles := rfl
@[simp] theorem State.setCtx_control (s : State) (c : Nat) (x : Context) : (s.setCtx c x).control = s.control := rfl
@[simp] theorem State.setCtx_ras (s : State) (c : Nat) (x : Context) : (s.setCtx c x).ras = s.ras := rfl
@[simp] theorem State.setCtx_power (s : State) (c : Nat) (x : Context) : (s.setCtx c x).power = s.power := rfl

/-! ## Replacing the row of a core changes nothing else -/

@[simp] theorem State.setCore_inputs (s : State) (c : Nat) (x : CoreRow) : (s.setCore c x).inputs = s.inputs := rfl
@[simp] theorem State.setCore_cur (s : State) (c : Nat) (x : CoreRow) : (s.setCore c x).cur = s.cur := rfl
@[simp] theorem State.setCore_stalled (s : State) (c : Nat) (x : CoreRow) : (s.setCore c x).stalled = s.stalled := rfl
@[simp] theorem State.setCore_deferring (s : State) (c : Nat) (x : CoreRow) : (s.setCore c x).deferring = s.deferring := rfl
@[simp] theorem State.setCore_fresh (s : State) (c : Nat) (x : CoreRow) : (s.setCore c x).fresh = s.fresh := rfl
@[simp] theorem State.setCore_cycle (s : State) (c : Nat) (x : CoreRow) : (s.setCore c x).cycle = s.cycle := rfl
@[simp] theorem State.setCore_tick (s : State) (c : Nat) (x : CoreRow) : (s.setCore c x).tick = s.tick := rfl
@[simp] theorem State.setCore_refills (s : State) (c : Nat) (x : CoreRow) : (s.setCore c x).refills = s.refills := rfl
@[simp] theorem State.setCore_chip (s : State) (c : Nat) (x : CoreRow) : (s.setCore c x).chip = s.chip := rfl
@[simp] theorem State.setCore_frags (s : State) (c : Nat) (x : CoreRow) : (s.setCore c x).frags = s.frags := rfl
@[simp] theorem State.setCore_waves (s : State) (c : Nat) (x : CoreRow) : (s.setCore c x).waves = s.waves := rfl
@[simp] theorem State.setCore_tasks (s : State) (c : Nat) (x : CoreRow) : (s.setCore c x).tasks = s.tasks := rfl
@[simp] theorem State.setCore_operators (s : State) (c : Nat) (x : CoreRow) : (s.setCore c x).operators = s.operators := rfl
@[simp] theorem State.setCore_seats (s : State) (c : Nat) (x : CoreRow) : (s.setCore c x).seats = s.seats := rfl
@[simp] theorem State.setCore_slotMap (s : State) (c : Nat) (x : CoreRow) : (s.setCore c x).slotMap = s.slotMap := rfl
@[simp] theorem State.setCore_tiles (s : State) (c : Nat) (x : CoreRow) : (s.setCore c x).tiles = s.tiles := rfl
@[simp] theorem State.setCore_groups (s : State) (c : Nat) (x : CoreRow) : (s.setCore c x).groups = s.groups := rfl
@[simp] theorem State.setCore_banks (s : State) (c : Nat) (x : CoreRow) : (s.setCore c x).banks = s.banks := rfl
@[simp] theorem State.setCore_accs (s : State) (c : Nat) (x : CoreRow) : (s.setCore c x).accs = s.accs := rfl
@[simp] theorem State.setCore_copies (s : State) (c : Nat) (x : CoreRow) : (s.setCore c x).copies = s.copies := rfl
@[simp] theorem State.setCore_images (s : State) (c : Nat) (x : CoreRow) : (s.setCore c x).images = s.images := rfl
@[simp] theorem State.setCore_churns (s : State) (c : Nat) (x : CoreRow) : (s.setCore c x).churns = s.churns := rfl
@[simp] theorem State.setCore_churnRes (s : State) (c : Nat) (x : CoreRow) : (s.setCore c x).churnRes = s.churnRes := rfl
@[simp] theorem State.setCore_rounds (s : State) (c : Nat) (x : CoreRow) : (s.setCore c x).rounds = s.rounds := rfl
@[simp] theorem State.setCore_queues (s : State) (c : Nat) (x : CoreRow) : (s.setCore c x).queues = s.queues := rfl
@[simp] theorem State.setCore_flights (s : State) (c : Nat) (x : CoreRow) : (s.setCore c x).flights = s.flights := rfl
@[simp] theorem State.setCore_returns (s : State) (c : Nat) (x : CoreRow) : (s.setCore c x).returns = s.returns := rfl
@[simp] theorem State.setCore_streams (s : State) (c : Nat) (x : CoreRow) : (s.setCore c x).streams = s.streams := rfl
@[simp] theorem State.setCore_inUse (s : State) (c : Nat) (x : CoreRow) : (s.setCore c x).inUse = s.inUse := rfl
@[simp] theorem State.setCore_sendSeq (s : State) (c : Nat) (x : CoreRow) : (s.setCore c x).sendSeq = s.sendSeq := rfl
@[simp] theorem State.setCore_peerSeq (s : State) (c : Nat) (x : CoreRow) : (s.setCore c x).peerSeq = s.peerSeq := rfl
@[simp] theorem State.setCore_chains (s : State) (c : Nat) (x : CoreRow) : (s.setCore c x).chains = s.chains := rfl
@[simp] theorem State.setCore_routes (s : State) (c : Nat) (x : CoreRow) : (s.setCore c x).routes = s.routes := rfl
@[simp] theorem State.setCore_portsDown (s : State) (c : Nat) (x : CoreRow) : (s.setCore c x).portsDown = s.portsDown := rfl
@[simp] theorem State.setCore_bridgesDown (s : State) (c : Nat) (x : CoreRow) : (s.setCore c x).bridgesDown = s.bridgesDown := rfl
@[simp] theorem State.setCore_routeLost (s : State) (c : Nat) (x : CoreRow) : (s.setCore c x).routeLost = s.routeLost := rfl
@[simp] theorem State.setCore_routeTimeout (s : State) (c : Nat) (x : CoreRow) : (s.setCore c x).routeTimeout = s.routeTimeout := rfl
@[simp] theorem State.setCore_tickRoot (s : State) (c : Nat) (x : CoreRow) : (s.setCore c x).tickRoot = s.tickRoot := rfl
@[simp] theorem State.setCore_synced (s : State) (c : Nat) (x : CoreRow) : (s.setCore c x).synced = s.synced := rfl
@[simp] theorem State.setCore_opened (s : State) (c : Nat) (x : CoreRow) : (s.setCore c x).opened = s.opened := rfl
@[simp] theorem State.setCore_tickOff (s : State) (c : Nat) (x : CoreRow) : (s.setCore c x).tickOff = s.tickOff := rfl
@[simp] theorem State.setCore_slewed (s : State) (c : Nat) (x : CoreRow) : (s.setCore c x).slewed = s.slewed := rfl
@[simp] theorem State.setCore_walks (s : State) (c : Nat) (x : CoreRow) : (s.setCore c x).walks = s.walks := rfl
@[simp] theorem State.setCore_fetched (s : State) (c : Nat) (x : CoreRow) : (s.setCore c x).fetched = s.fetched := rfl
@[simp] theorem State.setCore_lastTask (s : State) (c : Nat) (x : CoreRow) : (s.setCore c x).lastTask = s.lastTask := rfl
@[simp] theorem State.setCore_asks (s : State) (c : Nat) (x : CoreRow) : (s.setCore c x).asks = s.asks := rfl
@[simp] theorem State.setCore_bar2 (s : State) (c : Nat) (x : CoreRow) : (s.setCore c x).bar2 = s.bar2 := rfl
@[simp] theorem State.setCore_replies (s : State) (c : Nat) (x : CoreRow) : (s.setCore c x).replies = s.replies := rfl
@[simp] theorem State.setCore_mem (s : State) (c : Nat) (x : CoreRow) : (s.setCore c x).mem = s.mem := rfl
@[simp] theorem State.setCore_tlb (s : State) (c : Nat) (x : CoreRow) : (s.setCore c x).tlb = s.tlb := rfl
@[simp] theorem State.setCore_ats (s : State) (c : Nat) (x : CoreRow) : (s.setCore c x).ats = s.ats := rfl
@[simp] theorem State.setCore_hostAtomics (s : State) (c : Nat) (x : CoreRow) : (s.setCore c x).hostAtomics = s.hostAtomics := rfl
@[simp] theorem State.setCore_unreachable (s : State) (c : Nat) (x : CoreRow) : (s.setCore c x).unreachable = s.unreachable := rfl
@[simp] theorem State.setCore_accesses (s : State) (c : Nat) (x : CoreRow) : (s.setCore c x).accesses = s.accesses := rfl
@[simp] theorem State.setCore_notices (s : State) (c : Nat) (x : CoreRow) : (s.setCore c x).notices = s.notices := rfl
@[simp] theorem State.setCore_records (s : State) (c : Nat) (x : CoreRow) : (s.setCore c x).records = s.records := rfl
@[simp] theorem State.setCore_contexts (s : State) (c : Nat) (x : CoreRow) : (s.setCore c x).contexts = s.contexts := rfl
@[simp] theorem State.setCore_hostQueues (s : State) (c : Nat) (x : CoreRow) : (s.setCore c x).hostQueues = s.hostQueues := rfl
@[simp] theorem State.setCore_msixDue (s : State) (c : Nat) (x : CoreRow) : (s.setCore c x).msixDue = s.msixDue := rfl
@[simp] theorem State.setCore_msixLast (s : State) (c : Nat) (x : CoreRow) : (s.setCore c x).msixLast = s.msixLast := rfl
@[simp] theorem State.setCore_hostWorks (s : State) (c : Nat) (x : CoreRow) : (s.setCore c x).hostWorks = s.hostWorks := rfl
@[simp] theorem State.setCore_lastOper (s : State) (c : Nat) (x : CoreRow) : (s.setCore c x).lastOper = s.lastOper := rfl
@[simp] theorem State.setCore_churnReqs (s : State) (c : Nat) (x : CoreRow) : (s.setCore c x).churnReqs = s.churnReqs := rfl
@[simp] theorem State.setCore_sharedKeys (s : State) (c : Nat) (x : CoreRow) : (s.setCore c x).sharedKeys = s.sharedKeys := rfl
@[simp] theorem State.setCore_launches (s : State) (c : Nat) (x : CoreRow) : (s.setCore c x).launches = s.launches := rfl
@[simp] theorem State.setCore_runList (s : State) (c : Nat) (x : CoreRow) : (s.setCore c x).runList = s.runList := rfl
@[simp] theorem State.setCore_throttles (s : State) (c : Nat) (x : CoreRow) : (s.setCore c x).throttles = s.throttles := rfl
@[simp] theorem State.setCore_control (s : State) (c : Nat) (x : CoreRow) : (s.setCore c x).control = s.control := rfl
@[simp] theorem State.setCore_ras (s : State) (c : Nat) (x : CoreRow) : (s.setCore c x).ras = s.ras := rfl
@[simp] theorem State.setCore_power (s : State) (c : Nat) (x : CoreRow) : (s.setCore c x).power = s.power := rfl

/-! ## Replacing a tile-table entry changes nothing else -/

@[simp] theorem State.setTile_inputs (s : State) (c e : Nat) (x : TileEntry) : (s.setTile c e x).inputs = s.inputs := rfl
@[simp] theorem State.setTile_cur (s : State) (c e : Nat) (x : TileEntry) : (s.setTile c e x).cur = s.cur := rfl
@[simp] theorem State.setTile_stalled (s : State) (c e : Nat) (x : TileEntry) : (s.setTile c e x).stalled = s.stalled := rfl
@[simp] theorem State.setTile_deferring (s : State) (c e : Nat) (x : TileEntry) : (s.setTile c e x).deferring = s.deferring := rfl
@[simp] theorem State.setTile_fresh (s : State) (c e : Nat) (x : TileEntry) : (s.setTile c e x).fresh = s.fresh := rfl
@[simp] theorem State.setTile_cycle (s : State) (c e : Nat) (x : TileEntry) : (s.setTile c e x).cycle = s.cycle := rfl
@[simp] theorem State.setTile_tick (s : State) (c e : Nat) (x : TileEntry) : (s.setTile c e x).tick = s.tick := rfl
@[simp] theorem State.setTile_refills (s : State) (c e : Nat) (x : TileEntry) : (s.setTile c e x).refills = s.refills := rfl
@[simp] theorem State.setTile_chip (s : State) (c e : Nat) (x : TileEntry) : (s.setTile c e x).chip = s.chip := rfl
@[simp] theorem State.setTile_frags (s : State) (c e : Nat) (x : TileEntry) : (s.setTile c e x).frags = s.frags := rfl
@[simp] theorem State.setTile_waves (s : State) (c e : Nat) (x : TileEntry) : (s.setTile c e x).waves = s.waves := rfl
@[simp] theorem State.setTile_tasks (s : State) (c e : Nat) (x : TileEntry) : (s.setTile c e x).tasks = s.tasks := rfl
@[simp] theorem State.setTile_cores (s : State) (c e : Nat) (x : TileEntry) : (s.setTile c e x).cores = s.cores := rfl
@[simp] theorem State.setTile_operators (s : State) (c e : Nat) (x : TileEntry) : (s.setTile c e x).operators = s.operators := rfl
@[simp] theorem State.setTile_seats (s : State) (c e : Nat) (x : TileEntry) : (s.setTile c e x).seats = s.seats := rfl
@[simp] theorem State.setTile_slotMap (s : State) (c e : Nat) (x : TileEntry) : (s.setTile c e x).slotMap = s.slotMap := rfl
@[simp] theorem State.setTile_groups (s : State) (c e : Nat) (x : TileEntry) : (s.setTile c e x).groups = s.groups := rfl
@[simp] theorem State.setTile_banks (s : State) (c e : Nat) (x : TileEntry) : (s.setTile c e x).banks = s.banks := rfl
@[simp] theorem State.setTile_accs (s : State) (c e : Nat) (x : TileEntry) : (s.setTile c e x).accs = s.accs := rfl
@[simp] theorem State.setTile_copies (s : State) (c e : Nat) (x : TileEntry) : (s.setTile c e x).copies = s.copies := rfl
@[simp] theorem State.setTile_images (s : State) (c e : Nat) (x : TileEntry) : (s.setTile c e x).images = s.images := rfl
@[simp] theorem State.setTile_churns (s : State) (c e : Nat) (x : TileEntry) : (s.setTile c e x).churns = s.churns := rfl
@[simp] theorem State.setTile_churnRes (s : State) (c e : Nat) (x : TileEntry) : (s.setTile c e x).churnRes = s.churnRes := rfl
@[simp] theorem State.setTile_rounds (s : State) (c e : Nat) (x : TileEntry) : (s.setTile c e x).rounds = s.rounds := rfl
@[simp] theorem State.setTile_queues (s : State) (c e : Nat) (x : TileEntry) : (s.setTile c e x).queues = s.queues := rfl
@[simp] theorem State.setTile_flights (s : State) (c e : Nat) (x : TileEntry) : (s.setTile c e x).flights = s.flights := rfl
@[simp] theorem State.setTile_returns (s : State) (c e : Nat) (x : TileEntry) : (s.setTile c e x).returns = s.returns := rfl
@[simp] theorem State.setTile_streams (s : State) (c e : Nat) (x : TileEntry) : (s.setTile c e x).streams = s.streams := rfl
@[simp] theorem State.setTile_inUse (s : State) (c e : Nat) (x : TileEntry) : (s.setTile c e x).inUse = s.inUse := rfl
@[simp] theorem State.setTile_sendSeq (s : State) (c e : Nat) (x : TileEntry) : (s.setTile c e x).sendSeq = s.sendSeq := rfl
@[simp] theorem State.setTile_peerSeq (s : State) (c e : Nat) (x : TileEntry) : (s.setTile c e x).peerSeq = s.peerSeq := rfl
@[simp] theorem State.setTile_chains (s : State) (c e : Nat) (x : TileEntry) : (s.setTile c e x).chains = s.chains := rfl
@[simp] theorem State.setTile_routes (s : State) (c e : Nat) (x : TileEntry) : (s.setTile c e x).routes = s.routes := rfl
@[simp] theorem State.setTile_portsDown (s : State) (c e : Nat) (x : TileEntry) : (s.setTile c e x).portsDown = s.portsDown := rfl
@[simp] theorem State.setTile_bridgesDown (s : State) (c e : Nat) (x : TileEntry) : (s.setTile c e x).bridgesDown = s.bridgesDown := rfl
@[simp] theorem State.setTile_routeLost (s : State) (c e : Nat) (x : TileEntry) : (s.setTile c e x).routeLost = s.routeLost := rfl
@[simp] theorem State.setTile_routeTimeout (s : State) (c e : Nat) (x : TileEntry) : (s.setTile c e x).routeTimeout = s.routeTimeout := rfl
@[simp] theorem State.setTile_tickRoot (s : State) (c e : Nat) (x : TileEntry) : (s.setTile c e x).tickRoot = s.tickRoot := rfl
@[simp] theorem State.setTile_synced (s : State) (c e : Nat) (x : TileEntry) : (s.setTile c e x).synced = s.synced := rfl
@[simp] theorem State.setTile_opened (s : State) (c e : Nat) (x : TileEntry) : (s.setTile c e x).opened = s.opened := rfl
@[simp] theorem State.setTile_tickOff (s : State) (c e : Nat) (x : TileEntry) : (s.setTile c e x).tickOff = s.tickOff := rfl
@[simp] theorem State.setTile_slewed (s : State) (c e : Nat) (x : TileEntry) : (s.setTile c e x).slewed = s.slewed := rfl
@[simp] theorem State.setTile_walks (s : State) (c e : Nat) (x : TileEntry) : (s.setTile c e x).walks = s.walks := rfl
@[simp] theorem State.setTile_fetched (s : State) (c e : Nat) (x : TileEntry) : (s.setTile c e x).fetched = s.fetched := rfl
@[simp] theorem State.setTile_lastTask (s : State) (c e : Nat) (x : TileEntry) : (s.setTile c e x).lastTask = s.lastTask := rfl
@[simp] theorem State.setTile_asks (s : State) (c e : Nat) (x : TileEntry) : (s.setTile c e x).asks = s.asks := rfl
@[simp] theorem State.setTile_bar2 (s : State) (c e : Nat) (x : TileEntry) : (s.setTile c e x).bar2 = s.bar2 := rfl
@[simp] theorem State.setTile_replies (s : State) (c e : Nat) (x : TileEntry) : (s.setTile c e x).replies = s.replies := rfl
@[simp] theorem State.setTile_mem (s : State) (c e : Nat) (x : TileEntry) : (s.setTile c e x).mem = s.mem := rfl
@[simp] theorem State.setTile_tlb (s : State) (c e : Nat) (x : TileEntry) : (s.setTile c e x).tlb = s.tlb := rfl
@[simp] theorem State.setTile_ats (s : State) (c e : Nat) (x : TileEntry) : (s.setTile c e x).ats = s.ats := rfl
@[simp] theorem State.setTile_hostAtomics (s : State) (c e : Nat) (x : TileEntry) : (s.setTile c e x).hostAtomics = s.hostAtomics := rfl
@[simp] theorem State.setTile_unreachable (s : State) (c e : Nat) (x : TileEntry) : (s.setTile c e x).unreachable = s.unreachable := rfl
@[simp] theorem State.setTile_accesses (s : State) (c e : Nat) (x : TileEntry) : (s.setTile c e x).accesses = s.accesses := rfl
@[simp] theorem State.setTile_notices (s : State) (c e : Nat) (x : TileEntry) : (s.setTile c e x).notices = s.notices := rfl
@[simp] theorem State.setTile_records (s : State) (c e : Nat) (x : TileEntry) : (s.setTile c e x).records = s.records := rfl
@[simp] theorem State.setTile_contexts (s : State) (c e : Nat) (x : TileEntry) : (s.setTile c e x).contexts = s.contexts := rfl
@[simp] theorem State.setTile_hostQueues (s : State) (c e : Nat) (x : TileEntry) : (s.setTile c e x).hostQueues = s.hostQueues := rfl
@[simp] theorem State.setTile_msixDue (s : State) (c e : Nat) (x : TileEntry) : (s.setTile c e x).msixDue = s.msixDue := rfl
@[simp] theorem State.setTile_msixLast (s : State) (c e : Nat) (x : TileEntry) : (s.setTile c e x).msixLast = s.msixLast := rfl
@[simp] theorem State.setTile_hostWorks (s : State) (c e : Nat) (x : TileEntry) : (s.setTile c e x).hostWorks = s.hostWorks := rfl
@[simp] theorem State.setTile_lastOper (s : State) (c e : Nat) (x : TileEntry) : (s.setTile c e x).lastOper = s.lastOper := rfl
@[simp] theorem State.setTile_churnReqs (s : State) (c e : Nat) (x : TileEntry) : (s.setTile c e x).churnReqs = s.churnReqs := rfl
@[simp] theorem State.setTile_sharedKeys (s : State) (c e : Nat) (x : TileEntry) : (s.setTile c e x).sharedKeys = s.sharedKeys := rfl
@[simp] theorem State.setTile_launches (s : State) (c e : Nat) (x : TileEntry) : (s.setTile c e x).launches = s.launches := rfl
@[simp] theorem State.setTile_runList (s : State) (c e : Nat) (x : TileEntry) : (s.setTile c e x).runList = s.runList := rfl
@[simp] theorem State.setTile_throttles (s : State) (c e : Nat) (x : TileEntry) : (s.setTile c e x).throttles = s.throttles := rfl
@[simp] theorem State.setTile_control (s : State) (c e : Nat) (x : TileEntry) : (s.setTile c e x).control = s.control := rfl
@[simp] theorem State.setTile_ras (s : State) (c e : Nat) (x : TileEntry) : (s.setTile c e x).ras = s.ras := rfl
@[simp] theorem State.setTile_power (s : State) (c e : Nat) (x : TileEntry) : (s.setTile c e x).power = s.power := rfl

/-! ## Replacing the mark that the instruction waits changes nothing else -/

@[simp] theorem State.stall_inputs (s : State) : (s.stall).inputs = s.inputs := rfl
@[simp] theorem State.stall_cur (s : State) : (s.stall).cur = s.cur := rfl
@[simp] theorem State.stall_deferring (s : State) : (s.stall).deferring = s.deferring := rfl
@[simp] theorem State.stall_fresh (s : State) : (s.stall).fresh = s.fresh := rfl
@[simp] theorem State.stall_cycle (s : State) : (s.stall).cycle = s.cycle := rfl
@[simp] theorem State.stall_tick (s : State) : (s.stall).tick = s.tick := rfl
@[simp] theorem State.stall_refills (s : State) : (s.stall).refills = s.refills := rfl
@[simp] theorem State.stall_chip (s : State) : (s.stall).chip = s.chip := rfl
@[simp] theorem State.stall_frags (s : State) : (s.stall).frags = s.frags := rfl
@[simp] theorem State.stall_waves (s : State) : (s.stall).waves = s.waves := rfl
@[simp] theorem State.stall_tasks (s : State) : (s.stall).tasks = s.tasks := rfl
@[simp] theorem State.stall_cores (s : State) : (s.stall).cores = s.cores := rfl
@[simp] theorem State.stall_operators (s : State) : (s.stall).operators = s.operators := rfl
@[simp] theorem State.stall_seats (s : State) : (s.stall).seats = s.seats := rfl
@[simp] theorem State.stall_slotMap (s : State) : (s.stall).slotMap = s.slotMap := rfl
@[simp] theorem State.stall_tiles (s : State) : (s.stall).tiles = s.tiles := rfl
@[simp] theorem State.stall_groups (s : State) : (s.stall).groups = s.groups := rfl
@[simp] theorem State.stall_banks (s : State) : (s.stall).banks = s.banks := rfl
@[simp] theorem State.stall_accs (s : State) : (s.stall).accs = s.accs := rfl
@[simp] theorem State.stall_copies (s : State) : (s.stall).copies = s.copies := rfl
@[simp] theorem State.stall_images (s : State) : (s.stall).images = s.images := rfl
@[simp] theorem State.stall_churns (s : State) : (s.stall).churns = s.churns := rfl
@[simp] theorem State.stall_churnRes (s : State) : (s.stall).churnRes = s.churnRes := rfl
@[simp] theorem State.stall_rounds (s : State) : (s.stall).rounds = s.rounds := rfl
@[simp] theorem State.stall_queues (s : State) : (s.stall).queues = s.queues := rfl
@[simp] theorem State.stall_flights (s : State) : (s.stall).flights = s.flights := rfl
@[simp] theorem State.stall_returns (s : State) : (s.stall).returns = s.returns := rfl
@[simp] theorem State.stall_streams (s : State) : (s.stall).streams = s.streams := rfl
@[simp] theorem State.stall_inUse (s : State) : (s.stall).inUse = s.inUse := rfl
@[simp] theorem State.stall_sendSeq (s : State) : (s.stall).sendSeq = s.sendSeq := rfl
@[simp] theorem State.stall_peerSeq (s : State) : (s.stall).peerSeq = s.peerSeq := rfl
@[simp] theorem State.stall_chains (s : State) : (s.stall).chains = s.chains := rfl
@[simp] theorem State.stall_routes (s : State) : (s.stall).routes = s.routes := rfl
@[simp] theorem State.stall_portsDown (s : State) : (s.stall).portsDown = s.portsDown := rfl
@[simp] theorem State.stall_bridgesDown (s : State) : (s.stall).bridgesDown = s.bridgesDown := rfl
@[simp] theorem State.stall_routeLost (s : State) : (s.stall).routeLost = s.routeLost := rfl
@[simp] theorem State.stall_routeTimeout (s : State) : (s.stall).routeTimeout = s.routeTimeout := rfl
@[simp] theorem State.stall_tickRoot (s : State) : (s.stall).tickRoot = s.tickRoot := rfl
@[simp] theorem State.stall_synced (s : State) : (s.stall).synced = s.synced := rfl
@[simp] theorem State.stall_opened (s : State) : (s.stall).opened = s.opened := rfl
@[simp] theorem State.stall_tickOff (s : State) : (s.stall).tickOff = s.tickOff := rfl
@[simp] theorem State.stall_slewed (s : State) : (s.stall).slewed = s.slewed := rfl
@[simp] theorem State.stall_walks (s : State) : (s.stall).walks = s.walks := rfl
@[simp] theorem State.stall_fetched (s : State) : (s.stall).fetched = s.fetched := rfl
@[simp] theorem State.stall_lastTask (s : State) : (s.stall).lastTask = s.lastTask := rfl
@[simp] theorem State.stall_asks (s : State) : (s.stall).asks = s.asks := rfl
@[simp] theorem State.stall_bar2 (s : State) : (s.stall).bar2 = s.bar2 := rfl
@[simp] theorem State.stall_replies (s : State) : (s.stall).replies = s.replies := rfl
@[simp] theorem State.stall_mem (s : State) : (s.stall).mem = s.mem := rfl
@[simp] theorem State.stall_tlb (s : State) : (s.stall).tlb = s.tlb := rfl
@[simp] theorem State.stall_ats (s : State) : (s.stall).ats = s.ats := rfl
@[simp] theorem State.stall_hostAtomics (s : State) : (s.stall).hostAtomics = s.hostAtomics := rfl
@[simp] theorem State.stall_unreachable (s : State) : (s.stall).unreachable = s.unreachable := rfl
@[simp] theorem State.stall_accesses (s : State) : (s.stall).accesses = s.accesses := rfl
@[simp] theorem State.stall_notices (s : State) : (s.stall).notices = s.notices := rfl
@[simp] theorem State.stall_records (s : State) : (s.stall).records = s.records := rfl
@[simp] theorem State.stall_contexts (s : State) : (s.stall).contexts = s.contexts := rfl
@[simp] theorem State.stall_hostQueues (s : State) : (s.stall).hostQueues = s.hostQueues := rfl
@[simp] theorem State.stall_msixDue (s : State) : (s.stall).msixDue = s.msixDue := rfl
@[simp] theorem State.stall_msixLast (s : State) : (s.stall).msixLast = s.msixLast := rfl
@[simp] theorem State.stall_hostWorks (s : State) : (s.stall).hostWorks = s.hostWorks := rfl
@[simp] theorem State.stall_lastOper (s : State) : (s.stall).lastOper = s.lastOper := rfl
@[simp] theorem State.stall_churnReqs (s : State) : (s.stall).churnReqs = s.churnReqs := rfl
@[simp] theorem State.stall_sharedKeys (s : State) : (s.stall).sharedKeys = s.sharedKeys := rfl
@[simp] theorem State.stall_launches (s : State) : (s.stall).launches = s.launches := rfl
@[simp] theorem State.stall_runList (s : State) : (s.stall).runList = s.runList := rfl
@[simp] theorem State.stall_throttles (s : State) : (s.stall).throttles = s.throttles := rfl
@[simp] theorem State.stall_control (s : State) : (s.stall).control = s.control := rfl
@[simp] theorem State.stall_ras (s : State) : (s.stall).ras = s.ras := rfl
@[simp] theorem State.stall_power (s : State) : (s.stall).power = s.power := rfl

/-! ## Replacing the counter of free values changes nothing else -/

@[simp] theorem State.takeFresh_inputs (s : State) : (s.takeFresh).inputs = s.inputs := rfl
@[simp] theorem State.takeFresh_cur (s : State) : (s.takeFresh).cur = s.cur := rfl
@[simp] theorem State.takeFresh_stalled (s : State) : (s.takeFresh).stalled = s.stalled := rfl
@[simp] theorem State.takeFresh_deferring (s : State) : (s.takeFresh).deferring = s.deferring := rfl
@[simp] theorem State.takeFresh_cycle (s : State) : (s.takeFresh).cycle = s.cycle := rfl
@[simp] theorem State.takeFresh_tick (s : State) : (s.takeFresh).tick = s.tick := rfl
@[simp] theorem State.takeFresh_refills (s : State) : (s.takeFresh).refills = s.refills := rfl
@[simp] theorem State.takeFresh_chip (s : State) : (s.takeFresh).chip = s.chip := rfl
@[simp] theorem State.takeFresh_frags (s : State) : (s.takeFresh).frags = s.frags := rfl
@[simp] theorem State.takeFresh_waves (s : State) : (s.takeFresh).waves = s.waves := rfl
@[simp] theorem State.takeFresh_tasks (s : State) : (s.takeFresh).tasks = s.tasks := rfl
@[simp] theorem State.takeFresh_cores (s : State) : (s.takeFresh).cores = s.cores := rfl
@[simp] theorem State.takeFresh_operators (s : State) : (s.takeFresh).operators = s.operators := rfl
@[simp] theorem State.takeFresh_seats (s : State) : (s.takeFresh).seats = s.seats := rfl
@[simp] theorem State.takeFresh_slotMap (s : State) : (s.takeFresh).slotMap = s.slotMap := rfl
@[simp] theorem State.takeFresh_tiles (s : State) : (s.takeFresh).tiles = s.tiles := rfl
@[simp] theorem State.takeFresh_groups (s : State) : (s.takeFresh).groups = s.groups := rfl
@[simp] theorem State.takeFresh_banks (s : State) : (s.takeFresh).banks = s.banks := rfl
@[simp] theorem State.takeFresh_accs (s : State) : (s.takeFresh).accs = s.accs := rfl
@[simp] theorem State.takeFresh_copies (s : State) : (s.takeFresh).copies = s.copies := rfl
@[simp] theorem State.takeFresh_images (s : State) : (s.takeFresh).images = s.images := rfl
@[simp] theorem State.takeFresh_churns (s : State) : (s.takeFresh).churns = s.churns := rfl
@[simp] theorem State.takeFresh_churnRes (s : State) : (s.takeFresh).churnRes = s.churnRes := rfl
@[simp] theorem State.takeFresh_rounds (s : State) : (s.takeFresh).rounds = s.rounds := rfl
@[simp] theorem State.takeFresh_queues (s : State) : (s.takeFresh).queues = s.queues := rfl
@[simp] theorem State.takeFresh_flights (s : State) : (s.takeFresh).flights = s.flights := rfl
@[simp] theorem State.takeFresh_returns (s : State) : (s.takeFresh).returns = s.returns := rfl
@[simp] theorem State.takeFresh_streams (s : State) : (s.takeFresh).streams = s.streams := rfl
@[simp] theorem State.takeFresh_inUse (s : State) : (s.takeFresh).inUse = s.inUse := rfl
@[simp] theorem State.takeFresh_sendSeq (s : State) : (s.takeFresh).sendSeq = s.sendSeq := rfl
@[simp] theorem State.takeFresh_peerSeq (s : State) : (s.takeFresh).peerSeq = s.peerSeq := rfl
@[simp] theorem State.takeFresh_chains (s : State) : (s.takeFresh).chains = s.chains := rfl
@[simp] theorem State.takeFresh_routes (s : State) : (s.takeFresh).routes = s.routes := rfl
@[simp] theorem State.takeFresh_portsDown (s : State) : (s.takeFresh).portsDown = s.portsDown := rfl
@[simp] theorem State.takeFresh_bridgesDown (s : State) : (s.takeFresh).bridgesDown = s.bridgesDown := rfl
@[simp] theorem State.takeFresh_routeLost (s : State) : (s.takeFresh).routeLost = s.routeLost := rfl
@[simp] theorem State.takeFresh_routeTimeout (s : State) : (s.takeFresh).routeTimeout = s.routeTimeout := rfl
@[simp] theorem State.takeFresh_tickRoot (s : State) : (s.takeFresh).tickRoot = s.tickRoot := rfl
@[simp] theorem State.takeFresh_synced (s : State) : (s.takeFresh).synced = s.synced := rfl
@[simp] theorem State.takeFresh_opened (s : State) : (s.takeFresh).opened = s.opened := rfl
@[simp] theorem State.takeFresh_tickOff (s : State) : (s.takeFresh).tickOff = s.tickOff := rfl
@[simp] theorem State.takeFresh_slewed (s : State) : (s.takeFresh).slewed = s.slewed := rfl
@[simp] theorem State.takeFresh_walks (s : State) : (s.takeFresh).walks = s.walks := rfl
@[simp] theorem State.takeFresh_fetched (s : State) : (s.takeFresh).fetched = s.fetched := rfl
@[simp] theorem State.takeFresh_lastTask (s : State) : (s.takeFresh).lastTask = s.lastTask := rfl
@[simp] theorem State.takeFresh_asks (s : State) : (s.takeFresh).asks = s.asks := rfl
@[simp] theorem State.takeFresh_bar2 (s : State) : (s.takeFresh).bar2 = s.bar2 := rfl
@[simp] theorem State.takeFresh_replies (s : State) : (s.takeFresh).replies = s.replies := rfl
@[simp] theorem State.takeFresh_mem (s : State) : (s.takeFresh).mem = s.mem := rfl
@[simp] theorem State.takeFresh_tlb (s : State) : (s.takeFresh).tlb = s.tlb := rfl
@[simp] theorem State.takeFresh_ats (s : State) : (s.takeFresh).ats = s.ats := rfl
@[simp] theorem State.takeFresh_hostAtomics (s : State) : (s.takeFresh).hostAtomics = s.hostAtomics := rfl
@[simp] theorem State.takeFresh_unreachable (s : State) : (s.takeFresh).unreachable = s.unreachable := rfl
@[simp] theorem State.takeFresh_accesses (s : State) : (s.takeFresh).accesses = s.accesses := rfl
@[simp] theorem State.takeFresh_notices (s : State) : (s.takeFresh).notices = s.notices := rfl
@[simp] theorem State.takeFresh_records (s : State) : (s.takeFresh).records = s.records := rfl
@[simp] theorem State.takeFresh_contexts (s : State) : (s.takeFresh).contexts = s.contexts := rfl
@[simp] theorem State.takeFresh_hostQueues (s : State) : (s.takeFresh).hostQueues = s.hostQueues := rfl
@[simp] theorem State.takeFresh_msixDue (s : State) : (s.takeFresh).msixDue = s.msixDue := rfl
@[simp] theorem State.takeFresh_msixLast (s : State) : (s.takeFresh).msixLast = s.msixLast := rfl
@[simp] theorem State.takeFresh_hostWorks (s : State) : (s.takeFresh).hostWorks = s.hostWorks := rfl
@[simp] theorem State.takeFresh_lastOper (s : State) : (s.takeFresh).lastOper = s.lastOper := rfl
@[simp] theorem State.takeFresh_churnReqs (s : State) : (s.takeFresh).churnReqs = s.churnReqs := rfl
@[simp] theorem State.takeFresh_sharedKeys (s : State) : (s.takeFresh).sharedKeys = s.sharedKeys := rfl
@[simp] theorem State.takeFresh_launches (s : State) : (s.takeFresh).launches = s.launches := rfl
@[simp] theorem State.takeFresh_runList (s : State) : (s.takeFresh).runList = s.runList := rfl
@[simp] theorem State.takeFresh_throttles (s : State) : (s.takeFresh).throttles = s.throttles := rfl
@[simp] theorem State.takeFresh_control (s : State) : (s.takeFresh).control = s.control := rfl
@[simp] theorem State.takeFresh_ras (s : State) : (s.takeFresh).ras = s.ras := rfl
@[simp] theorem State.takeFresh_power (s : State) : (s.takeFresh).power = s.power := rfl

/-! ## Reading a row after an update -/

@[simp] theorem State.fr_setFr (s : State) (f : Frag) : (s.setFr f).fr = f := by simp [State.fr, State.setFr]
@[simp] theorem State.wv_setWv (s : State) (w : Wave) : (s.setWv w).wv = w := by simp [State.wv, State.setWv]
@[simp] theorem State.wv_setFr (s : State) (f : Frag) : (s.setFr f).wv = s.wv := rfl
@[simp] theorem State.fr_setWv (s : State) (w : Wave) : (s.setWv w).fr = s.fr := rfl
@[simp] theorem State.tk_setFr (s : State) (f : Frag) : (s.setFr f).tk = s.tk := rfl
@[simp] theorem State.frOf_cur (s : State) : s.frOf s.cur = s.fr := rfl
@[simp] theorem State.wvOf_cur (s : State) : s.wvOf s.cur = s.wv := rfl
@[simp] theorem State.setFrOf_self (s : State) (f : Frag) : s.setFrOf s.cur f = s.setFr f := rfl
@[simp] theorem State.setWvOf_self (s : State) (w : Wave) : s.setWvOf s.cur w = s.setWv w := rfl
@[simp] theorem State.frOf_setFrOf (s : State) (i : FragId) (f : Frag) : (s.setFrOf i f).frOf i = f := by
  simp [State.frOf, State.setFrOf]
@[simp] theorem State.wvOf_setWvOf (s : State) (i : FragId) (w : Wave) : (s.setWvOf i w).wvOf i = w := by
  simp [State.wvOf, State.setWvOf]
@[simp] theorem State.frOf_setWvOf (s : State) (i j : FragId) (w : Wave) : (s.setWvOf i w).frOf j = s.frOf j := rfl
@[simp] theorem State.wvOf_setFrOf (s : State) (i j : FragId) (f : Frag) : (s.setFrOf i f).wvOf j = s.wvOf j := rfl
@[simp] theorem State.seatOf_setSeatOf (s : State) (o c : Nat) (x : Seat) : (s.setSeatOf o c x).seatOf o c = x := by
  simp [State.seatOf, State.setSeatOf]
@[simp] theorem State.ctxOf_setCtx (s : State) (c : Nat) (x : Context) : (s.setCtx c x).ctxOf c = x := by
  simp [State.ctxOf, State.setCtx]
@[simp] theorem State.coreOf_setCore (s : State) (c : Nat) (x : CoreRow) : (s.setCore c x).coreOf c = x := by
  simp [State.coreOf, State.setCore]
@[simp] theorem State.tileOf_setTile (s : State) (c e : Nat) (x : TileEntry) : (s.setTile c e x).tileOf c e = x := by
  simp [State.tileOf, State.setTile]

/-! ## Scalars and predicates -/

@[simp] theorem Frag.getS_zero (f : Frag) : f.getS 0 = 0 := by simp [Frag.getS]
@[simp] theorem Frag.setS_zero (f : Frag) (x : Word) : f.setS 0 x = f := by simp [Frag.setS]
@[simp] theorem Frag.getP_zero (f : Frag) : f.getP 0 = BitVec.allOnes 32 := by simp [Frag.getP]
@[simp] theorem Frag.setP_zero (f : Frag) (x : Lane) : f.setP 0 x = f := by simp [Frag.setP]
/-- A scalar other than `s0` reads what was written to it. -/
theorem Frag.getS_setS_same (f : Frag) (i : BitVec 6) (x : Word) (h : i ≠ 0) : (f.setS i x).getS i = x := by
  unfold Frag.getS Frag.setS
  rw [if_neg h, if_neg h]
  exact Vector.getElem_set_self ..
/-- A write of a scalar leaves every other scalar as it was. -/
theorem Frag.getS_setS_ne (f : Frag) (i j : BitVec 6) (x : Word) (h : j ≠ i) : (f.setS i x).getS j = f.getS j := by
  have hn : i.toNat ≠ j.toNat := fun e => h (BitVec.eq_of_toNat_eq e.symm)
  unfold Frag.getS Frag.setS
  by_cases hi : i = 0
  · rw [if_pos hi]
  · rw [if_neg hi]
    split
    · rfl
    · exact Vector.getElem_set_ne i.isLt j.isLt hn
/-- A predicate other than `p0` reads what was written to it. -/
theorem Frag.getP_setP_same (f : Frag) (i : BitVec 3) (x : Lane) (h : i ≠ 0) : (f.setP i x).getP i = x := by
  unfold Frag.getP Frag.setP
  rw [if_neg h, if_neg h]
  exact Vector.getElem_set_self ..
/-- A write of a predicate leaves every other predicate as it was. -/
theorem Frag.getP_setP_ne (f : Frag) (i j : BitVec 3) (x : Lane) (h : j ≠ i) : (f.setP i x).getP j = f.getP j := by
  have hn : i.toNat ≠ j.toNat := fun e => h (BitVec.eq_of_toNat_eq e.symm)
  unfold Frag.getP Frag.setP
  by_cases hi : i = 0
  · rw [if_pos hi]
  · rw [if_neg hi]
    split
    · rfl
    · exact Vector.getElem_set_ne i.isLt j.isLt hn
/-- A write of a scalar changes the scalars alone. -/
theorem Frag.setS_frame (f : Frag) (i : BitVec 6) (x : Word) : f.setS i x = { f with s := (f.setS i x).s } := by
  unfold Frag.setS
  split <;> rfl
/-- A write of a predicate changes the predicates alone. -/
theorem Frag.setP_frame (f : Frag) (i : BitVec 3) (x : Lane) : f.setP i x = { f with p := (f.setP i x).p } := by
  unfold Frag.setP
  split <;> rfl
@[simp] theorem Frag.setS_pc (f : Frag) (i : BitVec 6) (x : Word) : (f.setS i x).pc = f.pc := by rw [Frag.setS_frame]
@[simp] theorem Frag.setP_pc (f : Frag) (i : BitVec 3) (x : Lane) : (f.setP i x).pc = f.pc := by rw [Frag.setP_frame]
@[simp] theorem State.fr_setS (s : State) (i : BitVec 6) (x : Word) : (s.setS i x).fr = s.fr.setS i x := by simp [State.setS]
@[simp] theorem State.fr_setP (s : State) (i : BitVec 3) (x : Lane) : (s.setP i x).fr = s.fr.setP i x := by simp [State.setP]
@[simp] theorem State.fr_advance (s : State) : s.advance.fr = { s.fr with pc := s.fr.pc + 4 } := by simp [State.advance]
@[simp] theorem State.fr_goTo (s : State) (pc : Word) : (s.goTo pc).fr = { s.fr with pc := pc } := by simp [State.goTo]
@[simp] theorem State.wv_setS (s : State) (i : BitVec 6) (x : Word) : (s.setS i x).wv = s.wv := rfl
@[simp] theorem State.wv_setP (s : State) (i : BitVec 3) (x : Lane) : (s.setP i x).wv = s.wv := rfl
@[simp] theorem State.wv_advance (s : State) : s.advance.wv = s.wv := rfl
@[simp] theorem State.wv_goTo (s : State) (pc : Word) : (s.goTo pc).wv = s.wv := rfl
@[simp] theorem State.cur_setS (s : State) (i : BitVec 6) (x : Word) : (s.setS i x).cur = s.cur := rfl
@[simp] theorem State.cur_setP (s : State) (i : BitVec 3) (x : Lane) : (s.setP i x).cur = s.cur := rfl
@[simp] theorem State.cur_advance (s : State) : s.advance.cur = s.cur := rfl
@[simp] theorem State.mem_setS (s : State) (i : BitVec 6) (x : Word) : (s.setS i x).mem = s.mem := rfl
@[simp] theorem State.mem_setP (s : State) (i : BitVec 3) (x : Lane) : (s.setP i x).mem = s.mem := rfl
@[simp] theorem State.mem_setV (s : State) (i : BitVec 7) (x : Vector Lane 32) : (s.setV i x).mem = s.mem := rfl
@[simp] theorem State.mem_raiseFlags (s : State) (f : Flags) : (s.raiseFlags f).mem = s.mem := rfl
@[simp] theorem State.mem_advance (s : State) : s.advance.mem = s.mem := rfl
@[simp] theorem State.mem_goTo (s : State) (pc : Word) : (s.goTo pc).mem = s.mem := rfl
@[simp] theorem State.mem_notify (s : State) (w : Watch) : (s.notify w).mem = s.mem := rfl
@[simp] theorem State.mem_placeHold (s : State) (ks : List Nat) (h : Nat) : (s.placeHold ks h).mem = s.mem := rfl
@[simp] theorem State.mem_liftHold (s : State) (ks : List Nat) (h : Nat) : (s.liftHold ks h).mem = s.mem := rfl

end Sys2Proof.Machine
end

