-- ==== Sys2Proof/Laws/Ops.lean ====
section
/-! SUPPORT. What the shared operations do, once for each: results of scalars and predicates, the checks of registers and
types, trap entry, results over guarded lanes, writes of memory. -/

namespace Sys2Proof.Machine

/-! ## Rows set twice -/

@[simp] theorem State.setFr_setFr (s : State) (f g : Frag) : (s.setFr f).setFr g = s.setFr g := by simp [State.setFr]
@[simp] theorem State.setWv_setWv (s : State) (f g : Wave) : (s.setWv f).setWv g = s.setWv g := by simp [State.setWv]
theorem State.setFr_setWv (s : State) (f : Frag) (w : Wave) : (s.setFr f).setWv w = (s.setWv w).setFr f := rfl

/-! ## Frames -/

/-- Replacing the executing fragment changes its row alone. -/
theorem State.setFr_onlyFrag (s : State) (f : Frag) : s.OnlyFrag (s.setFr f) :=
  ⟨rfl, fun _ h => findAt_putAt_ne _ _ h⟩

/-- Replacing the executing fragment and its wave changes their rows alone. -/
theorem State.setWv_setFr_onlyWave (s : State) (w : Wave) (f : Frag) : s.OnlyWave ((s.setWv w).setFr f) :=
  ⟨rfl, fun _ h => findAt_putAt_ne _ _ h, fun _ h => findAt_putAt_ne _ _ h⟩

/-! ## Scalar and predicate results -/

/-- A scalar written reads as written, and `s0` as 0. -/
theorem Frag.getS_setS (f : Frag) (d : BitVec 6) (x : Word) : (f.setS d x).getS d = if d = 0 then 0 else x := by
  by_cases h : d = 0
  · simp [h, Frag.getS]
  · rw [if_neg h, Frag.getS_setS_same f d x h]

/-- A predicate written reads as written, and `p0` as all ones. -/
theorem Frag.getP_setP (f : Frag) (d : BitVec 3) (x : Lane) :
    (f.setP d x).getP d = if d = 0 then BitVec.allOnes 32 else x := by
  by_cases h : d = 0
  · simp [h, Frag.getP]
  · rw [if_neg h, Frag.getP_setP_same f d x h]

/-- A scalar result does what a scalar result should. -/
theorem State.putScalar_done (s : State) (d : BitVec 6) (x : Word) :
    ∃ t, s.putScalar d x = .next t ∧ s.ScalarDone t d x := by
  refine ⟨s.setFr { s.fr.setS d x with pc := s.fr.pc + 4 }, ?_, s.setFr_onlyFrag _, ⟨?_, ?_⟩, ?_, ?_⟩
  · simp [State.putScalar, State.setS, State.advance]
  · rw [State.fr_setFr, Frag.setS_frame]
  · intro r h
    rw [State.fr_setFr]
    exact Frag.getS_setS_ne _ _ _ _ h
  · rw [State.getS, State.fr_setFr]
    exact Frag.getS_setS s.fr d x
  · rw [State.fr_setFr]

/-- A predicate result does what a predicate result should. -/
theorem State.putPred_done (s : State) (d : BitVec 3) (x : Lane) :
    ∃ t, s.putPred d x = .next t ∧ s.PredDone t d x := by
  refine ⟨s.setFr { s.fr.setP d x with pc := s.fr.pc + 4 }, ?_, s.setFr_onlyFrag _, ⟨?_, ?_⟩, ?_, ?_⟩
  · simp [State.putPred, State.setP, State.advance]
  · rw [State.fr_setFr, Frag.setP_frame]
  · intro r h
    rw [State.fr_setFr]
    exact Frag.getP_setP_ne _ _ _ _ h
  · rw [State.getP, State.fr_setFr]
    exact Frag.getP_setP s.fr d x
  · rw [State.fr_setFr]

/-! ## Traps and checks -/

/-- A precise trap outside a trap and an attempt is entered at once. -/
theorem State.trap_trapped (s : State) (cause : Nat) (taddr : Word) (lane detail : Nat) (h : s.TrapFree) :
    s.Trapped (s.trap cause taddr lane detail) cause 0 detail s.fr.pc taddr (s.tinfoWord lane) := by
  obtain ⟨ha, ht⟩ := h
  unfold State.inTx at ht
  unfold State.Trapped State.trap State.trapEntry
  rw [if_neg (by simpa [State.wvOf, State.wv] using ha)]
  cases hx : s.wv.tx with
  | none =>
    have hx' : (getAt Wave.reset s.waves s.cur.waveKey).tx = none := hx
    simp [hx', State.setFrOf, State.setWvOf, State.frOf, State.wvOf, State.setFr, State.setWv, State.fr, State.wv]
  | some a =>
    rw [hx] at ht
    have ho : a.owner ≠ s.cur.frag := by simpa using ht
    have hx' : (getAt Wave.reset s.waves s.cur.waveKey).tx = some a := hx
    simp [hx', ho, State.setFrOf, State.setWvOf, State.frOf, State.wvOf, State.setFr, State.setWv, State.fr, State.wv]

/-- Registers that the wave holds raise nothing. -/
theorem State.withRegs_of_holds (s : State) (rs : List (BitVec 7)) (k : State) (h : s.HoldsRegs rs) :
    s.withRegs rs k = k := by
  unfold State.withRegs
  rw [if_pos]
  simpa [State.inRange, State.HoldsRegs] using h

/-- A register that the wave does not hold raises REG_RANGE. -/
theorem State.withRegs_of_lacks (s : State) (rs : List (BitVec 7)) (k : State) (h : ∃ r ∈ rs, 8 * s.wv.rblk ≤ r.toNat) :
    s.withRegs rs k = s.trap causeREGRANGE 0 0 0 := by
  unfold State.withRegs
  rw [if_neg]
  obtain ⟨r, hr, hk⟩ := h
  simp only [List.all_eq_true, not_forall]
  exact ⟨r, hr, by simp [State.inRange, hk]⟩

/-- An instruction under an element type that it lists, with registers that the wave holds. -/
theorem State.withType_of_ok (s : State) (rs : List (BitVec 7)) (ok : EType → Bool) (k : EType → State) (e : EType)
    (h : s.HoldsRegs rs) (he : etypeOf s.etypeCode = some e) (hk : ok e = true) : s.withType rs ok k = k e := by
  unfold State.withType
  rw [s.withRegs_of_holds rs _ h, he]
  simp [hk]

/-- An instruction under a type that it does not list raises TYPE. -/
theorem State.withType_of_bad (s : State) (rs : List (BitVec 7)) (ok : EType → Bool) (k : EType → State)
    (h : s.HoldsRegs rs) (he : ∀ e, etypeOf s.etypeCode = some e → ok e = false) :
    s.withType rs ok k = s.trap causeTYPE 0 0 0 := by
  unfold State.withType
  rw [s.withRegs_of_holds rs _ h]
  cases hx : etypeOf s.etypeCode with
  | none => rfl
  | some e => simp [he e hx]

/-! ## Results over guarded lanes -/

/-- A lane of a register with some lanes replaced. -/
theorem laneOf_withLanes (v : Vector Lane 32) (ls : List Nat) (f : Nat → Lane) (l : Nat) (h : l < 32) :
    laneOf (withLanes v ls f) l = if l ∈ ls then f l else laneOf v l := by
  unfold laneOf withLanes
  simp only [List.getD_eq_getElem?_getD, Vector.getElem?_toList, Vector.getElem?_ofFn, h, dif_pos]
  by_cases hm : l ∈ ls <;> simp [hm, h]

/-- The row that a list of results gives a lane. -/
theorem getAt_map_pair {α : Type} (d : α) (ls : List Nat) (f : Nat → α) (l : Nat) (h : l ∈ ls) :
    getAt d (ls.map (fun i => (i, f i))) l = f l := by
  induction ls with
  | nil => simp at h
  | cons a r ih =>
    by_cases ha : a = l
    · simp [getAt, findAt_cons, ha]
    · have hr : l ∈ r := by
        rcases List.mem_cons.1 h with h | h
        · exact absurd h.symm ha
        · exact h
      simpa [getAt, findAt_cons, ha] using ih hr

/-- A vector result does what a vector result should. -/
theorem State.putLanes_done (s : State) (d : BitVec 7) (f : Nat → Lane × Flags) : s.VectorDone (s.putLanes d f) d f := by
  have hf : ∀ (ls : List Nat) (z : Flags),
      (ls.map (fun l => (l, f l))).foldl (fun acc x => acc ||| x.2.2) z = ls.foldl (fun x l => x ||| (f l).2) z := by
    intro ls
    induction ls with
    | nil => intro z; rfl
    | cons a r ih => intro z; exact ih _
  refine ⟨⟨rfl, fun k h => ?_, fun k h => ?_⟩, ?_, ⟨?_, ?_, ?_⟩, ?_⟩
  · exact findAt_putAt_ne _ _ h
  · simp only [State.putLanes, State.advance, State.raiseFlags, State.setV, State.setWv, State.setFr]
    rw [findAt_putAt_ne _ _ h, findAt_putAt_ne _ _ h]
  · intro l hl
    have : (s.putLanes d f).getV d
        = withLanes (s.getV d) s.guarded (fun l => (getAt (0, 0) (s.guarded.map (fun l => (l, f l))) l).1) := by
      simp [State.putLanes, State.getV, State.raiseFlags, State.setV]
    rw [this, laneOf_withLanes _ _ _ _ hl]
    by_cases hg : l ∈ s.guarded
    · simp [hg, getAt_map_pair]
    · simp [hg]
  · simp [State.putLanes, State.raiseFlags, State.setV]
  · intro r h
    have hn : d.toNat ≠ r.toNat := fun e => h (BitVec.eq_of_toNat_eq e.symm)
    simp only [State.putLanes, State.raiseFlags, State.setV, State.wv_advance, State.wv_setWv]
    exact Vector.getElem_set_ne d.isLt r.isLt hn
  · simp only [State.putLanes, State.raiseFlags, State.setV, State.wv_advance, State.wv_setWv]
    rw [hf]
  · simp [State.putLanes, State.raiseFlags, State.setV]

/-- A bit of the mask of some lanes. -/
theorem getLsbD_maskOf (ls : List Nat) (l : Nat) (h : l < 32) : (maskOf ls).getLsbD l = decide (l ∈ ls) := by
  have key : ∀ (ls : List Nat) (m : Lane),
      (ls.foldl (fun m l => m ||| BitVec.ofNat 32 (2 ^ l)) m).getLsbD l = (m.getLsbD l || decide (l ∈ ls)) := by
    intro ls
    induction ls with
    | nil => intro m; simp
    | cons a r ih =>
      intro m
      rw [List.foldl_cons, ih, BitVec.getLsbD_or, BitVec.getLsbD_ofNat, Nat.testBit_two_pow]
      by_cases ha : a = l
      · subst ha
        simp [h]
      · simp [ha, Ne.symm ha, h]
  simpa [maskOf] using key ls 0

/-- A compare's result does what it should. -/
theorem State.putBits_done (s : State) (d : BitVec 3) (f : Nat → Bool × Flags) : s.CompareDone (s.putBits d f) d f := by
  have hf : ∀ (ls : List Nat) (z : Flags),
      (ls.map (fun l => (l, f l))).foldl (fun acc x => acc ||| x.2.2) z = ls.foldl (fun x l => x ||| (f l).2) z := by
    intro ls
    induction ls with
    | nil => intro z; rfl
    | cons a r ih => intro z; exact ih _
  have hm : ∀ l, l ∈ (((s.guarded.map (fun l => (l, f l))).filter (fun x => x.2.1)).map (·.1))
      ↔ l ∈ s.guarded ∧ (f l).1 = true := by
    intro l
    simp only [List.mem_map, List.mem_filter]
    constructor
    · rintro ⟨x, ⟨⟨a, ha, rfl⟩, hx⟩, rfl⟩
      exact ⟨ha, hx⟩
    · rintro ⟨h1, h2⟩
      exact ⟨(l, f l), ⟨⟨l, h1, rfl⟩, h2⟩, rfl⟩
  refine ⟨⟨rfl, fun k h => ?_, fun k h => ?_⟩, ?_, ⟨?_, ?_⟩, ?_, ?_⟩
  · simp only [State.putBits, State.advance, State.raiseFlags, State.setP, State.setWv, State.setFr]
    rw [findAt_putAt_ne _ _ h, findAt_putAt_ne _ _ h]
  · exact findAt_putAt_ne _ _ h
  · intro hd l hl
    have hp : (s.putBits d f).getP d = (s.getP d &&& ~~~(maskOf s.guarded))
        ||| maskOf (((s.guarded.map (fun l => (l, f l))).filter (fun x => x.2.1)).map (·.1)) := by
      simp only [State.getP, State.putBits, State.raiseFlags, State.fr_advance, State.fr_setWv, State.fr_setP]
      exact Frag.getP_setP_same _ _ _ hd
    rw [hp, BitVec.getLsbD_or, BitVec.getLsbD_and, BitVec.getLsbD_not, getLsbD_maskOf _ _ hl, getLsbD_maskOf _ _ hl]
    by_cases hg : l ∈ s.guarded
    · by_cases hfl : (f l).1 = true
      · simp [hg, hl, hm, hfl]
      · have : (f l).1 = false := by simpa using hfl
        simp [hg, hl, hm, this]
    · simp [hg, hl, hm]
  · simp only [State.putBits, State.raiseFlags, State.fr_advance, State.fr_setWv, State.fr_setP]
    rw [Frag.setP_frame]
  · intro r h
    simp only [State.putBits, State.raiseFlags, State.fr_advance, State.fr_setWv, State.fr_setP]
    exact Frag.getP_setP_ne _ _ _ _ h
  · simp only [State.putBits, State.raiseFlags, State.wv_advance, State.wv_setWv, State.wv_setP]
    rw [hf]
  · simp [State.putBits, State.raiseFlags]

/-! ## Memory: what leaves it alone, and what keeps its canonical form -/

@[simp] theorem State.mem_setCore (s : State) (c : Nat) (x : CoreRow) : (s.setCore c x).mem = s.mem := rfl
@[simp] theorem State.mem_setFrOf (s : State) (f : FragId) (x : Frag) : (s.setFrOf f x).mem = s.mem := rfl
@[simp] theorem State.mem_setWvOf (s : State) (f : FragId) (x : Wave) : (s.setWvOf f x).mem = s.mem := rfl

/-- A fold keeps the memory that each of its steps keeps. -/
theorem foldl_mem {α : Type} (f : State → α → State) (h : ∀ s a, (f s a).mem = s.mem) (l : List α) (s : State) :
    (l.foldl f s).mem = s.mem := by
  induction l generalizing s with
  | nil => rfl
  | cons a r ih => rw [List.foldl_cons, ih, h]

/-- Dropping an attempt discards its writes: memory is as it was. -/
@[simp] theorem State.mem_dropAttempt (s : State) (f : FragId) (status code : Nat) (a1 a2 : Word) :
    (s.dropAttempt f status code a1 a2).1.mem = s.mem := by
  unfold State.dropAttempt
  split <;> rfl

@[simp] theorem State.mem_returnBlocks (s : State) (core n : Nat) : (s.returnBlocks core n).mem = s.mem := by
  unfold State.returnBlocks
  split
  · rfl
  · rw [State.mem_notify, foldl_mem]
    · rfl
    · intro t x
      simp

@[simp] theorem State.mem_abandon (s : State) (f : FragId) (status code : Nat) (a1 a2 : Word) :
    (s.abandon f status code a1 a2).mem = s.mem := by
  simp [State.abandon]

@[simp] theorem State.mem_abandonHere (s : State) (status code : Nat) (a : Word) :
    (s.abandonHere status code a).mem = s.mem := by
  simp [State.abandonHere]

@[simp] theorem State.mem_postRecord (s : State) (r : FaultRecord) : (s.postRecord r).1.mem = s.mem := by
  unfold State.postRecord
  split <;> rfl

@[simp] theorem State.mem_report (s : State) (r : FaultRecord) : (s.report r).mem = s.mem := by
  simp [State.report]

@[simp] theorem State.mem_suspendOn (s : State) (f : FragId) (r : FaultRecord) : (s.suspendOn f r).mem = s.mem := by
  simp [State.suspendOn]

@[simp] theorem State.mem_suspend (s : State) (f : FragId) (cause detail access : Nat) (va : Word) :
    (s.suspend f cause detail access va).mem = s.mem := by
  simp [State.suspend]

@[simp] theorem State.mem_trapEntry (s : State) (f : FragId) (cause cls : Nat) (a b c : Word) (detail : Nat) :
    (s.trapEntry f cause cls a b c detail).mem = s.mem := by
  unfold State.trapEntry
  split
  · simp
  · dsimp only
    split <;> split <;> simp

@[simp] theorem State.mem_trap (s : State) (cause : Nat) (a : Word) (lane detail : Nat) :
    (s.trap cause a lane detail).mem = s.mem := by
  simp [State.trap]

@[simp] theorem State.mem_conflictWrite (s : State) (agent : Option FragId) (ws : List Watch) :
    (s.conflictWrite agent ws).mem = s.mem := by
  unfold State.conflictWrite
  refine foldl_mem _ (fun t x => ?_) _ _
  split
  · rfl
  · split <;> simp

@[simp] theorem State.mem_writeWord (s : State) (w : Watch) : (s.writeWord w).mem = s.mem := by
  simp [State.writeWord]

/-- What memory is after a write performed at its visibility point. -/
theorem State.mem_storeBytes (s : State) (agent : Option FragId) (data : List (Place × Byte)) :
    (s.storeBytes agent data).mem = (s.mem.writeBytes data).clearPoison (data.map (·.1.key)) := by
  unfold State.storeBytes
  rw [foldl_mem _ (fun t w => State.mem_notify t w)]
  simp

/-- A write performed at its visibility point keeps the canonical form. -/
theorem State.storeBytes_inv (s : State) (agent : Option FragId) (data : List (Place × Byte)) (h : s.Inv) :
    (s.storeBytes agent data).Inv := by
  unfold State.Inv
  rw [State.mem_storeBytes]
  exact Memory.clearPoison_wf _ (Memory.writeBytes_wf _ h)

/-- Two states of one memory are canonical alike. -/
theorem State.inv_of_mem {s t : State} (h : t.mem = s.mem) (hs : s.Inv) : t.Inv := by
  unfold State.Inv
  rw [h]
  exact hs

end Sys2Proof.Machine
end

