-- ==== Sys2Proof/Laws/PerInstr.lean ====
section
/-! SUPPORT. One statement about every instruction as syntax, constructor by constructor: the encoder gives a word to exactly
the instructions that are words of the device, and none to a step without an encoding (R70, R75, R76). -/

namespace Sys2Proof.Laws.HasWord

/-- The instruction has a word if and only if it is a word of the device. -/
def Statement (i : Instr) : Prop := (encode i).isSome = i.isWord

theorem sadd (a0 : BitVec 6) (a1 : BitVec 6) (a2 : BitVec 6) : Statement (.sadd a0 a1 a2) := rfl
theorem ssub (a0 : BitVec 6) (a1 : BitVec 6) (a2 : BitVec 6) : Statement (.ssub a0 a1 a2) := rfl
theorem smul (a0 : BitVec 6) (a1 : BitVec 6) (a2 : BitVec 6) : Statement (.smul a0 a1 a2) := rfl
theorem smulh (a0 : BitVec 6) (a1 : BitVec 6) (a2 : BitVec 6) : Statement (.smulh a0 a1 a2) := rfl
theorem smulhu (a0 : BitVec 6) (a1 : BitVec 6) (a2 : BitVec 6) : Statement (.smulhu a0 a1 a2) := rfl
theorem sdiv (a0 : BitVec 6) (a1 : BitVec 6) (a2 : BitVec 6) : Statement (.sdiv a0 a1 a2) := rfl
theorem sdivu (a0 : BitVec 6) (a1 : BitVec 6) (a2 : BitVec 6) : Statement (.sdivu a0 a1 a2) := rfl
theorem srem (a0 : BitVec 6) (a1 : BitVec 6) (a2 : BitVec 6) : Statement (.srem a0 a1 a2) := rfl
theorem sremu (a0 : BitVec 6) (a1 : BitVec 6) (a2 : BitVec 6) : Statement (.sremu a0 a1 a2) := rfl
theorem sand (a0 : BitVec 6) (a1 : BitVec 6) (a2 : BitVec 6) : Statement (.sand a0 a1 a2) := rfl
theorem sor (a0 : BitVec 6) (a1 : BitVec 6) (a2 : BitVec 6) : Statement (.sor a0 a1 a2) := rfl
theorem sxor (a0 : BitVec 6) (a1 : BitVec 6) (a2 : BitVec 6) : Statement (.sxor a0 a1 a2) := rfl
theorem sshl (a0 : BitVec 6) (a1 : BitVec 6) (a2 : BitVec 6) : Statement (.sshl a0 a1 a2) := rfl
theorem sshr (a0 : BitVec 6) (a1 : BitVec 6) (a2 : BitVec 6) : Statement (.sshr a0 a1 a2) := rfl
theorem ssra (a0 : BitVec 6) (a1 : BitVec 6) (a2 : BitVec 6) : Statement (.ssra a0 a1 a2) := rfl
theorem smin (a0 : BitVec 6) (a1 : BitVec 6) (a2 : BitVec 6) : Statement (.smin a0 a1 a2) := rfl
theorem smax (a0 : BitVec 6) (a1 : BitVec 6) (a2 : BitVec 6) : Statement (.smax a0 a1 a2) := rfl
theorem sminu (a0 : BitVec 6) (a1 : BitVec 6) (a2 : BitVec 6) : Statement (.sminu a0 a1 a2) := rfl
theorem smaxu (a0 : BitVec 6) (a1 : BitVec 6) (a2 : BitVec 6) : Statement (.smaxu a0 a1 a2) := rfl
theorem sseq (a0 : BitVec 6) (a1 : BitVec 6) (a2 : BitVec 6) : Statement (.sseq a0 a1 a2) := rfl
theorem sslt (a0 : BitVec 6) (a1 : BitVec 6) (a2 : BitVec 6) : Statement (.sslt a0 a1 a2) := rfl
theorem ssltu (a0 : BitVec 6) (a1 : BitVec 6) (a2 : BitVec 6) : Statement (.ssltu a0 a1 a2) := rfl
theorem sclz (a0 : BitVec 6) (a1 : BitVec 6) : Statement (.sclz a0 a1) := rfl
theorem spopc (a0 : BitVec 6) (a1 : BitVec 6) : Statement (.spopc a0 a1) := rfl
theorem spmov (a0 : BitVec 6) (a1 : BitVec 3) : Statement (.spmov a0 a1) := rfl
theorem saddi (a0 : BitVec 6) (a1 : BitVec 6) (a2 : BitVec 13) : Statement (.saddi a0 a1 a2) := rfl
theorem sandi (a0 : BitVec 6) (a1 : BitVec 6) (a2 : BitVec 13) : Statement (.sandi a0 a1 a2) := rfl
theorem sori (a0 : BitVec 6) (a1 : BitVec 6) (a2 : BitVec 13) : Statement (.sori a0 a1 a2) := rfl
theorem sslti (a0 : BitVec 6) (a1 : BitVec 6) (a2 : BitVec 13) : Statement (.sslti a0 a1 a2) := rfl
theorem sshli (a0 : BitVec 6) (a1 : BitVec 6) (a2 : BitVec 6) : Statement (.sshli a0 a1 a2) := rfl
theorem ssrai (a0 : BitVec 6) (a1 : BitVec 6) (a2 : BitVec 6) : Statement (.ssrai a0 a1 a2) := rfl
theorem sshri (a0 : BitVec 6) (a1 : BitVec 6) (a2 : BitVec 6) : Statement (.sshri a0 a1 a2) := rfl
theorem sli (a0 : BitVec 6) (a1 : BitVec 19) : Statement (.sli a0 a1) := rfl
theorem slui (a0 : BitVec 6) (a1 : BitVec 19) : Statement (.slui a0 a1) := rfl
theorem slxi (a0 : BitVec 6) (a1 : BitVec 19) : Statement (.slxi a0 a1) := rfl
theorem br (a0 : BitVec 25) : Statement (.br a0) := rfl
theorem call (a0 : BitVec 25) : Statement (.call a0) := rfl
theorem brz (a0 : BitVec 6) (a1 : BitVec 19) : Statement (.brz a0 a1) := rfl
theorem brnz (a0 : BitVec 6) (a1 : BitVec 19) : Statement (.brnz a0 a1) := rfl
theorem ret : Statement (.ret) := rfl
theorem exit : Statement (.exit) := rfl
theorem yield : Statement (.yield) := rfl
theorem trap (a0 : BitVec 6) : Statement (.trap a0) := rfl
theorem rtt : Statement (.rtt) := rfl
theorem brk (a0 : BitVec 6) : Statement (.brk a0) := rfl
theorem racq (a0 : BitVec 6) (a1 : BitVec 5) : Statement (.racq a0 a1) := rfl
theorem racqE (a0 : BitVec 6) (a1 : BitVec 5) : Statement (.racqE a0 a1) := rfl
theorem rrel (a0 : BitVec 5) : Statement (.rrel a0) := rfl
theorem srd (a0 : BitVec 6) (a1 : BitVec 6) : Statement (.srd a0 a1) := rfl
theorem swr (a0 : BitVec 6) (a1 : BitVec 6) : Statement (.swr a0 a1) := rfl
theorem frz : Statement (.frz) := rfl
theorem lpad (a0 : BitVec 1) (a1 : BitVec 1) (a2 : BitVec 1) (a3 : BitVec 13) : Statement (.lpad a0 a1 a2 a3) := rfl
theorem mode (a0 : BitVec 2) (a1 : BitVec 3) (a2 : BitVec 1) (a3 : BitVec 2) (a4 : BitVec 4) (a5 : BitVec 4) : Statement (.mode a0 a1 a2 a3 a4 a5) := rfl
theorem pand (a0 : BitVec 3) (a1 : BitVec 3) (a2 : BitVec 3) : Statement (.pand a0 a1 a2) := rfl
theorem por (a0 : BitVec 3) (a1 : BitVec 3) (a2 : BitVec 3) : Statement (.por a0 a1 a2) := rfl
theorem pxor (a0 : BitVec 3) (a1 : BitVec 3) (a2 : BitVec 3) : Statement (.pxor a0 a1 a2) := rfl
theorem pandn (a0 : BitVec 3) (a1 : BitVec 3) (a2 : BitVec 3) : Statement (.pandn a0 a1 a2) := rfl
theorem pnot (a0 : BitVec 3) (a1 : BitVec 3) : Statement (.pnot a0 a1) := rfl
theorem pmov (a0 : BitVec 3) (a1 : BitVec 3) : Statement (.pmov a0 a1) := rfl
theorem pcnt (a0 : BitVec 6) (a1 : BitVec 3) : Statement (.pcnt a0 a1) := rfl
theorem pfirst (a0 : BitVec 3) (a1 : BitVec 3) : Statement (.pfirst a0 a1) := rfl
theorem pset (a0 : BitVec 3) (a1 : BitVec 6) : Statement (.pset a0 a1) := rfl
theorem vbr (a0 : BitVec 3) (a1 : BitVec 1) (a2 : BitVec 21) : Statement (.vbr a0 a1 a2) := rfl
theorem reconv (a0 : BitVec 8) : Statement (.reconv a0) := rfl
theorem jmpi (a0 : BitVec 6) (a1 : BitVec 13) : Statement (.jmpi a0 a1) := rfl
theorem calli (a0 : BitVec 6) (a1 : BitVec 13) : Statement (.calli a0 a1) := rfl
theorem vjmpi (a0 : BitVec 7) (a1 : BitVec 13) : Statement (.vjmpi a0 a1) := rfl
theorem vadd (a0 : BitVec 7) (a1 : BitVec 7) (a2 : BitVec 7) : Statement (.vadd a0 a1 a2) := rfl
theorem vsub (a0 : BitVec 7) (a1 : BitVec 7) (a2 : BitVec 7) : Statement (.vsub a0 a1 a2) := rfl
theorem vmul (a0 : BitVec 7) (a1 : BitVec 7) (a2 : BitVec 7) : Statement (.vmul a0 a1 a2) := rfl
theorem vmulh (a0 : BitVec 7) (a1 : BitVec 7) (a2 : BitVec 7) : Statement (.vmulh a0 a1 a2) := rfl
theorem vmad (a0 : BitVec 7) (a1 : BitVec 7) (a2 : BitVec 7) : Statement (.vmad a0 a1 a2) := rfl
theorem vmin (a0 : BitVec 7) (a1 : BitVec 7) (a2 : BitVec 7) : Statement (.vmin a0 a1 a2) := rfl
theorem vmax (a0 : BitVec 7) (a1 : BitVec 7) (a2 : BitVec 7) : Statement (.vmax a0 a1 a2) := rfl
theorem vand (a0 : BitVec 7) (a1 : BitVec 7) (a2 : BitVec 7) : Statement (.vand a0 a1 a2) := rfl
theorem vor (a0 : BitVec 7) (a1 : BitVec 7) (a2 : BitVec 7) : Statement (.vor a0 a1 a2) := rfl
theorem vxor (a0 : BitVec 7) (a1 : BitVec 7) (a2 : BitVec 7) : Statement (.vxor a0 a1 a2) := rfl
theorem vandn (a0 : BitVec 7) (a1 : BitVec 7) (a2 : BitVec 7) : Statement (.vandn a0 a1 a2) := rfl
theorem vshl (a0 : BitVec 7) (a1 : BitVec 7) (a2 : BitVec 7) : Statement (.vshl a0 a1 a2) := rfl
theorem vshr (a0 : BitVec 7) (a1 : BitVec 7) (a2 : BitVec 7) : Statement (.vshr a0 a1 a2) := rfl
theorem vsra (a0 : BitVec 7) (a1 : BitVec 7) (a2 : BitVec 7) : Statement (.vsra a0 a1 a2) := rfl
theorem vrot (a0 : BitVec 7) (a1 : BitVec 7) (a2 : BitVec 7) : Statement (.vrot a0 a1 a2) := rfl
theorem vsel (a0 : BitVec 7) (a1 : BitVec 7) (a2 : BitVec 7) : Statement (.vsel a0 a1 a2) := rfl
theorem vcmpeq (a0 : BitVec 3) (a1 : BitVec 7) (a2 : BitVec 7) : Statement (.vcmpeq a0 a1 a2) := rfl
theorem vcmpne (a0 : BitVec 3) (a1 : BitVec 7) (a2 : BitVec 7) : Statement (.vcmpne a0 a1 a2) := rfl
theorem vcmplt (a0 : BitVec 3) (a1 : BitVec 7) (a2 : BitVec 7) : Statement (.vcmplt a0 a1 a2) := rfl
theorem vcmple (a0 : BitVec 3) (a1 : BitVec 7) (a2 : BitVec 7) : Statement (.vcmple a0 a1 a2) := rfl
theorem vcmpgt (a0 : BitVec 3) (a1 : BitVec 7) (a2 : BitVec 7) : Statement (.vcmpgt a0 a1 a2) := rfl
theorem vcmpge (a0 : BitVec 3) (a1 : BitVec 7) (a2 : BitVec 7) : Statement (.vcmpge a0 a1 a2) := rfl
theorem vabsd (a0 : BitVec 7) (a1 : BitVec 7) (a2 : BitVec 7) : Statement (.vabsd a0 a1 a2) := rfl
theorem vavg (a0 : BitVec 7) (a1 : BitVec 7) (a2 : BitVec 7) : Statement (.vavg a0 a1 a2) := rfl
theorem vdot4 (a0 : BitVec 7) (a1 : BitVec 7) (a2 : BitVec 7) : Statement (.vdot4 a0 a1 a2) := rfl
theorem vfadd (a0 : BitVec 7) (a1 : BitVec 7) (a2 : BitVec 7) : Statement (.vfadd a0 a1 a2) := rfl
theorem vfsub (a0 : BitVec 7) (a1 : BitVec 7) (a2 : BitVec 7) : Statement (.vfsub a0 a1 a2) := rfl
theorem vfmul (a0 : BitVec 7) (a1 : BitVec 7) (a2 : BitVec 7) : Statement (.vfmul a0 a1 a2) := rfl
theorem vfma (a0 : BitVec 7) (a1 : BitVec 7) (a2 : BitVec 7) : Statement (.vfma a0 a1 a2) := rfl
theorem vfms (a0 : BitVec 7) (a1 : BitVec 7) (a2 : BitVec 7) : Statement (.vfms a0 a1 a2) := rfl
theorem vfnma (a0 : BitVec 7) (a1 : BitVec 7) (a2 : BitVec 7) : Statement (.vfnma a0 a1 a2) := rfl
theorem vfmin (a0 : BitVec 7) (a1 : BitVec 7) (a2 : BitVec 7) : Statement (.vfmin a0 a1 a2) := rfl
theorem vfmax (a0 : BitVec 7) (a1 : BitVec 7) (a2 : BitVec 7) : Statement (.vfmax a0 a1 a2) := rfl
theorem vfcmpeq (a0 : BitVec 3) (a1 : BitVec 7) (a2 : BitVec 7) : Statement (.vfcmpeq a0 a1 a2) := rfl
theorem vfcmplt (a0 : BitVec 3) (a1 : BitVec 7) (a2 : BitVec 7) : Statement (.vfcmplt a0 a1 a2) := rfl
theorem vfcmple (a0 : BitVec 3) (a1 : BitVec 7) (a2 : BitVec 7) : Statement (.vfcmple a0 a1 a2) := rfl
theorem vfcmpun (a0 : BitVec 3) (a1 : BitVec 7) (a2 : BitVec 7) : Statement (.vfcmpun a0 a1 a2) := rfl
theorem vfscal (a0 : BitVec 7) (a1 : BitVec 7) (a2 : BitVec 7) : Statement (.vfscal a0 a1 a2) := rfl
theorem vfcls (a0 : BitVec 7) (a1 : BitVec 7) : Statement (.vfcls a0 a1) := rfl
theorem vmov (a0 : BitVec 7) (a1 : BitVec 7) : Statement (.vmov a0 a1) := rfl
theorem vnot (a0 : BitVec 7) (a1 : BitVec 7) : Statement (.vnot a0 a1) := rfl
theorem vneg (a0 : BitVec 7) (a1 : BitVec 7) : Statement (.vneg a0 a1) := rfl
theorem vabs (a0 : BitVec 7) (a1 : BitVec 7) : Statement (.vabs a0 a1) := rfl
theorem vpopc (a0 : BitVec 7) (a1 : BitVec 7) : Statement (.vpopc a0 a1) := rfl
theorem vclz (a0 : BitVec 7) (a1 : BitVec 7) : Statement (.vclz a0 a1) := rfl
theorem vlaneid (a0 : BitVec 7) : Statement (.vlaneid a0) := rfl
theorem vfrcp (a0 : BitVec 7) (a1 : BitVec 7) : Statement (.vfrcp a0 a1) := rfl
theorem vfrsq (a0 : BitVec 7) (a1 : BitVec 7) : Statement (.vfrsq a0 a1) := rfl
theorem vfexp2 (a0 : BitVec 7) (a1 : BitVec 7) : Statement (.vfexp2 a0 a1) := rfl
theorem vflog2 (a0 : BitVec 7) (a1 : BitVec 7) : Statement (.vflog2 a0 a1) := rfl
theorem vcvt (a0 : BitVec 7) (a1 : BitVec 7) (a2 : BitVec 3) (a3 : BitVec 4) : Statement (.vcvt a0 a1 a2 a3) := rfl
theorem vbcst (a0 : BitVec 7) (a1 : BitVec 6) : Statement (.vbcst a0 a1) := rfl
theorem vextr (a0 : BitVec 6) (a1 : BitVec 7) (a2 : BitVec 5) : Statement (.vextr a0 a1 a2) := rfl
theorem vins (a0 : BitVec 7) (a1 : BitVec 6) (a2 : BitVec 5) : Statement (.vins a0 a1 a2) := rfl
theorem vbrev (a0 : BitVec 7) (a1 : BitVec 7) : Statement (.vbrev a0 a1) := rfl
theorem vperm (a0 : BitVec 7) (a1 : BitVec 7) (a2 : BitVec 7) : Statement (.vperm a0 a1 a2) := rfl
theorem vbperm (a0 : BitVec 7) (a1 : BitVec 7) (a2 : BitVec 7) : Statement (.vbperm a0 a1 a2) := rfl
theorem vshflu (a0 : BitVec 7) (a1 : BitVec 7) (a2 : BitVec 7) : Statement (.vshflu a0 a1 a2) := rfl
theorem vshfld (a0 : BitVec 7) (a1 : BitVec 7) (a2 : BitVec 7) : Statement (.vshfld a0 a1 a2) := rfl
theorem vshflx (a0 : BitVec 7) (a1 : BitVec 7) (a2 : BitVec 7) : Statement (.vshflx a0 a1 a2) := rfl
theorem vslide (a0 : BitVec 7) (a1 : BitVec 7) (a2 : BitVec 7) : Statement (.vslide a0 a1 a2) := rfl
theorem vredadd (a0 : BitVec 7) (a1 : BitVec 7) : Statement (.vredadd a0 a1) := rfl
theorem vredmin (a0 : BitVec 7) (a1 : BitVec 7) : Statement (.vredmin a0 a1) := rfl
theorem vredmax (a0 : BitVec 7) (a1 : BitVec 7) : Statement (.vredmax a0 a1) := rfl
theorem vscan (a0 : BitVec 7) (a1 : BitVec 7) : Statement (.vscan a0 a1) := rfl
theorem vballot (a0 : BitVec 7) (a1 : BitVec 7) : Statement (.vballot a0 a1) := rfl
theorem vcmprs (a0 : BitVec 7) (a1 : BitVec 7) : Statement (.vcmprs a0 a1) := rfl
theorem vexpnd (a0 : BitVec 7) (a1 : BitVec 7) : Statement (.vexpnd a0 a1) := rfl
theorem vld (a0 : BitVec 7) (a1 : BitVec 6) (a2 : BitVec 12) : Statement (.vld a0 a1 a2) := rfl
theorem vst (a0 : BitVec 7) (a1 : BitVec 6) (a2 : BitVec 12) : Statement (.vst a0 a1 a2) := rfl
theorem sld (a0 : BitVec 6) (a1 : BitVec 6) (a2 : BitVec 12) : Statement (.sld a0 a1 a2) := rfl
theorem sst (a0 : BitVec 6) (a1 : BitVec 6) (a2 : BitVec 12) : Statement (.sst a0 a1 a2) := rfl
theorem sldw (a0 : BitVec 6) (a1 : BitVec 6) (a2 : BitVec 12) : Statement (.sldw a0 a1 a2) := rfl
theorem sstw (a0 : BitVec 6) (a1 : BitVec 6) (a2 : BitVec 12) : Statement (.sstw a0 a1 a2) := rfl
theorem vldx (a0 : BitVec 7) (a1 : BitVec 6) (a2 : BitVec 7) : Statement (.vldx a0 a1 a2) := rfl
theorem vstx (a0 : BitVec 7) (a1 : BitVec 6) (a2 : BitVec 7) : Statement (.vstx a0 a1 a2) := rfl
theorem tld (a0 : BitVec 7) (a1 : BitVec 6) (a2 : BitVec 6) : Statement (.tld a0 a1 a2) := rfl
theorem tst (a0 : BitVec 7) (a1 : BitVec 6) (a2 : BitVec 6) : Statement (.tst a0 a1 a2) := rfl
theorem aadd (a0 : BitVec 7) (a1 : BitVec 6) (a2 : BitVec 7) : Statement (.aadd a0 a1 a2) := rfl
theorem asub (a0 : BitVec 7) (a1 : BitVec 6) (a2 : BitVec 7) : Statement (.asub a0 a1 a2) := rfl
theorem amin (a0 : BitVec 7) (a1 : BitVec 6) (a2 : BitVec 7) : Statement (.amin a0 a1 a2) := rfl
theorem amax (a0 : BitVec 7) (a1 : BitVec 6) (a2 : BitVec 7) : Statement (.amax a0 a1 a2) := rfl
theorem aminu (a0 : BitVec 7) (a1 : BitVec 6) (a2 : BitVec 7) : Statement (.aminu a0 a1 a2) := rfl
theorem amaxu (a0 : BitVec 7) (a1 : BitVec 6) (a2 : BitVec 7) : Statement (.amaxu a0 a1 a2) := rfl
theorem aand (a0 : BitVec 7) (a1 : BitVec 6) (a2 : BitVec 7) : Statement (.aand a0 a1 a2) := rfl
theorem aor (a0 : BitVec 7) (a1 : BitVec 6) (a2 : BitVec 7) : Statement (.aor a0 a1 a2) := rfl
theorem axor (a0 : BitVec 7) (a1 : BitVec 6) (a2 : BitVec 7) : Statement (.axor a0 a1 a2) := rfl
theorem axchg (a0 : BitVec 7) (a1 : BitVec 6) (a2 : BitVec 7) : Statement (.axchg a0 a1 a2) := rfl
theorem acas (a0 : BitVec 7) (a1 : BitVec 6) (a2 : BitVec 7) : Statement (.acas a0 a1 a2) := rfl
theorem afadd (a0 : BitVec 7) (a1 : BitVec 6) (a2 : BitVec 7) : Statement (.afadd a0 a1 a2) := rfl
theorem afmin (a0 : BitVec 7) (a1 : BitVec 6) (a2 : BitVec 7) : Statement (.afmin a0 a1 a2) := rfl
theorem afmax (a0 : BitVec 7) (a1 : BitVec 6) (a2 : BitVec 7) : Statement (.afmax a0 a1 a2) := rfl
theorem aaddN (a0 : BitVec 7) (a1 : BitVec 6) (a2 : BitVec 7) : Statement (.aaddN a0 a1 a2) := rfl
theorem asubN (a0 : BitVec 7) (a1 : BitVec 6) (a2 : BitVec 7) : Statement (.asubN a0 a1 a2) := rfl
theorem aminN (a0 : BitVec 7) (a1 : BitVec 6) (a2 : BitVec 7) : Statement (.aminN a0 a1 a2) := rfl
theorem amaxN (a0 : BitVec 7) (a1 : BitVec 6) (a2 : BitVec 7) : Statement (.amaxN a0 a1 a2) := rfl
theorem aminuN (a0 : BitVec 7) (a1 : BitVec 6) (a2 : BitVec 7) : Statement (.aminuN a0 a1 a2) := rfl
theorem amaxuN (a0 : BitVec 7) (a1 : BitVec 6) (a2 : BitVec 7) : Statement (.amaxuN a0 a1 a2) := rfl
theorem aandN (a0 : BitVec 7) (a1 : BitVec 6) (a2 : BitVec 7) : Statement (.aandN a0 a1 a2) := rfl
theorem aorN (a0 : BitVec 7) (a1 : BitVec 6) (a2 : BitVec 7) : Statement (.aorN a0 a1 a2) := rfl
theorem axorN (a0 : BitVec 7) (a1 : BitVec 6) (a2 : BitVec 7) : Statement (.axorN a0 a1 a2) := rfl
theorem axchgN (a0 : BitVec 7) (a1 : BitVec 6) (a2 : BitVec 7) : Statement (.axchgN a0 a1 a2) := rfl
theorem acasN (a0 : BitVec 7) (a1 : BitVec 6) (a2 : BitVec 7) : Statement (.acasN a0 a1 a2) := rfl
theorem afaddN (a0 : BitVec 7) (a1 : BitVec 6) (a2 : BitVec 7) : Statement (.afaddN a0 a1 a2) := rfl
theorem afminN (a0 : BitVec 7) (a1 : BitVec 6) (a2 : BitVec 7) : Statement (.afminN a0 a1 a2) := rfl
theorem afmaxN (a0 : BitVec 7) (a1 : BitVec 6) (a2 : BitVec 7) : Statement (.afmaxN a0 a1 a2) := rfl
theorem aaddScalar (a0 : BitVec 6) (a1 : BitVec 6) (a2 : BitVec 1) : Statement (.aaddScalar a0 a1 a2) := rfl
theorem asubScalar (a0 : BitVec 6) (a1 : BitVec 6) (a2 : BitVec 1) : Statement (.asubScalar a0 a1 a2) := rfl
theorem aminScalar (a0 : BitVec 6) (a1 : BitVec 6) (a2 : BitVec 1) : Statement (.aminScalar a0 a1 a2) := rfl
theorem amaxScalar (a0 : BitVec 6) (a1 : BitVec 6) (a2 : BitVec 1) : Statement (.amaxScalar a0 a1 a2) := rfl
theorem aminuScalar (a0 : BitVec 6) (a1 : BitVec 6) (a2 : BitVec 1) : Statement (.aminuScalar a0 a1 a2) := rfl
theorem amaxuScalar (a0 : BitVec 6) (a1 : BitVec 6) (a2 : BitVec 1) : Statement (.amaxuScalar a0 a1 a2) := rfl
theorem aandScalar (a0 : BitVec 6) (a1 : BitVec 6) (a2 : BitVec 1) : Statement (.aandScalar a0 a1 a2) := rfl
theorem aorScalar (a0 : BitVec 6) (a1 : BitVec 6) (a2 : BitVec 1) : Statement (.aorScalar a0 a1 a2) := rfl
theorem axorScalar (a0 : BitVec 6) (a1 : BitVec 6) (a2 : BitVec 1) : Statement (.axorScalar a0 a1 a2) := rfl
theorem axchgScalar (a0 : BitVec 6) (a1 : BitVec 6) (a2 : BitVec 1) : Statement (.axchgScalar a0 a1 a2) := rfl
theorem acasScalar (a0 : BitVec 6) (a1 : BitVec 6) (a2 : BitVec 1) : Statement (.acasScalar a0 a1 a2) := rfl
theorem afaddScalar (a0 : BitVec 6) (a1 : BitVec 6) : Statement (.afaddScalar a0 a1) := rfl
theorem afminScalar (a0 : BitVec 6) (a1 : BitVec 6) : Statement (.afminScalar a0 a1) := rfl
theorem afmaxScalar (a0 : BitVec 6) (a1 : BitVec 6) : Statement (.afmaxScalar a0 a1) := rfl
theorem aaddNScalar (a0 : BitVec 6) (a1 : BitVec 6) (a2 : BitVec 1) : Statement (.aaddNScalar a0 a1 a2) := rfl
theorem asubNScalar (a0 : BitVec 6) (a1 : BitVec 6) (a2 : BitVec 1) : Statement (.asubNScalar a0 a1 a2) := rfl
theorem aminNScalar (a0 : BitVec 6) (a1 : BitVec 6) (a2 : BitVec 1) : Statement (.aminNScalar a0 a1 a2) := rfl
theorem amaxNScalar (a0 : BitVec 6) (a1 : BitVec 6) (a2 : BitVec 1) : Statement (.amaxNScalar a0 a1 a2) := rfl
theorem aminuNScalar (a0 : BitVec 6) (a1 : BitVec 6) (a2 : BitVec 1) : Statement (.aminuNScalar a0 a1 a2) := rfl
theorem amaxuNScalar (a0 : BitVec 6) (a1 : BitVec 6) (a2 : BitVec 1) : Statement (.amaxuNScalar a0 a1 a2) := rfl
theorem aandNScalar (a0 : BitVec 6) (a1 : BitVec 6) (a2 : BitVec 1) : Statement (.aandNScalar a0 a1 a2) := rfl
theorem aorNScalar (a0 : BitVec 6) (a1 : BitVec 6) (a2 : BitVec 1) : Statement (.aorNScalar a0 a1 a2) := rfl
theorem axorNScalar (a0 : BitVec 6) (a1 : BitVec 6) (a2 : BitVec 1) : Statement (.axorNScalar a0 a1 a2) := rfl
theorem axchgNScalar (a0 : BitVec 6) (a1 : BitVec 6) (a2 : BitVec 1) : Statement (.axchgNScalar a0 a1 a2) := rfl
theorem acasNScalar (a0 : BitVec 6) (a1 : BitVec 6) (a2 : BitVec 1) : Statement (.acasNScalar a0 a1 a2) := rfl
theorem afaddNScalar (a0 : BitVec 6) (a1 : BitVec 6) : Statement (.afaddNScalar a0 a1) := rfl
theorem afminNScalar (a0 : BitVec 6) (a1 : BitVec 6) : Statement (.afminNScalar a0 a1) := rfl
theorem afmaxNScalar (a0 : BitVec 6) (a1 : BitVec 6) : Statement (.afmaxNScalar a0 a1) := rfl
theorem fence (a0 : BitVec 2) : Statement (.fence a0) := rfl
theorem pref (a0 : BitVec 6) (a1 : BitVec 1) (a2 : BitVec 1) : Statement (.pref a0 a1 a2) := rfl
theorem flush (a0 : BitVec 6) (a1 : BitVec 1) : Statement (.flush a0 a1) := rfl
theorem inv (a0 : BitVec 6) : Statement (.inv a0) := rfl
theorem pin (a0 : BitVec 6) (a1 : BitVec 6) : Statement (.pin a0 a1) := rfl
theorem unpin (a0 : BitVec 6) (a1 : BitVec 6) : Statement (.unpin a0 a1) := rfl
theorem tdef (a0 : BitVec 6) (a1 : BitVec 6) (a2 : BitVec 6) : Statement (.tdef a0 a1 a2) := rfl
theorem tset (a0 : BitVec 6) (a1 : BitVec 6) : Statement (.tset a0 a1) := rfl
theorem tqry (a0 : BitVec 6) (a1 : BitVec 6) (a2 : BitVec 1) : Statement (.tqry a0 a1 a2) := rfl
theorem tbeg (a0 : BitVec 25) : Statement (.tbeg a0) := rfl
theorem orelse (a0 : BitVec 25) : Statement (.orelse a0) := rfl
theorem tend : Statement (.tend) := rfl
theorem tabrt (a0 : BitVec 6) : Statement (.tabrt a0) := rfl
theorem retry : Statement (.retry) := rfl
theorem tstat (a0 : BitVec 6) (a1 : BitVec 2) : Statement (.tstat a0 a1) := rfl
theorem twatch (a0 : BitVec 6) : Statement (.twatch a0) := rfl
theorem tdepth (a0 : BitVec 6) : Statement (.tdepth a0) := rfl
theorem mma (a0 : BitVec 4) (a1 : BitVec 6) (a2 : BitVec 6) : Statement (.mma a0 a1 a2) := rfl
theorem mmaz (a0 : BitVec 4) (a1 : BitVec 6) (a2 : BitVec 6) : Statement (.mmaz a0 a1 a2) := rfl
theorem mmab (a0 : BitVec 4) (a1 : BitVec 6) (a2 : BitVec 6) : Statement (.mmab a0 a1 a2) := rfl
theorem msca (a0 : BitVec 4) (a1 : BitVec 4) (a2 : BitVec 6) : Statement (.msca a0 a1 a2) := rfl
theorem mrd (a0 : BitVec 6) (a1 : BitVec 4) (a2 : BitVec 6) : Statement (.mrd a0 a1 a2) := rfl
theorem mwr (a0 : BitVec 4) (a1 : BitVec 6) (a2 : BitVec 6) : Statement (.mwr a0 a1 a2) := rfl
theorem mzero (a0 : BitVec 4) (a1 : BitVec 5) : Statement (.mzero a0 a1) := rfl
theorem mswap : Statement (.mswap) := rfl
theorem mldb (a0 : BitVec 6) (a1 : BitVec 6) : Statement (.mldb a0 a1) := rfl
theorem mqry (a0 : BitVec 6) : Statement (.mqry a0) := rfl
theorem cpy (a0 : BitVec 6) (a1 : BitVec 4) : Statement (.cpy a0 a1) := rfl
theorem cpy2d (a0 : BitVec 6) (a1 : BitVec 4) : Statement (.cpy2d a0 a1) := rfl
theorem cgath (a0 : BitVec 6) (a1 : BitVec 4) : Statement (.cgath a0 a1) := rfl
theorem cscat (a0 : BitVec 6) (a1 : BitVec 4) : Statement (.cscat a0 a1) := rfl
theorem cfill (a0 : BitVec 6) (a1 : BitVec 4) : Statement (.cfill a0 a1) := rfl
theorem cpym (a0 : BitVec 6) (a1 : BitVec 4) : Statement (.cpym a0 a1) := rfl
theorem tlrd (a0 : BitVec 6) (a1 : BitVec 4) (a2 : BitVec 1) : Statement (.tlrd a0 a1 a2) := rfl
theorem tlinc (a0 : BitVec 6) (a1 : BitVec 4) : Statement (.tlinc a0 a1) := rfl
theorem tlincC (a0 : BitVec 6) (a1 : BitVec 4) : Statement (.tlincC a0 a1) := rfl
theorem xload (a0 : BitVec 4) (a1 : BitVec 6) : Statement (.xload a0 a1) := rfl
theorem xdrop (a0 : BitVec 4) : Statement (.xdrop a0) := rfl
theorem xqry (a0 : BitVec 6) (a1 : BitVec 4) : Statement (.xqry a0 a1) := rfl
theorem xmark (a0 : BitVec 4) : Statement (.xmark a0) := rfl
theorem xswap (a0 : BitVec 4) (a1 : BitVec 6) : Statement (.xswap a0 a1) := rfl
theorem xop (a0 : BitVec 4) (a1 : BitVec 7) (a2 : BitVec 7) (a3 : BitVec 7) (a4 : BitVec 4) : Statement (.xop a0 a1 a2 a3 a4) := rfl
theorem mrboard (a0 : BitVec 6) (a1 : BitVec 6) : Statement (.mrboard a0 a1) := rfl
theorem mrboardT (a0 : BitVec 6) (a1 : BitVec 6) : Statement (.mrboardT a0 a1) := rfl
theorem mrleave (a0 : BitVec 6) : Statement (.mrleave a0) := rfl
theorem mrleaveT (a0 : BitVec 6) : Statement (.mrleaveT a0) := rfl
theorem mrstat (a0 : BitVec 6) (a1 : BitVec 6) : Statement (.mrstat a0 a1) := rfl
theorem tknew (a0 : BitVec 6) (a1 : BitVec 6) (a2 : BitVec 6) : Statement (.tknew a0 a1 a2) := rfl
theorem tkfree (a0 : BitVec 6) : Statement (.tkfree a0) := rfl
theorem tkpop (a0 : BitVec 6) (a1 : BitVec 6) : Statement (.tkpop a0 a1) := rfl
theorem tkpush (a0 : BitVec 6) (a1 : BitVec 6) (a2 : BitVec 6) : Statement (.tkpush a0 a1 a2) := rfl
theorem tkroute (a0 : BitVec 6) (a1 : BitVec 6) (a2 : BitVec 6) : Statement (.tkroute a0 a1 a2) := rfl
theorem tkcancel (a0 : BitVec 6) (a1 : BitVec 6) : Statement (.tkcancel a0 a1) := rfl
theorem tkhdr (a0 : BitVec 6) (a1 : BitVec 6) (a2 : BitVec 6) : Statement (.tkhdr a0 a1 a2) := rfl
theorem tkcnt (a0 : BitVec 6) (a1 : BitVec 6) : Statement (.tkcnt a0 a1) := rfl
theorem comb (a0 : BitVec 6) (a1 : BitVec 6) (a2 : BitVec 6) : Statement (.comb a0 a1 a2) := rfl
theorem combRn (a0 : BitVec 6) (a1 : BitVec 6) (a2 : BitVec 6) : Statement (.combRn a0 a1 a2) := rfl
theorem skput (a0 : BitVec 4) (a1 : BitVec 6) (a2 : BitVec 6) : Statement (.skput a0 a1 a2) := rfl
theorem skdrain (a0 : BitVec 6) : Statement (.skdrain a0) := rfl
theorem pksend (a0 : BitVec 6) (a1 : BitVec 6) (a2 : BitVec 6) : Statement (.pksend a0 a1 a2) := rfl
theorem tick (a0 : BitVec 6) : Statement (.tick a0) := rfl
theorem pailFiring (a0 : Nat) : Statement (.pailFiring a0) := rfl
theorem taskStart (a0 : Nat) : Statement (.taskStart a0) := rfl
theorem waveClassRaise (a0 : Nat) (a1 : Nat) : Statement (.waveClassRaise a0 a1) := rfl
theorem budgetRefill : Statement (.budgetRefill) := rfl
theorem reconvRelease (a0 : Nat) (a1 : Nat) : Statement (.reconvRelease a0 a1) := rfl
theorem yieldEnd (a0 : Nat) (a1 : Nat) : Statement (.yieldEnd a0 a1) := rfl
theorem wakeNotice (a0 : Nat) (a1 : Watch) (a2 : Bool) : Statement (.wakeNotice a0 a1 a2) := rfl
theorem wakeBackoffExpiry (a0 : FragId) : Statement (.wakeBackoffExpiry a0) := rfl
theorem memoryAccessPerformed (a0 : Nat) : Statement (.memoryAccessPerformed a0) := rfl
theorem peerArrival (a0 : Nat) : Statement (.peerArrival a0) := rfl
theorem remoteRequestArrival (a0 : RemoteRequest) : Statement (.remoteRequestArrival a0) := rfl
theorem remoteResponse (a0 : Nat) (a1 : List Byte) (a2 : Bool) : Statement (.remoteResponse a0 a1 a2) := rfl
theorem pageWalkComplete (a0 : Nat) (a1 : Nat) (a2 : BitVec 64) : Statement (.pageWalkComplete a0 a1 a2) := rfl
theorem uncorrectableError (a0 : BitLoss) : Statement (.uncorrectableError a0) := rfl
theorem correctedError (a0 : RasLocation) : Statement (.correctedError a0) := rfl
theorem matrixInstructionComplete (a0 : Nat) : Statement (.matrixInstructionComplete a0) := rfl
theorem mldbFillComplete (a0 : Nat) : Statement (.mldbFillComplete a0) := rfl
theorem roundSwap (a0 : Nat) : Statement (.roundSwap a0) := rfl
theorem groupStart (a0 : Nat) : Statement (.groupStart a0) := rfl
theorem passOver (a0 : Nat) : Statement (.passOver a0) := rfl
theorem blockDelivery (a0 : Nat) : Statement (.blockDelivery a0) := rfl
theorem endOfGroupEntry (a0 : Nat) : Statement (.endOfGroupEntry a0) := rfl
theorem boardCoreTakeover (a0 : Nat) : Statement (.boardCoreTakeover a0) := rfl
theorem slotDetach (a0 : Nat) (a1 : Nat) : Statement (.slotDetach a0 a1) := rfl
theorem copyCommandStart (a0 : Nat) (a1 : Nat) : Statement (.copyCommandStart a0 a1) := rfl
theorem copySectorAccess (a0 : Nat) (a1 : Nat) : Statement (.copySectorAccess a0 a1) := rfl
theorem copyCommandComplete (a0 : Nat) (a1 : Nat) : Statement (.copyCommandComplete a0 a1) := rfl
theorem carriedInstructionIssue (a0 : Nat) (a1 : Nat) : Statement (.carriedInstructionIssue a0 a1) := rfl
theorem churnElementFire (a0 : Nat) (a1 : Nat) (a2 : Nat) (a3 : Nat) : Statement (.churnElementFire a0 a1 a2 a3) := rfl
theorem agStep (a0 : Nat) (a1 : Nat) (a2 : Nat) : Statement (.agStep a0 a1 a2) := rfl
theorem quiescenceRound (a0 : Nat) (a1 : Nat) : Statement (.quiescenceRound a0 a1) := rfl
theorem streamPark (a0 : Nat) (a1 : Nat) : Statement (.streamPark a0 a1) := rfl
theorem xopComplete (a0 : Nat) (a1 : Nat) : Statement (.xopComplete a0 a1) := rfl
theorem spillRefill (a0 : Nat) : Statement (.spillRefill a0) := rfl
theorem packetArrival (a0 : PacketSource) : Statement (.packetArrival a0) := rfl
theorem allowanceReturn (a0 : Nat) (a1 : Nat) : Statement (.allowanceReturn a0 a1) := rfl
theorem allowanceWaitExpiry (a0 : FragId) : Statement (.allowanceWaitExpiry a0) := rfl
theorem skimmerHandover (a0 : Nat) (a1 : FragId) : Statement (.skimmerHandover a0 a1) := rfl
theorem portDown (a0 : Nat) : Statement (.portDown a0) := rfl
theorem dieBridgeDown (a0 : Nat) (a1 : Nat) : Statement (.dieBridgeDown a0 a1) := rfl
theorem routeTimeout (a0 : Nat) : Statement (.routeTimeout a0) := rfl
theorem streamOpenReport (a0 : Nat) : Statement (.streamOpenReport a0) := rfl
theorem hqDoorbell (a0 : Nat) (a1 : BitVec 64) : Statement (.hqDoorbell a0 a1) := rfl
theorem hqEvhead (a0 : Nat) (a1 : BitVec 64) : Statement (.hqEvhead a0 a1) := rfl
theorem msixMessage (a0 : Nat) : Statement (.msixMessage a0) := rfl
theorem fwLoad : Statement (.fwLoad) := rfl
theorem configLoad : Statement (.configLoad) := rfl
theorem fwLoadComplete (a0 : Bool) (a1 : BitVec 64) : Statement (.fwLoadComplete a0 a1) := rfl
theorem bringUpComplete (a0 : HealthTest) (a1 : BitVec 12) (a2 : BringUp) : Statement (.bringUpComplete a0 a1 a2) := rfl
theorem aqEnable : Statement (.aqEnable) := rfl
theorem aqDisable : Statement (.aqDisable) := rfl
theorem registerWrite (a0 : Nat) (a1 : Nat) (a2 : BitVec 64) : Statement (.registerWrite a0 a1 a2) := rfl
theorem nop (a0 : Nat) : Statement (.nop a0) := rfl
theorem qcreate (a0 : Nat) : Statement (.qcreate a0) := rfl
theorem qdestroy (a0 : Nat) : Statement (.qdestroy a0) := rfl
theorem qrestart (a0 : Nat) : Statement (.qrestart a0) := rfl
theorem ctxcreate (a0 : Nat) : Statement (.ctxcreate a0) := rfl
theorem ctxdestroy (a0 : Nat) : Statement (.ctxdestroy a0) := rfl
theorem groupset (a0 : Nat) : Statement (.groupset a0) := rfl
theorem install (a0 : Nat) : Statement (.install a0) := rfl
theorem remove (a0 : Nat) : Statement (.remove a0) := rfl
theorem submit (a0 : Nat) : Statement (.submit a0) := rfl
theorem launch (a0 : Nat) : Statement (.launch a0) := rfl
theorem preempt (a0 : Nat) : Statement (.preempt a0) := rfl
theorem restore (a0 : Nat) : Statement (.restore a0) := rfl
theorem inval (a0 : Nat) : Statement (.inval a0) := rfl
theorem replay (a0 : Nat) : Statement (.replay a0) := rfl
theorem kill (a0 : Nat) : Statement (.kill a0) := rfl
theorem setbudget (a0 : Nat) : Statement (.setbudget a0) := rfl
theorem qbudget (a0 : Nat) : Statement (.qbudget a0) := rfl
theorem release (a0 : Nat) : Statement (.release a0) := rfl
theorem resume (a0 : Nat) : Statement (.resume a0) := rfl
theorem keyalloc (a0 : Nat) : Statement (.keyalloc a0) := rfl
theorem routeset (a0 : Nat) : Statement (.routeset a0) := rfl
theorem turnover (a0 : Nat) (a1 : HealthTest) : Statement (.turnover a0 a1) := rfl
theorem runlist (a0 : Nat) : Statement (.runlist a0) := rfl
theorem clearerr (a0 : Nat) : Statement (.clearerr a0) := rfl
theorem roundshare (a0 : Nat) : Statement (.roundshare a0) := rfl
theorem launchStart (a0 : Nat) : Statement (.launchStart a0) := rfl
theorem launchComplete (a0 : Nat) : Statement (.launchComplete a0) := rfl
theorem quantumEnd : Statement (.quantumEnd) := rfl
theorem drainWindowClose (a0 : Nat) : Statement (.drainWindowClose a0) := rfl
theorem preemptSaveComplete (a0 : Nat) : Statement (.preemptSaveComplete a0) := rfl
theorem preemptDeadlineExpiry (a0 : Nat) : Statement (.preemptDeadlineExpiry a0) := rfl
theorem watchdogExpiry (a0 : Nat) : Statement (.watchdogExpiry a0) := rfl
theorem savePeriodExpiry (a0 : Nat) : Statement (.savePeriodExpiry a0) := rfl
theorem faultPeriodExpiry (a0 : Nat) : Statement (.faultPeriodExpiry a0) := rfl
theorem lockstepMismatch : Statement (.lockstepMismatch) := rfl
theorem powerOn : Statement (.powerOn) := rfl
theorem coldReset : Statement (.coldReset) := rfl
theorem flr : Statement (.flr) := rfl
theorem priResponse (a0 : Nat) (a1 : Bool) : Statement (.priResponse a0 a1) := rfl
theorem hostBar2Access (a0 : Nat) (a1 : HostAccess) : Statement (.hostBar2Access a0 a1) := rfl
theorem inputVoltageFault : Statement (.inputVoltageFault) := rfl
theorem powerCapThrottle : Statement .powerCapThrottle := rfl
theorem thermalThrottle : Statement (.thermalThrottle) := rfl
theorem thermalTrip : Statement (.thermalTrip) := rfl
theorem ageingSample (a0 : Nat) (a1 : Nat) : Statement (.ageingSample a0 a1) := rfl
theorem marginReplan : Statement (.marginReplan) := rfl
theorem pldmRequest (a0 : PldmRequest) : Statement (.pldmRequest a0) := rfl
theorem spdmRequest (a0 : SpdmRequest) : Statement (.spdmRequest a0) := rfl
theorem illegalInstruction (a0 : BitVec 32) : Statement (.illegalInstruction a0) := rfl
theorem instructionFetchFault : Statement (.instructionFetchFault) := rfl
theorem portRestore (a0 : Nat) : Statement (.portRestore a0) := rfl
theorem tickSync (a0 : BitVec 64) : Statement (.tickSync a0) := rfl
theorem streamCloseReport (a0 : Nat) : Statement (.streamCloseReport a0) := rfl
theorem faultRecordRead (a0 : Nat) : Statement (.faultRecordRead a0) := rfl
theorem lockstepRecoveryEnd : Statement (.lockstepRecoveryEnd) := rfl
theorem configLoadComplete (a0 : Bool) : Statement (.configLoadComplete a0) := rfl

end Sys2Proof.Laws.HasWord
end

