-- ==== Sys2Proof/Tests/Slice0.lean ====
section
/-! SUPPORT. Tests of the model, none of them a claim: ill-formed terms, words that the manual writes out, one step of an
instruction on a small state with a result read from the manual, and, for each statement with hypotheses, a state and
operands that meet them. -/

open Sys2Proof Sys2Proof.Machine

namespace Sys2Proof.Tests

/-! ## Ill-formed terms -/

/-- Counts outside their ranges (R76, R237, R345), special registers above 20 (R80) and a type code above 10 (R167). -/
theorem test_ill_formed_ranges :
    (Instr.racq 1 0).wellFormed = false ∧ (Instr.racq 1 17).wellFormed = false ∧ (Instr.racqE 1 0).wellFormed = false
      ∧ (Instr.racqE 1 17).wellFormed = false ∧ (Instr.rrel 0).wellFormed = false ∧ (Instr.rrel 17).wellFormed = false
      ∧ (Instr.srd 1 21).wellFormed = false ∧ (Instr.swr 1 21).wellFormed = false ∧ (Instr.vcvt 1 2 0 11).wellFormed = false
      ∧ (Instr.mzero 1 0).wellFormed = false ∧ (Instr.mzero 1 17).wellFormed = false ∧ (Instr.skput 0 1 2).wellFormed = false
      ∧ (Instr.skput 9 1 2).wellFormed = false := by decide

/-- Pairs and blocks of registers past the end of their file (R72, R253, R344, R371). -/
theorem test_ill_formed_runs :
    (Instr.acas 127 1 2).wellFormed = false ∧ (Instr.acasN 127 1 2).wellFormed = false
      ∧ (Instr.acasScalar 63 1 0).wellFormed = false ∧ (Instr.acasNScalar 63 1 0).wellFormed = false
      ∧ (Instr.cpy 0 1).wellFormed = false ∧ (Instr.cpy 61 1).wellFormed = false ∧ (Instr.cpy2d 0 1).wellFormed = false
      ∧ (Instr.cpy2d 58 1).wellFormed = false ∧ (Instr.cgath 58 1).wellFormed = false ∧ (Instr.cgath 0 1).wellFormed = false
      ∧ (Instr.cscat 58 1).wellFormed = false ∧ (Instr.cscat 0 1).wellFormed = false ∧ (Instr.cfill 61 1).wellFormed = false
      ∧ (Instr.cfill 0 1).wellFormed = false ∧ (Instr.cpym 56 1).wellFormed = false ∧ (Instr.cpym 0 1).wellFormed = false
      ∧ (Instr.comb 1 2 63).wellFormed = false ∧ (Instr.combRn 1 2 63).wellFormed = false
      ∧ (Instr.skdrain 63).wellFormed = false ∧ (Instr.pksend 1 2 63).wellFormed = false := by decide

/-- The last operands that are still well formed. -/
theorem test_well_formed_ends :
    (Instr.racq 1 16).wellFormed = true ∧ (Instr.srd 1 20).wellFormed = true ∧ (Instr.vcvt 1 2 0 10).wellFormed = true
      ∧ (Instr.acas 126 1 2).wellFormed = true ∧ (Instr.cpy 60 1).wellFormed = true ∧ (Instr.cpy2d 57 1).wellFormed = true
      ∧ (Instr.cpym 55 1).wellFormed = true ∧ (Instr.comb 1 2 62).wellFormed = true
      ∧ (Instr.skput 8 1 2).wellFormed = true := by decide

/-- Events of cores, waves, churns, dies and ports that do not exist (R3, R5, R20, R284, R367, R378, R421). -/
theorem test_ill_formed_events :
    (Instr.taskStart 256).wellFormed = false ∧ (Instr.waveClassRaise 0 64).wellFormed = false
      ∧ (Instr.reconvRelease 256 0).wellFormed = false ∧ (Instr.yieldEnd 0 64).wellFormed = false
      ∧ (Instr.slotDetach 0 8).wellFormed = false ∧ (Instr.churnElementFire 0 4 0 0).wellFormed = false
      ∧ (Instr.agStep 0 4 0).wellFormed = false ∧ (Instr.quiescenceRound 256 0).wellFormed = false
      ∧ (Instr.streamPark 0 4).wellFormed = false ∧ (Instr.portDown 12).wellFormed = false
      ∧ (Instr.portRestore 12).wellFormed = false ∧ (Instr.dieBridgeDown 8 0).wellFormed = false
      ∧ (Instr.dieBridgeDown 0 4).wellFormed = false ∧ (Instr.ageingSample 8 50).wellFormed = false
      ∧ (Instr.faultRecordRead 9).wellFormed = false := by decide

/-- Events of a core or fragment past the end (R3, R20, R127). -/
theorem test_ill_formed_cores :
    (Instr.wakeNotice 256 (.sector 0) false).wellFormed = false
      ∧ (Instr.wakeBackoffExpiry { core := 0, wave := 0, frag := 8 }).wellFormed = false
      ∧ (Instr.pageWalkComplete 256 0 0).wellFormed = false ∧ (Instr.matrixInstructionComplete 256).wellFormed = false
      ∧ (Instr.mldbFillComplete 256).wellFormed = false ∧ (Instr.roundSwap 256).wellFormed = false
      ∧ (Instr.boardCoreTakeover 256).wellFormed = false ∧ (Instr.copyCommandStart 256 0).wellFormed = false
      ∧ (Instr.copySectorAccess 256 0).wellFormed = false ∧ (Instr.copyCommandComplete 256 0).wellFormed = false
      ∧ (Instr.carriedInstructionIssue 256 0).wellFormed = false ∧ (Instr.xopComplete 256 0).wellFormed = false
      ∧ (Instr.allowanceWaitExpiry { core := 256, wave := 0, frag := 0 }).wellFormed = false
      ∧ (Instr.skimmerHandover 0 { core := 0, wave := 64, frag := 0 }).wellFormed = false := by decide

/-! ## Words that the manual writes out -/

/-- Words that R73 refuses, one for each of its conditions, and bytes too few for a word. -/
theorem test_words_refused :
    decodeWord 0x00000000 = .error .major ∧ decodeWord 0x32000000 = .error .major
      ∧ decodeWord 0x26000009 = .error .function ∧ decodeWord 0x20202488 = .error .reserved
      ∧ decodeWord 0x6C1430C1 = .error .reserved ∧ decodeWord 0x702018E0 = .error .reserved
      ∧ decodeWord 0x75FC212A = .error .pairEnd ∧ decodeWord 0x20000A88 = .error .specialRegister
      ∧ decodeWord 0x20000006 = .error .countRange ∧ decodeWord 0x461011BB = .error .typeCode
      ∧ decodeWord 0xA0018000 = .error .blockRange ∧ decode [0, 0, 0] = .error .tooShort := by
  refine ⟨?_, ?_, ?_, ?_, ?_, ?_, ?_, ?_, ?_, ?_, ?_, ?_⟩ <;> rfl

/-- Words that the manual writes out for control and scalars (chapters 3 and 5). -/
theorem test_words_control :
    decodeWord 0x04000000 = .ok (.saddi 0 0 0)
    ∧ decodeWord 0x04285FFD = .ok (.saddi 5 2 0x1FFD)
    ∧ decodeWord 0x12280018 = .ok (.sli 5 24)
    ∧ decodeWord 0x08A7C000 = .ok (.sori 20 62 0)
    ∧ decodeWord 0x18000002 = .ok (.br 2)
    ∧ decodeWord 0x1A000006 = .ok (.call 6)
    ∧ decodeWord 0x20000000 = .ok .ret
    ∧ decodeWord 0x20000001 = .ok .exit
    ∧ decodeWord 0x20000002 = .ok .yield
    ∧ decodeWord 0x20000003 = .ok (.trap 0)
    ∧ decodeWord 0x20000004 = .ok .rtt
    ∧ decodeWord 0x20000005 = .ok (.brk 0)
    ∧ decodeWord 0x20280106 = .ok (.racq 5 2)
    ∧ decodeWord 0x20281106 = .ok (.racqE 5 2)
    ∧ decodeWord 0x20200488 = .ok (.srd 4 9)
    ∧ decodeWord 0x2000E789 = .ok (.swr 7 15)
    ∧ decodeWord 0x2000000A = .ok .frz
    ∧ decodeWord 0x24000000 = .ok (.mode 0 0 0 0 0 0)
    ∧ decodeWord 0x24000060 = .ok (.mode 0 0 0 0 6 0)
    ∧ decodeWord 0x24009473 = .ok (.mode 2 2 1 0 7 3)
    ∧ decodeWord 0x28A00002 = .ok (.vbr 2 1 2)
    ∧ decodeWord 0x28800005 = .ok (.vbr 2 0 5)
    ∧ decodeWord 0x2A020000 = .ok (.reconv 1)
    ∧ decodeWord 0x2A0E0000 = .ok (.reconv 7) := by
  refine ⟨?_, ?_, ?_, ?_, ?_, ?_, ?_, ?_, ?_, ?_, ?_, ?_, ?_, ?_, ?_, ?_, ?_, ?_, ?_, ?_, ?_, ?_, ?_, ?_⟩ <;> rfl

/-- Words that the manual writes out for vectors (chapters 3, 5 and 6). -/
theorem test_words_vectors :
    decodeWord 0x42080822 = .ok (.vcmplt 2 1 2)
    ∧ decodeWord 0x420C6801 = .ok (.vcmpne 3 13 0)
    ∧ decodeWord 0x442048A3 = .ok (.vfma 8 9 10)
    ∧ decodeWord 0x46040006 = .ok (.vlaneid 1)
    ∧ decodeWord 0x4608280C = .ok (.vbcst 2 5)
    ∧ decodeWord 0x4610116B = .ok (.vcvt 4 2 1 6)
    ∧ decodeWord 0x4650900D = .ok (.vextr 20 18 0)
    ∧ decodeWord 0x483408D1 = .ok (.vbperm 13 1 13)
    ∧ decodeWord 0x48284815 = .ok (.vslide 10 9 1) := by
  refine ⟨?_, ?_, ?_, ?_, ?_, ?_, ?_, ?_, ?_⟩ <;> rfl

/-- Words that the manual writes out for memory (chapters 3, 4 and 7). -/
theorem test_words_memory :
    decodeWord 0x600C2002 = .ok (.vld 3 2 2)
    ∧ decodeWord 0x62202002 = .ok (.vst 8 2 2)
    ∧ decodeWord 0x64282000 = .ok (.sld 10 2 0)
    ∧ decodeWord 0x686DA000 = .ok (.sldw 27 26 0)
    ∧ decodeWord 0x66502003 = .ok (.sst 20 2 3)
    ∧ decodeWord 0x6C1430C0 = .ok (.vldx 5 3 6)
    ∧ decodeWord 0x702010E0 = .ok (.tld 8 1 7)
    ∧ decodeWord 0x722010E0 = .ok (.tst 8 1 7)
    ∧ decodeWord 0x74042120 = .ok (.aadd 1 2 9)
    ∧ decodeWord 0x74042130 = .ok (.aaddN 1 2 9)
    ∧ decodeWord 0x7410212A = .ok (.acas 4 2 9)
    ∧ decodeWord 0x7628C080 = .ok (.aaddScalar 5 6 1)
    ∧ decodeWord 0x78000000 = .ok (.fence 0)
    ∧ decodeWord 0x78000080 = .ok (.fence 1)
    ∧ decodeWord 0x78000100 = .ok (.fence 2)
    ∧ decodeWord 0x78000180 = .ok (.fence 3)
    ∧ decodeWord 0x78494004 = .ok (.pin 9 10)
    ∧ decodeWord 0x78094586 = .ok (.tdef 1 10 11) := by
  refine ⟨?_, ?_, ?_, ?_, ?_, ?_, ?_, ?_, ?_, ?_, ?_, ?_, ?_, ?_, ?_, ?_, ?_, ?_⟩ <;> rfl

/-- Words that the manual writes out for the matrix and copy engines (chapters 9 and 10). -/
theorem test_words_matrix_copy :
    decodeWord 0x90002480 = .ok (.mma 0 1 9)
    ∧ decodeWord 0x90002481 = .ok (.mmaz 0 1 9)
    ∧ decodeWord 0x90106482 = .ok (.mmab 2 3 9)
    ∧ decodeWord 0x90080583 = .ok (.msca 1 0 11)
    ∧ decodeWord 0x90200504 = .ok (.mrd 4 0 10)
    ∧ decodeWord 0x9000C505 = .ok (.mwr 0 6 10)
    ∧ decodeWord 0x90000206 = .ok (.mzero 0 4)
    ∧ decodeWord 0x90000007 = .ok .mswap
    ∧ decodeWord 0x90004408 = .ok (.mldb 2 8)
    ∧ decodeWord 0x90600009 = .ok (.mqry 12)
    ∧ decodeWord 0xA0418000 = .ok (.cpy 8 3)
    ∧ decodeWord 0xA0808001 = .ok (.cpy2d 16 1)
    ∧ decodeWord 0xA0400002 = .ok (.cgath 8 0)
    ∧ decodeWord 0xA0478003 = .ok (.cscat 8 15)
    ∧ decodeWord 0xA0620004 = .ok (.cfill 12 4)
    ∧ decodeWord 0xA0A10005 = .ok (.cpym 20 2)
    ∧ decodeWord 0xA2506000 = .ok (.tlrd 10 3 0)
    ∧ decodeWord 0xA2486001 = .ok (.tlinc 9 3)
    ∧ decodeWord 0xA2486081 = .ok (.tlincC 9 3) := by
  refine ⟨?_, ?_, ?_, ?_, ?_, ?_, ?_, ?_, ?_, ?_, ?_, ?_, ?_, ?_, ?_, ?_, ?_, ?_, ?_⟩ <;> rfl

/-- Words that the manual writes out for churns and milk rounds (chapters 11 and 12). -/
theorem test_words_churn_milk :
    decodeWord 0xB01D4000 = .ok (.xload 3 42)
    ∧ decodeWord 0xB0180001 = .ok (.xdrop 3)
    ∧ decodeWord 0xB1486002 = .ok (.xqry 41 3)
    ∧ decodeWord 0xB0180003 = .ok (.xmark 3)
    ∧ decodeWord 0xB0192004 = .ok (.xswap 3 9)
    ∧ decodeWord 0xE6100820 = .ok (.xop 3 4 1 2 0)
    ∧ decodeWord 0xB8512000 = .ok (.mrboard 10 9)
    ∧ decodeWord 0xB8516080 = .ok (.mrboardT 10 11)
    ∧ decodeWord 0xB8500001 = .ok (.mrleave 10)
    ∧ decodeWord 0xB8880081 = .ok (.mrleaveT 17)
    ∧ decodeWord 0xB8616002 = .ok (.mrstat 12 11) := by
  refine ⟨?_, ?_, ?_, ?_, ?_, ?_, ?_, ?_, ?_, ?_, ?_⟩ <;> rfl

/-- Words that the manual writes out for tokens and the bridge (chapters 13 and 14). -/
theorem test_words_token_bridge :
    decodeWord 0xC0516600 = .ok (.tknew 10 11 12)
    ∧ decodeWord 0xC0008001 = .ok (.tkfree 4)
    ∧ decodeWord 0xC00A8002 = .ok (.tkpop 1 20)
    ∧ decodeWord 0xC0494103 = .ok (.tkpush 9 10 2)
    ∧ decodeWord 0xC04A8A84 = .ok (.tkroute 9 20 21)
    ∧ decodeWord 0xC0498005 = .ok (.tkcancel 9 12)
    ∧ decodeWord 0xC04A8A86 = .ok (.tkhdr 9 20 21)
    ∧ decodeWord 0xC0594007 = .ok (.tkcnt 11 10)
    ∧ decodeWord 0xC0DC0E08 = .ok (.comb 27 32 28)
    ∧ decodeWord 0xC0DC0E48 = .ok (.combRn 27 32 28)
    ∧ decodeWord 0xC0102109 = .ok (.skput 2 1 2)
    ∧ decodeWord 0xC040000A = .ok (.skdrain 8)
    ∧ decodeWord 0xC8D2EC00 = .ok (.pksend 26 23 24)
    ∧ decodeWord 0xC8280001 = .ok (.tick 5) := by
  refine ⟨?_, ?_, ?_, ?_, ?_, ?_, ?_, ?_, ?_, ?_, ?_, ?_, ?_, ?_⟩ <;> rfl

/-! ## States for the tests -/

/-- The next state that a meaning answers. -/
def after (r : Result) : State :=
  match r with
  | .next t => t
  | _ => State.reset

/-- A fragment with some scalars and predicates set. -/
def frag (ss : List (BitVec 6 × Word)) (ps : List (BitVec 3 × Lane)) (mr : BitVec 25) : Frag :=
  ps.foldl (fun f p => f.setP p.1 p.2) (ss.foldl (fun f x => f.setS x.1 x.2) { Frag.reset with mr := mr })

/-- One wave of one fragment, of task 1 of operator 1 in context 5 on core 0, with four register blocks, a slot of four
tile-table entries, four accumulator tiles and eight pinned lines, and the first page of HBM at address 0. -/
def base : State :=
  { State.reset with
    frags := [(0, frag [] [] 0)]
    waves := [(0, { Wave.reset with task := 1, rblk := 4, tvec := 0x4000 })]
    tasks := [(1, { Task.reset with number := 1, oper := 1, ctx := 5, waves := [0] })]
    operators := [(1, { Operator.reset with ctx := 5, members := [0] })]
    seats := [(256, { Seat.reset with state := .installed, partSize := 4, accSize := 4, lines := 8, floor := 4 })]
    slotMap := [(0, 1)]
    contexts := [(0, Context.service), (5, { Context.reset with keyId := 1, liveLimit := 100 })]
    tlb := [{ core := 0, ctx := 5, va := 0, size := 65536, pa := 0, keyId := 1, kind := 0, cached := true, exec := true,
              write := true, read := true, home := 0, missing := none }] }

/-- The same with scalars, predicates and MR set. -/
def at' (ss : List (BitVec 6 × Word)) (ps : List (BitVec 3 × Lane)) (mr : BitVec 25) : State :=
  { base with frags := [(0, frag ss ps mr)] }

/-- The same with the lanes of vector registers set. -/
def withVec (rs : List (BitVec 7 × Vector Lane 32)) (s : State) : State := rs.foldl (fun t r => t.setV r.1 r.2) s

/-- A register with one value in every lane. -/
def all (x : Lane) : Vector Lane 32 := Vector.replicate 32 x

/-- The state with an open attempt of its fragment. -/
def inAttempt (s : State) (a : Attempt) : State := s.setWv { s.wv with tx := some a }

/-- A fresh attempt of the fragment. -/
def attempt (s : State) : Attempt := s.openAttempt 0x800

/-- The place of a byte of the first page. -/
def pl (k : Nat) : Place := { key := k, keyId := 1, kind := 0, cached := true, va := BitVec.ofNat 64 k, home := 0 }

/-- Lane `l` of vector register `r` after an instruction. -/
def laneAfter (i : Instr) (s : State) (r : BitVec 7) (l : Nat) : Lane := laneOf ((after (exec i s)).getV r) l

/-- The page of the tests translates to its own bytes. -/
theorem test_translation : base.xlate 0x100 .read = .ok (pl 0x100, .here) := by rfl

/-! ## One step of an instruction, with a result read from the manual -/

/-- R44: a quotient by 0 is all ones and a remainder by 0 the dividend; the most negative number by −1 is itself, rest 0. -/
theorem test_division :
    (after (exec (.sdiv 3 1 2) (at' [(1, 7)] [] 0))).getS 3 = 0xFFFFFFFFFFFFFFFF
    ∧ (after (exec (.srem 3 1 2) (at' [(1, 7)] [] 0))).getS 3 = 7
    ∧ (after (exec (.sdiv 3 1 2) (at' [(1, 0x8000000000000000), (2, 0xFFFFFFFFFFFFFFFF)] [] 0))).getS 3
        = 0x8000000000000000
    ∧ (after (exec (.srem 3 1 2) (at' [(1, 0x8000000000000000), (2, 0xFFFFFFFFFFFFFFFF)] [] 0))).getS 3 = 0
    ∧ (after (exec (.srem 3 1 2) (at' [(1, 0xFFFFFFFFFFFFFFF9), (2, 3)] [] 0))).getS 3 = 0xFFFFFFFFFFFFFFFF := by decide

/-- R118: the high halves of −1 × −1, signed and unsigned, and a shift by the low six bits of its count. -/
theorem test_products_and_shifts :
    (after (exec (.smulh 3 1 1) (at' [(1, 0xFFFFFFFFFFFFFFFF)] [] 0))).getS 3 = 0
    ∧ (after (exec (.smulhu 3 1 1) (at' [(1, 0xFFFFFFFFFFFFFFFF)] [] 0))).getS 3 = 0xFFFFFFFFFFFFFFFE
    ∧ (after (exec (.sshl 3 1 2) (at' [(1, 3), (2, 65)] [] 0))).getS 3 = 6
    ∧ (after (exec (.ssra 3 1 2) (at' [(1, 0x8000000000000000), (2, 63)] [] 0))).getS 3 = 0xFFFFFFFFFFFFFFFF := by decide

/-- R119: the manual's three words that build 0x0123_4567_89AB. -/
theorem test_constant :
    (after (exec (.sli 9 0x789AB) base)).getS 9 = 0xFFFFFFFFFFFF89AB
    ∧ (after (exec (.slui 9 0x468AC) (at' [(9, 0xFFFFFFFFFFFF89AB)] [] 0))).getS 9 = 0xFFFFFFE3456789AB
    ∧ (after (exec (.slxi 9 4) (at' [(9, 0xFFFFFFE3456789AB)] [] 0))).getS 9 = 0x0123456789AB := by decide

/-- R79: `s0` discards a write; R118: a move of a predicate zero-extends. -/
theorem test_hard_wired :
    (after (exec (.saddi 0 0 5) base)).getS 0 = 0 ∧ (after (exec (.spmov 4 0) base)).getS 4 = 0xFFFFFFFF
    ∧ (after (exec (.pxor 0 1 1) (at' [] [(1, 5)] 0))).getP 0 = 0xFFFFFFFF := by decide

/-- R134: the first lane of a set, and a count that looks at the lanes of LMASK alone. -/
theorem test_predicates :
    (after (exec (.pfirst 2 1) (at' [] [(1, 0x00000B0)] 0))).getP 2 = 0x10
    ∧ (after (exec (.pcnt 3 1) { base with frags := [(0, { frag [] [(1, 0xFF)] 0 with lmask := 0x3F })] })).getS 3 = 6 := by
  decide

/-- R121: the manual's call at 0x1C of offset 6 goes to 0x34 and returns to 0x20. -/
theorem test_call :
    (after (exec (.call 6) { base with frags := [(0, { frag [] [] 0 with pc := 0x1C })] })).fr.pc = 0x34
    ∧ (after (exec (.call 6) { base with frags := [(0, { frag [] [] 0 with pc := 0x1C })] })).getS 62 = 0x20
    ∧ (after (exec (.call 6) base)).fr.depth = 1 := by decide

/-- R129: the manual's split of lanes 0 to 23 from the rest: the eight lanes that fall through become fragment 1. -/
theorem test_split :
    (after (exec (.vbr 2 0 5) { base with frags := [(0, { frag [] [(2, 0xFFFFFF)] 0 with pc := 0x14 })] })).fr.pc = 0x28
    ∧ ((after (exec (.vbr 2 0 5) { base with frags := [(0, { frag [] [(2, 0xFFFFFF)] 0 with pc := 0x14 })] })).frOf
        { core := 0, wave := 0, frag := 1 }).lmask = 0xFF000000
    ∧ ((after (exec (.vbr 2 0 5) { base with frags := [(0, { frag [] [(2, 0xFFFFFF)] 0 with pc := 0x14 })] })).frOf
        { core := 0, wave := 0, frag := 1 }).pc = 0x18 := by decide

/-- R42: a sum of two i8 elements wraps, and saturates with MR.sat. -/
theorem test_vadd :
    laneAfter (.vadd 1 2 3) (withVec [(2, all 0x7F01), (3, all 0x0101)] (at' [] [] 0x40)) 1 5 = 0x8002
    ∧ laneAfter (.vadd 1 2 3) (withVec [(2, all 0x7F01), (3, all 0x0101)] (at' [] [] 0x440)) 1 5 = 0x7F02 := by decide

/-- R43: a shift count is taken modulo the width of the element. -/
theorem test_vshl : laneAfter (.vshl 1 2 3) (withVec [(2, all 3), (3, all 33)] (at' [] [] 0)) 1 31 = 6 := by decide

/-- R158: `vabsd` of −128 and 127 under i8 is 0xFF, the manual's example. -/
theorem test_vabsd : laneAfter (.vabsd 1 2 3) (withVec [(2, all 0x80), (3, all 0x7F)] (at' [] [] 0x40)) 1 0 = 0xFF := by decide

/-- R166, R50: 1.5 × 2 + 0.25 is 3.25 with one rounding, and the minimum of +0 and −0 is −0. -/
theorem test_floats :
    laneAfter (.vfma 1 2 3) (withVec [(1, all 0x3E800000), (2, all 0x3FC00000), (3, all 0x40000000)] (at' [] [] 0x60)) 1 0
        = 0x40500000
    ∧ laneAfter (.vfmin 1 2 3) (withVec [(2, all 0), (3, all 0x80000000)] (at' [] [] 0x60)) 1 0 = 0x80000000 := by decide

/-- R167: the manual's narrowing of 3.3 into byte 2 of its lane, which leaves the other bytes and raises NX. -/
theorem test_vcvt :
    laneAfter (.vcvt 20 4 2 8) (withVec [(4, all 0x40533333), (20, all 0x11223344)] (at' [] [] 0x60)) 20 7 = 0x114D3344
    ∧ (after (exec (.vcvt 20 4 2 8) (withVec [(4, all 0x40533333)] (at' [] [] 0x60)))).wv.fstat = flagNX := by decide

/-- R170: the manual's index bytes 0x0E, 0x3E and 0x8E. -/
theorem test_vbperm : laneAfter (.vbperm 1 2 3)
    (withVec [(2, Vector.ofFn (fun i => if i.val = 3 then 0x0F0E0D0C else 0)), (3, all 0x8E3E0E)] base) 1 9 = 0x000E0E := by
  decide

/-- R168: the lane numbers; R155: a lane that is not guarded keeps its value. -/
theorem test_vlaneid :
    laneAfter (.vlaneid 1) base 1 31 = 31
    ∧ laneAfter (.vlaneid 1) (withVec [(1, all 9)] (at' [] [(1, 1)] 1)) 1 31 = 9 := by decide

/-- R178: `sst` puts the bytes of its register in little-endian order; the load reads them back. -/
theorem test_store :
    (after (exec (.sst 4 2 1) (at' [(2, 0x100), (4, 0x1122334455667788)] [] 0))).mem.readByte (pl 0x108) = 0x88
    ∧ (after (exec (.sst 4 2 1) (at' [(2, 0x100), (4, 0x1122334455667788)] [] 0))).mem.readByte (pl 0x10F) = 0x11
    ∧ (after (exec (.sldw 5 2 3) (after (exec (.sst 4 2 1) (at' [(2, 0x100), (4, 0x1122334455667788)] [] 0))))).getS 5
        = 0x11223344 := by decide

/-- R176, R143: a load from an address not aligned to its size traps with cause 0x22 at the wave's handler. -/
theorem test_misaligned :
    (after (exec (.sld 4 2 0) (at' [(2, 0x104)] [] 0))).wv.tcause = 0x8022
    ∧ (after (exec (.sld 4 2 0) (at' [(2, 0x104)] [] 0))).wv.taddr = 0x104
    ∧ (after (exec (.sld 4 2 0) (at' [(2, 0x104)] [] 0))).fr.pc = 0x4000 := by decide

/-- R184, R185: `aadd` on 8 bytes leaves the old value in its register and the sum in memory. -/
theorem test_atomic :
    (after (exec (.aaddScalar 4 2 0) { at' [(2, 0x100), (4, 5)] [] 0 with
      mem := base.mem.writeBytes ((placesFrom (pl 0x100) 8).zip (toBytes 8 7)) })).getS 4 = 7
    ∧ (after (exec (.aaddScalar 4 2 0) { at' [(2, 0x100), (4, 5)] [] 0 with
      mem := base.mem.writeBytes ((placesFrom (pl 0x100) 8).zip (toBytes 8 7)) })).mem.readByte (pl 0x100) = 12 := by decide

/-- R143, R145: `trap` saves the next instruction and `rtt` goes back to it. -/
theorem test_trap_and_return :
    (after (exec (.trap 3) base)).wv.tpc = 4 ∧ (after (exec .rtt (after (exec (.trap 3) base)))).fr.pc = 4
    ∧ (after (exec .rtt (after (exec (.trap 3) base)))).wv.active = false := by decide

/-- R205, R213: an attempt opened and given up is at its handler with status 4 and its code. -/
theorem test_attempt :
    (after (exec (.tabrt 9) (after (exec (.tbeg 16) base)))).fr.pc = 0x40
    ∧ (after (exec (.tabrt 9) (after (exec (.tbeg 16) base)))).fr.txCode = 9
    ∧ (after (exec (.tabrt 9) (after (exec (.tbeg 16) base)))).fr.txStatus = 4 := by decide

/-- R193: the shape word of the manual's worked tile. -/
theorem test_tdef :
    (after (exec (.tdef 1 10 11) (at' [(10, 0x1000), (11, 0x238078004)] [] 0))).tileAt 1
      = { TileEntry.reset with base := 0x1000, state := 1, span := 4, etype := 7, rowsM1 := 15, rsec := 4 } := by decide

/-- R194: the place of lanes 0, 5, 13 and 31 in the manual's swizzled row. -/
theorem test_swizzle : ∃ q, q = ({ TileEntry.reset with
      base := 0x1FFFFFF000800, state := 2, span := 4, etype := 7, rowsM1 := 15, rsec := 4 } : TileEntry).segment 11 2
    ∧ q.1 = 0x1FFFFFF001F80 ∧ q.2 0 = 48 ∧ q.2 5 = 36 ∧ q.2 13 = 4 ∧ q.2 31 = 76 := by
  refine ⟨_, rfl, ?_, ?_, ?_, ?_, ?_⟩ <;> decide

/-- R265: `tlinc` gives the next number of a counter, which `tlrd` then reads as its value. -/
theorem test_timeline :
    (after (exec (.tlinc 9 3) base)).getS 9 = 1 ∧ (after (exec (.tlrd 10 3 0) (after (exec (.tlinc 9 3) base)))).getS 10 = 1 := by
  decide

/-! ## States and operands that meet the hypotheses of the statements

Each theorem shows, clause by clause, a state and operands under which every hypothesis of a clause holds; the clauses are in
the order of the statement. -/

/-- Memory with a word at address 0x100. -/
def wordAt (w : Nat) : Memory := base.mem.writeBytes ((placesFrom (pl 0x100) 4).zip (toBytes 4 w))

/-- A wave of two fragments, the second with `status` and the stack given. -/
def twoFrags (status : RunStatus) (stack : List StackEntry) : State :=
  { base with
    frags := [(0, frag [] [] 0), (1, { frag [] [] 0 with status := status })]
    waves := [(0, { Wave.reset with task := 1, rblk := 4, tvec := 0x4000, stack := stack })] }

/-- A stack entry of fragment 0. -/
def entry (parked : Option (Nat × Word)) : StackEntry :=
  { num := 1, owner := 0, parked := parked, lmask := 3, pc := 0x40, depth := 0, mr := 0 }

/-- The state with a trap active in its wave. -/
def inTrap (tpc : Word) : State := base.setWv { base.wv with tcause := 0x8005, tpc := tpc, handler := some 0 }

theorem witness_TransferAndModeResults :
    ∃ s : State, (s.getS 1).toNat % 4 = 0 ∧ s.xlateAll [s.getS 1] .fetch = .ok [(pl 0x100, .here)]
      ∧ s.allFetched s.waveOwner (wordPlaces (pl 0x100, .here)) = true ∧ s.enginePoison s.waveOwner (pl 0x100, .here) = false
      ∧ landsOn (s.fetchWord (pl 0x100, .here)) 13 0 = true
      ∧ landsOn (s.fetchWord (pl 0x100, .here)) 14 0 = true ∧ landsOn (s.fetchWord (pl 0x100, .here)) 13 5 = false
      ∧ landsOn (s.fetchWord (pl 0x100, .here)) 14 5 = false ∧ s.TrapFree
      ∧ (5 : BitVec 3).toNat < 6 ∧ 6 ≤ (6 : BitVec 3).toNat := by
  refine ⟨{ at' [(1, 0x100)] [] 0 with mem := wordAt ((encode (.lpad 1 1 1 0)).getD 0).toNat }, ?_, ?_, ?_, ?_, ?_, ?_, ?_, ?_,
    ⟨?_, ?_⟩, ?_, ?_⟩ <;> first | rfl | decide

theorem witness_ReturnResults :
    ((at' [(62, 0x40)] [] 0).getS 62).toNat % 4 = 0 ∧ ((at' [(62, 0x41)] [] 0).getS 62).toNat % 4 ≠ 0
      ∧ (at' [(62, 0x41)] [] 0).TrapFree ∧ (63 : BitVec 6) ≠ 0 := by
  refine ⟨?_, ?_, ⟨?_, ?_⟩, ?_⟩ <;> decide

/-- Lanes 0 to 15 take the branch, a tie; without room the stack is used, and with 32 entries it is full. -/
theorem witness_DivergentTransferResults :
    (let s := at' [] [(1, 0)] 0; s.fr.lmask &&& s.getP 1 = 0)
      ∧ (let s := at' [] [(1, 0xFFFFFFFF)] 0; s.fr.lmask &&& ~~~(s.fr.lmask &&& s.getP 1) = 0)
      ∧ (let s := at' [] [(1, 0xFFFF)] 0; s.fr.lmask &&& s.getP 1 ≠ 0 ∧ s.fr.lmask &&& ~~~(s.fr.lmask &&& s.getP 1) ≠ 0
        ∧ s.Alive ∧ s.fragmentRoom ≠ 0 ∧ countBits 32 0xFFFF ≤ countBits 32 0xFFFF0000)
      ∧ (∃ s : State, s.fr.lmask &&& s.getP 1 ≠ 0 ∧ s.fr.lmask &&& ~~~(s.fr.lmask &&& s.getP 1) ≠ 0 ∧ s.fragmentRoom = 0
        ∧ s.wv.stack.length < 32)
      ∧ (∃ s : State, s.fr.lmask &&& s.getP 1 ≠ 0 ∧ s.fr.lmask &&& ~~~(s.fr.lmask &&& s.getP 1) ≠ 0 ∧ s.fragmentRoom = 0
        ∧ 32 ≤ s.wv.stack.length ∧ s.TrapFree) := by
  refine ⟨by decide, by decide, ⟨by decide, by decide, ⟨by decide, by decide⟩, by decide, by decide⟩,
    ⟨{ at' [] [(1, 0xFFFF)] 0 with
      frags := (0, frag [] [(1, 0xFFFF)] 0) :: (List.range 7).map (fun k => (k + 1, frag [] [] 0)) },
      by decide, by decide, by decide, by decide⟩,
    ⟨{ at' [] [(1, 0xFFFF)] 0 with
      frags := (0, frag [] [(1, 0xFFFF)] 0) :: (List.range 7).map (fun k => (k + 1, frag [] [] 0))
      waves := [(0, { Wave.reset with stack := List.replicate 32 (entry none) })] },
      by decide, by decide, by decide, by decide, by decide, by decide⟩⟩

/-- Half of the lanes go to a landing pad at 0x100, the others are not guarded. -/
theorem witness_DivergentTransferResults_vjmpi : ∃ s : State, s.HoldsRegs [1] ∧ s.fr.lmask ≠ 0 ∧ s.Alive
    ∧ s.guarded = List.range 16 ∧ s.laneTarget 1 0 = 0x100
    ∧ s.checkTargets 0 (firstLanes (s.laneTarget 1) s.guarded) = none
    ∧ s.wv.stack.length + (firstLanes (fun l => if l ∈ s.guarded then 0x100 else 4) (lanesOf s.fr.lmask)).length - 1
        - s.fragmentRoom ≤ 32 := by
  refine ⟨withVec [(1, all 0x100)] { at' [] [(1, 0xFFFF)] 1 with
    mem := wordAt ((encode (.lpad 1 1 1 0)).getD 0).toNat }, ?_, ?_, ⟨?_, ?_⟩, ?_, ?_, ?_, ?_⟩ <;>
    first | decide | rfl | (unfold State.HoldsRegs; decide)

theorem witness_ReconvergenceAndMergeResults :
    (base.wv.entriesOf base.cur.frag = [] ∧ base.inTx = false ∧ ∀ k ∈ base.fragsOf 0 0, k = 0)
      ∧ (let s := twoFrags .ready []; s.wv.entriesOf s.cur.frag = [] ∧ s.inTx = false ∧ s.sameKey 7 = []
        ∧ 1 ∈ s.fragsOf 0 0 ∧ s.runnable (s.mate 1) = true)
      ∧ (let s := twoFrags .ready [entry none]; s.wv.entriesOf s.cur.frag = [entry none] ∧ (entry none).parked = none)
      ∧ (let s := twoFrags .ready [entry (some (7, 0)), entry (some (9, 0))]
        s.wv.entriesOf s.cur.frag = [entry (some (7, 0)), entry (some (9, 0))] ∧ (entry (some (7, 0))).parked = some (7, s.getS 62)
        ∧ (entry (some (7, 0))).depth = s.fr.depth ∧ (entry (some (9, 0))).parked.isSome = true)
      ∧ (let s := twoFrags (.atReconv 7) []; s.wv.entriesOf s.cur.frag = [] ∧ s.inTx = false ∧ s.sameKey 7 = [1] ∧ s.Alive)
      ∧ (let s := twoFrags .ready []; s.runnable { core := 0, wave := 0, frag := 1 } = true)
      ∧ (let s := { base with frags := [(0, { frag [] [] 0 with status := .atReconv 7 })] }
        ∀ k ∈ s.fragsOf 0 0, k = 0 ∧ s.runnable { core := 0, wave := 0, frag := k } = false
          ∧ (s.frOf { core := 0, wave := 0, frag := k }).waiting = true) := by
  refine ⟨⟨?_, ?_, ?_⟩, ⟨?_, ?_, ?_, ?_, ?_⟩, ⟨?_, ?_⟩, ⟨?_, ?_, ?_, ?_⟩, ⟨?_, ?_, ?_, ⟨?_, ?_⟩⟩, ?_, ?_⟩ <;> decide

theorem witness_ExitAndYieldResults :
    (let s := twoFrags .ready [entry (some (7, 0))]; s.inTx = false ∧ s.wv.entriesOf s.cur.frag = [entry (some (7, 0))])
      ∧ (let s := twoFrags .ready []; s.inTx = false ∧ s.wv.entriesOf s.cur.frag = [] ∧ 1 ∈ s.fragsOf 0 0)
      ∧ (base.inTx = false ∧ base.wv.entriesOf base.cur.frag = [] ∧ ∀ k ∈ base.fragsOf 0 0, k = base.cur.frag)
      ∧ (let s := { base.setWv { base.wv with yieldEnd := some 17 } with cycle := 17 }
        (s.wvOf { core := 0, wave := 0, frag := 0 }).yieldEnd = some 17 ∧ 17 ≤ s.cycle) := by
  decide

theorem witness_TakingATrap :
    base.TrapFree ∧ base.wv.dbgHold = false ∧ (base.setWv { base.wv with dbgHold := true }).TrapFree
      ∧ (base.setWv { base.wv with dbgHold := true }).wv.dbgHold = true
      ∧ (∃ t : State, base.Trapped t 0x05 0 0 4 0 (base.tinfoWord 31))
      ∧ (inTrap 4).wv.active = true ∧ (inTrap 5).wv.active = true ∧ (inTrap 5).wv.tpc.toNat % 4 ≠ 0
      ∧ (let a := attempt base; let s := inAttempt base a
        s.wv.active = false ∧ s.wv.tx = some a ∧ a.owner = s.cur.frag ∧ s.wv.rblk = a.checkpoint.rblk
          ∧ s.wv.dbgHold = false) := by
  refine ⟨⟨?_, ?_⟩, ?_, ⟨?_, ?_⟩, ?_, ⟨_, rfl⟩, ?_, ?_, ?_, ?_, ?_, ?_, ?_, ?_⟩ <;> decide

theorem witness_ReturningFromATrap :
    ((inTrap 4).wv.active = true ∧ (inTrap 4).wv.tpc.toNat % 4 = 0 ∧ (inTrap 4).inTx = false) ∧ base.TrapFree
      ∧ (base.inTx = false ∧ base.fr.pc.toNat % 4 = 0 ∧ ∃ t : State, base.Trapped t 0x22 0 255 base.fr.pc 0x104 0)
      ∧ (base.attempts = [] ∧ (findAt base.waves base.cur.waveKey).isSome = true)
      ∧ (let a := attempt base; let s := inAttempt base a
        s.wv.tx = some a ∧ a.owner = s.cur.frag ∧ s.wv.rblk = a.checkpoint.rblk) := by
  refine ⟨⟨?_, ?_, ?_⟩, ⟨?_, ?_⟩, ⟨?_, ?_, _, rfl⟩, ⟨?_, ?_⟩, ?_, ?_, ?_⟩ <;> decide

theorem witness_SpecialRegisterResults :
    (base.special 9 = some 0 ∧ base.special 20 ≠ none ∧ base.special 0 = some 0 ∧ base.waveXops base.cur = []
        ∧ (base.bank base.cur.core).queue = [])
      ∧ (fieldOf 0x2C60 63 16 = 0 ∧ fieldOf 0x2C60 13 11 < 6) ∧ fieldOf 0x01FFFFFF0000807F 63 57 = 0
      ∧ (fieldOf 0x1FFFFFFFFFF00 63 49 = 0 ∧ fieldOf 0x1FFFFFFFFFF00 7 0 = 0 ∧ base.ctxId ≠ 0)
      ∧ ({ base with operators := [(1, Operator.reset)], tasks := [(1, { Task.reset with oper := 1 })] } : State).ctxId = 0
      ∧ fieldOf (7 : Word) 63 3 = 0 ∧ base.TrapFree ∧ (7 : BitVec 6).toNat ≤ 7 ∧ 16 ≤ (16 : BitVec 6).toNat
      ∧ fieldOf ((at' [(1, 0x80)] [] 0).getS 1) 7 0 ≠ 0 ∧ (at' [(1, 0x80)] [] 0).TrapFree ∧ 21 ≤ (21 : BitVec 6).toNat := by
  refine ⟨⟨?_, ?_, ?_, ?_, ?_⟩, ⟨?_, ?_⟩, ?_, ⟨?_, ?_, ?_⟩, ?_, ?_, ⟨?_, ?_⟩, ?_, ?_, ?_, ⟨?_, ?_⟩, ?_⟩ <;> decide

/-- The last fragment id with a full divergence stack, and an attempt with every number of TXSTAT at the end of its field. -/
theorem witness_StatusWordsOfFragments :
    (let s := { base with
          cur := { core := 0, wave := 0, frag := 7 }, frags := [(7, frag [] [] 0)]
          waves := [(0, { Wave.reset with stack := List.replicate 32 { entry none with owner := 7 } })] };
      s.cur.frag < 8 ∧ (s.wv.entriesOf s.cur.frag).length ≤ 32 ∧ s.fr.mr = 0)
      ∧ (let a := { attempt base with
            depth := 4, reads := List.replicate 64 (.sector 2, 0x100)
            writes := (List.range 16).map (fun k => { place := pl (128 * k), byte := some 7 })
            alts := List.replicate 4 {
              target := 0x40, depth := 1, checkpoint := (attempt base).checkpoint, writes := 16, cmds := 0, tokenOps := 0,
              vlog := 0, alog := 0 } };
        let s0 := base.setFr { base.fr with attempts := 255, txCode := 255, wake := 4, txStatus := 15 }
        let s := inAttempt s0 a
        s.fr.attempts ≤ 255 ∧ s.fr.txCode ≤ 255 ∧ s.fr.wake ≤ 4 ∧ s.fr.txStatus ≤ 15 ∧ s.ofAttempt (·.reads.length) = 64
          ∧ s.ofAttempt (·.writeEntries) = 16 ∧ s.ofAttempt (·.alts.length) = 4 ∧ s.ofAttempt (·.depth) = 4) := by
  decide

theorem witness_RegisterBlockResults :
    (base.splitWave = false ∧ base.wv.rblk + (12 : BitVec 5).toNat ≤ 16
        ∧ (12 : BitVec 5).toNat ≤ (base.coreOf base.cur.core).freeBlocks)
      ∧ (let s := { base with cores := [(0, { CoreRow.reset with freeBlocks := 1, reserve := 1 })] }
        s.splitWave = false ∧ s.inTx = false ∧ s.oldestTask = true ∧ 2 = (s.coreOf 0).freeBlocks + (s.coreOf 0).reserve
          ∧ s.wv.rblk + (3 : BitVec 5).toNat ≤ 16 ∧ 2 < (3 : BitVec 5).toNat)
      ∧ (16 < base.wv.rblk + (13 : BitVec 5).toNat ∧ base.TrapFree)
      ∧ ((twoFrags .ready []).splitWave = true ∧ (twoFrags .ready []).TrapFree)
      ∧ (base.attempts = [] ∧ base.inTx = false ∧ 0 < (3 : BitVec 5).toNat ∧ (3 : BitVec 5).toNat < base.wv.rblk
        ∧ (base.coreOf base.cur.core).owed = 0)
      ∧ base.wv.rblk ≤ (4 : BitVec 5).toNat := by
  refine ⟨?_, ?_, ⟨?_, ⟨?_, ?_⟩⟩, ⟨?_, ⟨?_, ?_⟩⟩, ?_, ?_⟩ <;> decide

/-- A pair of registers that the wave holds. -/
theorem holds_pair : base.HoldsRegs [1, 2] ∧ base.HoldsRegs [31, 0, 1] := by
  unfold State.HoldsRegs; decide

/-- The forms of the integer, bitwise, float and compare clauses: registers that the wave holds, the last of them v31, and
each list of types that they accept. -/
theorem witness_vector_forms :
    (base.HoldsRegs [31, 0, 1] ∧ etypeOf base.etypeCode = some .i32 ∧ EType.i32.isInt = true)
      ∧ ((at' [] [] 0x50).HoldsRegs [31, 0, 1] ∧ etypeOf (at' [] [] 0x50).etypeCode = some .n8 ∧ EType.n8.isInt = true)
      ∧ ((at' [] [] 0x60).HoldsRegs [31, 0, 1] ∧ etypeOf (at' [] [] 0x60).etypeCode = some .fp32)
      ∧ ((at' [] [] 0x70).HoldsRegs [31, 0, 1] ∧ etypeOf (at' [] [] 0x70).etypeCode = some .bf16) := by
  unfold State.HoldsRegs; decide

theorem witness_IntegerVectorAndCompareResults :
    EType.i32.isInt = true ∧ EType.n8.isInt = true ∧ base.HoldsRegs [31, 0, 1] ∧ etypeOf base.etypeCode = some .i32 := by
  refine ⟨?_, ?_, ?_, ?_⟩ <;> first | decide | exact holds_pair.2

theorem witness_VectorShiftResults : base.HoldsRegs [31, 0, 1] ∧ etypeOf base.etypeCode = some .i32 ∧ EType.i32.isInt = true :=
  witness_vector_forms.1

theorem witness_WholeLaneResults :
    base.HoldsRegs [31, 0, 1] ∧ ((at' [] [] 0x40).HoldsRegs [31, 0, 1] ∧ etypeOf (at' [] [] 0x40).etypeCode = some .i8)
      ∧ ((at' [] [] 0x50).HoldsRegs [31, 0, 1] ∧ etypeOf (at' [] [] 0x50).etypeCode = some .n8) := by
  unfold State.HoldsRegs; decide

theorem witness_FloatVectorAndNaNResults :
    ((at' [] [] 0x60).HoldsRegs [31, 0, 1] ∧ etypeOf (at' [] [] 0x60).etypeCode = some .fp32)
      ∧ ((at' [] [] 0x70).HoldsRegs [31, 0, 1] ∧ etypeOf (at' [] [] 0x70).etypeCode = some .bf16)
      ∧ (unpackFloat 23 0x7F800001).isNaN = true ∧ (unpackFloat 7 0xFFFF).isNaN = true := by
  unfold State.HoldsRegs; decide

theorem witness_FloatMinimumMaximum : ∃ isNaN signalling : Nat → Bool,
    (∀ v, isNaN v = decide (v / 2 ^ 23 % 256 = 255 ∧ v % 2 ^ 23 ≠ 0))
      ∧ (∀ v, signalling v = (isNaN v && !v.testBit (23 - 1)))
      ∧ isNaN 0x7F800001 = true ∧ isNaN 0xFFFFFFFF = true ∧ isNaN 0x7F800000 = false ∧ 0xFFFFFFFF < 2 ^ (23 + 9) :=
  ⟨_, _, fun _ => rfl, fun _ => rfl, by decide, by decide, by decide, by decide⟩

theorem witness_MoveAndCrossLaneResults :
    ((at' [] [] 0x60).HoldsRegs [31, 0] ∧ etypeOf (at' [] [] 0x60).etypeCode = some .fp32
        ∧ etypeOf (8 : BitVec 4).toNat = some .cm8 ∧ cvtRefused .fp32 .cm8 3 = false)
      ∧ ((at' [] [] 0x70).HoldsRegs [31, 0] ∧ etypeOf (at' [] [] 0x70).etypeCode = some .bf16
        ∧ etypeOf (6 : BitVec 4).toNat = some .fp32 ∧ cvtRefused .bf16 .fp32 1 = false)
      ∧ (base.HoldsRegs [31, 0, 1] ∧ etypeOf base.etypeCode = some .i32 ∧ EType.i32.isInt = true)
      ∧ (0 < base.guarded.length ∧ 31 ∈ base.guarded) := by
  unfold State.HoldsRegs; decide

/-- A register just past the wave's four blocks; types 8 to 10 and 15 for the integer and float forms. -/
theorem witness_VectorRangeAndTypeTraps :
    (base.TrapFree ∧ 8 * base.wv.rblk ≤ (32 : BitVec 7).toNat)
      ∧ ((at' [] [] 0x80).TrapFree ∧ (at' [] [] 0x80).HoldsRegs [31, 0, 1]
        ∧ ∀ e, etypeOf (at' [] [] 0x80).etypeCode = some e → EType.isInt e = false ∧ EType.isFloat e = false)
      ∧ ((at' [] [] 0xF0).HoldsRegs [31, 0, 1] ∧ etypeOf (at' [] [] 0xF0).etypeCode = none)
      ∧ ((at' [] [] 0xA0).TrapFree ∧ etypeOf (at' [] [] 0xA0).etypeCode = some .b1
        ∧ etypeOf (7 : BitVec 4).toNat = some .bf16 ∧ 16 ≤ EType.bf16.width)
      ∧ ((at' [] [] 0x60).HoldsRegs [31, 0] ∧ etypeOf (at' [] [] 0x60).etypeCode = some .fp32
        ∧ etypeOf (10 : BitVec 4).toNat = some .b1 ∧ 16 ≤ EType.fp32.width ∧ etypeOf (4 : BitVec 4).toNat = some .i8
        ∧ max (32 / EType.fp32.width) (32 / EType.i8.width) / min (32 / EType.fp32.width) (32 / EType.i8.width)
          ≤ (4 : BitVec 3).toNat) := by
  unfold State.HoldsRegs State.TrapFree; decide

theorem clear_base : base.Clear := ⟨rfl, rfl, rfl, rfl, rfl, rfl, rfl, rfl⟩

/-- A store and a load at the end of the page of the tests: their bytes can be reached. -/
def edge : State := at' [(2, 0xFF80), (3, 0xFFF8), (4, 0xFFFC)] [(1, 0x80000001)] 1

theorem clear_edge : edge.Clear := ⟨rfl, rfl, rfl, rfl, rfl, rfl, rfl, rfl⟩

/-- A tile of four sectors a row at 0x1000, in a state, with bit 62 or 63 of its segment word beside row 11, segment 2. -/
def tiled (state : Nat) (sb : Word) : State :=
  { at' [(7, sb)] [(1, 0x80000001)] 1 with
    tiles := [(1,
      { TileEntry.reset with base := 0x1000, state := state, span := 4, etype := 7, rowsM1 := 15, rsec := 4 })] }

theorem witness_LoadResults :
    edge.Clear ∧ ((edge.baseAddr 3 0 8).toNat % 8 = 0 ∧ edge.Reaches (edge.baseAddr 3 0 8) .read (pl 0xFFF8) (placesFrom (pl 0xFFF8) 8))
      ∧ ((edge.baseAddr 4 0 4).toNat % 4 = 0 ∧ edge.Reaches (edge.baseAddr 4 0 4) .read (pl 0xFFFC) (placesFrom (pl 0xFFFC) 4))
      ∧ (edge.HoldsRegs [31] ∧ (edge.baseAddr 2 0 128).toNat % 128 = 0
        ∧ edge.Reaches (edge.baseAddr 2 0 128) .read (pl 0xFF80) (lanePlaces (pl 0xFF80) edge.guarded (4 * ·)))
      ∧ (edge.HoldsRegs [31, 0] ∧ ∀ l ∈ edge.guarded, (edge.laneAddr 4 0 l).toNat % 4 = 0
        ∧ edge.Reaches (edge.laneAddr 4 0 l) .read (pl 0xFFFC) (placesFrom (pl 0xFFFC) 4)) := by
  unfold State.Reaches State.Reachable State.HoldsRegs
  refine ⟨clear_edge, ⟨?_, ?_, ?_, ?_, ?_⟩, ⟨?_, ?_, ?_, ?_, ?_⟩, ⟨?_, ?_, ?_, ?_, ?_, ?_⟩, ?_, ?_⟩ <;> decide

theorem witness_LoadResults_tile : ∃ q, q = ((tiled 2 0x200B).tileAt 1).segment 11 2
    ∧ (tiled 2 0x200B).HoldsRegs [31] ∧ (1 : BitVec 6).toNat < (tiled 2 0x200B).seat.partSize
    ∧ ((tiled 2 0x200B).tileAt 1).segmentOk ((tiled 2 0x200B).getS 7) 63 = true ∧ ((tiled 2 0x200B).tileAt 1).state = 2
    ∧ ((tiled 2 0x200B).tileAt 1).stampV = false
    ∧ (tiled 2 0x200B).Reaches q.1 .read (pl 0x2780) (lanePlaces (pl 0x2780) (tiled 2 0x200B).guarded q.2) := by
  unfold State.Reaches State.Reachable State.HoldsRegs
  refine ⟨_, rfl, ?_, ?_, ?_, ?_, ?_, ?_, ?_, ?_, ?_⟩ <;> decide

theorem witness_StoreResults :
    edge.Clear ∧ ((edge.baseAddr 3 0 8).toNat % 8 = 0 ∧ edge.Reaches (edge.baseAddr 3 0 8) .write (pl 0xFFF8) (placesFrom (pl 0xFFF8) 8))
      ∧ ((edge.baseAddr 4 0 4).toNat % 4 = 0 ∧ edge.Reaches (edge.baseAddr 4 0 4) .write (pl 0xFFFC) (placesFrom (pl 0xFFFC) 4))
      ∧ (edge.HoldsRegs [31] ∧ (edge.baseAddr 2 0 128).toNat % 128 = 0
        ∧ edge.Reaches (edge.baseAddr 2 0 128) .write (pl 0xFF80) (lanePlaces (pl 0xFF80) edge.guarded (4 * ·)))
      ∧ (edge.HoldsRegs [31, 0] ∧ ∀ l ∈ edge.guarded, (edge.laneAddr 4 0 l).toNat % 4 = 0
        ∧ edge.Reaches (edge.laneAddr 4 0 l) .write (pl 0xFFFC) (placesFrom (pl 0xFFFC) 4)) := by
  unfold State.Reaches State.Reachable State.HoldsRegs
  refine ⟨clear_edge, ⟨?_, ?_, ?_, ?_, ?_⟩, ⟨?_, ?_, ?_, ?_, ?_⟩, ⟨?_, ?_, ?_, ?_, ?_, ?_⟩, ?_, ?_⟩ <;> decide

/-- Without FINAL and with it (bit 63). -/
theorem witness_StoreResults_tile : ∀ sb ∈ [(0x200B : Word), 0x800000000000200B], ∃ q, q = ((tiled 1 sb).tileAt 1).segment 11 2
    ∧ (tiled 1 sb).HoldsRegs [31] ∧ (1 : BitVec 6).toNat < (tiled 1 sb).seat.partSize
    ∧ ((tiled 1 sb).tileAt 1).segmentOk ((tiled 1 sb).getS 7) 62 = true ∧ ((tiled 1 sb).tileAt 1).state = 1
    ∧ ((tiled 1 sb).tileAt 1).pendingEmpty = false ∧ ((tiled 1 sb).tileAt 1).finalDue = false ∧ ((tiled 1 sb).getS 7).getLsbD 63 = sb.getLsbD 63
    ∧ (tiled 1 sb).Reaches q.1 .write (pl 0x2780) (lanePlaces (pl 0x2780) (tiled 1 sb).guarded q.2) := by
  unfold State.Reaches State.Reachable State.HoldsRegs
  intro sb hsb
  rcases List.mem_cons.mp hsb with rfl | hsb
  · refine ⟨_, rfl, ?_, ?_, ?_, ?_, ?_, ?_, ?_, ?_, ?_, ?_, ?_⟩ <;> decide
  · cases List.mem_singleton.mp hsb
    refine ⟨_, rfl, ?_, ?_, ?_, ?_, ?_, ?_, ?_, ?_, ?_, ?_, ?_⟩ <;> decide

theorem witness_AddressChecks :
    (edge.TrapFree ∧ ((at' [(2, 0x104)] [] 0).baseAddr 2 0 8).toNat % 8 ≠ 0 ∧ (at' [(2, 0x104)] [] 0).TrapFree)
      ∧ ((at' [(2, 0x102)] [] 0).baseAddr 2 0 4).toNat % 4 ≠ 0
      ∧ ((at' [(2, 0x140)] [] 0).HoldsRegs [31] ∧ (at' [(2, 0x140)] [] 0).guarded ≠ []
        ∧ ((at' [(2, 0x140)] [] 0).baseAddr 2 0 128).toNat % 128 ≠ 0)
      ∧ (let s := withVec [(1, Vector.ofFn (fun i => if i.val = 31 then 2 else 0))] (at' [(2, 0x100)] [] 0)
        s.HoldsRegs [0, 1] ∧ 31 ∈ s.guarded ∧ (s.laneAddr 2 1 31).toNat % 4 ≠ 0
          ∧ ∀ k ∈ s.guarded, k < 31 → (s.laneAddr 2 1 k).toNat % 4 = 0)
      ∧ (((at' [(2, 0x104)] [] 0).getS 2).toNat % 8 ≠ 0 ∧ ((at' [(2, 0x102)] [] 0).getS 2).toNat % 4 ≠ 0)
      ∧ (let s := at' [(2, 0x8000000000000)] [] 0
        s.inTx = false ∧ (s.getS 2).toNat % 8 = 0 ∧ s.xlate (s.getS 2) .atomic = .error (0x20, 1)
          ∧ s.xlate (s.baseAddr 2 0 8) .read = .error (0x20, 1)) := by
  unfold State.HoldsRegs State.TrapFree
  refine ⟨?_, ?_, ?_, ?_, ?_, ?_⟩ <;> decide

theorem witness_AtomicOperationResults :
    (0xFFFFFFFF < 2 ^ 32 ∧ 0xFFFFFFFFFFFFFFFF < 2 ^ 64)
      ∧ atomicValue .add (8 * (placesFrom (pl 0x100) 4).length)
        (ofBytes ((placesFrom (pl 0x100) 4).map (wordAt 7).readByte) ) ((5 : Word).toNat % 2 ^ 32) 0 = some 12
      ∧ atomicValue .cas 32 7 5 9 = none := by decide

theorem witness_AtomicInstructionResults :
    edge.Clear ∧ (edge.HoldsRegs [30, 31, 0] ∧ edge.HoldsRegs [31, 0])
      ∧ (∀ l ∈ edge.guarded, (edge.laneAddr 4 0 l).toNat % 4 = 0
        ∧ edge.Reaches (edge.laneAddr 4 0 l) .atomic (pl 0xFFFC) (placesFrom (pl 0xFFFC) 4))
      ∧ ((edge.getS 3).toNat % 8 = 0 ∧ edge.Reaches (edge.getS 3) .atomic (pl 0xFFF8) (placesFrom (pl 0xFFF8) 8))
      ∧ ((edge.getS 4).toNat % 4 = 0 ∧ edge.Reaches (edge.getS 4) .atomic (pl 0xFFFC) (placesFrom (pl 0xFFFC) 4)) := by
  unfold State.Reaches State.Reachable State.HoldsRegs
  refine ⟨clear_edge, ?_, ?_, ?_, ?_⟩ <;> decide

theorem witness_FenceAndCacheControl :
    (base.accesses = [] ∧ base.inTx = false)
      ∧ (base.Clear ∧ base.xlate (base.getS 1) .read = .ok (pl 0, .here))
      ∧ (windowBase ≤ ((at' [(1, 0x1FFFFFFFFFFFF)] [] 0).getS 1).toNat
        ∧ ((at' [(1, 0x1FFFFFFFFFFFF)] [] 0).getS 1).toNat < 2 ^ 49 ∧ (at' [(1, 0x1FFFFFFFFFFFF)] [] 0).inTx = false)
      ∧ (let a := attempt base; let s := inAttempt base a
        s.wv.tx = some a ∧ a.owner = s.cur.frag ∧ s.wv.rblk = a.checkpoint.rblk ∧ s.inTx = true) := by
  refine ⟨⟨?_, ?_⟩, ⟨clear_base, ?_⟩, ⟨?_, ?_, ?_⟩, ?_, ?_, ?_, ?_⟩ <;> decide

theorem witness_ScratchpadLineResults : base.inTx = false ∧ base.accesses = [] := by decide

theorem witness_TileTableResults :
    (let s := at' [(10, 0x1000), (11, 0x238078004)] [] 0;
        (3 : BitVec 6).toNat < s.seat.partSize ∧ s.inTx = false ∧ s.attempts = [] ∧ (s.tileAt 3).pendingEmpty = false
        ∧ (s.tileAt 3).state = 0 ∧ (s.tileAt 3).task = false ∧ (s.getS 10).toNat % 128 = 0 ∧ (s.getS 10).toNat < 2 ^ 49
        ∧ fieldOf (s.getS 11) 63 34 = 0 ∧ fieldOf (s.getS 11) 30 27 ≤ 10 ∧ fieldOf (s.getS 11) 14 0 ≠ 0
        ∧ 128 * fieldOf (s.getS 11) 14 0 % (16 * 2 ^ fieldOf (s.getS 11) 33 31) = 0)
      ∧ ((tiled 2 1).attempts = [] ∧ ((tiled 2 1).tileAt 1).pendingEmpty = false ∧ ((tiled 2 1).getS 7).toNat = 1)
      ∧ (((tiled 1 2).getS 7).toNat = 2 ∧ ((tiled 1 2).tileAt 1).state ≠ 0)
      ∧ (((tiled 2 3).getS 7).toNat = 3 ∧ ((tiled 2 3).tileAt 1).state = 2)
      ∧ (((tiled 2 0).getS 7).toNat = 0 ∧ ((tiled 2 0).tileAt 1).inFlight = 0 ∧ ((tiled 2 0).tileAt 1).finalDue = false)
      ∧ (let s := { tiled 2 0 with tiles := [(1, { (tiled 2 0).tileAt 1 with inFlight := 1 })] }
        (s.tileAt 1).inFlight ≠ 0 ∧ (s.tileAt 1).pendingEmpty = false ∧ (s.tileAt 1).finalDue = false)
      ∧ (base.seat.partSize ≤ (4 : BitVec 6).toNat ∧ base.TrapFree) := by
  unfold State.TrapFree; decide

/-- The attempt of the tests, nested, with an open alternative, a sector read and a byte written. -/
def rich (depth : Nat) : Attempt :=
  { attempt base with
    depth := depth, reads := [(.sector 2, 0x100)], writes := [{ place := pl 0x100, byte := some 7 }]
    alts := [{
      target := 0x40, depth := 1, checkpoint := (attempt base).checkpoint, writes := 0, cmds := 0, tokenOps := 0,
      vlog := 0, alog := 0 }] }

theorem witness_OpeningAnAttempt :
    base.wv.tx = none ∧ base.TrapFree
      ∧ (let a := rich 3; let s := inAttempt base a
        s.wv.tx = some a ∧ a.owner = s.cur.frag ∧ a.depth < 4 ∧ a.alts.length < 4) := by
  refine ⟨?_, ⟨?_, ?_⟩, ?_, ?_, ?_, ?_⟩ <;> decide

theorem witness_CommitResults :
    (let a := rich 2; let s := inAttempt base a; s.wv.tx = some a ∧ a.owner = s.cur.frag ∧ 1 < a.depth)
      ∧ (let a := rich 1; let s := inAttempt base a
        s.wv.tx = some a ∧ a.owner = s.cur.frag ∧ a.depth = 1
          ∧ (∀ e ∈ s.wv.entriesOf s.cur.frag, e.num < a.checkpoint.stackMark) ∧ s.accesses = [] ∧ a.cmds = [] ∧ a.tokenOps = []
          ∧ (∀ x ∈ s.attempts, x.1 = s.cur) ∧ (s.setWv { s.wv with tx := none }).attempts = [] ∧ ∀ w ∈ a.writes, s.linePinned w.place.key = true) := by
  refine ⟨⟨?_, ?_, ?_⟩, ?_, ?_, ?_, ?_, ?_, ?_, ?_, ?_, ?_, ?_⟩ <;> decide

theorem watches_none (k : Nat) (x : Frag) (s : State) (h : s.frags = [(0, x)]) (hc : s.cur.key = 0) (hk : k ≠ s.cur.key) :
    findAt s.frags k = none := by
  have : k ≠ 0 := hc ▸ hk
  simp [h, findAt, Ne.symm this]

theorem witness_AbandonmentAndRetryResults :
    (let a := rich 1; let s := inAttempt base a
        s.wv.tx = some a ∧ a.owner = s.cur.frag ∧ s.wv.rblk = a.checkpoint.rblk
          ∧ ∃ alt, a.alts = [alt] ∧ s.wv.rblk = alt.checkpoint.rblk)
      ∧ (let a := attempt base; let s := inAttempt base a
        s.wv.tx = some a ∧ a.alts = [] ∧ a.reads = [] ∧ s.wv.rblk = a.checkpoint.rblk)
      ∧ (let a := { rich 1 with alts := [] }; let s := inAttempt base a
        s.wv.tx = some a ∧ a.reads ≠ [] ∧ s.frags.length = 1 ∧ a.reads.length ≤ 64
          ∧ ∀ k x, findAt s.frags k = some x → k ≠ s.cur.key → ∀ w, x.watches w = false) := by
  refine ⟨⟨?_, ?_, ?_, _, rfl, ?_⟩, ⟨?_, ?_, ?_, ?_⟩, ?_, ?_, ?_, ?_, ?_⟩ <;> first | decide |
    (intro k x h hk; rw [watches_none k _ _ rfl rfl hk] at h; cases h)

theorem witness_StatusAndWakeResults :
    base.inTx = false
      ∧ (let a := attempt base; let s := inAttempt base a
        s.wv.tx = some a ∧ a.owner = s.cur.frag ∧ s.xlateAll [s.getS 1] .read = .ok [(pl 0, .here)] ∧ (pl 0).isHost = false
          ∧ (pl 0).kind ≠ 1 ∧ (∀ x ∈ s.attempts, x.1 = s.cur) ∧ (∀ y ∈ a.reads, y.1 ≠ .sector (sectorOf 0))
          ∧ a.reads.length < 64)
      ∧ (∃ y ∈ (rich 1).reads, y.1 = .sector (sectorOf 0x100))
      ∧ (let s := { base with frags := [(0, { frag [] [] 0 with status := .asleep [.sector 2] true 0 })] }
        ∃ x, findAt s.frags 0 = some x ∧ x.status = .asleep [.sector 2] true 0)
      ∧ (base.notices = [] ∧ ({ base with notices := [{ core := 0, word := .sector 2, early := [] }] } : State).notices.any
        (fun n => n.core == 0 && n.word == .sector 2) = true)
      ∧ (let s := { base with frags := [(0, { frag [] [] 0 with status := .backoff 9 true })], cycle := 9 }
        (s.frOf { core := 0, wave := 0, frag := 0 }).status = .backoff 9 true ∧ 9 ≤ s.cycle
          ∧ (s.frOf { core := 0, wave := 0, frag := 0 }).allowWait = none)
      ∧ (let s := { base with frags := [(0, { frag [] [] 0 with status := .backoff 9 false, allowWait := some (7, 1) })], cycle := 9 }
        (s.frOf { core := 0, wave := 0, frag := 0 }).allowWait = some (7, 1)) := by
  refine ⟨?_, ⟨?_, ?_, ?_, ?_, ?_, ?_, ?_, ?_⟩, ?_, ⟨_, rfl, ?_⟩, ⟨?_, ?_⟩, ⟨?_, ?_, ?_⟩, ?_⟩ <;> decide

/-- A tile of 128 rows of two sectors, in i8, at 0x1000, for products and fills. -/
def matTile (et : Nat) : TileEntry := { TileEntry.reset with base := 0x1000, state := 2, etype := et, rowsM1 := 127, rsec := 2 }

/-- A set that context 5 may use, in i8 or fp32. -/
def fullSet (fmt : Nat) : BankSet := { BankSet.reset with st := 2, tag := 9, fmt := fmt, user := .context 5 }

/-- A state with the tile and the sets of the tests. -/
def mat (ss : List (BitVec 6 × Word)) (mr : BitVec 25) (et fmt : Nat) : State :=
  { at' ss [] mr with tiles := [(1, matTile et)], banks := [(0, { Bank.reset with active := fullSet fmt })] }

theorem sector_le (a : Word) : (sectorVa a).toNat ≤ a.toNat := by
  rw [sectorVa, BitVec.toNat_and]; exact Nat.and_le_left

theorem mem_distinct (l : List Word) (x : Word) : x ∈ distinctWords l → x ∈ l := by
  have h : ∀ (l acc : List Word), x ∈ l.foldl (fun acc a => if acc.contains a then acc else acc ++ [a]) acc →
      x ∈ acc ∨ x ∈ l := by
    intro l
    induction l with
    | nil => intro acc h; exact .inl h
    | cons a r ih =>
      intro acc h
      rcases ih _ h with h | h
      · dsimp only at h
        split at h
        · exact .inl h
        · rcases List.mem_append.mp h with h | h
          · exact .inl h
          · exact .inr (List.mem_cons.mpr (.inl (List.mem_singleton.mp h)))
      · exact .inr (List.mem_cons.mpr (.inr h))
  intro hx
  rcases h l [] hx with h | h
  · cases h
  · exact h

/-- Addresses of the page of the tests all translate. -/
theorem engine_page (s : State) (ht : s.tlb = base.tlb) (m : MatUser) (hc : m.core = 0) (hx : m.ctx = 5) (vas : List Word)
    (hv : ∀ va ∈ vas, va.toNat < 0x10000) :
    ∃ xs, s.xlateEngine m vas .read = .ok xs ∧ ∀ x ∈ xs, x.2 = .here := by
  have one : ∀ va ∈ vas, s.translate m.oper m.core m.ctx va .read
      = .ok ({ key := va.toNat % 65536, keyId := 1, kind := 0, cached := true, va := va, home := 0 }, .here) := by
    intro va h
    have := hv va h
    have h1 : ¬ va.toNat ≥ 2 ^ 49 := by omega
    have h2 : ¬ va.toNat ≥ windowBase := by unfold windowBase; omega
    have h3 : s.leafFor m.core m.ctx va.toNat = .ok { pa := 0, keyId := 1, kind := 0, cached := true, exec := true, write := true, read := true, size := 65536, home := 0 } := by
      simp only [State.leafFor, State.heldBy]
      rw [ht, hc, hx]
      simp [base, this, TlbEntry.leaf]
    have h4 : regionOf (0 + va.toNat % 65536) = .device := by
      have : (0 + va.toNat % 65536) / 2 ^ 54 = 0 := by omega
      rw [regionOf, this]
      simp [localOk]; omega
    rw [State.translate, State.translateAs]
    simp only [h1, h2, h3, if_false, Leaf.permits, h4]
    simp
  unfold State.xlateEngine
  dsimp only
  split
  · rename_i hf
    exfalso
    rw [Bool.not_eq_true', List.isEmpty_eq_false_iff_exists_mem] at hf
    obtain ⟨y, hy⟩ := hf
    obtain ⟨r, hr, hy⟩ := List.mem_filterMap.mp hy
    obtain ⟨va, h, rfl⟩ := List.mem_map.mp hr
    simp only [one va h, reduceCtorEq] at hy
  · split
    · rename_i x hf
      exfalso
      have hp := List.find?_some hf
      obtain ⟨r, hr, hy⟩ := List.mem_filterMap.mp (List.mem_of_find?_eq_some hf)
      obtain ⟨va, h, rfl⟩ := List.mem_map.mp hr
      simp only [one va h, Option.some.injEq] at hy
      subst hy
      simp [Place.isHost, hostBase] at hp
      have := of_decide_eq_true hp.1
      omega
    · refine ⟨_, rfl, fun x hx => ?_⟩
      obtain ⟨r, hr, hy⟩ := List.mem_filterMap.mp hx
      obtain ⟨va, h, rfl⟩ := List.mem_map.mp hr
      simp only [one va h, Option.some.injEq] at hy
      exact hy ▸ rfl

/-- Places of this device are all there to be read. -/
theorem allFetched_here (s : State) (o : Owner) (ha : s.accesses = []) (ps : List (Place × Target)) (h : ∀ p ∈ ps, p.2 = .here) :
    s.allFetched o ps = true := by
  have hu : s.unread o ps = [] := List.filterMap_eq_nil_iff.mpr (fun p hp => by simp only [h p hp])
  simp [State.allFetched, State.fetchOut, hu, ha]

theorem placesIn_here (secs : List (Word × (Place × Target))) (h : ∀ q ∈ secs, q.2.2 = .here) (as : List Word) :
    ∀ p ∈ placesIn secs as, p.2 = .here := by
  intro p hp
  obtain ⟨a, -, rfl⟩ := List.mem_map.mp hp
  split
  · exact h _ (List.mem_of_find?_eq_some ‹_›)
  · rfl

/-- The sectors that a fill of the tile reads lie in the page of the tests. -/
theorem fill_sectors (va : Word) (h : va ∈ distinctWords (((List.range 128).map (fun j =>
    (matTile 10).rowAddrs (fieldOf (0 : Word) 43 32 + j) 0 (1024 * 1 / 8))).flatMap (fun r => r.map sectorVa))) :
    va.toNat < 0x10000 := by
  obtain ⟨r, hr, h⟩ := List.mem_flatMap.mp (mem_distinct _ _ h)
  obtain ⟨j, hj, rfl⟩ := List.mem_map.mp hr
  obtain ⟨a, ha, rfl⟩ := List.mem_map.mp h
  obtain ⟨b, hb, rfl⟩ := List.mem_map.mp ha
  obtain ⟨i, hi, rfl⟩ := List.mem_map.mp hb
  have hj := List.mem_range.mp hj
  have hi := List.mem_range.mp hi
  have h0 : fieldOf (0 : Word) 43 32 = 0 := by decide
  refine Nat.lt_of_le_of_lt (sector_le _) ?_
  have hw : swz 0 (0 + j) (0 + i) < 256 := by
    simp only [swz, Nat.pow_zero, Nat.mul_one, Nat.div_self (by decide : 0 < 16), Nat.mod_one, Nat.xor_zero]
    omega
  have : (matTile 10).addr (fieldOf (0 : Word) 43 32 + j) (0 + i)
      = 0x1000 + BitVec.ofNat 64 ((0 + j) * 256 + swz 0 (0 + j) (0 + i)) := by rw [h0]; rfl
  rw [this, BitVec.toNat_add, BitVec.toNat_ofNat]
  have : (0x1000 : Word).toNat = 0x1000 := by decide
  omega

/-- A fill whose checks pass and whose sectors all translate is planned. -/
theorem fillPlan_ok (s : State) (u : MatUser) (t : Nat) (x : Word) (e : TileEntry) (k n w : Nat) (hc : s.fillCause u t x = none)
    (he : s.tileOf u.core ((s.seatOf u.oper u.core).partBase + t) = e) (ha : arrShape (fieldOf x 17 16) = (k, n))
    (hw : ((etypeOf e.etype).getD .i32).width = w) (hs : e.state ≠ 1)
    (hx : s.accesses = []) (h : ∃ xs, s.xlateEngine u (distinctWords (((List.range n).map (fun j =>
      e.rowAddrs (fieldOf x 43 32 + j) 0 (k * w / 8))).flatMap (fun r => r.map sectorVa))) .read = .ok xs ∧ ∀ x ∈ xs, x.2 = .here) :
    ∃ f, s.fillPlan u t x = .ok f := by
  obtain ⟨xs, h, hh⟩ := h
  subst he hw
  unfold State.fillPlan
  simp only [hc, ha, hs, h, if_false]
  rw [allFetched_here s _ hx _ (fun p hp => ?_)]
  · exact ⟨_, rfl⟩
  · obtain ⟨r, -, hp⟩ := List.mem_flatMap.mp hp
    exact placesIn_here _ (fun q hq => hh _ (List.of_mem_zip hq).2) _ _ hp

theorem fill_plan : ∃ f, (mat [] 0 10 4).fillPlan (mat [] 0 10 4).matUser 1 0 = .ok f :=
  fillPlan_ok _ _ _ _ (matTile 10) 1024 128 1 (by decide) (by decide) (by decide) (by decide) (by decide) (by decide)
    (engine_page (mat [] 0 10 4) rfl (mat [] 0 10 4).matUser (by decide) (by decide) _ fill_sectors)

theorem ok_of {ε α : Type} (x : Except ε α) (h : x.isOk = true) : ∃ a, x = .ok a := by
  cases x with
  | ok a => exact ⟨a, rfl⟩
  | error e => cases h

/-- One row, one column, 32 elements: `mma` and `mmaz` on i8, `mmab` on b1, `msca`. -/
theorem witness_MatrixIssueResults :
    (let s := mat [(9, 0x200011)] 0x40 4 2;
        s.attempts = [] ∧ s.inTx = false ∧ s.accesses = [] ∧ (s.bank s.cur.core).queue = []
          ∧ etypeOf s.etypeCode = some .i8
          ∧ (∃ k parts, s.productPlan s.waveOwner s.matUser s.readByte .mma 3 1 (s.getS 9) .i8 s.sat = .ok (k, parts))
          ∧ ∃ k parts, s.productPlan s.waveOwner s.matUser s.readByte .mmaz 3 1 (s.getS 9) .i8 s.sat = .ok (k, parts))
      ∧ (let s := mat [(9, 0x40200011)] 0xA0 10 4;
        s.attempts = [] ∧ s.inTx = false ∧ s.accesses = [] ∧ (s.bank s.cur.core).queue = []
          ∧ etypeOf s.etypeCode = some .b1
          ∧ ∃ k parts, s.productPlan s.waveOwner s.matUser s.readByte .mmab 0 1 (s.getS 9) .b1 s.sat = .ok (k, parts))
      ∧ ∃ k, (mat [(9, 0x2000)] 0 4 2).scalePlan (mat [(9, 0x2000)] 0 4 2).waveOwner (mat [(9, 0x2000)] 0 4 2).matUser (mat [(9, 0x2000)] 0 4 2).readByte 3 0
          ((mat [(9, 0x2000)] 0 4 2).getS 9) = .ok k := by
  refine ⟨⟨?_, ?_, ?_, ?_, ?_, ⟨_, _, rfl⟩, ⟨_, _, rfl⟩⟩, ⟨?_, ?_, ?_, ?_, ?_, ⟨_, _, rfl⟩⟩, ok_of _ (by decide +kernel)⟩ <;> decide

/-- A product that has issued, of one row and two columns. -/
def prod : MatOp :=
  { oper := 1, ctx := 5, agent := { core := 0, wave := 0, frag := 0 }, task := 1, carried := none,
    kind := .product 0 1 2 true 1 4 false [(0, [[1, 2, 3]])] [] }

/-- A queued fill. -/
def fill : Fill :=
  { oper := 1, ctx := 5, tag := 7, arr := 0, etype := 4, k := 1, rows := [[(pl 0x1000, .here, 1)]], poisoned := [] }

theorem witness_MatrixProductResults :
    (prod.kind = .product 0 1 2 true 1 4 false [(0, [[1, 2, 3]])] [] ∧ etypeOf 4 = some .i8 ∧ 1 ≤ 8
        ∧ (∀ r ∈ [(0, [[1, 2, 3]])], r.1 < 1) ∧ ([(0, [[1, 2, 3]])].map (fun r : Nat × List (List Nat) => r.1)).Nodup)
      ∧ (let s := { base with banks := [(0, { Bank.reset with queue := [prod], fills := [fill] })] }
        s.attempts = [] ∧ (s.bank 0).queue = [prod] ∧ prod.carried = none ∧ (s.bank 0).fills = [fill]
          ∧ (findAt s.waves prod.agent.waveKey).isSome = true ∧ (s.wvOf prod.agent).task = prod.task)
      ∧ (let s := { base with banks := [(0, { Bank.reset with inactive := fullSet 2 })] }
        s.inTx = false ∧ s.ownsBank 0 s.ctxId = false ∧ s.setsTaken s.matUser = false ∧ (s.bank 0).inactive.st = 2
          ∧ (s.bank 0).queue = []) := by
  decide

theorem witness_AccumulatorMoveResults :
    (base.attempts = [] ∧ base.inTx = false ∧ (base.bank base.cur.core).queue = [])
      ∧ (base.HoldsRegs [(31 : BitVec 6).setWidth 7] ∧ (3 : BitVec 4).toNat < base.seat.accSize ∧ fieldOf (63 : Word) 63 6 = 0
        ∧ fieldOf (31 : Word) 63 5 = 0 ∧ (0 : BitVec 4).toNat + (4 : BitVec 5).toNat ≤ base.seat.accSize)
      ∧ ∃ f, (mat [] 0 10 4).fillPlan (mat [] 0 10 4).matUser 1 0 = .ok f := by
  refine ⟨?_, ?_, fill_plan⟩
  · decide
  · unfold State.HoldsRegs; decide

/-- Both sets with every field at its greatest value, in use by the context. -/
theorem witness_AccumulatorMoveResults_word :
    let x : BankSet := { BankSet.reset with st := 3, tag := 65535, arr := 3, fmt := 7, user := .context 5 }
    let s := { base with banks := [(0, { Bank.reset with active := x, inactive := x })] }
    (s.bank 0).active.user.allows s.matUser = true ∧ (s.bank 0).active.tag < 2 ^ 16 ∧ (s.bank 0).inactive.tag < 2 ^ 16
      ∧ (s.bank 0).active.arr < 4 ∧ (s.bank 0).inactive.arr < 4 ∧ (s.bank 0).active.fmt < 8 ∧ (s.bank 0).inactive.fmt < 8
      ∧ (s.bank 0).inactive.st < 4 := by
  decide

/-- A copy of 64 bytes from 0x100 to 0x240. -/
def copy (status : CopyStatus) : CopyCmd :=
  { id := 1, oper := 1, ctx := 5, agent := { core := 0, wave := 0, frag := 0 }, task := 1, pc := 0, tl := 15, n := 1, fn := 0,
    words := [0x100, 0x240, 64, 0], mr := 0x40, srcTile := none, dstTile := none, status := status, row := 0, sec := 0,
    listed := none, moved := false, poison := none, stamped := false, past := [], holds := [], prior := [],
    carrying := false, carried := false }

/-- A state with one copy command. -/
def copying (c : CopyCmd) : State := { base with copies := [(0, { CopyRow.reset with cmds := [c] })] }

theorem witness_CopyIssueAndStartResults :
    (let s := at' [(60, 0x100), (61, 0x240), (62, 64), (63, 0)] [] 0;
        s.attempts = [] ∧ s.inTx = false ∧ s.copyCheck 0 [0x100, 0x240, 64, 0] = none ∧ s.copyCheck 4 [0, 0x240, 64, 0] = none
          ∧ s.copyCheck 1 [0x100, 0x240, 64, 0, 1, 64, 64] = none ∧ s.copyCheck 2 [0x100, 0x240, 64, 0, 1, 64, 64] = none
          ∧ s.copyCheck 3 [0x100, 0x240, 64, 0, 1, 64, 64] = none
          ∧ carriedOk 0x90002000 = true
          ∧ (List.range 4).map (fun k => s.getS (BitVec.ofNat 6 ((60 : BitVec 6).toNat + k))) = [0x100, 0x240, 64, 0]
          ∧ s.copyRoom s.tk.oper s.cur.core = true ∧ (s.counter s.tk.oper s.cur.core 15).issued < 2 ^ 63 - 1)
      ∧ (let s := { at' [] [] 0 with tiles := [(1, { matTile 4 with state := 1 })] }
        s.copyCheck 5 [0x100, 1, 64, 0x40000000, 1, 64, 0, 0x90002000, 0] = none)
      ∧ (let c := copy .waiting; let s := copying c
        s.nextCopy 0 = some c ∧ s.attempts = [] ∧ (s.copyRow 0).cmds.countP (fun x => x.status == .active) < 4
          ∧ s.copyRefused 0 c = none)
      ∧ (let c := { copy .waiting with words := [0x100, 0x240, 64, 1] }; let s := copying c
        s.nextCopy 0 = some c ∧ s.copyRefused 0 c = some (5, 0) ∧ c.tl < 16) := by
  decide

/-- A carried `mmaz` whose copy part has been performed. -/
def carrier : CopyCmd :=
  { copy .active with fn := 5, words := [0x100, 0x240, 64, 0, 1, 64, 64, 0x90002001, 0x200011], row := 1, moved := true }

theorem witness_CopyIssueAndStartResults_carried :
    ∃ s k parts, s = { mat [] 0 4 2 with copies := [(0, { CopyRow.reset with cmds := [carrier] })] }
      ∧ s.attempts = [] ∧ s.accesses = [] ∧ (s.bank 0).queue = []
      ∧ (s.copyRow 0).cmds.find? (fun x => x.id == carrier.id) = some carrier ∧ carrier.fn = 5
      ∧ (s.seatOf carrier.oper 0).state ≠ .saved ∧ carrier.status = .active ∧ carrier.carrying = false
      ∧ carrier.poison = none ∧ s.copyDone 0 carrier = true ∧ fieldOf (carrier.w 7) 6 0 = 1
      ∧ etypeOf (fieldOf (BitVec.ofNat 64 carrier.mr.toNat) 7 4) = some .i8
      ∧ s.productPlan (carrier.owner 0) (s.copyUser 0 carrier) s.mem.readByte .mmaz (fieldOf (carrier.w 7) 22 19) (fieldOf (carrier.w 7) 18 13)
          (carrier.w 8) .i8 (carrier.mr.getLsbD 10) = .ok (k, parts) := by
  refine ⟨_, _, _, rfl, ?_, ?_, ?_, ?_, ?_, ?_, ?_, ?_, ?_, ?_, ?_, ?_, rfl⟩ <;> decide

theorem witness_CopyTransferResults :
    (let c := copy .active; let s := copying c
        s.attempts = [] ∧ s.accesses = [] ∧ s.mem.poison = [] ∧ s.bridgesDown = []
          ∧ (s.copyRow 0).cmds.find? (s.copyCan 0) = some c ∧ c.fn = 0
          ∧ c.srcTile = none ∧ c.dstTile = none ∧ c.row = 0 ∧ c.sec = 0 ∧ c.w 3 = 0 ∧ 0 < (c.w 2).toNat
          ∧ (c.w 0).toNat % 128 + (c.w 2).toNat ≤ 128 ∧ (c.w 1).toNat % 128 + (c.w 2).toNat ≤ 128
          ∧ s.translate c.oper 0 c.ctx (c.w 0 &&& ~~~127) .read = .ok (pl 0x100, .here) ∧ (pl 0x100).isHost = false
          ∧ s.translate c.oper 0 c.ctx (c.w 1 &&& ~~~127) .write = .ok (pl 0x200, .here)
          ∧ (pl 0x200).isHost = false
          ∧ ∀ j < 128, s.lineLost ((pl 0x200).key + j) = false ∧ s.imageOf ((pl 0x200).plus j) = none)
      ∧ (let c := { copy .active with row := 1, moved := true }; let s := copying c
        s.attempts = [] ∧ (s.copyRow 0).cmds.find? (fun x => x.id == c.id) = some c ∧ c.status = .active
          ∧ s.copyDone 0 c = true ∧ c.poison = none ∧ c.fn ≠ 5 ∧ c.moved = true ∧ c.tl < 16
          ∧ c.srcTile = none ∧ s.writesOut (c.owner 0) = false)
      ∧ (let c := { copy .active with row := 1, moved := true, dstTile := some 1, words := [0x100, 0, 64, 0xC0000100] }
        let s := { copying c with tiles := [(1, { matTile 4 with state := 1 })] }
        s.copyDone 0 c = true ∧ s.writesOut (c.owner 0) = false ∧ (c.w 3).getLsbD 31 = true ∧ c.prior = [] ∧ c.stamped = false
          ∧ (s.tileOf 0 1).failedFills = [] ∧ (s.tileOf 0 1).state = 1 ∧ (s.tileOf 0 1).pendingEmpty = false) := by
  decide +kernel

/-- A counter in error, and one that is not. -/
theorem witness_TimelineResults :
    (Timeline.reset.done = [] ∧ Timeline.reset.fails = [] ∧ Timeline.reset.error = false)
      ∧ (base.inTx = false ∧ base.attempts = [] ∧ (base.counter base.tk.oper base.cur.core 15).issued < 2 ^ 63 - 1
        ∧ (base.counter base.tk.oper base.cur.core 15).error = false)
      ∧ (let s := base.setSeatOf 1 0 { base.seat with counters := Vector.replicate 16 { Timeline.reset with error := true } }
        s.inTx = false ∧ (s.counter s.tk.oper s.cur.core 0).error = true) := by
  decide

/-- A graph image: one link from source 32 to destination 40, no element; a route plane unless it is for `xswap`. -/
def imageOf (slot ov : Nat) (route : Bool) : List Byte :=
  toBytes 64 (1 + slot * 2 ^ 8 + (if route then 2 ^ 12 else 0) + 2 ^ 13 + (if route then 960 else 896) * 2 ^ 16 + 1 * 2 ^ 32
      + ov * 2 ^ 48 + 2 * 2 ^ 64 + 1 * 2 ^ 72 + (if route then 896 * 2 ^ 96 + 16 * 2 ^ 112 else 0) + 64 * 2 ^ 128
      + 832 * 2 ^ 144)
    ++ List.replicate 832 0
    ++ (if route then toBytes 16 (1 + (40 * 2 ^ 8 + 32 * 2 ^ 16 + 2 ^ 28) * 2 ^ 64) ++ List.replicate 48 0 else [])

/-- Memory with bytes at the first pinned line of the scratchpad of the tests, whose other bytes read 0 (R188). -/
def memOf (bs : List Byte) : Memory :=
  { base.mem with
    bytes := (bs.zipIdx.filter (fun x => x.1 ≠ 0)).map (fun x => (scratchKey 1 0 x.2, x.1)) }

/-- A state with an image in its scratchpad, at the address in s9, and room for one custom slot. -/
def imaging (bs : List Byte) : State :=
  { at' [(9, 0x1FFFFFF000000)] [] 0 with mem := memOf bs, churnRes := [(5 * 256, 1)] }

theorem witness_GraphSlotInstructionResults :
    (let s := imaging (imageOf 3 1 true);
        s.inTx = false ∧ s.accesses = []
          ∧ s.readImage (s.getS 9) = .ok (s, imageOf 3 1 true)
          ∧ imageDetail (imageOf 3 1 true) (3 : BitVec 4).toNat false none = 0
          ∧ s.loadedSlots s.cur.core s.ctxId - (if (s.image s.cur.core s.ctxId 3).isSome then 1 else 0)
            < s.storeEntries s.cur.core s.ctxId
          ∧ s.slotQuiet s.cur.core s.ctxId 3 = true ∧ (∀ n ∈ s.parkedOf s.cur.core s.ctxId 3, n.tokens = 0 ∧ n.unfinished = false)
          ∧ imageDetail (imageOf 3 1 true) (15 : BitVec 4).toNat false none ≠ 0 ∧ s.wv.active = false) := by
  decide +kernel

/-- The state with the image loaded in slot 3 of context 5. -/
def loaded (s : State) : State := s.setImage 0 5 3 (loadedImage (imageOf 3 1 true))

theorem witness_GraphSlotInstructionResults_xswap :
    (let s := loaded (imaging (imageOf 3 2 false)); let g := loadedImage (imageOf 3 1 true);
        s.inTx = false ∧ s.accesses = []
          ∧ s.readImage (s.getS 9) = .ok (s, imageOf 3 2 false)
          ∧ s.image s.cur.core s.ctxId 3 = some g ∧ imageDetail (imageOf 3 2 false) 3 true (some g) = 0
          ∧ (loadedImage (imageOf 3 2 false)).rv = g.rv ∧ s.oldTokens s.cur.core s.ctxId 3 g = false
          ∧ (loadedImage (imageOf 3 2 false)).ov ≠ g.ov ∧ g.strm = false)
      ∧ (let g := loadedImage (imageOf 3 1 true);
        imageDetail (imageOf 3 1 false) 3 true (some g) = 0 ∧ (loadedImage (imageOf 3 1 false)).ov = g.ov) := by
  decide +kernel

/-- A graph in which source 32 feeds an element that passes its input on to destination 40, and source 33 an address
generator that reads one word a copy at 0x1000. -/
def graph : ChurnImage :=
  { lat := 3, srcs := 2, dst2 := false, strm := true, fa := 0, fb := 0, fd := 0, f0 := 0, f1 := 0, rv := 1, ov := 1, ovp := 0,
    links := [{ src := 32, dst := 0, input := 0, slots := 2, init := false, iv := 0 },
      { src := 0, dst := 40, input := 0, slots := 2, init := false, iv := 0 },
      { src := 33, dst := 24, input := 0, slots := 2, init := false, iv := 0 }],
    units := [],
    plane := [toBytes 32 1] ++ List.replicate 23 (toBytes 32 0)
      ++ [toBytes 32 (0x20 + 2 ^ 16 + 2 ^ 32 + 2 ^ 48 + 0x1000 * 2 ^ 64), toBytes 32 0],
    prev := [], mism := false }

/-- A token. -/
def tok : LinkItem := .token 5 0 1 false

/-- An `xop` of the wave of the tests that writes v31 in all lanes. -/
def rec : XopRec :=
  { id := 9, agent := { core := 0, wave := 0, frag := 0 }, task := 1, pc := 0, regs := [31], guarded := List.range 32,
    round := 0, past := [], holds := [], done := false }

/-- The open invocation of the wave of the tests. -/
def invocation : Invocation := { num := 0, owner := 0, task := 1, ov := 1, marked := false, xops := [rec], flags := [] }

/-- A churn's network of the graph with items on its links and at its sources. -/
def net (queues pend : Tab (List LinkItem)) (outs : Tab (List (Lane × Lane))) : Net :=
  { ctx := 5, slot := 3, queues := queues, pend := pend, passed := [], fired := [], popped := [], outs := outs, outMarks := [],
    invs := [invocation], nextInv := 1, ags := [AgState.reset, AgState.reset] }

/-- A state whose churn 3 holds the network. -/
def churning (n : Net) : State := (base.setImage 0 5 3 graph).setNet 0 3 n

theorem witness_GraphSlotInstructionResults_others :
    base.image base.cur.core base.ctxId 15 = none
      ∧ (let s := base.setImage 0 5 3 graph;
        s.image 0 5 3 ≠ none ∧ (s.churnRow 0).parked = [] ∧ s.slotQuiet 0 5 3 = true ∧ s.netsOf 0 5 3 = [])
      ∧ (let n := net [] [] []; let s := churning n
        s.image 0 5 3 = some graph ∧ s.ownParked 3 = none ∧ (s.churn 0 3).net = some n ∧ n.ctx = s.ctxId
          ∧ n.ownedBy s.cur.waveKey s.wv.task = true) := by
  decide

/-- A parked invocation without tokens, and an image with every number of the slot's word at the end of its field. -/
theorem witness_GraphSlotInstructionResults_parked :
    (let n := { net [] [] [] with invs := [{ invocation with xops := [] }] }; let s := base.setChurnRow 0 { base.churnRow 0 with parked := [n] }
      n ∈ s.parkedOf 0 5 3 ∧ n.tokens = 0 ∧ n.unfinished = false)
      ∧ (let g := { graph with rv := 65535, ov := 65535, ovp := 65535, srcs := 3, lat := 127 }; let s := base.setImage 0 5 15 g
        s.image 0 5 15 = some g ∧ g.rv < 2 ^ 16 ∧ g.ov < 2 ^ 16 ∧ g.ovp < 2 ^ 16 ∧ g.srcs < 4 ∧ g.lat < 128) := by
  decide

theorem witness_GraphOperationResults :
    (let s := base.setImage 0 5 3 graph;
        s.image s.cur.core s.ctxId 3 = some graph ∧ s.inTx = false ∧ graph.dst2 = false
          ∧ s.chooseChurn 3 graph = some (0, some none))
      ∧ (let s := churning (net [] [] []); s.chooseChurn 3 graph = some (3, none))
      ∧ base.HoldsRegs [0, 1, 31] ∧ base.image base.cur.core base.ctxId 0 = none ∧ base.TrapFree := by
  unfold State.HoldsRegs State.TrapFree; decide

theorem witness_GraphEventResults :
    (let n := net [(15, [tok])] [] []; let s := churning n
        (s.churn 0 3).net = some n ∧ s.image 0 n.ctx n.slot = some graph ∧ (graph.into 0).find? (n.stale 15) = none
          ∧ n.canFire graph 15 0 = true)
      ∧ (let n := net [] [(15, [tok])] [];
        n.pendAt 32 15 = [tok] ∧ tok.isToken = true ∧ n.roomOut graph 15 32 = true)
      ∧ (let n := net [] [] []; let s := churning n; (s.churnRow 0).parked = [] ∧ (s.churn 0 3).net = some n)
      ∧ (let n := net [] [] []; let s := { churning n with
            cycle := 1024, frags := [(0, { frag [] [] 0 with churnWait := some 0 })] }
        (∃ x ∈ s.frags, (fragIdOf x.1).core = 0 ∧ ∃ c, x.2.churnWait = some c ∧ c + 1024 ≤ s.cycle) ∧ s.idlest 0 = some 3
          ∧ s.replyCount 0 3 = 0) := by
  refine ⟨by decide, by decide, by decide, ⟨_, List.mem_singleton.mpr rfl, by decide, 0, by decide, by decide⟩, by decide, by decide⟩

/-- The first page of context 5 as the hub translates it. -/
def hubPage : TlbEntry :=
  { core := hubCore, ctx := 5, va := 0, size := 65536, pa := 0, keyId := 1, kind := 0, cached := true, exec := false,
    write := true, read := true, home := 0, missing := none }

/-- What the save area of context 5 has for a core lies in HBM, or in pages of the host that have to be asked for. -/
theorem witness_GraphEventResults_park :
    (let s := { base with tlb := [{ hubPage with size := 2 ^ 30 }] };
      s.saveStop 5 (s.saveRest 5 0) = none)
      ∧ (let s := { base with tlb := [{ hubPage with size := 2 ^ 30, pa := hostBase }] }
        (s.saveStop 5 (s.saveRest 5 0)).isSome = true) := by
  decide +kernel

/-- An address generator that can read, with a token for it in every lane copy. -/
theorem witness_GraphEventResults_read :
    ∃ (s : State) (n : Net) (xs : List (Place × Target)) (x : Option XopRec),
      n = net ((List.range 16).map (fun c => (32 + c, [tok]))) [] [] ∧ s = churning n ∧ (s.churn 0 3).net = some n
      ∧ s.image 0 n.ctx n.slot = some graph
      ∧ x = (n.inv (n.passedAt 24 0)).bind (fun w => w.xopOf (n.firedAt 24 0))
      ∧ entryOp (entryAt (graph.planeFor 1) 24) = 0x20 ∧ n.versionAt graph 0 = 1 ∧ (n.ag 0).stopped = none
      ∧ (n.ag 0).abandoned = false ∧ (n.ag 0).over (entryAt graph.plane 24) = false ∧ s.accesses = [] ∧ s.bridgesDown = []
      ∧ (∀ c < 16, (graph.into 24).find? (n.stale c) = none ∧ (graph.into 24).all (n.ready c) = true
        ∧ n.roomOut graph c 24 = true)
      ∧ agAddress (entryAt graph.plane 24) (n.ag 0) = 0x1000 ∧ aligned 0x1000 4 = true
      ∧ s.xlateEngine { oper := (x.map (fun r => (s.taskOf r.agent).oper)).getD 0, core := 0, ctx := n.ctx, boarded := 0 }
          (distinctWords (((upFrom 0 64).map (fun k => (0x1000 : Word) + BitVec.ofNat 64 k)).map sectorVa)) .read = .ok xs
      ∧ s.allFetched (agOwner 0 3 0 n x)
          (placesIn ((distinctWords (((upFrom 0 64).map (fun k => (0x1000 : Word) + BitVec.ofNat 64 k)).map sectorVa)).zip xs)
            ((upFrom 0 64).map (fun k => (0x1000 : Word) + BitVec.ofNat 64 k))) = true
      ∧ (placesIn ((distinctWords (((upFrom 0 64).map (fun k => (0x1000 : Word) + BitVec.ofNat 64 k)).map sectorVa)).zip xs)
          ((upFrom 0 64).map (fun k => (0x1000 : Word) + BitVec.ofNat 64 k))).any (s.enginePoison (agOwner 0 3 0 n x)) = false := by
  refine ⟨_, _, [(pl 0x1000, .here)], _, rfl, rfl, ?_, ?_, rfl, ?_, ?_, ?_, ?_, ?_, ?_, ?_, ?_, ?_, ?_, ?_, ?_, ?_⟩ <;> decide +kernel

/-- An `xop` both of whose tokens have arrived in every lane copy. -/
theorem witness_GraphEventResults_complete :
    ∃ (s : State) (n : Net), n = { net [] [] ((List.range 16).map (fun c => (c, [(7, 0), (8, 0)]))) with
          fired := (List.range 16).map (fun c => (c, 2)) ++ [(24 * 16, 2)] }
      ∧ s = churning n ∧ n.findXop 9 = some (invocation, 0, rec) ∧ graph.dst2 = false ∧ rec.regs = [rec.regs.headD 0]
      ∧ rec.regs.headD 0 < 128 ∧ (∀ k < 4, k ≠ 3 → ((s.churn 0 k).net).isNone = true) ∧ s.xopWave rec = true
      ∧ n.arrived graph 0 0 = true ∧ n.agsDone graph 0 0 = true ∧ n.settled graph 0 0 = true
      ∧ s.replyCount 0 3 = 0 := by
  refine ⟨_, _, rfl, rfl, ?_, ?_, ?_, ?_, ?_, ?_, ?_, ?_, ?_, ?_⟩ <;> decide +kernel

theorem witness_BoardingInstructionResults :
    (let s := at' [(9, 0xF0F)] [] 0;
        s.inTx = false ∧ s.tk.oper ≠ 0 ∧ fieldOf (s.getS 9) 5 0 = 15 ∧ fieldOf (s.getS 9) 11 8 = 15
          ∧ findAt s.rounds 15 = none ∧ fieldOf (s.getS 9) 63 16 = 0 ∧ s.seat.boarded = 0
          ∧ ∀ x ∈ s.seatsOf s.tk.oper, x.2.boarded = 0)
      ∧ (let s := (at' [(9, 7)] [] 0).setSeatOf 1 0 { base.seat with boarded := 16 }
        s.seat.boarded ≠ 0 ∧ s.seat.leaving = false ∧ s.tk.aboard = false ∧ (∃ x ∈ s.seatsOf s.tk.oper, x.2.boarded ≠ 0)
          ∧ ∀ k, (s.bank s.cur.core).active.user ≠ .context k)
      ∧ (let s := { (at' [(9, 7)] [] 0).setSeatOf 1 0 { base.seat with boarded := 16 } with
            banks := [(0, { Bank.reset with active := { BankSet.reset with st := 2, tag := 7, user := .round 15 } })] }
        (s.bank s.cur.core).inactive.st ≠ 2 ∧ (s.bank s.cur.core).active.st = 2
          ∧ (s.bank s.cur.core).active.user = .round (s.seat.boarded - 1)
          ∧ (s.bank s.cur.core).active.tag = fieldOf (s.getS 9) 15 0)
      ∧ (fieldOf (0x400 : Word) 63 10 ≠ 0 ∧ fieldOf (0xC0 : Word) 7 6 = 3 ∧ fieldOf (0x140 : Word) 9 8 ≠ 0 ∧ fieldOf (0x140 : Word) 7 6 ≠ 2
        ∧ fieldOf (63 : Word) 9 6 = 0 ∧ fieldOf (0x3BF : Word) 7 6 = 2 ∧ fieldOf (0x40 : Word) 63 8 = 0 ∧ fieldOf (0x40 : Word) 7 6 = 1)
      ∧ (let r := { Round.reset with ctx := 5, pos := 65535, ltag := 65535 }
        let s := ({ base with rounds := [(63, r)] } : State).setSeatOf 1 0 { base.seat with boarded := 64, stop := 15 }
        findAt s.rounds (fieldOf (63 : Word) 5 0) = some r ∧ r.ctx = s.ctxId ∧ r.pos < 2 ^ 16 ∧ r.ltag < 2 ^ 16
          ∧ s.seat.boarded ≤ 64 ∧ s.seat.stop < 16) := by
  refine ⟨by decide, ⟨by decide, by decide, by decide, ⟨_, List.mem_singleton.mpr rfl, by decide⟩, ?_⟩, by decide, by decide, by decide⟩
  intro k h
  cases h

/-- A block entry of b1 at 0x1000 for macro 0, and an end-of-group entry of tag 7. -/
def blockEntry : BitVec 256 := BitVec.ofNat 256 (4 * 2 ^ 55 + 0x1000 * 2 ^ 192)
def endEntry : BitVec 256 := BitVec.ofNat 256 (2 ^ 62 + 7 * 2 ^ 128)

/-- Round 15 of context 5 at one of its entries, with the group on some cores. -/
def round (pos : Nat) (group : Option (List Nat)) : Round :=
  { Round.reset with
    ctx := 5, stopv := 1, passlim := 1, entries := [blockEntry, endEntry], pos := pos, group := group }

/-- The operator of the tests boarded on round 15. -/
def riding (r : Round) (leaving own : Bool) (inactive : Nat) : State :=
  { base with
    rounds := [(15, r)]
    seats := [(256, { base.seat with boarded := 16, leaving := leaving })]
    banks := [(0, { Bank.reset with own := own, inactive := { BankSet.reset with st := inactive } })] }

theorem witness_MilkRoundEvents :
    (let s := riding (round 0 none) false false 0;
        s.attempts = [] ∧ s.boardedSeats 0 ≠ [] ∧ (s.bank 0).own = false ∧ (s.bank 0).fills = [] ∧ (s.bank 0).pend = 0)
      ∧ (let s := riding (round 0 none) true true 0;
        getAt 0 s.slotMap 0 = 1 ∧ (s.seatOf 1 0).held = true ∧ (s.seatOf 1 0).leaving = true ∧ (s.seatOf 1 0).boarded ≠ 0
          ∧ s.aboardOn 0 1 = false ∧ (s.bank 0).own = true)
      ∧ (let s := { (riding (round 0 none) true false 0) with
            seats := [(256, { base.seat with boarded := 16, leaving := true }), (512, { base.seat with boarded := 16, slot := 1 })] }
        (s.seatOf 1 0).held = true ∧ (s.seatOf 1 0).leaving = true ∧ 1 < (s.boardedSeats 0).length)
      ∧ (let r := { round 0 none with skipen := true, latchDue := false, latched := 0,
                                      entries := [blockEntry ||| BitVec.ofNat 256 (2 ^ 87), endEntry] }
        let s := riding r false true 0;
        s.movingRound 15 = some (r, r.entries.getD 0 0) ∧ r.group = none ∧ r.since = none
          ∧ s.skips 15 r.latch (r.entries.getD 0 0) = true)
      ∧ (let r := round 0 none; let s := riding r false true 2;
        s.movingRound 15 = some (r, blockEntry) ∧ r.since = none ∧ s.skips 15 r.latch blockEntry = false
          ∧ (s.servedBy 15 (entryStop blockEntry)).all s.takesGroup = false)
      ∧ (let r := round 0 none; let s := riding r false true 0;
        s.movingRound 15 = some (r, blockEntry) ∧ s.skips 15 r.latch blockEntry = false
          ∧ s.servedBy 15 (entryStop blockEntry) = [0] ∧ [0].all s.takesGroup = true)
      ∧ (let r := { round 0 none with since := some 0 }; let s := { riding r false true 2 with cycle := 1024 };
        s.movingRound 15 = some (r, blockEntry) ∧ r.limit ≠ 0 ∧ 0 + r.limit ≤ s.cycle)
      ∧ (let r := round 1 (some [0]); let s := riding r false true 1;
        s.movingRound 15 = some (r, endEntry) ∧ [0].Nodup ∧ endsGroup endEntry = true)
      ∧ (let s := riding (round 0 none) false true 2;
        (s.bank 0).own = true ∧ (s.bank 0).inactive.st = 2 ∧ (s.bank 0).queue = [] ∧ (s.bank 0).ownSwap = none
          ∧ ∀ x ∈ s.tasks, x.2.core = 0 → x.2.aboard = false) := by
  decide

/-! ### A block that decodes -/

/-- Byte i of the block: the header of a raw block of 2,048 bytes, then four bytes of ones, then zeros, whose checksum is all
ones. -/
def blockByte (i : Nat) : Byte :=
  if i < 64 then (toBytes 64 (4 * 2 ^ 8 + 2048 * 2 ^ 32 + 2048 * 2 ^ 64 + 0xFFFFFFFF * 2 ^ 256)).getD i 0
  else if i < 68 then 0xFF else 0

/-- A byte of a run listed from an address on. -/
theorem find_run {α : Type} (f : Nat → α) (a i : Nat) (l : List Nat) (h : i ∈ l) :
    findAt (l.map (fun k => (a + k, f k))) (a + i) = some (f i) := by
  induction l with
  | nil => cases h
  | cons k r ih =>
    simp only [List.map_cons, findAt]
    by_cases hk : k = i
    · simp [hk]
    · rw [if_neg (by omega), ih ((List.mem_cons.mp h).resolve_left (Ne.symm hk))]

/-- Memory with the first bytes of the block at 0x1000, written under key id 1. -/
def blockMem (n : Nat) : Memory :=
  { base.mem with
    bytes := (List.range n).map (fun i => (0x1000 + i, blockByte i)),
    keys := (List.range n).map (fun i => (0x1000 + i, 1)) }

/-- The round delivers its block to core 0. -/
def delivering : State :=
  { riding (round 0 (some [0])) false true 1 with
    mem := blockMem 2176
    tlb := [{ core := hubCore, ctx := 5, va := 0, size := 65536, pa := 0, keyId := 1, kind := 0, cached := true, exec := false,
              write := false, read := true, home := 0, missing := none }] }

theorem delivering_mem : delivering.mem = blockMem 2176 := by unfold delivering; rfl

theorem block_byte (n i : Nat) (h : i < n) (p : Place) (hk : p.key = 0x1000 + i) (hi : p.keyId = 1) :
    (blockMem n).readByte p = blockByte i := by
  have hm := List.mem_range.mpr h
  have h1 : findAt (blockMem n).bytes p.key = some (blockByte i) := by
    rw [hk]; exact find_run blockByte 0x1000 i (List.range n) hm
  have h2 : findAt (blockMem n).keys p.key = some 1 := by
    rw [hk]; exact find_run (fun _ => 1) 0x1000 i (List.range n) hm
  simp [Memory.readByte, h1, getAt, h2, hi]

/-- A sector of the block. -/
def blockPlace (k : Nat) : Place :=
  { key := 0x1000 + 128 * k, keyId := 1, kind := 0, cached := true, va := BitVec.ofNat 64 (0x1000 + 128 * k), home := 0 }

theorem block_sectors : ∀ k < 17, delivering.hbmSector (round 0 (some [0])) blockEntry k = .ok (blockPlace k, .here) := by
  decide +kernel

theorem collect_run {β : Type} (f : Nat → Except BlockRead β) (g : Nat → β) (l : List Nat) (h : ∀ k ∈ l, f k = .ok (g k)) :
    collect f l = .ok (l.map g) := by
  induction l with
  | nil => rfl
  | cons k r ih =>
    simp [collect, h k (List.mem_cons_self ..), ih (fun j hj => h j (List.mem_cons_of_mem _ hj))]

/-- A sector of the block as it is read. -/
theorem block_sector (k : Nat) (h : k < 17) : delivering.sectorNow 15 (round 0 (some [0])) blockEntry 0xFFFF k
    = .ok ((List.range 128).map (fun i => blockByte (128 * k + i)), false) := by
  unfold State.sectorNow
  have h0 : (round 0 (some [0])).sampled = [] := rfl
  have h1 : delivering.blockSector (round 0 (some [0])) blockEntry 0xFFFF k = .ok (blockPlace k, .here) := block_sectors k h
  simp only [h0, List.find?_nil, h1]
  rw [allFetched_here delivering _ (by rfl) _ (fun p hp => by obtain ⟨i, -, rfl⟩ := List.mem_map.mp hp; rfl)]
  have hb : ∀ i < 128, delivering.mem.readByte ((blockPlace k).plus i) = blockByte (128 * k + i) := by
    intro i hi
    have h2 : ((blockPlace k).plus i).key = 0x1000 + (128 * k + i) := by simp only [Place.plus, blockPlace]; omega
    rw [delivering_mem, block_byte 2176 (128 * k + i) (by omega) _ h2 rfl]
  have hp : ∀ x, delivering.mem.poisoned x = false := fun x => by rw [delivering_mem]; rfl
  simp only [Bool.not_true, Bool.false_eq_true, if_false, List.map_map, List.any_map, Function.comp_def]
  have h3 : (List.range 128).map (fun i => delivering.engineByte (Round.owner 15 (round 0 (some [0]))) delivering.mem.readByte
      ((blockPlace k).plus i, .here)) = (List.range 128).map (fun i => blockByte (128 * k + i)) :=
    List.map_congr_left (fun i hi => hb i (List.mem_range.mp hi))
  have h4 : (List.range 128).any (fun i => delivering.enginePoison (Round.owner 15 (round 0 (some [0])))
      ((blockPlace k).plus i, .here)) = false :=
    List.any_eq_false.mpr (fun i _ => by simp [State.enginePoison, hp])
  rw [h3, h4]

theorem block_bytes (first n : Nat) (h : (first + n + 127) / 128 ≤ 17) :
    delivering.blockBytes 15 (round 0 (some [0])) blockEntry 0xFFFF first n
      = .ok ((((upFrom (first / 128) ((first + n + 127) / 128 - first / 128)).flatMap
        (fun k => (List.range 128).map (fun i => blockByte (128 * k + i)))).drop (first % 128)).take n, false) := by
  have hl : ∀ k ∈ upFrom (first / 128) ((first + n + 127) / 128 - first / 128), k < 17 := by
    intro k hk
    obtain ⟨j, hj, rfl⟩ := List.mem_map.mp hk
    have := List.mem_range.mp hj
    omega
  unfold State.blockBytes
  simp only [collect_run _ (fun k => ((List.range 128).map (fun i => blockByte (128 * k + i)), false)) _
    (fun k hk => block_sector k (hl k hk)), List.flatMap_map, List.any_map]
  refine congrArg Except.ok (Prod.ext rfl ?_)
  exact List.any_eq_false.mpr (fun _ _ => by simp)

theorem crc_zeros (n : Nat) : (List.replicate n (0 : Byte)).foldl (fun c b =>
    (List.range 8).foldl (fun x _ => if x % 2 = 1 then (x / 2) ^^^ 0x82F63B78 else x / 2) (c ^^^ b.toNat)) 0 = 0 := by
  induction n with
  | zero => rfl
  | succ n ih =>
    rw [List.replicate_succ, List.foldl_cons]
    exact ih

theorem block_crc : crc32c ([0xFF, 0xFF, 0xFF, 0xFF] ++ List.replicate 2044 0) = 0xFFFFFFFF := by
  have h : ([0xFF, 0xFF, 0xFF, 0xFF] : List Byte).foldl (fun c b =>
    (List.range 8).foldl (fun x _ => if x % 2 = 1 then (x / 2) ^^^ 0x82F63B78 else x / 2) (c ^^^ b.toNat)) 0xFFFFFFFF = 0 := by
    decide
  rw [crc32c, List.foldl_append, h, crc_zeros, Nat.zero_xor]

theorem block_coded : (((upFrom (64 / 128) ((64 + 2048 + 127) / 128 - 64 / 128)).flatMap
    (fun k => (List.range 128).map (fun i => blockByte (128 * k + i)))).drop (64 % 128)).take 2048
      = [0xFF, 0xFF, 0xFF, 0xFF] ++ List.replicate 2044 0 := by
  decide +kernel

theorem block_head : headerOf ((((upFrom (0 / 128) ((0 + 64 + 127) / 128 - 0 / 128)).flatMap
    (fun k => (List.range 128).map (fun i => blockByte (128 * k + i)))).drop (0 % 128)).take 64)
      = { crc := 0xFFFFFFFF, lenb := 0, lena := 0, hlen := 0, codedLen := 2048, rawLen := 2048, fmt := 4, codec := 0,
          reserved := false } := by
  decide +kernel

/-- A block whose parts are read and fit is good. -/
theorem readBlock_ok (s : State) (n : Nat) (r : Round) (e : BitVec 256) (core : Nat) (hb coded raw : List Byte) (h : BlockHeader)
    (h1 : s.blockBytes n r e core 0 64 = .ok (hb, false)) (h2 : headerOf hb = h) (h3 : h.fits e = true)
    (h4 : s.blockBytes n r e core 64 h.codedLen = .ok (coded, false)) (h5 : h.decode coded = .ok raw)
    (h6 : crc32c raw = h.crc) : s.readBlock n r e core = .good raw (64 + h.codedLen) := by
  subst h2
  unfold State.readBlock
  simp only [h1, h3, h4, h5, h6, Bool.not_true, Bool.false_eq_true, if_false, if_true]

theorem witness_MilkRoundEvents_block :
    delivering.attempts = [] ∧ delivering.movingRound 15 = some (round 0 (some [0]), blockEntry) ∧ endsGroup blockEntry = false
      ∧ creamOf blockEntry = false ∧ ∃ raw k, delivering.readBlock 15 (round 0 (some [0])) blockEntry 0xFFFF = .good raw k := by
  refine ⟨by decide, by decide, by decide, by decide, _, _,
    readBlock_ok _ _ _ _ _ _ _ ([0xFF, 0xFF, 0xFF, 0xFF] ++ List.replicate 2044 0) _ (block_bytes 0 64 (by decide))
      block_head (by decide) (block_bytes 64 2048 (by decide)) ?_ block_crc⟩
  rw [block_coded]
  rfl


/-! ### Records -/

/-- The address of row 0 of the record block of handle 0 on the executing core (R345). -/
def rowVa : Word := 0x1FFFFFF000000

/-- A record's bytes: KIND 2 and K expert slots, routed to experts with gates of 1. -/
def recImage (k : Nat) : List Byte :=
  toBytes 40 (2 * 2 ^ 64 + k * 2 ^ (256 + 40)) ++ (List.range k).flatMap (fun i => toBytes 8 (0x3F800000 * 2 ^ 32 + 2 ^ 16 + i))

/-- A live row of record 7 of context 5. -/
def liveRow : LiveRow := { row := 0, w0 := mkWord0 7 0 0 false false false, ctx := 5 }

/-- A state with bytes in row 0 of handle 0, live or not, and queue 3 of context 5. -/
def tokens (ss : List (BitVec 6 × Word)) (bs : List Byte) (live : List LiveRow) (q : TokenQueue) : State :=
  { at' ss [] 0 with
    mem := memOf bs, queues := [(3, q)], tiles := [(0, { TileEntry.reset with live := live })] }

/-- A queue of context 5 within reach of core 0. -/
def queue5 : TokenQueue := { TokenQueue.reset with ctx := 5 }

/-- A queue with one record in its store. -/
def queueOne : TokenQueue :=
  { queue5 with store := [{ record := mkWord0 7 0 0 false false false :: 2 :: List.replicate 14 0, stamp := 0, len := none }] }

theorem witness_RecordInstructionResults :
    (∃ bytes w0, let s := tokens [(9, rowVa), (10, 3)] (recImage 0) [] queue5;
        s.inTx = false ∧ s.accesses = [] ∧ s.attempts = [] ∧ rowVa.toNat % 128 = 0 ∧ s.waveRead rowVa = .ok (s, bytes)
          ∧ malformed (wordsOf bytes 16) = none ∧ s.queueOk s.ctxId s.cur.core 3 = true
          ∧ w0 = mkWord0 (s.nextId s.ctxId) 0 0 false false
            (parentOf (wordsOf bytes 16) != 0 && s.idCancelled s.ctxId (parentOf (wordsOf bytes 16)))
          ∧ s.liveCount s.ctxId < (s.ctxOf s.ctxId).liveLimit ∧ (s.queue 3).spill = []
          ∧ (s.queue 3).store.length < (s.queue 3).cap)
      ∧ (let s := { tokens [(9, rowVa), (10, 3)] (recImage 0) [] queueOne with
            contexts := [(5, { Context.reset with keyId := 1, liveLimit := 1 })] }
        (s.ctxOf s.ctxId).liveLimit ≤ s.liveCount s.ctxId)
      ∧ (∃ r, let s := tokens [(9, rowVa), (10, 3)] (recImage 0) [liveRow] queue5;
        s.rowAt rowVa = some r ∧ s.queueOk s.ctxId s.cur.core 3 = true ∧ malformed (s.rowRecord r) = none
          ∧ isCancelled r.live.w0 = false ∧ (s.queue 3).join = false ∧ (s.queue 3).spill = []
          ∧ (s.queue 3).store.length < (s.queue 3).cap ∧ (s.getS 10).getLsbD 7 = false)
      ∧ (let s := tokens [(9, 8)] (recImage 0) [liveRow] queue5; s.rowAt (s.getS 9) = none ∧ s.TrapFree)
      ∧ (let s := tokens [(9, 3)] (recImage 0) [] queueOne; let e := s.tileAt 1; let p := popPick (s.queue 3).store
        s.handleOk 1 = true ∧ e.task = false ∧ e.live = [] ∧ s.queueOk s.ctxId s.cur.core 3 = true ∧ p.order ≠ []) := by
  refine ⟨⟨_, _, ?_, ?_, ?_, ?_, rfl, ?_, ?_, rfl, ?_, ?_, ?_⟩, ?_, ⟨_, rfl, ?_⟩, ?_, ?_⟩ <;>
    first | decide +kernel | (unfold State.TrapFree; decide +kernel)

/-- A route block of one entry: expert 4 to queue 3, and queue 3 as the fallback. -/
def routeBlock : List Byte := toBytes 8 (3 + 2 ^ 16) ++ toBytes 8 (4 + 3 * 2 ^ 16 + 0x3F800000 * 2 ^ 32)

/-- The row of a record at 0x1FFFFFF000000 and the route block in the line after it, with expert 4 present. -/
def routing : State :=
  { tokens [(9, rowVa), (10, rowVa + 128)] (recImage 0 ++ List.replicate 88 0 ++ routeBlock) [liveRow] queue5 with
    contexts := [(5, { Context.reset with keyId := 1, liveLimit := 100, experts := [(4, 0x80000000)] })] }

theorem routing_read : ∃ bytes, routing.waveRead (routing.getS 10) = .ok (routing, bytes)
    ∧ wordsOf bytes 16 = wordsOf (routeBlock ++ List.replicate 112 0) 16 := ⟨_, rfl, by decide +kernel⟩

theorem witness_RoutingAndCombineResults :
    (∃ r bytes blk base v, let s := routing;
        blk = wordsOf bytes 16 ∧ s.inTx = false ∧ s.accesses = [] ∧ s.attempts = [] ∧ s.stalled = false ∧ s.deferring = false
          ∧ s.bridgesDown = [] ∧ s.fr.status = .ready ∧ (s.getS 10).toNat % 128 = 0 ∧ s.rowAt (s.getS 9) = some r
          ∧ s.waveRead (s.getS 10) = .ok (s, bytes) ∧ s.routeOk s.ctxId blk = true
          ∧ (∀ q ∈ routeFallback blk :: (routeEntries blk).map (·.queue), s.queueOk s.ctxId s.cur.core q = true)
          ∧ malformed (s.rowRecord r) = none ∧ isCancelled r.live.w0 = false
          ∧ (List.range (routeEntries blk).length).filter
              (fun i => s.expertFull s.ctxId ((((routeEntries blk)[i]?).map (·.expert)).getD 0)) = []
          ∧ base = routeRecord (s.rowRecord r) (routeEntries blk) []
          ∧ s.pushRecords [(3, copyFor (stampRecord (hopped (base.getD 0 0)) base) 0)] = .ok v
          ∧ s.liveCount s.ctxId + (1 - 1) ≤ (s.ctxOf s.ctxId).liveLimit ∧ v.attempts = []) := by
  obtain ⟨bytes, hr, hw⟩ := routing_read
  refine ⟨_, bytes, _, _, _, rfl, ?_, ?_, ?_, ?_, ?_, ?_, ?_, ?_, rfl, hr, ?_, ?_, ?_, ?_, ?_, rfl, rfl, ?_, ?_⟩ <;>
    first | decide +kernel | (rw [hw]; decide +kernel)

theorem witness_RoutingAndCombineResults_cancel :
    (let s := tokens [(9, 8)] (recImage 0) [] queueOne; fieldOf (s.getS 9) 63 32 = 0 ∧ s.borne s.ctxId (s.getS 9).toNat = false)
      ∧ (let s := tokens [(9, 7)] (recImage 0) [] queueOne;
        fieldOf (s.getS 9) 63 32 = 0 ∧ s.borne s.ctxId (s.getS 9).toNat = true)
      ∧ (let s := tokens [(9, rowVa)] [] [] queueOne;
        ∃ xs, s.xlateAll ((List.range 8).map (fun k => s.getS 9 + BitVec.ofNat 64 (128 * k))) .write = .ok xs
          ∧ ∀ x ∈ xs, x.2 = .here ∧ s.Reachable (placesFrom x.1 128)) := by
  refine ⟨by decide, by decide, _, rfl, ?_⟩
  unfold State.Reachable
  decide +kernel

/-- A record with no expert slot at 0x1FFFFFF000000, an output row of 64 elements after it. -/
theorem witness_RoutingAndCombineResults_comb :
    ∃ xs bytes row f, let s := tokens [(9, rowVa), (10, rowVa), (11, 64), (12, rowVa + 128)] (recImage 0) [] queue5
      let r := wordsOf bytes 16
      leastMisaligned [s.getS 9, s.getS 10, s.getS 12] = none ∧ fieldOf (s.getS (10 + 1)) 15 0 = 64
        ∧ fieldOf (s.getS (10 + 1)) 63 16 = 0 ∧ s.waveRead (s.getS 9) = .ok (s, bytes)
        ∧ (r.getD 1 0).getLsbD 7 = false ∧ bodyOk r = true
        ∧ (List.range (slotsOf r)).filter (fun k => statOf r k == 1 || statOf r k == 3) = []
        ∧ s.xlateAll ((([] : List Nat).map (fun k => sectorRun (s.getS 10 + BitVec.ofNat 64 (2 * 64 * k)) (2 * 64))).flatten)
            .read = .ok []
        ∧ s.xlateAll (sectorRun (s.getS 12) (2 * 64)) .write = .ok xs
        ∧ (∀ x ∈ xs, x.2 = .here ∧ s.Reachable (placesFrom x.1 128))
        ∧ combRow false s.rounding 64 [] [] = (row, f) := by
  refine ⟨_, _, _, _, ?_, ?_, ?_, rfl, ?_, ?_, ?_, ?_, rfl, ?_, rfl⟩ <;>
    first | decide +kernel | (unfold State.Reachable; decide +kernel)

/-- A chain with one pair, of a wave or of none. -/
def chained (o : Option (Nat × Nat)) (last : Nat) : Chain :=
  { Chain.reset with owner := o, k := 4, pairs := [(0x3F800000, 7)], lastPut := last }

theorem witness_SkimmerAndRefillResults :
    (∃ c, base.inTx = false ∧ base.chainFor = some c ∧ base.HoldsRegs [2, 3])
      ∧ (∃ o since, let s := { base with chains := [(0, chained (some (5, 9)) 0)], cycle := 300, frags := [(0, { frag [] [] 0 with skimWait := some 10 })] };
        let f := s.cur;
        (s.chain 0).owner = some o ∧ (s.frOf f).skimWait = some since ∧ f.core = 0 ∧ o.1 ≠ f.waveKey ∧ since + 256 ≤ s.cycle
          ∧ (s.chain 0).lastPut + 256 ≤ s.cycle)
      ∧ (∃ e rest p, let s := { base with
            queues := [(3, { queue5 with spBase := 0x2000, spCap := 4, spill := [{ w0 := liveRow.w0, parent := 0, stamp := 0, pos := 1 }] })],
            tlb := hubPage :: base.tlb };
        s.attempts = [] ∧ (s.queue 3).spill = e :: rest ∧ (s.queue 3).store.length < (s.queue 3).cap
          ∧ s.spillPlace 3 e.pos .read = .ok p ∧ s.writesOut (s.queueOwner 3) = false ∧ s.accesses = [] ∧ ∀ y ∈ placesFrom p.1 128, s.mem.poisoned y.key = false) := by
  refine ⟨⟨_, ?_, rfl, ?_⟩, ⟨_, _, rfl, rfl, ?_, ?_, ?_, ?_⟩, ⟨_, _, _, ?_, rfl, ?_, rfl, ?_⟩⟩ <;>
    first | decide +kernel | (unfold State.HoldsRegs; decide +kernel)

/-- The record of a packet to queue 3 without a row. -/
def packet : Flight :=
  { id := 1, wave := 0, core := 0, remote := none, stream := streamKey 5 0 0 0 5, flits := 3, queue := 3, ctx := 5, rowAddr := 0, row := [],
    record := liveRow.w0 :: 2 :: List.replicate 14 0, rowDone := true, stopped := none }

/-- A live row, and an open stream to queue 3 of this chip. -/
def sending : State :=
  { tokens [(9, rowVa), (10, 3)] (recImage 0) [liveRow] queue5 with
    streams := [{ graph := 0, ctx := 5, core := 0, chip := 0, queue := 3, die := 0, dstCtx := 5 }] }

theorem witness_BridgeEngineResults :
    (∃ r k bytes, let s := sending; let dw := s.getS 10;
        s.inTx = false ∧ s.accesses = [] ∧ s.attempts = [] ∧ s.rowAt (s.getS 9) = some r ∧ fieldOf dw 31 25 = 0
          ∧ fieldOf dw 63 42 = 0 ∧ dstRows dw = 0 ∧ malformed (s.rowRecord r) = none ∧ dstChip dw = s.chip
          ∧ s.streamTo s.ctxId s.cur.core (dstChip dw) (dstQueue dw) = some k ∧ isCancelled r.live.w0 = false
          ∧ s.packetRow ((s.rowRecord r).getD 3 0) (dstRows dw) = .ok (s, bytes)
          ∧ packetFlits dw bytes + getAt 0 s.inUse k ≤ 1024)
      ∧ (∃ f, let s := { sending with flights := [packet] };
        s.flights.find? (fun g => g.id == 1) = some f ∧ f.stopped = none ∧ f.remote = none ∧ s.heldBehind f = false
          ∧ s.packetOk f = true ∧ s.flightCut f = false ∧ s.writesOut f.owner = false ∧ f.row = [] ∧ (s.queue f.queue).join = false ∧ (s.queue f.queue).spill = []
          ∧ (s.queue f.queue).store.length < (s.queue f.queue).cap)
      ∧ (let s := { base with returns := [(packet.stream, 3)] };
        s.attempts = [] ∧ streamChip packet.stream = s.chip ∧ (packet.stream, 3) ∈ s.returns)
      ∧ (let s := { base with frags := [(0, { frag [] [] 0 with allowWait := some (9, 0) })], cycle := 2 ^ 20 };
        (s.frOf s.cur).allowWait = some (9, 0) ∧ 2 ^ 20 ≤ getAt 0 (s.wvOf s.cur).waited 9 + (s.cycle - 0))
      ∧ 11 ∉ base.portsDown
      ∧ (let s := { base with routeLost := [(7, 0)], tick := 10 ^ 12 };
        findAt s.routeLost 7 = some 0 ∧ 0 + s.routeTimeout ≤ s.tick ∧ s.copies = [])
      ∧ (let a := { base.newAccess (.chip 7) (.store [(pl 0x100, 7)]) 0 with sent := true };
        let s := { base with routeLost := [(7, 0)], tick := 10 ^ 12, accesses := [a] };
        findAt s.routeLost 7 = some 0 ∧ a ∈ (s.loseCopies 7).accesses ∧ a.target = .chip 7 ∧ a.failed = false)
      ∧ streamChip (streamKey 5 0 9 0 5) ≠ base.chip
      ∧ (((5 : BitVec 64).toNat : Int) - ({ base with tick := 3 } : State).tick).natAbs ≤ 2
      ∧ 2 < (((0 : BitVec 64).toNat : Int) - ({ base with tick := 3 } : State).tick).natAbs := by
  refine ⟨⟨_, _, _, ?_, ?_, ?_, rfl, ?_, ?_, ?_, ?_, ?_, rfl, ?_, rfl, ?_⟩, ⟨_, rfl, ?_, ?_, ?_, ?_, ?_, ?_, ?_, ?_, ?_, ?_⟩, ?_, ?_, ?_, ?_,
    ?_, ?_, ?_, ?_⟩ <;> decide +kernel

/-- An access on its way, of the fragment of the tests. -/
def way (target : Target) (op : AccessOp) (sent : Bool) : Access :=
  { base.newAccess target op 0 with sent := sent }

/-- The state with one access on its way, its fragment waiting for it or not. -/
def onWay (a : Access) (st : RunStatus) : State :=
  { base with accesses := [a], frags := [(0, { frag [] [] 0 with status := st })] }

/-- A fragment that is ready waits for nothing. -/
theorem ready_waits (x : RunStatus) (h : x = .ready) (n : Nat) : (∀ got, x ≠ .awaiting n got) ∧ x ≠ .fetching := by
  subst h
  exact ⟨fun _ h => (by cases h), by decide⟩

theorem witness_MemorySystemEvents_accesses :
    (let a := way .here (.store [(pl 0x100, 7)]) false; let s := onWay a .ready;
        s.attempts = [] ∧ a.id = 1 ∧ (Instr.memoryAccessPerformed 1, a.target) ∈ [(Instr.memoryAccessPerformed 1, Target.here),
          (.peerArrival 1, .peer 0)] ∧ a.final = none ∧ (∀ k ∈ a.op.keys, s.lineLost k = false ∧ s.linePinned k = true)
          ∧ s.redirect a.op = .store [(pl 0x100, 7)])
      ∧ (let s := onWay (way .here (.store [(pl 0x100, 7)]) false) .ready;
        (∀ got, (s.frOf base.cur).status ≠ .awaiting 1 got) ∧ (s.frOf base.cur).status ≠ .fetching)
      ∧ (let a := way (.peer 9) (.load [pl 0x100] (.scalar 4)) true; let s := onWay a (.awaiting 1 []);
        (Instr.peerArrival 1, a.target) ∈ [(Instr.memoryAccessPerformed 1, Target.here), (.peerArrival 1, .peer 9)] ∧ a.final = none
          ∧ (∀ k ∈ a.op.keys, s.lineLost k = false ∧ s.linePinned k = true) ∧ (s.frOf a.agent).status = .awaiting 1 []
          ∧ s.redirect a.op = .load [pl 0x100] (.scalar 4) ∧ a.ofWave = true ∧ a.sent = true ∧ s.mem.poisoned (pl 0x100).key = false)
      ∧ (let a := way (.chip 9) (.store [(pl 0x100, 7)]) true; let s := onWay a .ready;
        a.sent = true ∧ a.failed = false ∧ a.ofWave = true ∧ a.final = none ∧ (s.wvOf a.agent).task = a.task
          ∧ (s.frOf a.agent).status = .ready)
      ∧ (let a := way (.chip 9) (.load [pl 0x100] (.scalar 4)) true; let s := onWay a (.awaiting 1 []);
        a.sent = true ∧ a.failed = false ∧ a.ofWave = true ∧ a.final = none ∧ (s.frOf a.agent).status = .awaiting 1 []
          ∧ ([7] : List Byte).length = a.op.answerSize) := by
  refine ⟨?_, ready_waits _ (by decide) 1, ?_, ?_, ?_⟩ <;> decide

/-- A root table at 0 that points to a table at 0x200, whose first entry maps the first GiB to be read. -/
def tables : Memory := base.mem.writeBytes
  ((placesFrom (plainPlace 0 0) 8).zip (toBytes 8 0x401) ++ (placesFrom (plainPlace 0x200 0) 8).zip (toBytes 8 0xB))

theorem witness_MemorySystemEvents_others :
    (let r : RemoteRequest := { chip := 9, die := 1, seq := some 4, pa := 0x12A05F1FFFC, keyId := 1, op := .write [some 1, none, some 3, some 4] true };
        base.bridgesDown = [] ∧ base.accesses = [] ∧ (requestPlaces r).head?.isSome = true ∧ (∀ p ∈ requestPlaces r, localOk p.key = true) ∧ (base.window (pairKey r.chip r.die)).has 4 = false
          ∧ ({ base with peerSeq := [(pairKey 9 1, { low := 5, done := [], results := [] })] }.window (pairKey 9 1)).has 4 = true)
      ∧ (let r : RemoteRequest := { chip := 9, die := 1, seq := none, pa := 0x12A05F1FFFC, keyId := 1, op := .read 4 };
        ∀ p ∈ requestPlaces r, localOk p.key = true)
      ∧ (∃ l, let s := { base with mem := tables };
        s.walk 0 5 (0x100 : Word).toNat = .ok l ∧ (0x100 : Word).toNat < windowBase ∧ (s.tlb.filter (·.core == 0)).length < 64
          ∧ (s.tlb.filter (·.core == sharedTlb 0)).length < 16384)
      ∧ (∃ n, let s := { base with mem := base.mem.writeBytes ((placesFrom (plainPlace 0 0) 8).zip (toBytes 8 0)) };
        s.walk 255 5 (0x100 : Word).toNat = .error n ∧ n ≠ 6)
      ∧ (let s := { base with frags := [(0, { frag [] [] 0 with pc := 0x8000000000000 })] };
        s.inTx = false ∧ s.xlate s.fr.pc .fetch = .error (0x20, 1))
      ∧ (base.accesses = [] ∧ localOk 0x200000FFFFF = true ∧ locationOk (.vaultRow 0x200000FFFFF) = true ∧ localOk 0x12A05F1FFFF = true
        ∧ locationOk (.hbmRow 0x12A05F1FFFF) = true ∧ locationOk (.l1Way 0 0) = true ∧ locationOk (.l2Way 0 0 0) = true)
      ∧ (let l := RasLocation.l1Way 255 15; let w := windowOf l;
        locationOk l = true ∧ RasLocation.holdsBits l = true ∧ locationName l = l
          ∧ (base.ras.counts.filter (fun c => decide (base.tick < c.2 + (windowOf c.1).1)) ++ [(l, base.tick)]).countP
            (fun c => c.1 == l) < w.2
          ∧ (let s := { base with ras := { base.ras with counts := List.replicate 3 (l, 0) } };
            w.2 ≤ (s.ras.counts.filter (fun c => decide (s.tick < c.2 + (windowOf c.1).1)) ++ [(l, s.tick)]).countP
              (fun c => c.1 == l) ∧ 12 < s.l1Ways 255 ∧ l ∉ s.ras.retired)) := by
  refine ⟨?_, ?_, ⟨_, rfl, ?_⟩, ⟨_, rfl, ?_⟩, ?_, ?_, ?_⟩ <;> decide +kernel

/-! ### Task start and firing -/

/-- The operator of the tests with one role of one wave of four blocks, fed by queue 3. -/
def pail : Operator :=
  { Operator.reset with
    ctx := 5, members := [0], inq := 3,
    roles := [{ entry := 0x1000, regs := 4, waves := 1, cls := 1, mrInit := 0, arg := 7, stkBase := 0x8000, stkSize := 256 }] }

/-- A task of it that waits to start on core 0. -/
def waiting : Task := { Task.reset with oper := 1, ctx := 5, state := .queued, rows := 1 }

/-- The state with them, and a record that has waited in queue 3 since cycle 0. -/
def firing : State :=
  { base with
    operators := [(1, pail)], tasks := [(1, { Task.reset with number := 1, oper := 1, ctx := 5, waves := [0] }), (2, waiting)],
    queues := [(3, queueOne)], cycle := 3000 }

theorem witness_TaskStartAndFiring :
    ((firing.coreOf 0).lastStart ≠ some firing.cycle ∧ firing.nextStart 0 = some (2, waiting) ∧ waiting.state = .queued
        ∧ waiting.core = 0)
      ∧ (let p := firePick queueOne.store pail.timeout firing.cycle
        firing.attempts = [] ∧ findAt firing.queues 3 = some queueOne ∧ firing.feeds 3 = some (1, pail)
          ∧ firing.nextPail 1 pail queueOne.lastCore = some 0 ∧ firing.firingDue queueOne pail.timeout = true
          ∧ recordsAt queueOne.store p.order ≠ [])
      ∧ (let s := { base with waves := [(0, { base.wv with readyCycles := 256 })] }; let f : FragId := { core := 0, wave := 0, frag := 0 };
        (findAt s.waves f.waveKey).isSome = true ∧ 256 * ((s.wvOf f).raised + 1) ≤ (s.wvOf f).readyCycles
          ∧ (s.wvOf f).roleClass + (s.wvOf f).raised < 3)
      ∧ firing.refills < firing.cycle / 600 := by
  decide +kernel

/-! ### Commands of the host -/

/-- Host memory with runs of bytes at bus addresses. -/
def hostMem (xs : List (Nat × List Byte)) : Memory :=
  base.mem.writeBytes (xs.flatMap (fun x => ((upFrom (hostBase + x.1) x.2.length).map (fun k => plainPlace k 0)).zip x.2))

/-- The first command of a queue: SEQ, opcode and context, and its operands. -/
def command (op ctx : Nat) (ops : List Nat) : List Byte :=
  toBytes 8 1 ++ toBytes 8 (op + ctx * 2 ^ 32) ++ ((List.range 6).flatMap (fun i => toBytes 8 (ops.getD i 0)))

/-- A running queue with a command due. -/
def hostQueue : HostQueue := { HostQueue.reset with st := 1, logN := 4, logM := 4, dbVal := 1 }

/-- A state whose queue 0 has a command due, with more bytes in host memory. -/
def asked (op ctx : Nat) (ops : List Nat) (more : List (Nat × List Byte)) (s : State) : State :=
  { s with mem := hostMem ((64, command op ctx ops) :: more), hostQueues := [(0, hostQueue), (9, { hostQueue with dbVal := 0 })] }

/-- The command that queue 0 performs next. -/
def bef (s : State) : State := s.sweep.pollThrottles

/-- Something read, by evaluation. -/
theorem read_of {ε α : Type} [DecidableEq α] (x : Except ε α) (v : α)
    (h : (match x with
      | .ok a => decide (a = v)
      | .error _ => false) = true) : x = .ok v := by
  cases x with
  | ok a => exact congrArg Except.ok (of_decide_eq_true h)
  | error e => cases h

/-- What something read is stopped by, by evaluation. -/
theorem stopped_of {α : Type} (x : Except HubStop α) (b : Bool)
    (h : (match x with
      | .ok _ => false
      | .error e => e.fails == b) = true) : ∃ e, x = .error e ∧ e.fails = b := by
  cases x with
  | ok a => cases h
  | error e => exact ⟨e, rfl, eq_of_beq h⟩

/-- A graph installed, by evaluation. -/
theorem installed_of (x : Except HubStop (State × Nat))
    (h : (match x with
      | .ok a => a.2 == 0
      | .error _ => false) = true) : ∃ u, x = .ok (u, 0) := by
  cases x with
  | ok a => exact ⟨a.1, by rw [← eq_of_beq h]⟩
  | error e => cases h

/-- A command that is ready, by evaluation. -/
theorem ready_of (s : State) (op : Nat)
    (h : (bef s).canCommand 0 = true ∧ (((bef s).commandOf 0).w 0).toNat = ((bef s).commandOf 0).seq
      ∧ ((bef s).commandOf 0).f 1 7 0 = op ∧ ((bef s).commandOf 0).begun = false
      ∧ (bef s).commandFault ((bef s).commandOf 0) op = 0) : s.CommandReady (bef s) 0 op ((bef s).commandOf 0) :=
  ⟨⟨rfl, h.1, rfl, h.2.1, h.2.2.1⟩, h.2.2.2.1, h.2.2.2.2⟩

theorem witness_CommandCompletion :
    (let s := asked 0 77 [] [] base; let s0 := bef s; let c := s0.commandOf 0;
        s.Commands s0 0 0 c ∧ c.begun = false ∧ s0.commandFault c 0 = 0 + 1)
      ∧ (let s := asked 0x1A 0 [] [] base; let s0 := bef s; let c := s0.commandOf 0;
        s.Commands s0 0 0x1A c ∧ c.begun = false)
      ∧ (let s := { asked 0 0 [] [] base with mem := hostMem [(64, toBytes 64 17)] };
        (bef s).canCommand 0 = true ∧ (((bef s).commandOf 0).w 0).toNat ≠ ((bef s).commandOf 0).seq)
      ∧ (bef base).canCommand 0 = false ∧ (asked 0 0 [] [] base).attempts = []
      ∧ (let s := asked 0 0 [] [] base; s.hostWorks = true ∧ s.ras.recovering = false ∧ (s.hq 0).held = [] ∧ (s.hq 0).st = 1
          ∧ (s.hq 0).evPost + 1 ≤ (s.hq 0).evHead + 2 ^ (s.hq 0).logM)
      ∧ (let s := { base with hostQueues := [(0, { hostQueue with evPost := 16 })] };
        s.hostWorks = true ∧ (s.hq 0).held = [] ∧ (s.hq 0).evHead + 2 ^ (s.hq 0).logM < (s.hq 0).evPost + 1)
      ∧ (let s := asked 0 0 [] [] base; (s.hq 0).st = 1 ∧ (s.hq 0).dbVal < (16 : Word).toNat
          ∧ (16 : Word).toNat ≤ (s.hq 0).cons + 2 ^ (s.hq 0).logN ∧ (s.hq 0).cons + 2 ^ (s.hq 0).logN < (17 : Word).toNat) := by
  refine ⟨⟨⟨rfl, ?_, rfl, ?_, ?_⟩, ?_, ?_⟩, ⟨⟨rfl, ?_, rfl, ?_, ?_⟩, ?_⟩, ?_, ?_, ?_, ?_, ?_, ?_⟩ <;> decide +kernel

/-- A descriptor of context 7. -/
def ctxDesc : List Byte := toBytes 128 (7 + 0x1000 * 2 ^ 64 + 100 * 2 ^ 448)

theorem witness_ContextAndGraphCommands_queues :
    (let s := asked 0 0 [] [] base; s.CommandReady (bef s) 0 0x00 ((bef s).commandOf 0))
      ∧ (let s := asked 0x01 0 [0x4000, 0x8000, 0xC000, 4 + 4 * 2 ^ 8 + 5 * 2 ^ 32, 8191] [] base; let s0 := bef s;
        let c := s0.commandOf 0; let h := c.newQueue; let n := c.f 6 12 0;
        s.CommandReady s0 0 0x01 c ∧ n ≠ 0 ∧ ringSizesOk h.logN h.logM = true ∧ h.cmdBase % 64 = 0 ∧ h.evBase % 64 = 0
          ∧ h.stbBase % 64 = 0 ∧ (findAt s0.contexts h.ctx).isSome = true ∧ (s0.hq n).st = 0
          ∧ (s0.hq n).held = []
          ∧ s0.hostQueues.countP (fun x => x.1 != 0 && x.2.ctx == h.ctx && x.2.inUse) < 1024 ∧ s0.hostWorks = true)
      ∧ (let s := asked 0x02 0 [9] [] base; let s0 := bef s; let c := s0.commandOf 0;
        s.CommandReady s0 0 0x02 c ∧ c.f 2 12 0 ≠ 0 ∧ (s0.hq (c.f 2 12 0)).inUse = true ∧ s0.hostWorks = true)
      ∧ (let s := asked 0x03 0 [9] [] base; let s0 := bef s; let c := s0.commandOf 0;
        s.CommandReady s0 0 0x03 c ∧ c.f 2 12 0 ≠ 0 ∧ (s0.hq (c.f 2 12 0)).inUse = true ∧ (s0.hq (c.f 2 12 0)).held = []
          ∧ s0.hostWorks = true) := by
  refine ⟨ready_of _ _ ?_, ⟨ready_of _ _ ?_, ?_⟩, ⟨ready_of _ _ ?_, ?_⟩, ready_of _ _ ?_, ?_⟩ <;> decide +kernel

/-- Host memory at the first page of context 5, as the hub translates it. -/
def hostEntry : TlbEntry := { hubPage with pa := hostBase }

theorem witness_ContextAndGraphCommands_contexts :
    (∃ v k, let s := asked 0x04 0 [0x200] [(0x200, ctxDesc)] base; let s0 := bef s; let c := s0.commandOf 0;
        s.CommandReady s0 0 0x04 c ∧ s0.descNat (c.reader 0) (c.w 2).toNat 128 = .ok v ∧ s0.control.failed = false
          ∧ (c.w 2).toNat % 64 = 0 ∧ ctxDescOk v = true ∧ findAt s0.contexts (bitsOf v 15 0) = none ∧ s0.freeKey = some k)
      ∧ (let s1 := asked 0x04 0 [0x200] [(0x200, ctxDesc)] base
        let s := { s1 with mem := { s1.mem with poison := [sectorOf (hostBase + 0x200)] } }; let s0 := bef s; let c := s0.commandOf 0;
        s.CommandReady s0 0 0x04 c ∧ (∃ e, s0.descNat (c.reader 0) (c.w 2).toNat 128 = .error e ∧ e.fails = true)
          ∧ s0.control.failed = false ∧ (c.w 2).toNat % 64 = 0)
      ∧ (let s := asked 0x05 0 [5] [] { base with seats := [], operators := [], tasks := [], slotMap := [], waves := [], frags := [], tlb := [] };
        let s0 := bef s; let c := s0.commandOf 0;
        s.CommandReady s0 0 0x05 c ∧ c.f 2 15 0 ≠ 0 ∧ (findAt s0.contexts (c.f 2 15 0)).isSome = true
          ∧ findAt (s0.destroy (c.f 2 15 0)).sweep.contexts (c.f 2 15 0) = none)
      ∧ (let s := asked 0x05 0 [5] [] { base with accesses := [base.newAccess .here (.store [(pl 0x100, 7)]) 0] };
        let s0 := bef s; let c := s0.commandOf 0;
        s.CommandReady s0 0 0x05 c ∧ c.f 2 15 0 ≠ 0
          ∧ (findAt (s0.destroy (c.f 2 15 0)).sweep.contexts (c.f 2 15 0)).isSome = true)
      ∧ (let s := asked 0x10 0 [5 + 3 * 2 ^ 16, 100, 0, 7] [] base; let s0 := bef s; let c := s0.commandOf 0;
        s.CommandReady s0 0 0x10 c ∧ (findAt s0.contexts (c.f 2 15 0)).isSome = true ∧ c.f 2 17 16 = 3)
      ∧ (let s := asked 0x11 5 [0x200] [] base; let s0 := bef s; let c := s0.commandOf 0;
        s.CommandReady s0 0 0x11 c ∧ (c.w 2).toNat % 8 = 0 ∧ s0.hostWorks = true)
      ∧ (∃ k, let s := asked 0x14 0 [5] [] base; let s0 := bef s; let c := s0.commandOf 0;
        s.CommandReady s0 0 0x14 c ∧ (findAt s0.contexts (c.f 2 15 0)).isSome = true
          ∧ (findAt s0.contexts (c.f 2 31 16)).isSome = true ∧ s0.freeKey = some k) := by
  refine ⟨⟨ofBytes ctxDesc, 2, ready_of _ _ ?_, read_of _ _ ?_, ?_⟩, ⟨ready_of _ _ ?_, stopped_of _ _ ?_, ?_⟩, ⟨ready_of _ _ ?_, ?_⟩,
    ⟨ready_of _ _ ?_, ?_⟩, ⟨ready_of _ _ ?_, ?_⟩, ⟨ready_of _ _ ?_, ?_⟩, ⟨2, ready_of _ _ ?_, ?_⟩⟩ <;> decide +kernel

/-- A graph of one operator on core 0 in slot 0, fed by queue 3, in the service context: its descriptor, its operator table,
its queue table and its launch block. -/
def graphBytes : List (Nat × List Byte) :=
  [(0x200, toBytes 8 (1 + 2 ^ 16 + 2 ^ 32) ++ toBytes 8 0x300 ++ toBytes 8 0x400 ++ List.replicate 40 0),
    (0x300, toBytes 64 (0x500 + 0x1000 * 2 ^ 64 + 0x238078004 * 2 ^ 128 + 3 * 2 ^ 204)),
    (0x400, toBytes 32 (3 + 8 * 2 ^ 64 + 2 ^ 101)),
    (0x500, toBytes 64 (0x1000 + 4 * 2 ^ 64 + 2 ^ 72 + 2 ^ 320) ++ List.replicate 64 0)]

/-- Nothing but the service context and group 0, of core 0. -/
def idle : State := { State.reset with groups := [(0, { valid := true, ctx := 0, members := [0] })] }

theorem witness_ContextAndGraphCommands_graphs :
    (let s := asked 0x06 0 [1 + 5 * 2 ^ 16] [] base; let s0 := bef s; let c := s0.commandOf 0;
        s.CommandReady s0 0 0x06 c ∧ (findAt s0.contexts (c.f 2 31 16)).isSome = true
          ∧ (∀ x ∈ s0.operators, x.2.group ≠ c.f 2 7 0) ∧ (c.w 2).getLsbD 32 = false)
      ∧ (∃ m, let s := asked 0x06 0 [1 + 5 * 2 ^ 16 + 2 ^ 32, 0x200] [(0x200, toBytes 32 (2 ^ 255 + 1))] base; let s0 := bef s;
        let c := s0.commandOf 0;
        s.CommandReady s0 0 0x06 c ∧ s0.descNat (c.reader 0) (c.w 3).toNat 32 = .ok m ∧ (c.w 2).getLsbD 32 = true ∧ m ≠ 0
          ∧ ∀ x ∈ s0.operators, x.2.group ≠ c.f 2 7 0)
      ∧ (let s := asked 0x07 0 [0x200] graphBytes idle; let s0 := bef s; let c := s0.commandOf 0;
        s.CommandReady s0 0 0x07 c ∧ ∃ u, s0.installGraph (c.reader c.ctx) (c.w 2).toNat = .ok (u, 0))
      ∧ (let s1 := asked 0x07 0 [0x200] graphBytes idle
        let s := { s1 with mem := { s1.mem with poison := [sectorOf (hostBase + 0x200)] } }; let s0 := bef s; let c := s0.commandOf 0;
        s.CommandReady s0 0 0x07 c ∧ ∃ e, s0.installGraph (c.reader c.ctx) (c.w 2).toNat = .error e ∧ e.fails = true)
      ∧ (let s := { base with
            mem := hostMem [(64, command 0x07 5 [0x200])], hostQueues := [(9, { hostQueue with ctx := 5 })], tlb := [hostEntry] }
        let s0 := bef s; let c := s0.commandOf 9;
        s.CommandReady s0 9 0x07 c ∧ ∃ e, s0.installGraph (c.reader c.ctx) (c.w 2).toNat = .error e ∧ e.fails = false)
      ∧ (let s := asked 0x08 5 [0] [] base; let s0 := bef s; let c := s0.commandOf 0; let u := s0.leaveGraph c.ctx (c.f 2 15 0);
        s.CommandReady s0 0 0x08 c ∧ (s0.ctxOf c.ctx).state = .active ∧ s0.hasGraph c.ctx (c.f 2 15 0) = true
          ∧ u.graphDrained c.ctx (c.f 2 15 0) = false ∧ (getAt Operator.reset s0.operators 1).ctx = c.ctx
          ∧ (getAt Operator.reset s0.operators 1).graph = c.f 2 15 0 ∧ (getAt Operator.reset s0.operators 1).removed = false
          ∧ (findAt s0.operators 1).isSome = true ∧ (s0.seatOf 1 0).state = .installed)
      ∧ (let s := asked 0x08 5 [0] [] { base with tasks := [], waves := [], frags := [] }; let s0 := bef s; let c := s0.commandOf 0;
        s.CommandReady s0 0 0x08 c ∧ s0.hasGraph c.ctx (c.f 2 15 0) = true
          ∧ (s0.leaveGraph c.ctx (c.f 2 15 0)).graphDrained c.ctx (c.f 2 15 0) = true) := by
  refine ⟨⟨ready_of _ _ ?_, ?_⟩, ⟨2 ^ 255 + 1, ready_of _ _ ?_, read_of _ _ ?_, ?_⟩, ⟨ready_of _ _ ?_, installed_of _ ?_⟩,
    ⟨ready_of _ _ ?_, stopped_of _ _ ?_⟩, ⟨⟨⟨rfl, ?_, rfl, ?_, ?_⟩, ?_, ?_⟩, stopped_of _ _ ?_⟩, ⟨ready_of _ _ ?_, ?_⟩,
    ready_of _ _ ?_, ?_⟩ <;> decide +kernel

/-- A fault record that the front end has read. -/
def readRecord : FaultRecord := { FaultRecord.blank with id := 4, ctx := 5, wasRead := true, cause := 0x20, detail := 1, reportOnly := false }

/-- A launch of graph 0 of context 5 from queue 0. -/
def launch (started : Bool) : Launch :=
  { id := 1, queue := 0, seq := 1, ctx := 5, graph := 0, count := 1, records := 0x400, tick := 0, fence := 0x800,
    fenceValue := 7, waits := [], late := false, started := started, made := 1, missed := 0 }

/-- A record's image in host memory. -/
def hostImage : List (Nat × List Byte) := [(0x400, toBytes 128 (2 * 2 ^ 64))]

/-- The operator of the tests with its input queue empty. -/
def served : State := { base with operators := [(1, pail)], queues := [(3, queue5)] }

theorem witness_WorkAndFaultCommands_work :
    (let s := asked 0x09 5 [0x400, 3, 1, 0x600] hostImage served; let s0 := bef s; let c := s0.commandOf 0;
        s.CommandReady s0 0 0x09 c ∧ (s0.ctxOf c.ctx).state = .active ∧ findAt s0.queues (c.f 3 11 0) = some queue5
          ∧ queue5.ctx = c.ctx ∧ c.f 4 12 0 = 1 ∧ (c.w 2).toNat % 128 = 0 ∧ s0.isThrottled c.ctx queue5.graph = false
          ∧ s0.hostWorks = true
          ∧ (match s0.makeRecords c.ctx (c.f 3 11 0) (s0.readImages (c.reader c.ctx) (c.w 2).toNat 1) with
            | .ok _ => true
            | .error _ => false) = true)
      ∧ (let s := asked 0x0A 5 [2 ^ 16, 0x400] hostImage served; let s0 := bef s; let c := s0.commandOf 0;
        s.CommandReady s0 0 0x0A c ∧ (s0.ctxOf c.ctx).state = .active ∧ c.f 2 28 16 ≤ 4096 ∧ (c.w 3).toNat % 128 = 0
          ∧ s0.hasGraph c.ctx (c.f 2 15 0) = true)
      ∧ (let s := { served with
            mem := hostMem hostImage, launches := [launch false],
            hostQueues := [(0, { hostQueue with begun := [1, 0x50000000A, 2 ^ 16, 0x400] })] };
        let s0 := bef s; let l := launch false;
        s0.launches.find? (fun m => m.id == 1) = some l ∧ l.started = false ∧ (s0.hq l.queue).st = 1
          ∧ (s0.hq l.queue).begun ≠ [] ∧ (s0.hq l.queue).held = [] ∧ s0.ras.recovering = false ∧ s0.launchFree l = true
          ∧ l.tick ≤ s0.tick ∧ s0.isThrottled l.ctx l.graph = false ∧ (s0.ctxOf l.ctx).state = .active
          ∧ s0.graphInput l.ctx l.graph = some 3
          ∧ (match s0.makeRecords l.ctx 3 (s0.readImages l.reader l.records.toNat l.count) with
            | .ok _ => true
            | .error _ => false) = true
          ∧ (imagesWait (s0.readImages l.reader l.records.toNat l.count)).isNone = true)
      ∧ (let s := { served with tasks := [], waves := [], frags := [], launches := [launch true] }; let s0 := s.sweep; let l := launch true;
        s0.launches.find? (fun m => m.id == 1) = some l ∧ l.started = true ∧ s0.graphIdle l.ctx l.graph = true
          ∧ s0.ras.recovering = false ∧ l.queue = 0 ∧ s0.hostWorks = true ∧ l.fence.toNat ≠ 0
          ∧ (s0.launches.map (·.id)).Nodup ∧ s0.startedLaunches l.ctx l.graph = [l]
          ∧ ({ l with fence := 0 } : Launch).fence.toNat = 0) := by
  refine ⟨⟨ready_of _ _ ?_, ?_⟩, ⟨ready_of _ _ ?_, ?_⟩, ?_, ?_⟩ <;> decide +kernel

theorem witness_WorkAndFaultCommands_faults :
    (let s := asked 0x0B 0 [5] [] base; let s0 := bef s; let c := s0.commandOf 0;
        s.CommandReady s0 0 0x0B c ∧ c.f 2 15 0 ≠ 0 ∧ (findAt s0.contexts (c.f 2 15 0)).isSome = true
          ∧ (s0.ctxOf (c.f 2 15 0)).state = .active)
      ∧ (let s := asked 0x0C 0 [5] [] { base with
            tasks := [], waves := [], frags := [], slotMap := [], seats := [(256, { base.seat with state := .saved })],
            contexts := [(0, Context.service), (5, { Context.reset with keyId := 1, state := .saved })] };
        let s0 := bef s; let c := s0.commandOf 0;
        s.CommandReady s0 0 0x0C c ∧ c.f 2 15 0 ≠ 0 ∧ (findAt s0.contexts (c.f 2 15 0)).isSome = true
          ∧ (s0.ctxOf (c.f 2 15 0)).state = .saved ∧ (s0.restoreContext (c.f 2 15 0)).isSome = true
          ∧ (s0.restoreStop (c.f 2 15 0)).isNone = true)
      ∧ (let s := asked 0x0D 0 [5, 0x10000, 1] [] base; let s0 := bef s; let c := s0.commandOf 0;
        s.CommandReady s0 0 0x0D c ∧ (findAt s0.contexts (c.f 2 15 0)).isSome = true ∧ (0x10000, 0x20000) = c.range
          ∧ s0.usesRange (c.f 2 15 0) 0x10000 0x20000 = false)
      ∧ (let s := asked 0x0E 0 [4] [] { base with records := [readRecord] }; let s0 := bef s; let c := s0.commandOf 0;
        s0.commandRecord (c.w 2).toNat = some readRecord ∧ s.CommandReady s0 0 0x0E c ∧ (s0.ctxOf readRecord.ctx).state ≠ .saved)
      ∧ (let s := asked 0x0F 0 [4] [] { base with records := [readRecord] }; let s0 := bef s; let c := s0.commandOf 0;
        s0.commandRecord (c.w 2).toNat = some readRecord ∧ s.CommandReady s0 0 0x0F c)
      ∧ (let s := asked 0x12 5 [2 ^ 16] [] base; let s0 := bef s; let c := s0.commandOf 0;
        s.CommandReady s0 0 0x12 c ∧ (s0.tasks.find? (fun y => y.2.core == c.f 2 7 0 && y.2.number == c.f 2 31 16
          && y.2.ctx == c.ctx && y.2.state == .running)).isSome = true)
      ∧ (let s := asked 0x13 0 [5] [] base; let s0 := bef s; let c := s0.commandOf 0;
        s.CommandReady s0 0 0x13 c ∧ (findAt s0.contexts (c.f 2 15 0)).isSome = true)
      ∧ (let s := asked 0x18 5 [15 * 2 ^ 12] [] base; let s0 := bef s; let c := s0.commandOf 0;
        s.CommandReady s0 0 0x18 c ∧ findAt s0.slotMap (c.f 2 7 0 * 8 + c.f 2 10 8) = some 1
          ∧ (getAt Operator.reset s0.operators 1).ctx = c.ctx ∧ s0.attempts = []) := by
  refine ⟨⟨ready_of _ _ ?_, ?_⟩, ⟨ready_of _ _ ?_, ?_⟩, ⟨ready_of _ _ ?_, ?_⟩, ⟨?_, ready_of _ _ ?_, ?_⟩, ⟨?_, ready_of _ _ ?_⟩,
    ⟨ready_of _ _ ?_, ?_⟩, ⟨ready_of _ _ ?_, ?_⟩, ready_of _ _ ?_, ?_⟩ <;> decide +kernel

/-- A route to chip 9 by ports 11 and 0. -/
def routeEntry : Nat := 9 + 2 * 2 ^ 12 + 11 * 2 ^ 64

theorem witness_WorkAndFaultCommands_system :
    (let s := asked 0x15 0 [0x200, 1, 0, 3] [(0x200, toBytes 16 routeEntry)] base; let s0 := bef s; let c := s0.commandOf 0;
        s.CommandReady s0 0 0x15 c ∧ s0.descArray (c.reader 0) (c.w 2).toNat 16 (c.f 3 12 0) = .ok [routeEntry]
          ∧ 1 ≤ c.f 3 12 0 ∧ c.f 3 12 0 ≤ 4096 ∧ [routeEntry].all (routeEntryOk s0.chip) = true ∧ ([routeEntry].map (fun v => bitsOf v 11 0)).Nodup)
      ∧ (let s := asked 0x19 0 [15, 0, 1] [] { base with rounds := [(15, { Round.reset with ctx := 5 })] }; let s0 := bef s;
        let c := s0.commandOf 0;
        s.CommandReady s0 0 0x19 c ∧ findAt s0.rounds (c.f 2 5 0) = some { Round.reset with ctx := 5 }
          ∧ (findAt s0.contexts (c.f 3 15 0)).isSome = true ∧ c.f 3 15 0 ≠ 5)
      ∧ (let s := asked 0x17 0 [0x200, 1] [(0x200, toBytes 8 (5 + 10 * 2 ^ 32))] base; let s0 := bef s; let c := s0.commandOf 0;
        s.CommandReady s0 0 0x17 c ∧ s0.descArray (c.reader 0) (c.w 2).toNat 8 (c.f 3 12 0) = .ok [5 + 10 * 2 ^ 32]
          ∧ 1 ≤ c.f 3 12 0 ∧ c.f 3 12 0 ≤ 4096 ∧ [5 + 10 * 2 ^ 32].all s0.runEntryOk = true)
      ∧ (let e : RunEntry := { ctx := 5, reside := true, quantum := 10 }; let l : RunList := { entries := [e], pos := 0, since := 0 };
        let s := { base with runList := some l, tick := 10000 };
        s.runList = some l ∧ l.entries[l.pos]? = some e ∧ l.since + 1000 * e.quantum ≤ s.tick ∧ s.ras.recovering = false
          ∧ e.reside = true ∧ (∀ x ∈ s.contexts, x.2.turnSaved = false) ∧ Context.reset.turnSaved = false)
      ∧ (let s := asked 0x16 0 [] [] idle; let s1 := { s with hostQueues := [(0, hostQueue)] }; let s0 := bef s1; let c := s0.commandOf 0;
        s1.CommandReady s0 0 0x16 c ∧ (∀ x ∈ s0.contexts, x.1 = 0) ∧ (∀ x ∈ s0.hostQueues, x.1 ≠ 0 → x.2.st ≠ 1)
          ∧ ∀ l ∈ [RasLocation.dieBridge 7 3], locationOk l = true →
            RasLocation.holdsBits l = false ∨ s0.outOfUse (locationName l) = true) := by
  refine ⟨⟨ready_of _ _ ?_, read_of _ _ ?_, ?_⟩, ⟨ready_of _ _ ?_, ?_⟩, ⟨ready_of _ _ ?_, read_of _ _ ?_, ?_⟩, ?_, ready_of _ _ ?_,
    ?_⟩ <;> decide +kernel

/-! ### Registers, watchdogs, reliability -/

/-- The state with the firmware pair in a state of FWSTAT, something being loaded, and queue 0 enabled or not. -/
def board (fwstat loading : Nat) (aq : Bool) : State :=
  { idle with control := { Control.reset with
      fwstat := fwstat, loading := loading, aqEnabled := aq, aqSize := 4 + 4 * 2 ^ 8, aqCmd := 0x1000, aqEv := 0x2000, aqStb := 0x3000 } }

theorem witness_RegisterAndResetResults :
    ((board 0 0 false).control.fwstat ≠ 3 ∧ (board 0 0 false).control.fwstat ≠ 4)
      ∧ ((board 4 0 false).control.fwstat = 3 ∨ (board 4 0 false).control.fwstat = 4)
      ∧ (board 0 0 false).control.aqEnabled = false
      ∧ ((board 3 1 false).control.fwstat = 3 ∧ (board 3 1 false).control.loading = 1)
      ∧ ((board 3 2 false).control.fwstat = 3 ∧ (board 3 2 false).control.loading = 2)
      ∧ (let s := { board 4 0 false with ras := { base.ras with retired := [.l1Way 0 0] } };
        ∀ l ∈ [RasLocation.l1Way 0 0], locationOk l = true → RasLocation.holdsBits l = true ∧ s.outOfUse (locationName l) = true)
      ∧ ((board 4 0 false).control.fwstat = 4 ∧ (board 4 0 false).control.failed = false ∧ (board 4 0 false).control.everReady = false)
      ∧ (let s := board 1 0 false; s.control.fwstat = 1 ∧ s.control.aqEnabled = false
          ∧ ringSizesOk (fieldOf s.control.aqSize 4 0) (fieldOf s.control.aqSize 12 8) = true ∧ s.hostWorks = true
          ∧ (s.hq 0).held = [])
      ∧ ((board 1 0 true).control.aqEnabled = true ∧ (board 1 0 true).hostWorks = true)
      ∧ (let s := asked 0 0 [] [] base; (s.hq 9).st ≠ 0 ∧ (s.hq 9).evHead ≤ (1 : Word).toNat ∧ (s.hq 9).held = [])
      ∧ (let s := { base with hostQueues := [(9, { hostQueue with evPost := 16, held := [[1]] })] };
        (s.hq 9).st ≠ 0 ∧ (s.hq 9).evHead ≤ (1 : Word).toNat ∧ (s.hq 9).held = [[1]] ∧ (s.hq 9).st = 1 ∧ s.hostWorks = true
          ∧ s.ras.recovering = false ∧ (s.hq 9).evPost + 1 ≤ (1 : Word).toNat + 2 ^ (s.hq 9).logM)
      ∧ (let s := { base with msixDue := [2047] }; 2047 ∈ s.msixDue ∧ findAt s.msixLast 2047 = none)
      ∧ ((∀ x ∈ idle.contexts, x.1 = 0) ∧ idle.contexts.length = 1 ∧ idle.operators = [] ∧ idle.tasks = [] ∧ idle.rounds = []
        ∧ idle.seats = [] ∧ idle.accesses = []) := by
  decide +kernel

/-- The state with context 5 changed, its task running or not. -/
def contexted (c : Context) (running : Bool) : State :=
  { (if running then base else { base with tasks := [], waves := [], frags := [] }) with
    contexts := [(0, Context.service), (5, c)], tick := 10 ^ 7 }

/-- Context 5 draining. -/
def draining : Context := { Context.reset with keyId := 1, state := .draining, drain := 1, deadline := 2, savePeriod := 3 }

theorem witness_DrainingAndWatchdogs :
    (let s := contexted draining true;
        (s.ctxOf 5).state = .draining ∧ (s.ctxOf 5).windowClosed = false
          ∧ (s.ctxOf 5).preemptAt + 1000 * (s.ctxOf 5).drain ≤ s.tick ∧ (s.ctxOf 5).forced = false
          ∧ (s.ctxOf 5).preemptAt + 1000 * (s.ctxOf 5).deadline ≤ s.tick
          ∧ (s.ctxOf 5).preemptAt + 1000 * (s.ctxOf 5).savePeriod ≤ s.tick)
      ∧ (let s := { contexted { draining with windowClosed := true } true with
            seats := [(256, { base.seat with state := .draining })], tlb := [{ hubPage with size := 2 ^ 30 }] };
        (s.ctxOf 5).state = .draining ∧ (s.ctxOf 5).windowClosed = true ∧ s.saveHeld 5 = false ∧ s.netsIn 5 = []
          ∧ s.netsQuiet 5 = true ∧ s.copyHeld 5 = false ∧ s.runList = none
          ∧ s.saveStop 5 (s.saveSectors 5 ++ (s.drainingSeats 5).flatMap (fun k => s.imageSectors (k / 256) (k % 256))) = none)
      ∧ (contexted draining false).tasksOf 5 = []
      ∧ (let s := contexted { Context.reset with keyId := 1, progress := 5000 } true;
        (s.ctxOf 5).state = .active ∧ (findAt s.contexts 5).isSome = true ∧ (∃ y ∈ s.tasks, y.2.ctx = 5 ∧ y.2.state ≠ .ended)
          ∧ (s.ctxOf 5).progressAt + 1000 * (s.ctxOf 5).progress ≤ s.tick)
      ∧ (let s := { contexted { Context.reset with keyId := 1, faultPeriod := 10000 } true with records := [readRecord] };
        s.records.find? (fun y => y.id == 4) = some readRecord ∧ readRecord.replayable = true ∧ readRecord.deferred = false
          ∧ (s.ctxOf readRecord.ctx).faultPeriod ≠ 0
          ∧ readRecord.arisen + 1000 * (s.ctxOf readRecord.ctx).faultPeriod ≤ s.tick)
      ∧ (let s := { base with records := [{ readRecord with posted := true }] };
        (∀ r ∈ s.records, r.posted = true ∧ r.cause ≠ causeSPILLFULL ∧ r.cause ≠ causeSPILLFAULT) ∧ s.attempts = []) := by
  decide +kernel

theorem witness_ReliabilityPowerAndHostAccess :
    31 ∉ base.bridgesDown ∧ base.ras.recovering = false
      ∧ (base.ras.mismatches.filter (fun n => decide (base.tick < n + 3600000000000))).length < 2
      ∧ (let s := { base with ras := { base.ras with mismatches := [0, 1], recovering := false } };
        2 ≤ (s.ras.mismatches.filter (fun n => decide (s.tick < n + 3600000000000))).length)
      ∧ (let s := { base with hostQueues := [(0, { hostQueue with begun := [1, 5, 5] })] };
        (findAt s.hostQueues 0).isSome = true ∧ fieldOf ((s.hq 0).begun.getD 1 0) 7 0 = 0x05
          ∧ fieldOf ((s.hq 0).begun.getD 2 0) 15 0 = 5 ∧ (findAt s.contexts 5).isSome = true)
      ∧ (let s := { base with ras := { base.ras with recovering := true } }; s.ras.recovering = true ∧ s.hostWorks = true
        ∧ ∀ q, (s.hq q).dbVal ≤ (s.hq q).cons + 2 ^ (s.hq q).logN)
      ∧ (let p := { base.power with average := 700, cap := 700 }; p.cap = p.average ∧ p.throttling = false
        ∧ p.cap < ({ p with average := 701 } : Power).average ∧ ({ p with throttling := true } : Power).throttling = true
        ∧ ({ p with average := 699 } : Power).average < p.cap)
      ∧ (base.power.tripped = false ∧ ∃ y, findAt base.contexts 5 = some y ∧ y.destroying = false)
      ∧ (2 ∉ base.control.ide ∧ base.control.ide.length < 4 ∧ 2 ∉ ({ base.control with ide := [1, 3, 4, 5] } : Control).ide
        ∧ 4 ≤ ({ base.control with ide := [1, 3, 4, 5] } : Control).ide.length)
      ∧ (let s := { base with power := { base.power with sampled := [(7, 0)], samples := [(7, 99)] }, tick := 600000000000 };
        (∀ n, findAt s.power.sampled 7 = some n → n + 1000000000 ≤ s.tick)
          ∧ s.power.planned + s.power.period * 60000000000 ≤ s.tick ∧ (∀ x ∈ s.power.samples, x.2 < 100)
          ∧ (s.power.samples.map (·.1)).Nodup)
      ∧ (let s := { base with power := { base.power with samples := [(7, 100)] }, tick := 600000000000 };
        s.power.planned + s.power.period * 60000000000 ≤ s.tick ∧ (∃ x ∈ s.power.samples, 100 ≤ x.2) ∧ 25 < s.power.clock)
      ∧ (let s := { base with frags := [(0, { frag [] [] 0 with status := .awaitingPage 3 1 0x3000 })] }; s.pageWanted 3 = true ∧ s.bar2 = [])
      ∧ (HostAccess.ok (.read 4096) 0x200 = true ∧ HostAccess.ok (.write (List.replicate 512 0)) 0 = true
        ∧ HostAccess.ok (.atomic .add 8 1 0) 8 = true ∧ base.aperture (0x200 / 2 ^ 30) = none ∧ base.bar2 = []) := by
  refine ⟨?_, ?_, ?_, ?_, ?_, ⟨?_, ?_, fun _ => Nat.zero_le _⟩, ?_, ⟨?_, _, rfl, ?_⟩, ?_, ⟨fun n h => (by cases h; decide), ?_, ?_⟩, ?_,
    ?_, ?_⟩ <;> decide +kernel

/-- A host access to 8 bytes behind aperture 0, which context 5 has at its first page: in HBM, or in host memory. -/
theorem witness_ReliabilityPowerAndHostAccess_read :
    (∃ xs, let s := { base with
            control := { base.control with everReady := true, apertures := [(0, 1), (1, 5)] }, tlb := hubPage :: base.tlb };
        let who := AskOwner.bar2 0x200 (.read 8);
        s.hubBytes who 5 (0 + 0x200 % 2 ^ 30) 8 .read = .ok xs ∧ s.aperture (0x200 / 2 ^ 30) = some (5, 0)
          ∧ s.bar2 = [] ∧ s.hostStoreOut = false
          ∧ s.allFetched (who.owner 5) xs = true ∧ ∀ p ∈ xs, p.2 = .here ∧ s.mem.poisoned p.1.key = false)
      ∧ (let s := { base with
            control := { base.control with everReady := true, apertures := [(0, 1), (1, 5)] }, tlb := hostEntry :: base.tlb };
        let a := HostAccess.read 8;
        s.hubBytes (AskOwner.bar2 0x200 a) 5 (0 + 0x200 % 2 ^ 30) (HostAccess.size a) (HostAccess.need a) = .error (.page 0 0x200)
          ∧ s.aperture (0x200 / 2 ^ 30) = some (5, 0) ∧ HostAccess.ok a 0x200 = true)
      ∧ (let a := { base.newAccess (.chip 7) (.store [(pl 0x100, 7)]) 0 with sent := true, issuer := .frontEnd (.bar2 0x200 (.write [7])) }
        let s := { base with
            control := { base.control with everReady := true, apertures := [(0, 1), (1, 5)] }, bar2 := [(0x200, .read 8)], accesses := [a] };
        s.hostStoreOut = true ∧ (s.aperture (0x200 / 2 ^ 30)).isSome = true) := by
  refine ⟨⟨(placesFrom (pl 0x200) 8).map (fun p => (p, .here)), read_of _ _ ?_, ?_⟩, ⟨?_, ?_⟩, ?_⟩
  case refine_3 => rfl
  all_goals decide +kernel

/-! ### The step and the decoder -/

/-- The state of the tests with the word of an instruction where its fragment fetches it. -/
def fetching (w : Nat) (moves : List Input) : State :=
  { base with inputs := moves, mem := base.mem.writeBytes ((placesFrom (pl 0) 4).zip (toBytes 4 w)) }

theorem witness_StepRunsWhatIsNext :
    (let s := fetching 0x04285FFD []; s = s.releaseAll ∧ s.inputs = [] ∧ s.nextIssuer = firstFragment ∧ s.mayIssue firstFragment = true)
      ∧ (let s := fetching 0x04285FFD []; let c := s.choose firstFragment false; let i := Instr.saddi 5 2 0x1FFD;
        s.power.stopped = false ∧ c.fr.due = [] ∧ c.stepOwed c.cur = false ∧ c.xlateAll [c.fr.pc] .fetch = .ok [(pl 0, .here)]
          ∧ c.allFetched c.waveOwner (wordPlaces (pl 0, .here)) = true ∧ c.mem.poisoned (pl 0).key = false
          ∧ decode ((placesFrom (pl 0) 4).map c.mem.readByte) = .ok i ∧ c.operandsFree i = true
          ∧ (c.settleFor i).movedOn c = false ∧ (c.settleFor i).interlocks i = [])
      ∧ (let s := fetching 0 [.issue firstFragment false]; let t := { s with inputs := [] }; let c := t.choose firstFragment false;
        s.releaseAll.inputs = [.issue firstFragment false] ∧ t.mayIssue firstFragment = true
          ∧ decode ((placesFrom (pl 0) 4).map c.mem.readByte) = .error .major)
      ∧ (base.accesses = [] ∧ base.wv.dbgSS = false ∧ base.heldBack = false ∧ base.stall.stalled = true)
      ∧ (let s := { base with inputs := [.event (.taskStart 0)] };
        s.releaseAll.inputs = [.event (.taskStart 0)] ∧ Instr.isMove (.taskStart 0) = true ∧ s.allows (.taskStart 0) = true
          ∧ s.ras.recovering = false ∧ s.power.tripped = false)
      ∧ (fetching 0x04285FFD []).anyMayIssue = true
      ∧ ({ base with inputs := [.elapse 5 5] } : State).releaseAll.inputs = [.elapse 5 5]
      ∧ (State.reset.releaseAll.inputs = [] ∧ State.reset.releaseAll.mayIssue State.reset.releaseAll.nextIssuer = false
        ∧ State.reset.releaseAll.power.stopped = false) := by
  refine ⟨⟨?_, ?_, ?_, ?_⟩, ⟨?_, ?_, ?_, ?_, ?_, ?_, ?_, ?_, ?_, ?_⟩, ⟨?_, ?_, ?_⟩, ?_, ?_, ?_, ?_, ?_, ?_, ?_⟩ <;>
    first | rfl | decide +kernel

/-- A fragment that may not issue: an `xop` of its wave is under way that writes the register of the next instruction. -/
theorem witness_StepRunsWhatIsNext_held :
    (let s := { churning (net [] [] []) with
          mem := base.mem.writeBytes ((placesFrom (pl 0) 4).zip (toBytes 4 ((encode (.vlaneid 31)).getD 0).toNat)) };
      s.choose firstFragment false = s ∧ s.fr.due = [] ∧ s.stepOwed s.cur = false ∧ s.xlateAll [s.fr.pc] .fetch = .ok [(pl 0, .here)]
        ∧ s.allFetched s.waveOwner (wordPlaces (pl 0, .here)) = true ∧ s.mem.poisoned (pl 0).key = false
        ∧ decode ((placesFrom (pl 0) 4).map s.mem.readByte) = .ok (.vlaneid 31) ∧ s.operandsFree (.vlaneid 31) = false) := by
  refine ⟨?_, ?_, ?_, ?_, ?_, ?_, ?_, ?_⟩ <;> rfl

/-- The state with DBG.SS set. -/
def stepping : State := base.setWv { base.wv with dbgSS := true }

/-- What has issued in a state: nothing but what notes the issue differs. -/
noncomputable def issuedIn (t : State) : State := (t.dropFetched t.waveOwner).noteIssued t

/-- An instruction that completes, waits, is inside an attempt or in a trap handler, and a trap that is owed before the next one. -/
theorem witness_StepRunsWhatIsNext_step :
    (stepping.wv.dbgSS = true ∧ stepping.wv.active = false ∧ stepping.heldBack = false
        ∧ (findAt (issuedIn stepping).frags (issuedIn stepping).cur.key).isSome = true ∧ (issuedIn stepping).wv.active = false
        ∧ (issuedIn stepping).fr.status = .ready ∧ (issuedIn stepping).inTx = false ∧ (issuedIn stepping).wv.dbgHold = false)
      ∧ (let t := stepping.setFr { stepping.fr with status := .awaiting 1 [] }; t.heldBack = false
        ∧ (findAt (issuedIn t).frags (issuedIn t).cur.key).isSome = true ∧ (issuedIn t).fr.status = .awaiting 1 [])
      ∧ (let t := inAttempt stepping (attempt stepping); t.heldBack = false ∧ (issuedIn t).fr.status = .ready ∧ (issuedIn t).inTx = true)
      ∧ (let t := (inTrap 4).setWv { (inTrap 4).wv with dbgSS := true }; t.wv.dbgSS = true ∧ t.wv.active = true ∧ t.heldBack = false)
      ∧ (let s := stepping.setFr { stepping.fr with stepDue := true }; let c := s.choose firstFragment false
        s.releaseAll = s ∧ s.inputs = [] ∧ s.mayIssue s.nextIssuer = true ∧ s.nextIssuer = firstFragment ∧ s.power.stopped = false
          ∧ c.fr.due = [] ∧ c.stepOwed c.cur = true) := by
  refine ⟨⟨?_, ?_, ?_, ?_, ?_, ?_, ?_, ?_⟩, ⟨?_, ?_, ?_⟩, ⟨?_, ?_, ?_⟩, ⟨?_, ?_, ?_⟩, ?_, ?_, ?_, ?_, ?_, ?_, ?_⟩ <;> rfl

theorem witness_decoding :
    ((Instr.saddi 5 2 0x1FFD).isWord = true ∧ (Instr.saddi 5 2 0x1FFD).wellFormed = true)
      ∧ decodeWord 0x04285FFD = .ok (.saddi 5 2 0x1FFD) := by decide

theorem witness_EveryStepKeepsMemoryCanonical : State.reset.Inv ∧ ∃ t, step State.reset = .next t :=
  ⟨by unfold State.Inv; decide, _, rfl⟩

end Sys2Proof.Tests
end

section
/-! The special registers: what `srd` reads and what `swr` writes (R80, R133, R137, R228). -/

namespace Sys2Proof.Machine

theorem exec_srd (d idx : BitVec 6) (s : State) : exec (.srd d idx) s = execSrd d idx s := rfl

theorem exec_swr (a idx : BitVec 6) (s : State) : exec (.swr a idx) s = execSwr a idx s := rfl

/-- With no matrix instruction queued on a core there is nothing to complete. -/
theorem State.completeThrough_of_idle (s : State) (core : Nat) (p : MatOp → Bool) (h : (s.bank core).queue = []) :
    s.completeThrough core p = s := by
  simp [State.completeThrough, h]

/-- With no matrix instruction queued on the core an access of FSTAT finds the flags as they are. -/
theorem State.settleFlags_of_idle (s : State) (h : (s.bank s.cur.core).queue = []) : s.settleFlags = s :=
  s.completeThrough_of_idle _ _ h

/-- With no `xop` of the wave under way FSTAT can be read. -/
theorem State.flagsReady_of_idle (s : State) (h : s.waveXops s.cur = []) : s.flagsReady = true := by
  simp [State.flagsReady, h]

/-! ## `srd` -/

/-- A read of a register of the table gives its value, FSTAT once nothing of the wave is pending. -/
theorem execSrd_of_special (s : State) (d idx : BitVec 6) (x : Word) (h : s.special idx.toNat = some x)
    (h9 : idx = 9 → s.waveXops s.cur = [] ∧ (s.bank s.cur.core).queue = []) :
    execSrd d idx s = s.putScalar d x := by
  by_cases hi : idx = 9
  · obtain ⟨hx, hq⟩ := h9 hi
    simp [execSrd, State.putScalar, s.flagsReady_of_idle hx, s.settleFlags_of_idle hq, h]
  · have hn : idx.toNat ≠ 9 := fun e => hi (BitVec.eq_of_toNat_eq e)
    simp [execSrd, State.putScalar, hn, h]

/-- The indexes above 20 name no register. -/
theorem State.special_eq_none (s : State) (n : Nat) (h : 21 ≤ n) : s.special n = none := by
  unfold State.special
  split <;> simp_all

/-- A read of an index that names no register raises ILL. -/
theorem execSrd_of_none (s : State) (d idx : BitVec 6) (h : 21 ≤ idx.toNat) :
    execSrd d idx s = .next (s.trap causeILL 0 0 0) := by
  have hn : idx.toNat ≠ 9 := by omega
  simp [execSrd, hn, s.special_eq_none _ h]

/-! ## FRAG and TXSTAT -/

/-- A field of a word made of a number is the field of the number, where it lies within 64 bits. -/
theorem fieldOf_ofNat (n hi lo : Nat) (h : n < 2 ^ 64) :
    fieldOf (BitVec.ofNat 64 n) hi lo = n / 2 ^ lo % 2 ^ (hi + 1 - lo) := by
  rw [fieldOf, bitsOf, BitVec.toNat_ofNat, Nat.mod_eq_of_lt h, Nat.shiftRight_eq_div_pow]

/-- A bit of a word made of a number. -/
theorem getLsbD_ofNat_of_bit (n i : Nat) (b : Bool) (h : i < 64) (hb : n / 2 ^ i % 2 = b.toNat) :
    (BitVec.ofNat 64 n).getLsbD i = b := by
  rw [BitVec.getLsbD_ofNat, Nat.testBit_eq_decide_div_mod_eq, hb]
  cases b <;> simp [h]

/-- The live fragments of a wave, as FRAG lists them (R133). -/
def State.liveMask (s : State) : Nat := (s.fragsOf s.cur.core s.cur.wave).foldl (fun m k => m + 2 ^ k) 0

/-- The ids of a wave's fragments rise. -/
theorem State.fragsOf_sorted (s : State) (core wave : Nat) : (s.fragsOf core wave).SortedLT :=
  (List.pairwise_lt_range.filter _).sortedLT

/-- A wave has at most 8 fragments. -/
theorem State.length_fragsOf_le (s : State) (core wave : Nat) : (s.fragsOf core wave).length ≤ 8 := by
  simpa [State.fragsOf] using List.length_filter_le _ (List.range 8)

/-- Ids of fragments lie below 8. -/
theorem State.lt_of_mem_fragsOf {s : State} {core wave k : Nat} (h : k ∈ s.fragsOf core wave) : k < 8 :=
  List.mem_range.1 (List.mem_filter.1 h).1

/-- A bit of the mask of live fragments tells whether the fragment of its number lives. -/
theorem State.testBit_liveMask (s : State) (k : Nat) :
    s.liveMask.testBit k = decide (k ∈ s.fragsOf s.cur.core s.cur.wave) := by
  have hm : s.liveMask = ((s.fragsOf s.cur.core s.cur.wave).map (fun i => 2 ^ i)).sum := by
    rw [State.liveMask, List.sum_eq_foldl, List.foldl_map]
  rw [Bool.eq_iff_iff, ← Nat.mem_bitIndices, hm, Nat.bitIndices_sum_map_two_pow (s.fragsOf_sorted _ _), decide_eq_true_iff]

/-- The mask of live fragments takes 8 bits. -/
theorem State.liveMask_lt (s : State) : s.liveMask < 2 ^ 8 := by
  refine Nat.lt_pow_two_of_testBit _ fun i hi => ?_
  rw [s.testBit_liveMask, decide_eq_false_iff_not]
  intro hm
  have := State.lt_of_mem_fragsOf hm
  omega

/-- DBG as the sum of its bits. -/
theorem Wave.dbgWord_eq (w : Wave) : w.dbgWord = BitVec.ofNat 64 ((if w.holds = [] then 0 else 4)
    + (if w.dbgHold then 2 else 0) + (if w.dbgSS then 1 else 0)) := by
  simp [Wave.dbgWord, flagBit]

/-- FRAG holds its fields. -/
theorem State.fragWord_holds (s : State) : s.FragWordHolds s.fragWord := by
  intro hf he
  have hw : s.fragWord = BitVec.ofNat 64 (s.liveMask * 2 ^ 16 + (s.wv.entriesOf s.cur.frag).length * 2 ^ 8
      + (s.fragsOf s.cur.core s.cur.wave).length * 2 ^ 4 + s.cur.frag) := rfl
  have hl := s.length_fragsOf_le s.cur.core s.cur.wave
  have hm := s.liveMask_lt
  rw [hw]
  generalize (s.wv.entriesOf s.cur.frag).length = e at *
  generalize (s.fragsOf s.cur.core s.cur.wave).length = n at *
  refine ⟨?_, fun k hk => getLsbD_ofNat_of_bit _ _ _ (by omega) ?_, ?_, ?_, ?_,
    getLsbD_ofNat_of_bit _ _ false (by omega) ?_, ?_⟩
  case refine_2 =>
    have hq : (s.liveMask * 2 ^ 16 + e * 2 ^ 8 + n * 2 ^ 4 + s.cur.frag) / 2 ^ 16 = s.liveMask := by omega
    rw [← s.testBit_liveMask, Nat.toNat_testBit, Nat.pow_add, ← Nat.div_div_eq_div_mul, hq]
  case refine_6 => simp only [Bool.toNat_false]; omega
  all_goals rw [fieldOf_ofNat _ _ _ (by omega)]; omega

/-- The executing fragment has an attempt exactly where it holds the wave's open one. -/
theorem State.isSome_attempt (s : State) : s.attempt.isSome = s.inTx := by
  unfold State.attempt
  cases h : s.inTx with
  | false => rfl
  | true =>
    cases ht : s.wv.tx with
    | none => simp [State.inTx, ht] at h
    | some a => rfl

/-- TXSTAT as a sum of its fields. -/
theorem State.txstat_eq (s : State) :
    s.txstat = BitVec.ofNat 64 (s.fr.attempts * 2 ^ 36 + (s.ofAttempt (·.reads.length) * 2 ^ 29
      + s.ofAttempt (·.writeEntries) * 2 ^ 24 + s.ofAttempt (·.alts.length) * 2 ^ 21 + s.ofAttempt (·.depth) * 2 ^ 18
      + s.inTx.toNat * 2 ^ 16) + s.fr.ageValid.toNat * 2 ^ 17 + s.fr.txCode * 2 ^ 8 + s.fr.wake * 2 ^ 4
      + s.fr.txStatus) := by
  rw [← s.isSome_attempt]
  unfold State.txstat State.ofAttempt
  cases s.attempt <;> cases hv : s.fr.ageValid <;> simp [hv]

/-- TXSTAT holds its fields. -/
theorem State.txstat_holds (s : State) : s.TxstatHolds s.txstat := by
  intro h1 h2 h3 h4 h5 h6 h7 h8
  rw [s.txstat_eq]
  have hi := s.inTx.toNat_le
  have hv := s.fr.ageValid.toNat_le
  refine ⟨?_, ?_, ?_, ?_, ?_, ?_, getLsbD_ofNat_of_bit _ _ _ (by omega) ?_, getLsbD_ofNat_of_bit _ _ _ (by omega) ?_, ?_,
    getLsbD_ofNat_of_bit _ _ false (by omega) ?_, ?_, ?_⟩
  case refine_7 => omega
  case refine_8 => omega
  case refine_10 => simp only [Bool.toNat_false]; omega
  all_goals rw [fieldOf_ofNat _ _ _ (by omega)]; omega

/-! ## `swr` -/

/-- A write that the register accepts. -/
theorem execSwr_of_writeSpecial (s t : State) (a idx : BitVec 6) (h : s.writeSpecial idx.toNat (s.getS a) = some t)
    (h9 : idx = 9 → s.waveXops s.cur = []) (h14 : idx = 14 → s.ctxId = 0) : execSwr a idx s = .next t.advance := by
  have hp : ¬ (idx.toNat = 14 ∧ s.ctxId ≠ 0 ∧ (!badTvec (s.getS a)) = true) :=
    fun ⟨e, hc, _⟩ => hc (h14 (BitVec.eq_of_toNat_eq e))
  have hf : ¬ (idx.toNat = 9 ∧ (!s.flagsReady) = true) := fun ⟨e, hn⟩ => by
    simp [s.flagsReady_of_idle (h9 (BitVec.eq_of_toNat_eq e))] at hn
  simp only [execSwr, if_neg hp, if_neg hf, h]

/-- A write that the register does not accept raises ILL. -/
theorem execSwr_of_refused (s : State) (a idx : BitVec 6) (h : s.writeSpecial idx.toNat (s.getS a) = none) :
    execSwr a idx s = .next (s.trap causeILL 0 0 0) := by
  have hp : ¬ (idx.toNat = 14 ∧ s.ctxId ≠ 0 ∧ (!badTvec (s.getS a)) = true) := fun ⟨e, _, hb⟩ => by
    simp_all [State.writeSpecial]
  have hf : ¬ (idx.toNat = 9 ∧ (!s.flagsReady) = true) := fun ⟨e, _⟩ => by simp [e, State.writeSpecial] at h
  simp only [execSwr, if_neg hp, if_neg hf, h]

/-- A write of a good value to TVEC in an ordinary context raises PRIV. -/
theorem execSwr_tvec_of_ordinary (s : State) (a : BitVec 6) (hc : s.ctxId ≠ 0) (hb : badTvec (s.getS a) = false) :
    execSwr a 14 s = .next (s.trap causePRIV 0 0 0) := by
  simp [execSwr, hc, hb]

/-- The read-only registers and the indexes that name none accept no write. -/
theorem State.writeSpecial_eq_none (s : State) (n : Nat) (x : Word) (h : n ≤ 7 ∨ 16 ≤ n) :
    s.writeSpecial n x = none := by
  unfold State.writeSpecial
  split <;> simp_all

/-- A register of the wave replaced, and the program counter moved on. -/
theorem State.advance_setWv (s : State) (w : Wave) :
    (s.setWv w).advance = (s.setWv w).setFr { s.fr with pc := s.fr.pc + 4 } := rfl

/-- A write of TCAUSE keeps ACTIVE. -/
theorem getLsbD_tcauseAfter_active (old x : Word) : (tcauseAfter old x).getLsbD 15 = old.getLsbD 15 := by
  simp [tcauseAfter]

/-- A write of TCAUSE sets every other bit as given. -/
theorem getLsbD_tcauseAfter_ne (old x : Word) (i : Nat) (hi : i ≠ 15) (h : i < 64) :
    (tcauseAfter old x).getLsbD i = x.getLsbD i := by
  have hb : (BitVec.ofNat 64 (2 ^ 15)).getLsbD i = false := by
    rw [BitVec.getLsbD_ofNat, Nat.testBit_two_pow_of_ne (Ne.symm hi), Bool.and_false]
  rw [tcauseAfter, BitVec.getLsbD_or, BitVec.getLsbD_and, BitVec.getLsbD_and, BitVec.getLsbD_not, hb]
  simp [h]

/-! ## The statement -/

/-- Settles O10: `srd` and `swr` are told apart by the register they name, and each case is the lemma about it. -/
theorem specialRegisterResults : Obligations.SpecialRegisterResults := by
  unfold Obligations.SpecialRegisterResults
  refine ⟨fun s d idx x h h9 => ⟨?_, ?_⟩, fun s a x hx => ?_, fun s a idx hf => ?_⟩
  · rw [exec_srd, execSrd_of_special s d idx x h h9]
    exact s.putScalar_done d x
  · refine ⟨?_, ?_, ?_, ?_, ?_, ?_, ?_, ?_, ?_, ?_, ?_, ?_, ?_, ?_, ?_, ?_, ?_, ?_, ?_, ?_, ?_⟩ <;> rintro rfl
    case refine_20 => exact Option.some.inj h ▸ s.fragWord_holds
    case refine_21 => exact Option.some.inj h ▸ s.txstat_holds
    case refine_16 => rw [← s.wv.dbgWord_eq]; exact (Option.some.inj h).symm
    case refine_8 | refine_9 | refine_10 | refine_19 => rw [BitVec.ofNat_toNat]; exact (Option.some.inj h).symm
    all_goals exact (Option.some.inj h).symm
  · subst hx
    simp only [exec_swr]
    refine ⟨fun h1 h2 => ?_, fun hx hq => ?_, fun h1 h2 h3 => ?_, ?_, ?_, ?_, fun hc h1 h2 => ?_, fun h1 => ?_⟩
    · rw [execSwr_of_writeSpecial s (s.setFr { s.fr with mr := (s.getS a).setWidth 25 }) a 8
        (by simp [State.writeSpecial, mrWritable, h1, h2]) (by simp) (by simp), BitVec.ofNat_toNat]
      simp [State.advance]
    · rw [execSwr_of_writeSpecial s (s.setWv { s.wv with fstat := (s.getS a).setWidth 5 }) a 9
        (by simp [State.writeSpecial, s.settleFlags_of_idle hq]) (fun _ => hx) (by simp), BitVec.ofNat_toNat]
      rfl
    · refine ⟨_, execSwr_of_writeSpecial s (s.setWv { s.wv with tcause := tcauseAfter s.wv.tcause (s.getS a) }) a 10
        (by simp [State.writeSpecial, tcauseWritable, h1, h2, h3]) (by simp) (by simp), ?_, ?_, fun i hi hn => ?_⟩
      · simp [State.advance_setWv]
      · simpa only [Wave.active, State.wv_advance, State.wv_setWv] using getLsbD_tcauseAfter_active _ _
      · simpa using getLsbD_tcauseAfter_ne _ _ i hn hi
    · exact execSwr_of_writeSpecial s _ a 11 rfl (by simp) (by simp)
    · exact execSwr_of_writeSpecial s _ a 12 rfl (by simp) (by simp)
    · exact execSwr_of_writeSpecial s _ a 13 rfl (by simp) (by simp)
    · exact execSwr_of_writeSpecial s (s.setWv { s.wv with tvec := s.getS a }) a 14
        (by simp [State.writeSpecial, badTvec, h1, h2]) (by simp) (fun _ => hc)
    · exact execSwr_of_writeSpecial s (s.setWv { s.wv with dbgHold := (s.getS a).getLsbD 1, dbgSS := (s.getS a).getLsbD 0 })
        a 15 (by simp [State.writeSpecial, h1]) (by simp) (by simp)
  · simp only [exec_swr, exec_srd]
    refine ⟨fun h => ?_, fun hc h1 h2 => ?_, fun h => ?_, fun h => ?_⟩
    · exact ⟨_, execSwr_of_refused s a idx (s.writeSpecial_eq_none _ _ h), s.trap_trapped _ _ _ _ hf⟩
    · exact ⟨_, execSwr_tvec_of_ordinary s a hc (by simp [badTvec, h1, h2]), s.trap_trapped _ _ _ _ hf⟩
    · exact ⟨_, execSwr_of_refused s a 14 (by simpa [State.writeSpecial, badTvec, imp_iff_not_or] using h),
        s.trap_trapped _ _ _ _ hf⟩
    · exact ⟨_, execSrd_of_none s a idx h, s.trap_trapped _ _ _ _ hf⟩

end Sys2Proof.Machine
end

section
/-! The start of a task, the firing of a queue, the rise of a wave's class and the refill of the budgets (R22 to R24, R29 to R33,
R35). -/

namespace Sys2Proof.Machine

theorem exec_taskStart (core : Nat) (s : State) : exec (.taskStart core) s = execTaskStart core s := rfl

theorem exec_pailFiring (q : Nat) (s : State) : exec (.pailFiring q) s = execPailFiring q s := rfl

theorem exec_waveClassRaise (core wave : Nat) (s : State) :
    exec (.waveClassRaise core wave) s = execWaveClassRaise core wave s := rfl

theorem exec_budgetRefill (s : State) : exec .budgetRefill s = execBudgetRefill s := rfl

/-! ## The choice of wave slots -/

/-- An element of a list at a place that may lie past its end, where another element stands in. -/
theorem getD_mem {α : Type} (l : List α) (n : Nat) (d : α) (h : d ∈ l) : l.getD n d ∈ l := by
  rw [List.getD_eq_getElem?_getD]
  cases hn : l[n]? with
  | none => exact h
  | some y => exact List.mem_of_getElem? hn

/-- The numbers chosen are of the list chosen from. -/
theorem mem_of_mem_chooseFrom {fresh n k : Nat} {l : List Nat} (h : k ∈ chooseFrom fresh n l) : k ∈ l := by
  induction n generalizing l with
  | zero => simp [chooseFrom] at h
  | succ n ih =>
    cases l with
    | nil => simp [chooseFrom] at h
    | cons x r =>
      rcases List.mem_cons.1 h with rfl | h
      · exact getD_mem _ _ _ (List.mem_cons_self ..)
      · exact (List.mem_filter.1 (ih h)).1

/-- No number is chosen twice. -/
theorem nodup_chooseFrom (fresh n : Nat) (l : List Nat) : (chooseFrom fresh n l).Nodup := by
  induction n generalizing l with
  | zero => simp [chooseFrom]
  | succ n ih =>
    cases l with
    | nil => simp [chooseFrom]
    | cons x r =>
      refine List.nodup_cons.2 ⟨fun h => ?_, ih _⟩
      have := (List.mem_filter.1 (mem_of_mem_chooseFrom h)).2
      simp at this

/-! ## The waves of a gang -/

/-- The waves of a gang begun one after another in their slots, each slot with its role and the index in it. -/
def State.beginWaves (s : State) (key : Nat) (t : Task) (xs : List (Nat × Role × Nat)) : State :=
  xs.foldl (fun u x => u.beginWave key t x.1 x.2.1 x.2.2) s

/-- The first fragment of a wave slot of a task's core. -/
def Task.first (t : Task) (w : Nat) : FragId := { core := t.core, wave := w, frag := 0 }

/-- The wave that a task begins for a role (R22). -/
def State.startWave (s : State) (key : Nat) (t : Task) (r : Role) : Wave :=
  { Wave.reset with task := key, roleClass := r.cls, rblk := r.regs, tvec := (s.ctxOf t.ctx).tvec }

/-- The fragment that such a wave begins with, on a line of accesses of its own (R22). -/
def State.startFrag (s : State) (t : Task) (r : Role) (index thread : Nat) : Frag :=
  { Frag.reset with
    pc := r.entry, mr := r.mrInit, s := startScalars t (t.tile - (s.seatOf t.oper t.core).partBase) r index,
    p := startPreds, thread := thread }

/-- The wave in a slot and its first fragment are as a task start leaves them. -/
def State.Begun (s u : State) (key : Nat) (t : Task) (x : Nat × Role × Nat) : Prop :=
  u.wvOf (t.first x.1) = s.startWave key t x.2.1 ∧ ∃ n, u.frOf (t.first x.1) = s.startFrag t x.2.1 x.2.2 n

/-- A wave begun is as a task start leaves it. -/
theorem State.beginWave_begun (s : State) (key : Nat) (t : Task) (x : Nat × Role × Nat) :
    s.Begun (s.beginWave key t x.1 x.2.1 x.2.2) key t x :=
  ⟨State.wvOf_setWvOf .., _, State.frOf_setFrOf ..⟩

/-- A wave begun leaves the other slots of the core as they were. -/
theorem State.beginWave_other (s : State) (key : Nat) (t : Task) (w v : Nat) (r : Role) (index : Nat) (h : v ≠ w) :
    (s.beginWave key t w r index).wvOf (t.first v) = s.wvOf (t.first v)
      ∧ (s.beginWave key t w r index).frOf (t.first v) = s.frOf (t.first v) := by
  have hw : (t.first v).waveKey ≠ (t.first w).waveKey := by
    simp [Task.first, FragId.waveKey, h]
  have hf : (t.first v).key ≠ (t.first w).key := by
    simpa [Task.first, FragId.key] using hw
  exact ⟨getAt_putAt_ne _ _ _ hw, getAt_putAt_ne _ _ _ hf⟩

/-- The waves of a gang begun change the waves and the fragments alone. -/
theorem State.beginWaves_frame (s : State) (key : Nat) (t : Task) (xs : List (Nat × Role × Nat)) :
    s.beginWaves key t xs = { s with
      waves := (s.beginWaves key t xs).waves, frags := (s.beginWaves key t xs).frags } := by
  induction xs generalizing s with
  | nil => rfl
  | cons a r ih => exact ih (s.beginWave key t a.1 a.2.1 a.2.2)

/-- The waves of a gang begun leave the other slots of the core as they were. -/
theorem State.beginWaves_other (s : State) (key : Nat) (t : Task) (xs : List (Nat × Role × Nat)) (v : Nat)
    (h : ∀ x ∈ xs, v ≠ x.1) :
    (s.beginWaves key t xs).wvOf (t.first v) = s.wvOf (t.first v)
      ∧ (s.beginWaves key t xs).frOf (t.first v) = s.frOf (t.first v) := by
  induction xs generalizing s with
  | nil => exact ⟨rfl, rfl⟩
  | cons a r ih =>
    obtain ⟨h1, h2⟩ := s.beginWave_other key t a.1 v a.2.1 a.2.2 (h a (List.mem_cons_self ..))
    obtain ⟨h3, h4⟩ := ih (s.beginWave key t a.1 a.2.1 a.2.2) (fun x hx => h x (List.mem_cons_of_mem _ hx))
    exact ⟨h3.trans h1, h4.trans h2⟩

/-- Each wave of a gang begun in slots of its own is as a task start leaves it. -/
theorem State.beginWaves_begun (s : State) (key : Nat) (t : Task) (xs : List (Nat × Role × Nat))
    (hn : (xs.map (·.1)).Nodup) : ∀ x ∈ xs, s.Begun (s.beginWaves key t xs) key t x := by
  induction xs generalizing s with
  | nil => simp
  | cons a r ih =>
    obtain ⟨ha, hr⟩ := List.nodup_cons.1 hn
    intro x hx
    rcases List.mem_cons.1 hx with rfl | hx
    · obtain ⟨h1, h2⟩ := (s.beginWave key t x.1 x.2.1 x.2.2).beginWaves_other key t r x.1
        (fun y hy e => ha (List.mem_map.2 ⟨y, hy, e.symm⟩))
      obtain ⟨hw, n, hf⟩ := s.beginWave_begun key t x
      exact ⟨h1.trans hw, n, h2.trans hf⟩
    · exact ih (s.beginWave key t a.1 a.2.1 a.2.2) hr x hx

/-! ## The registers at a task start -/

section StartFrag

variable (s : State) (t : Task) (r : Role) (index thread : Nat)

/-- A scalar at a task start is the one of its number. -/
theorem State.getS_startFrag (n : BitVec 6) (h : n ≠ 0) : (s.startFrag t r index thread).getS n
    = (startScalars t (t.tile - (s.seatOf t.oper t.core).partBase) r index)[n.toNat]'n.isLt := by
  rw [Frag.getS, if_neg h]
  rfl

/-- The scalars to which R22 gives no value are 0. -/
theorem State.getS_startFrag_rest (n : BitVec 6) (h : n = 0 ∨ 6 ≤ n.toNat ∧ n.toNat ≤ 62) :
    (s.startFrag t r index thread).getS n = 0 := by
  by_cases hz : n = 0
  · rw [hz, Frag.getS_zero]
  · have hr : 6 ≤ n.toNat ∧ n.toNat ≤ 62 := h.resolve_left hz
    rw [s.getS_startFrag t r index thread n hz, startScalars, Vector.getElem_ofFn]
    split <;> simp_all

end StartFrag

/-- At a task start p0 is all ones and the others are 0. -/
theorem startPreds_toList : startPreds.toList = BitVec.allOnes 32 :: List.replicate 7 0 := by decide

/-! ## The start of a task -/

/-- A task that starts takes the next number of its core, the cycle as its age, and its wave slots. -/
def State.started (s : State) (t : Task) (slots : List Nat) : Task :=
  { t with state := .running, number := (s.coreOf t.core).taskCount % 65536, age := s.cycle, waves := slots }

/-- The state in which the waves of a fired task begin: its core has counted the task and given its blocks. -/
def State.granted (s : State) (key : Nat) (t : Task) (slots : List Nat) : State :=
  let s1 := s.takeFresh.setCore t.core { s.coreOf t.core with
    taskCount := (s.coreOf t.core).taskCount + 1
    freeBlocks := (s.coreOf t.core).freeBlocks - (getAt Operator.reset s.operators t.oper).gang.2
    lastStart := some s.cycle }
  { s1 with tasks := putAt s1.tasks key (s.started t slots) }

/-- Blocks granted by a core whose row has been replaced. -/
theorem State.grant_setCore (s : State) (core n : Nat) (c : CoreRow) : (s.setCore core c).grant core n
    = s.setCore core { c with freeBlocks := c.freeBlocks - n, lastStart := some s.cycle } := by
  rw [State.grant, State.coreOf_setCore, State.setCore, State.setCore, State.setCore, putAt_putAt]

/-- A fired task that starts: its core gives it slots and blocks, and its waves begin. -/
theorem State.startFired_eq (s : State) (key : Nat) (t : Task) (o : Operator) (slots : List Nat)
    (ho : o = getAt Operator.reset s.operators t.oper) (hs : slots = chooseFrom s.fresh o.gang.1 (s.freeSlots t.core)) :
    s.startFired key t = (s.granted key t slots).beginWaves key (s.started t slots) (slots.zip (gangWaves o.roles)) := by
  subst ho hs
  rw [State.startFired, State.grant_setCore]
  rfl

/-- A start that the cycle allows, of a task that was fired. -/
theorem exec_taskStart_of_fired (s : State) (core key : Nat) (t : Task) (hl : (s.coreOf core).lastStart ≠ some s.cycle)
    (hn : s.nextStart core = some (key, t)) (hq : t.state = .queued) :
    exec (.taskStart core) s = .next (s.startFired key t) := by
  simp [exec_taskStart, execTaskStart, hl, hn, hq]

/-- A slot goes to one wave of a gang at most. -/
theorem nodup_zip_chooseFrom {α : Type} (fresh n : Nat) (l : List Nat) (ws : List α) :
    (((chooseFrom fresh n l).zip ws).map (·.1)).Nodup := by
  rw [List.zip_eq_zip_take_min, List.map_fst_zip (by simp)]
  exact (List.take_sublist _ _).nodup (nodup_chooseFrom fresh n l)

/-- What the start of a fired task leaves: its number, its blocks and its age are given, and each wave of its gang has begun. -/
theorem State.startFired_spec (s : State) (key : Nat) (t : Task) (o : Operator) (slots : List Nat)
    (ho : o = getAt Operator.reset s.operators t.oper) (hs : slots = chooseFrom s.fresh o.gang.1 (s.freeSlots t.core)) :
    s.startFired key t = { s with
        fresh := s.fresh + 1, cores := (s.startFired key t).cores, tasks := (s.startFired key t).tasks,
        waves := (s.startFired key t).waves, frags := (s.startFired key t).frags }
      ∧ findAt (s.startFired key t).tasks key = some (s.started t slots)
      ∧ (s.startFired key t).coreOf t.core = { s.coreOf t.core with
          taskCount := (s.coreOf t.core).taskCount + 1, freeBlocks := (s.coreOf t.core).freeBlocks - o.gang.2,
          lastStart := some s.cycle }
      ∧ ∀ x ∈ slots.zip (gangWaves o.roles), s.Begun (s.startFired key t) key (s.started t slots) x := by
  rw [s.startFired_eq key t o slots ho hs]
  have hn : ((slots.zip (gangWaves o.roles)).map (·.1)).Nodup := hs ▸ nodup_zip_chooseFrom ..
  have hb := (s.granted key t slots).beginWaves_begun key (s.started t slots) _ hn
  have hf := (s.granted key t slots).beginWaves_frame key (s.started t slots) (slots.zip (gangWaves o.roles))
  generalize (s.granted key t slots).beginWaves key (s.started t slots) (slots.zip (gangWaves o.roles)) = u at hb hf
  refine ⟨?_, ?_, ?_, hb⟩
  · rw [hf]
    rfl
  · rw [hf]
    exact findAt_putAt_same ..
  · rw [hf, ho]
    exact getAt_putAt_same ..

/-! ## The firing of a queue -/

section NoAttempt

variable (s : State) (h : s.attempts = [])

include h

/-- With no attempt open a write ends none. -/
theorem State.conflictWrite_of_noAttempt (agent : Option FragId) (ws : List Watch) : s.conflictWrite agent ws = s := by
  simp [State.conflictWrite, h]

/-- A write of a hardware state word with no attempt open changes nothing but the notices. -/
theorem State.writeWord_of_noAttempt (w : Watch) : ∃ ns, s.writeWord w = { s with notices := ns } :=
  ⟨_, by rw [State.writeWord, s.conflictWrite_of_noAttempt h]; rfl⟩

/-- A change of a queue with no attempt open changes nothing but the queue and the notices. -/
theorem State.changeQueue_of_noAttempt (q : Nat) (x : TokenQueue) :
    ∃ ns, s.changeQueue q x = { s with queues := putAt s.queues q x, notices := ns } :=
  (s.setQueue q x).writeWord_of_noAttempt h _

omit h in
/-- Notices of some words change nothing else. -/
theorem State.foldl_notify (ws : List Watch) : ∃ ns, ws.foldl (fun t w => t.notify w) s = { s with notices := ns } := by
  induction ws generalizing s with
  | nil => exact ⟨_, rfl⟩
  | cons a r ih => exact ih (s.notify a)

/-- A write of memory with no attempt open changes nothing but memory and the notices. -/
theorem State.storeBytes_of_noAttempt (agent : Option FragId) (data : List (Place × Byte)) :
    ∃ ns, s.storeBytes agent data
      = { s with mem := (s.mem.writeBytes data).clearPoison (data.map (·.1.key)), notices := ns } := by
  rw [State.storeBytes, s.conflictWrite_of_noAttempt h]
  exact State.foldl_notify _ _

end NoAttempt

/-- An entry of the tile table set twice. -/
theorem State.setTile_setTile (s : State) (core entry : Nat) (x y : TileEntry) :
    (s.setTile core entry x).setTile core entry y = s.setTile core entry y := by
  rw [State.setTile, State.setTile, State.setTile, putAt_putAt]

/-- The entry of the tile table that a firing fills: defined as its operator gives, with the rows of the records live. -/
def State.filled (s : State) (oper core entry key : Nat) (o : Operator) (rs : List (List Word)) : TileEntry :=
  TileEntry.define { s.tileOf core entry with
      live := rs.zipIdx.map (fun x => { row := x.2, w0 := x.1.getD 0 0, ctx := o.ctx }), liveTask := key }
    (o.tileBase (entry - (s.seatOf oper core).partBase)) o.tshape true

/-- The task that a firing makes. -/
def State.firedTask (s : State) (oper core entry : Nat) (o : Operator) (rows : Nat) : Task :=
  { Task.reset with
    core := core, oper := oper, ctx := o.ctx, state := .queued, tile := entry, rows := rows, fired := s.cycle }

/-- A firing of some records with no attempt open: what it makes of each table. -/
theorem State.fire_eq (s : State) (q oper core entry : Nat) (o : Operator) (x : TokenQueue) (p : Picked)
    (rs : List (List Word)) (data : List (Place × Byte)) (h : s.attempts = []) (hx : x = s.queue q)
    (hp : p = firePick x.store o.timeout s.cycle) (hrs : rs = recordsAt x.store p.order) (hr : rs ≠ [])
    (hd : data = s.blockData oper core (entry - (s.seatOf oper core).partBase) rs) :
    ∃ ns cs, s.fire q oper core entry o = { s with
      fresh := s.fresh + 1
      queues := putAt s.queues q { x with store := dropPlaces x.store p.gone, lastCore := core }
      mem := (s.mem.writeBytes data).clearPoison (data.map (·.1.key))
      tiles := putAt s.tiles (core * 64 + entry) (s.filled oper core entry s.nextTask o rs)
      tasks := putAt s.tasks s.nextTask (s.firedTask oper core entry o rs.length)
      contexts := cs, notices := ns, lastTask := s.nextTask } := by
  have he : rs.isEmpty = false := by simpa using hr
  obtain ⟨n1, h1⟩ := s.changeQueue_of_noAttempt h q { x with store := dropPlaces x.store p.gone, lastCore := core }
  generalize hs1 : s.changeQueue q { x with store := dropPlaces x.store p.gone, lastCore := core } = s1 at h1
  have hd1 : s1.blockData oper core (entry - (s.seatOf oper core).partBase) rs = data := by rw [h1, hd]; rfl
  obtain ⟨n2, h2⟩ := s1.storeBytes_of_noAttempt (h1 ▸ h) none data
  generalize hs2 : s1.storeBytes none data = s2 at h2
  have hf : s2.filled oper core entry s.nextTask o rs = s.filled oper core entry s.nextTask o rs := by rw [h2, h1]; rfl
  obtain ⟨n3, h3⟩ := (s2.setTile core entry (s.filled oper core entry s.nextTask o rs)).writeWord_of_noAttempt
    (h2 ▸ h1 ▸ h) (.tile core entry)
  generalize hs3 : (s2.setTile core entry (s.filled oper core entry s.nextTask o rs)).writeWord (.tile core entry) = s3 at h3
  have hfire : s.fire q oper core entry o = { s3 with
      contexts := (s3.startProgress o.ctx).contexts, lastTask := s.nextTask
      tasks := putAt s3.tasks s.nextTask (s3.firedTask oper core entry o rs.length), fresh := s3.fresh + 1 } := by
    have hm : (s2.makeLive core entry o.ctx s.nextTask rs).setTile core entry
        (((s2.makeLive core entry o.ctx s.nextTask rs).tileOf core entry).define
          (o.tileBase (entry - (s.seatOf oper core).partBase)) o.tshape true)
        = s2.setTile core entry (s.filled oper core entry s.nextTask o rs) := by
      rw [State.makeLive, State.tileOf_setTile, State.setTile_setTile, ← hf]
      rw [h2, h1]
      rfl
    subst hx
    rw [State.fire]
    simp only [← hp, ← hrs, he, Bool.false_eq_true, if_false, hs1, hd1, hs2, hm, hs3]
    rfl
  refine ⟨n3, (s3.startProgress o.ctx).contexts, hfire.trans ?_⟩
  rw [h3, h2, h1]
  rfl

/-- A core whose pail is next has an entry into which it may fire. -/
theorem State.openEntries_of_nextPail {s : State} {oper last c : Nat} {o : Operator} (h : s.nextPail oper o last = some c) :
    s.openEntries oper c ≠ [] := by
  obtain ⟨k, -, hk⟩ := List.exists_of_findSome?_eq_some h
  dsimp only at hk
  split at hk
  · rename_i hr
    cases hk
    simp only [State.pailReady, Bool.and_eq_true, Bool.not_eq_true', List.isEmpty_eq_false_iff] at hr
    exact hr.2.1.2
  · cases hk

/-- A queue that is due, with a pail to serve, fires into an open entry of the core of that pail. -/
theorem exec_pailFiring_of_due (s : State) (q oper c : Nat) (x : TokenQueue) (o : Operator) (hx : findAt s.queues q = some x)
    (hf : s.feeds q = some (oper, o)) (hn : s.nextPail oper o x.lastCore = some c) (hd : s.firingDue x o.timeout = true) :
    ∃ e ∈ s.openEntries oper c, exec (.pailFiring q) s = .next (s.fire q oper c e o) := by
  refine ⟨(s.openEntries oper c).getD (Config.choice s.fresh q % (s.openEntries oper c).length) 0, ?_, ?_⟩
  · have hl := List.length_pos_iff.2 (State.openEntries_of_nextPail hn)
    rw [List.getD_eq_getElem _ _ (Nat.mod_lt _ hl)]
    exact List.getElem_mem _
  · simp [exec_pailFiring, execPailFiring, hx, hf, hn, hd]

@[simp] theorem Memory.epoch_clearPoison (m : Memory) (keys : List Nat) : (m.clearPoison keys).epoch = m.epoch := by
  unfold Memory.clearPoison
  split <;> rfl

@[simp] theorem Memory.bytes_clearPoison (m : Memory) (keys : List Nat) : (m.clearPoison keys).bytes = m.bytes := by
  unfold Memory.clearPoison
  split <;> rfl

@[simp] theorem Memory.keys_clearPoison (m : Memory) (keys : List Nat) : (m.clearPoison keys).keys = m.keys := by
  unfold Memory.clearPoison
  split <;> rfl

@[simp] theorem Memory.epoch_writeBytes (m : Memory) (data : List (Place × Byte)) : (m.writeBytes data).epoch = m.epoch := by
  induction data generalizing m with
  | nil => rfl
  | cons a r ih => exact ih (m.writeByte a.1 a.2)

/-- A state with bytes written into memory, and their poison marks cleared, has them stored. -/
theorem State.stored_of_mem (s t : State) (data : List (Place × Byte))
    (h : t.mem = (s.mem.writeBytes data).clearPoison (data.map (·.1.key))) : s.Stored t data := by
  refine ⟨?_, ?_, ?_, fun p hp => ?_⟩
  · rw [h, Memory.bytes_clearPoison]
  · rw [h, Memory.keys_clearPoison]
  · rw [h, Memory.epoch_clearPoison, Memory.epoch_writeBytes]
  · rw [h, Memory.readByte_clearPoison]
    exact s.mem.readByte_writeBytes_ne data p (fun y hy => hp y.1 (List.mem_map_of_mem hy))

/-! ## The budgets -/

/-- A bucket after a refill: it rises by its limit up to four times that, and stays where it has none (R35). -/
theorem Budget.refill_bucket (b : Budget) (r : Nat) (h : r < 3) : b.refill.buckets.getD r 0
    = if b.limits.getD r 0 = 0 then b.buckets.getD r 0
      else min (4 * (b.limits.getD r 0 : Int)) (b.buckets.getD r 0 + (b.limits.getD r 0 : Int)) := by
  rw [Budget.refill, List.getD_eq_getElem _ _ (by simpa using h)]
  simp

/-! ## The statement -/

/-- Settles O47: a start by the induction over its gang, a firing by what it makes of each table. -/
theorem taskStartAndFiring : Obligations.TaskStartAndFiring := by
  unfold Obligations.TaskStartAndFiring
  intro s core
  refine ⟨fun key t o slots hl hn hq htc ho hs _ => ?_, fun q x oper o c p rs ha hx hf hp hd hpk hrs hr => ?_,
    fun wave f hf hw hc hr => ?_, fun h => ?_⟩
  · subst htc
    obtain ⟨hframe, htask, hcore, hbegun⟩ := s.startFired_spec key t o slots ho hs
    refine ⟨s.startFired key t, s.started t slots, exec_taskStart_of_fired s t.core key t hl hn hq, hframe, rfl, htask,
      hcore, fun y hy f hf => ?_⟩
    subst hf
    obtain ⟨hw, n, hfr⟩ := hbegun y hy
    replace hfr : (s.startFired key t).frOf { core := t.core, wave := y.1, frag := 0 } = _ := hfr
    refine ⟨hw, ?_⟩
    rw [hfr]
    refine ⟨rfl, rfl, rfl, rfl, rfl, ?_, ?_, ?_, ?_, ?_, ?_, State.getS_startFrag_rest _ _ _ _ _, startPreds_toList⟩
    all_goals
      rw [State.getS_startFrag _ _ _ _ _ _ (by decide), startScalars, Vector.getElem_ofFn]
      rfl
  · obtain ⟨e, he, hexec⟩ := exec_pailFiring_of_due s q oper c x o hx hf hp hd
    have hxq : x = s.queue q := by simp [State.queue, getAt, hx]
    obtain ⟨ns, cs, ht⟩ := s.fire_eq q oper c e o x p rs _ ha hxq hpk hrs hr rfl
    refine ⟨_, e, s.nextTask, hexec, he, rfl, ?_, ?_, s.stored_of_mem _ _ (by rw [ht]), ?_, ?_, ?_, ?_,
      s.firedTask oper c e o rs.length, ?_, rfl, rfl, rfl, rfl, rfl, rfl, rfl⟩
    all_goals rw [ht]
    · simp [State.queue]
    all_goals simp [State.tileOf, State.filled, TileEntry.define]
  · subst hf
    rw [exec_waveClassRaise, execWaveClassRaise]
    exact congrArg _ (if_pos ⟨hw, hc, hr⟩)
  · rw [exec_budgetRefill, execBudgetRefill]
    refine ⟨_, congrArg _ (if_pos h), rfl, fun c x hx =>
      ⟨{ x with budgets := x.budgets.map Budget.refill }, by rw [findAt_mapTab, hx]; rfl, fun k r hr => ?_⟩⟩
    have hk : (x.budgets.map Budget.refill)[k] = x.budgets[k].refill := Vector.getElem_map ..
    rw [hk]
    exact ⟨rfl, x.budgets[k].refill_bucket r hr⟩

end Sys2Proof.Machine
end

section
/-! What a step runs: the plan of a step, the fetch and the issue of an instruction, what follows it, and which fragment may
issue (R33, R34, R69, R73, R121, R149). -/

namespace Sys2Proof.Machine

/-! ## The fetch of a word -/

/-- A byte joined below a word. -/
theorem toNat_append_byte {n : Nat} (x : BitVec n) (b : Byte) : (x ++ b).toNat = x.toNat * 256 + b.toNat := by
  rw [BitVec.toNat_append, ← Nat.shiftLeft_add_eq_or_of_lt b.isLt, Nat.shiftLeft_eq]

/-- Four bytes make the same word joined and as one number. -/
theorem wordOfBytes_eq_ofBytes (b0 b1 b2 b3 : Byte) :
    wordOfBytes b0 b1 b2 b3 = BitVec.ofNat 32 (ofBytes [b0, b1, b2, b3]) := by
  apply BitVec.eq_of_toNat_eq
  have h0 := b0.isLt
  have h1 := b1.isLt
  have h2 := b2.isLt
  have h3 := b3.isLt
  simp only [wordOfBytes, toNat_append_byte, ofBytes, BitVec.toNat_ofNat]
  omega

/-- Decoding the four bytes from a place on is decoding the word they make. -/
theorem decode_placesFrom (p : Place) (f : Place → Byte) :
    decode ((placesFrom p 4).map f) = decodeWord (BitVec.ofNat 32 (ofBytes ((placesFrom p 4).map f))) :=
  congrArg decodeWord (wordOfBytes_eq_ofBytes ..)

/-- The word fetched at a place of this device is the one memory holds there. -/
theorem State.fetchWord_here (s : State) (p : Place) :
    s.fetchWord (p, .here) = BitVec.ofNat 32 (ofBytes ((placesFrom p 4).map s.mem.readByte)) := by
  simp [State.fetchWord, wordPlaces, Function.comp_def, State.engineByte]

/-- A program counter that translates to a place of this device, unpoisoned, fetches the word there. -/
theorem State.fetch_here (s : State) (p : Place) (hx : s.xlateAll [s.fr.pc] .fetch = .ok [(p, .here)])
    (ha : s.allFetched s.waveOwner (wordPlaces (p, .here)) = true) (hp : s.mem.poisoned p.key = false) :
    s.fetch = .word (BitVec.ofNat 32 (ofBytes ((placesFrom p 4).map s.mem.readByte))) := by
  simp [State.fetch, hx, ha, hp, State.enginePoison, s.fetchWord_here]

/-! ## The plan of a step -/

/-- A step whose plan is a word runs its instruction, and what follows an instruction follows. -/
theorem step_of_word {s t : State} {w : BitVec 32} {i : Instr} (h : s.plan = .word t w i) :
    step s = t.finishIssue (exec i (t.noteWord w)) := by
  simp [step, h]

/-- A step whose plan is done answers its state. -/
theorem step_of_done {s t : State} (h : s.plan = .done t) : step s = .next t := by
  simp [step, h]

/-- A step whose plan is an event runs its row. -/
theorem step_of_event {s t : State} {i : Instr} (h : s.plan = .event t i) : step s = exec i t := by
  simp [step, h]

/-- With nothing on the tape the fragment chosen issues. -/
theorem State.plan_of_empty (s t : State) (ht : t = s.releaseAll) (hi : t.inputs = []) (hm : t.mayIssue t.nextIssuer = true)
    (hp : t.power.stopped = false) : s.plan = (t.choose t.nextIssuer false).issuePlan := by
  subst ht
  simp [State.plan, State.planMove, hi, hm, hp]

/-- With an issue on the tape the fragment it names issues. -/
theorem State.plan_of_issue (s t : State) (f : FragId) (d : Bool) (rest : List Input)
    (hi : s.releaseAll.inputs = .issue f d :: rest) (ht : t = { s.releaseAll with inputs := rest })
    (hm : t.mayIssue f = true) (hp : t.power.stopped = false) : s.plan = (t.choose f d).issuePlan := by
  have h : s.plan = if t.mayIssue f && !t.power.stopped then (t.choose f d).issuePlan else .done t := by
    subst ht
    rw [State.plan, State.planMove, hi]
  rw [h, hm, hp]
  rfl

/-- A trap that is owed is taken before the next instruction. -/
theorem State.issuePlan_of_owed (c : State) (hd : c.fr.due = []) (ho : c.stepOwed c.cur = true) :
    c.issuePlan = .done ((c.stepTrap c.cur).passFrag c.cur) := by
  simp [State.issuePlan, hd, ho]

/-- A word fetched that decodes is issued. -/
theorem State.issuePlan_of_decoded (c : State) (w : BitVec 32) (i : Instr) (hd : c.fr.due = [])
    (ho : c.stepOwed c.cur = false) (hf : c.fetch = .word w) (hw : decodeWord w = .ok i) :
    c.issuePlan = c.issueWord w i := by
  simp [State.issuePlan, hd, ho, hf, hw]

/-- A word fetched that decodes to nothing is an illegal instruction. -/
theorem State.issuePlan_of_rejected (c : State) (w : BitVec 32) (e : Reject) (hd : c.fr.due = [])
    (ho : c.stepOwed c.cur = false) (hf : c.fetch = .word w) (hw : decodeWord w = .error e) :
    c.issuePlan = .word c w (.illegalInstruction w) := by
  simp [State.issuePlan, hd, ho, hf, hw]

/-- An instruction whose operands are free and whose interlocks have been performed runs. -/
theorem State.issueWord_of_free (c : State) (w : BitVec 32) (i : Instr) (hf : c.operandsFree i = true)
    (hm : (c.settleFor i).movedOn c = false) (hl : (c.settleFor i).interlocks i = []) :
    c.issueWord w i = .word (c.settleFor i) w i := by
  simp [State.issueWord, hf, hm, hl]

/-! ## What follows an instruction -/

/-- With no access on its way there is nothing to settle. -/
theorem State.settleFor_of_idle (t : State) (i : Instr) (h : t.accesses = []) : t.settleFor i = t := by
  simp [State.settleFor, h]

/-- With no access on its way nothing interlocks. -/
theorem State.interlocks_of_idle (t : State) (i : Instr) (h : t.accesses = []) : t.interlocks i = [] := by
  simp [State.interlocks, h]

@[simp] theorem State.dropFetched_stalled (s : State) (o : Owner) : (s.dropFetched o).stalled = s.stalled := by
  unfold State.dropFetched
  split <;> rfl

@[simp] theorem State.fr_dropFetched (s : State) (o : Owner) : (s.dropFetched o).fr = s.fr := by
  unfold State.dropFetched
  split <;> rfl

@[simp] theorem State.heldBack_dropFetched (s : State) (o : Owner) : (s.dropFetched o).heldBack = s.heldBack := by
  simp [State.heldBack]

@[simp] theorem State.noteIssued_stalled (s before : State) : (s.noteIssued before).stalled = s.stalled := by
  unfold State.noteIssued
  dsimp only
  split <;> split <;> rfl

/-- An instruction that is not held back has not stalled. -/
theorem State.not_stalled_of_not_heldBack {s : State} (h : s.heldBack = false) : s.stalled = false := by
  simp_all [State.heldBack]

/-- The fragment of an instruction that is not held back waits for no fetch. -/
theorem State.not_fetching_of_not_heldBack {s : State} (h : s.heldBack = false) : s.fr.status ≠ .fetching := by
  intro hf
  simp [State.heldBack, hf] at h

/-- An instruction that is not held back has issued. -/
theorem State.closeIssue_of_issued (t u : State) (h : u.heldBack = false) :
    t.closeIssue u = (u.dropFetched t.waveOwner).noteIssued t := by
  simp [State.closeIssue, State.not_stalled_of_not_heldBack h, State.not_fetching_of_not_heldBack h, h]

/-- After an instruction that is not held back its issue is noted, and what follows an instruction follows. -/
theorem State.finishIssue_of_issued (t u v : State) (h : u.heldBack = false)
    (hv : v = (u.dropFetched t.waveOwner).noteIssued t) : t.finishIssue (.next u) = .next (t.afterIssue v) := by
  rw [State.finishIssue, State.closeIssue_of_issued t u h, hv]

/-- With DBG.SS 0, or a trap active, nothing follows an instruction. -/
theorem State.afterIssue_of_off (t v : State) (h : t.wv.dbgSS = false ∨ t.wv.active = true) : t.afterIssue v = v := by
  unfold State.afterIssue
  rw [if_pos]
  rcases h with h | h <;> simp [h]

/-- An instruction that has stalled is tried again, and its fragment issues nothing more in this cycle. -/
theorem State.finishIssue_of_stalled (t u : State) (h : u.stalled = true) : t.finishIssue (.next u)
    = .next ((u.setFr { u.fr with word := t.fr.word, stepDue := t.fr.stepDue }).passFrag t.cur) := by
  rw [State.finishIssue, State.closeIssue, if_pos h, State.afterIssue, if_pos]
  simp [State.passFrag, h]

section Stepping

variable {t v : State} (hs : v.stalled = false) (hd : t.wv.dbgSS = true) (ha : t.wv.active = false)
  (hf : (findAt v.frags v.cur.key).isSome = true) (hv : v.wv.active = false)

include hs hd ha hf hv

/-- With DBG.SS set and no trap active, a single-step trap falls due for a fragment that waits for a value or at a `reconv`. -/
theorem State.afterIssue_of_waiting {n : Nat} {got : List (Dest × List Nat)}
    (h : v.fr.status = .awaiting n got ∨ v.fr.status = .atReconv n) :
    t.afterIssue v = v.setFr { v.fr with stepDue := true } := by
  rcases h with h | h <;> simp [State.afterIssue, hs, hd, ha, Option.isNone_eq_false_iff.2 hf, hv, h]

/-- With DBG.SS set and no trap active, a completed instruction outside an attempt is followed by the single-step trap. -/
theorem State.afterIssue_of_ready (h : v.fr.status = .ready) :
    t.afterIssue v = if v.inTx then v else v.stepTrap v.cur := by
  simp [State.afterIssue, hs, hd, ha, Option.isNone_eq_false_iff.2 hf, hv, h]

end Stepping

/-- A trap outside a trap and an attempt is entered at once; one of the debug class where DBG holds nothing. -/
theorem State.trapEntry_trapped (s : State) (cause cls : Nat) (tpc taddr tinfo : Word) (detail : Nat) (h : s.TrapFree)
    (hh : s.wv.dbgHold = false) :
    s.Trapped (s.trapEntry s.cur cause cls tpc taddr tinfo detail) cause cls detail tpc taddr tinfo := by
  obtain ⟨ha, ht⟩ := h
  unfold State.inTx at ht
  have hh' : (getAt Wave.reset s.waves s.cur.waveKey).dbgHold = false := hh
  unfold State.Trapped State.trapEntry
  rw [State.wvOf_cur, if_neg (by simp [ha])]
  cases hx : s.wv.tx with
  | none => simp [hh', State.setFrOf, State.setWvOf, State.frOf, State.wvOf, State.setFr, State.setWv, State.fr, State.wv]
  | some a =>
    have ho : a.owner ≠ s.cur.frag := by simpa [hx] using ht
    simp [hh', ho, State.setFrOf, State.setWvOf, State.frOf, State.wvOf, State.setFr, State.setWv, State.fr, State.wv]

/-- A single-step trap outside a trap and an attempt. -/
theorem State.stepTrap_trapped (v : State) (h : v.TrapFree) (hh : v.wv.dbgHold = false) :
    (v.setFr { v.fr with stepDue := false }).Trapped (v.stepTrap v.cur) 0x07 2 0 v.fr.pc 0
      (BitVec.ofNat 64 v.fr.word.toNat) :=
  (v.setFr { v.fr with stepDue := false }).trapEntry_trapped causeSSTEP 2 _ 0 _ 0 h hh

/-! ## Which fragment may issue -/

/-- A fragment that may issue is ready, its wave has not issued in this cycle and fewer than four of its core have, and no ready
fragment of its wave has waited longer. -/
theorem State.of_mayIssue {s : State} {f : FragId} (h : s.mayIssue f = true) :
    s.isOpen f = true ∧ (s.coreOf f.core).issued.length < 4 ∧ f.wave ∉ (s.coreOf f.core).issued
      ∧ ∀ k ∈ s.fragsOf f.core f.wave, s.isOpen { f with frag := k } = true →
          (s.frOf { f with frag := k }).idle ≤ (s.frOf f).idle := by
  simp only [State.mayIssue, Bool.and_eq_true, Bool.not_eq_true', decide_eq_true_eq, List.all_eq_true, Bool.or_eq_true] at h
  obtain ⟨⟨⟨ho, hw⟩, hn⟩, hi⟩ := h
  refine ⟨ho, Nat.lt_of_le_of_lt (Nat.le_add_right _ _) hn, by simpa using hw, fun k hk hg => ?_⟩
  rcases hi k hk with hc | hc
  · rw [hg] at hc
    cases hc
  · exact hc

/-- A fragment whose next move is held may not issue. -/
theorem State.not_mayIssue_of_heldAt {s t : State} {f : FragId} (h : s.heldAt f = some t) : s.mayIssue f = false := by
  rw [Bool.eq_false_iff]
  intro hm
  have ho := (State.of_mayIssue hm).1
  simp [State.isOpen, h] at ho

/-- An instruction whose operands cannot be free yet holds its fragment. -/
theorem State.held_of_operands (c : State) (w : BitVec 32) (i : Instr) (hd : c.fr.due = []) (ho : c.stepOwed c.cur = false)
    (hf : c.fetch = .word w) (hw : decodeWord w = .ok i) (hn : c.operandsFree i = false) : c.held = some c := by
  simp [State.held, hd, ho, hf, hw, hn]

/-! ## Moves of the tape, and time -/

/-- A step without an encoding that the tape names and that may be made is planned. -/
theorem State.plan_of_event (s t : State) (i : Instr) (rest : List Input) (ht : t = { s.releaseAll with inputs := rest })
    (hi : s.releaseAll.inputs = .event i :: rest) (hm : Instr.isMove i = true) (ha : t.allows i = true) :
    s.plan = .event t i := by
  have h : s.plan = if Instr.isMove i && t.allows i then .event t i else .done t := by
    subst ht
    rw [State.plan, State.planMove, hi]
  rw [h, hm, ha]
  rfl

/-- While the clocks run and no lock-step pair recovers every step is allowed. -/
theorem State.allows_of_running (s : State) (i : Instr) (hp : s.power.stopped = false) (hr : s.ras.recovering = false)
    (ht : s.power.tripped = false) : s.allows i = true := by
  simp [State.allows, hp, hr, ht]

/-- No cycle passes while a fragment may issue. -/
theorem State.runCycles_of_anyMayIssue (s : State) (n : Nat) (h : s.anyMayIssue = true) : s.runCycles n = s := by
  cases n with
  | zero => rfl
  | succ n => simp [State.runCycles, h]

/-- Time passes for a device whose clocks run. -/
theorem State.pass_of_running (s : State) (cycles ns : Nat) (h : s.power.stopped = false) :
    s.pass cycles ns = (s.elapse cycles ns).sweep.goBar2 := by
  simp [State.pass, h]

/-- Time that the tape names passes. -/
theorem State.plan_of_elapse (s t : State) (c ns : Nat) (rest : List Input) (ht : t = { s.releaseAll with inputs := rest })
    (hi : s.releaseAll.inputs = .elapse c ns :: rest) : s.plan = .done (t.pass c ns) := by
  subst ht
  rw [State.plan, State.planMove, hi]

/-- With nothing on the tape and no fragment that may issue, time passes. -/
theorem State.plan_of_quiet (s t : State) (ht : t = s.releaseAll) (hi : t.inputs = [])
    (hm : t.mayIssue t.nextIssuer = false) : s.plan = .done (t.pass 1 1) := by
  subst ht
  simp [State.plan, State.planMove, hi, hm]

/-! ## The statement -/

/-- Settles O54: each clause is what the plan of the step, the end of an issue or the choice of a fragment says of its case. -/
theorem stepRunsWhatIsNext : Obligations.StepRunsWhatIsNext := by
  unfold Obligations.StepRunsWhatIsNext
  refine ⟨fun s t c f dfr p w ht hm hp hc hd => ?_, fun t u => ⟨fun i h => ?_, fun h hu => ?_, fun hu => ?_,
    fun h ha hu v hv hf hva => ?_, fun h ha hu => ?_⟩, fun s f h => State.of_mayIssue h,
    fun s c f p i hc hd ho hx ha hq hw hn => ?_,
    fun s t i rest ht => ⟨fun hi hm ha => ?_, fun hp hr htr => ?_, fun n ns h => ?_, fun c ns hi hp => ?_, fun hi hm hp => ?_⟩⟩
  · have hplan : s.plan = c.issuePlan := by
      rcases ht with ⟨hr, hi, rfl, rfl⟩ | ⟨rest, hi, hr⟩
      · rw [hc, s.plan_of_empty t hr hi hm hp]
      · rw [hc, s.plan_of_issue t f dfr rest hi hr hm hp]
    refine ⟨fun ho => step_of_done (hplan.trans (c.issuePlan_of_owed hd ho)),
      fun ho hx ha hq hw => ⟨fun i hi hf hmv hl => ?_, fun e he => ?_⟩⟩
    all_goals have hfetch := hw ▸ c.fetch_here p hx ha hq
    · rw [decode_placesFrom, ← hw] at hi
      have hword := c.issuePlan_of_decoded w i hd ho hfetch hi
      exact step_of_word (hplan.trans (hword.trans (c.issueWord_of_free w i hf hmv hl)))
    · rw [decode_placesFrom, ← hw] at he
      exact step_of_word (hplan.trans (c.issuePlan_of_rejected w e hd ho hfetch he))
  · exact ⟨t.settleFor_of_idle i h, t.interlocks_of_idle i h⟩
  · rw [t.finishIssue_of_issued u _ hu rfl, t.afterIssue_of_off _ (.inl h)]
  · exact t.finishIssue_of_stalled u hu
  · have hs : v.stalled = false := by simp [hv, State.not_stalled_of_not_heldBack hu]
    rw [t.finishIssue_of_issued u v hu hv]
    refine ⟨fun n got hst => ?_, fun hst hx => ?_, fun hst hx hh => ⟨_, ?_, v.stepTrap_trapped ⟨hva, hx⟩ hh⟩⟩
    · rw [State.afterIssue_of_waiting hs h ha hf hva hst]
    · rw [State.afterIssue_of_ready hs h ha hf hva hst, hx, if_pos rfl]
    · rw [State.afterIssue_of_ready hs h ha hf hva hst, hx]
      rfl
  · rw [t.finishIssue_of_issued u _ hu rfl, t.afterIssue_of_off _ (.inr ha)]
  · rw [decode_placesFrom] at hw
    subst hc
    exact State.not_mayIssue_of_heldAt (State.held_of_operands _ _ i hd ho (State.fetch_here _ p hx ha hq) hw hn)
  · exact step_of_event (s.plan_of_event t i rest ht hi hm ha)
  · exact s.allows_of_running i hp hr htr
  · rw [State.elapse, s.runCycles_of_anyMayIssue n h]
    rfl
  · exact step_of_done ((s.plan_of_elapse t c ns rest ht hi).trans (by rw [t.pass_of_running c ns hp]))
  · exact step_of_done ((s.plan_of_quiet _ rfl hi hm).trans (by rw [State.pass_of_running _ 1 1 hp]))

end Sys2Proof.Machine
end

section
/-! The scalar operations and their immediate forms, as numbers (R44, R118, R119). -/

namespace Sys2Proof.Machine

/-! ## Counts of bits -/

/-- The number of binary digits of a number is one more than the place of its highest bit. -/
theorem size_eq_log2_succ {x : Nat} (h : x ≠ 0) : x.size = x.log2 + 1 := by
  refine Nat.le_antisymm (Nat.size_le.2 Nat.lt_log2_self) (Nat.lt_size.2 (Nat.log2_self_le h))

/-- The leading zeros of a number are the places above its binary digits. -/
theorem leadingZeros_eq (w x : Nat) : leadingZeros w x = w - x.size := by
  unfold leadingZeros
  split
  · next h => simp [h]
  · next h => rw [size_eq_log2_succ h]; omega

/-- The set bits among the low `n` are the places below `n` whose bit is set. -/
theorem countBits_eq (n x : Nat) : countBits n x = (List.range n).countP (fun i => x.testBit i) := by
  induction n generalizing x with
  | zero => rfl
  | succ n ih =>
    have hs : (fun i => (x / 2).testBit i) = (fun i => x.testBit i) ∘ Nat.succ := by
      funext i
      exact (Nat.testBit_succ x i).symm
    rw [countBits, ih, hs, List.range_succ_eq_map, List.countP_cons, List.countP_map, Nat.testBit_zero, Nat.add_comm]
    congr 1
    rcases Nat.mod_two_eq_zero_or_one x with h | h <;> simp [h]

/-! ## The words that the scalar operations make -/

theorem sub_eq_ofInt (x y : Word) : x - y = BitVec.ofInt 64 (x.toInt - y.toInt) := by
  rw [BitVec.sub_eq_add_neg, Int.sub_eq_add_neg, BitVec.ofInt_add, BitVec.ofInt_neg, BitVec.ofInt_toInt, BitVec.ofInt_toInt]

theorem mul_eq_ofInt (x y : Word) : x * y = BitVec.ofInt 64 (x.toInt * y.toInt) := by
  rw [BitVec.ofInt_mul, BitVec.ofInt_toInt, BitVec.ofInt_toInt]

/-- The signed quotient truncates toward 0, and is all ones for a divisor of 0 (R44). -/
theorem divS_eq (x y : Word) :
    divS x y = if y = 0 then 0xFFFFFFFFFFFFFFFF else BitVec.ofInt 64 (x.toInt.tdiv y.toInt) := by
  have h : x.sdiv y = BitVec.ofInt 64 (x.toInt.tdiv y.toInt) :=
    BitVec.eq_of_toInt_eq (by rw [BitVec.toInt_sdiv, BitVec.toInt_ofInt])
  rw [divS, h]
  rfl

theorem divU_eq (x y : Word) :
    divU x y = if y = 0 then 0xFFFFFFFFFFFFFFFF else BitVec.ofNat 64 (x.toNat / y.toNat) := by
  rw [divU, BitVec.udiv_def]
  rfl

/-- The signed remainder has the sign of the dividend, and is the dividend for a divisor of 0 (R44). -/
theorem remS_eq (x y : Word) : remS x y = if y = 0 then x else BitVec.ofInt 64 (x.toInt.tmod y.toInt) := by
  rw [remS, ← BitVec.toInt_srem, BitVec.ofInt_toInt]

theorem remU_eq (x y : Word) : remU x y = if y = 0 then x else BitVec.ofNat 64 (x.toNat % y.toNat) := by
  rw [remU, BitVec.umod_def]

theorem shiftLeft_eq_ofNat (x : Word) (n : Nat) : x <<< n = BitVec.ofNat 64 (x.toNat * 2 ^ n) :=
  BitVec.eq_of_toNat_eq (by rw [BitVec.toNat_shiftLeft, BitVec.toNat_ofNat, Nat.shiftLeft_eq])

theorem shiftRight_eq_ofNat (x : Word) (n : Nat) : x >>> n = BitVec.ofNat 64 (x.toNat / 2 ^ n) := by
  rw [← Nat.shiftRight_eq_div_pow, ← BitVec.toNat_ushiftRight, BitVec.ofNat_toNat, BitVec.setWidth_eq]

theorem sshiftRight_eq_ofInt (x : Word) (n : Nat) : x.sshiftRight n = BitVec.ofInt 64 (x.toInt / 2 ^ n) := by
  rw [BitVec.sshiftRight, Int.shiftRight_eq_div_pow]
  norm_cast

/-- The smaller of two words under an order of their numbers, `g` giving back the word of a number. -/
theorem smaller_eq {α : Type} [LinearOrder α] (f : Word → α) (g : α → Word) (hg : ∀ x, g (f x) = x) (x y : Word) :
    (if f x ≤ f y then x else y) = g (min (f x) (f y)) := by
  rw [min_def, apply_ite g, hg, hg]

/-- The larger of two words under an order of their numbers, `g` giving back the word of a number. -/
theorem larger_eq {α : Type} [LinearOrder α] (f : Word → α) (g : α → Word) (hg : ∀ x, g (f x) = x) (x y : Word) :
    (if f x ≤ f y then y else x) = g (max (f x) (f y)) := by
  rw [max_def, apply_ite g, hg, hg]

theorem ofNat_toNat_word (x : Word) : BitVec.ofNat 64 x.toNat = x := by
  rw [BitVec.ofNat_toNat, BitVec.setWidth_eq]

/-- The word of a test is 1 where what it decides holds, and 0 elsewhere. -/
theorem wordOfBool_eq {b : Bool} {p : Prop} [Decidable p] (h : b = true ↔ p) : wordOfBool b = if p then 1 else 0 :=
  if_congr h rfl rfl

/-- The relation of two words as signed numbers (R118). -/
theorem wordOfBool_slt (x y : Word) : wordOfBool (x.slt y) = if x.toInt < y.toInt then 1 else 0 :=
  wordOfBool_eq BitVec.slt_iff_toInt_lt

theorem toInt_signExtend_imm (imm : BitVec 13) : (imm.signExtend 64).toInt = imm.toInt :=
  BitVec.toInt_signExtend_of_le (by decide)

/-- The low `k` bits of a word beside a multiple of 2 ^ `k` share no bit: their union is their sum. -/
theorem low_or_shiftLeft (x y : Word) (k : Nat) :
    (x.extractLsb' 0 k).setWidth 64 ||| y <<< k = BitVec.ofNat 64 (x.toNat % 2 ^ k) + y * BitVec.ofNat 64 (2 ^ k) := by
  have hd : (x.extractLsb' 0 k).setWidth 64 &&& y <<< k = 0#64 := by
    ext i hi
    by_cases h : i < k <;> simp [h]
  have hl : (x.extractLsb' 0 k).setWidth 64 = BitVec.ofNat 64 (x.toNat % 2 ^ k) := by
    apply BitVec.eq_of_toNat_eq
    simp
  have hh : y <<< k = y * BitVec.ofNat 64 (2 ^ k) := by
    rw [shiftLeft_eq_ofNat, BitVec.ofNat_mul, ofNat_toNat_word]
  rw [← BitVec.add_eq_or_of_and_eq_zero _ _ hd, hl, hh]

/-- `slui`: the low 19 bits kept, the immediate sign-extended above them (R119). -/
theorem slui_word (x : Word) (imm : BitVec 19) :
    (x.extractLsb' 0 19).setWidth 64 ||| imm.signExtend 64 <<< 19
      = BitVec.ofInt 64 ((x.toNat % 2 ^ 19 : Nat) + imm.toInt * 2 ^ 19) := by
  rw [low_or_shiftLeft _ _ 19, BitVec.ofInt_add, BitVec.ofInt_mul, BitVec.ofInt_natCast]
  rfl

/-- `slxi`: the low 38 bits kept, the immediate zero-extended above them (R119). -/
theorem slxi_word (x : Word) (imm : BitVec 19) :
    (x.extractLsb' 0 38).setWidth 64 ||| imm.setWidth 64 <<< 38
      = BitVec.ofNat 64 (x.toNat % 2 ^ 38 + imm.toNat * 2 ^ 38) := by
  rw [low_or_shiftLeft _ _ 38, BitVec.ofNat_add, BitVec.ofNat_mul, BitVec.ofNat_toNat 64 imm]

/-! ## The statement -/

/-- An instruction whose meaning writes one scalar gives the result that the scalar holds. -/
theorem State.scalarDone_of {i : Instr} {s : State} {d : BitVec 6} {x y : Word}
    (hi : exec i s = s.putScalar d x) (h : x = y) : ∃ t, exec i s = .next t ∧ s.ScalarDone t d y := by
  rw [hi, h]
  exact s.putScalar_done d y

/-- Settles O1: every form writes one scalar, and the word that it writes is the one that its entry names. -/
theorem scalarResults : Obligations.ScalarResults := by
  unfold Obligations.ScalarResults
  refine ⟨fun s d a b => ⟨?_, ?_, ?_, ?_, ?_, ?_, ?_, ?_, ?_⟩,
    fun s d a b p => ⟨?_, ?_, ?_, ?_, ?_, ?_, ?_, ?_, ?_, ?_, ?_, ?_, ?_, ?_, ?_, ?_⟩,
    fun s d a sh imm wide => ⟨?_, ?_, ?_, ?_, ?_, ?_, ?_, ?_, ?_, ?_⟩⟩
  · exact State.scalarDone_of rfl (BitVec.add_def ..)
  · exact State.scalarDone_of rfl (sub_eq_ofInt ..)
  · exact State.scalarDone_of rfl (mul_eq_ofInt ..)
  · exact State.scalarDone_of rfl rfl
  · exact State.scalarDone_of rfl rfl
  · exact State.scalarDone_of rfl (divS_eq ..)
  · exact State.scalarDone_of rfl (divU_eq ..)
  · exact State.scalarDone_of rfl (remS_eq ..)
  · exact State.scalarDone_of rfl (remU_eq ..)
  · exact State.scalarDone_of rfl rfl
  · exact State.scalarDone_of rfl rfl
  · exact State.scalarDone_of rfl rfl
  · exact State.scalarDone_of rfl (shiftLeft_eq_ofNat ..)
  · exact State.scalarDone_of rfl (shiftRight_eq_ofNat ..)
  · exact State.scalarDone_of rfl (sshiftRight_eq_ofInt ..)
  · exact State.scalarDone_of rfl (smaller_eq BitVec.toInt _ (fun _ => BitVec.ofInt_toInt) _ _)
  · exact State.scalarDone_of rfl (larger_eq BitVec.toInt _ (fun _ => BitVec.ofInt_toInt) _ _)
  · exact State.scalarDone_of rfl (smaller_eq BitVec.toNat _ ofNat_toNat_word _ _)
  · exact State.scalarDone_of rfl (larger_eq BitVec.toNat _ ofNat_toNat_word _ _)
  · exact State.scalarDone_of rfl (wordOfBool_eq beq_iff_eq)
  · exact State.scalarDone_of rfl (wordOfBool_slt ..)
  · exact State.scalarDone_of rfl (wordOfBool_eq BitVec.ult_iff_toNat_lt)
  · exact State.scalarDone_of rfl (by rw [leadingZeros_eq])
  · exact State.scalarDone_of rfl (by rw [countBits_eq]; rfl)
  · exact State.scalarDone_of rfl (BitVec.ofNat_toNat ..).symm
  · exact State.scalarDone_of rfl (by rw [BitVec.ofInt_add, BitVec.ofInt_toInt, BitVec.signExtend])
  · exact State.scalarDone_of rfl rfl
  · exact State.scalarDone_of rfl rfl
  · exact State.scalarDone_of rfl (by rw [wordOfBool_slt, toInt_signExtend_imm])
  · exact State.scalarDone_of rfl (shiftLeft_eq_ofNat ..)
  · exact State.scalarDone_of rfl (sshiftRight_eq_ofInt ..)
  · exact State.scalarDone_of rfl (shiftRight_eq_ofNat ..)
  · exact State.scalarDone_of rfl rfl
  · exact State.scalarDone_of rfl (slui_word ..)
  · exact State.scalarDone_of rfl (slxi_word ..)

end Sys2Proof.Machine
end

section
/-! Results of vector instructions, element by element: what is read of a lane, what is packed into it, and what an operation
under an element type gives (R40 to R43, R156). -/

namespace Sys2Proof.Machine

/-! ## Elements -/

/-- An element takes the bits of its width. -/
theorem elemOf_lt (w : Nat) (x : Lane) (e : Nat) : elemOf w x e < 2 ^ w := Nat.mod_lt _ (Nat.two_pow_pos w)

/-- A lane is made of its elements' low bits alone. -/
theorem packLane_congr {w : Nat} {f g : Nat → Nat} (h : ∀ k < 32 / w, f k % 2 ^ w = g k % 2 ^ w) :
    packLane w f = packLane w g :=
  congrArg (BitVec.ofNat 32) (List.foldl_ext _ _ _ fun _ k hk => by rw [h k (List.mem_range.1 hk)])

/-- The elements made of a lane, and the flags of all of them. -/
theorem mapLane_eq (w : Nat) (f : Nat → Nat × Flags) :
    mapLane w f = (packLane w (fun k => (f k).1), (List.range (32 / w)).foldl (fun x k => x ||| (f k).2) 0) := by
  refine Prod.ext (packLane_congr fun k hk => ?_) (List.foldl_map ..)
  simp [hk]

/-- Joining no flags raises none. -/
theorem foldl_or_zero {α : Type} (l : List α) (f : α → Flags) (h : ∀ k ∈ l, f k = 0) :
    l.foldl (fun x k => x ||| f k) 0 = 0 := by
  induction l with
  | nil => rfl
  | cons a r ih => simpa [h a (List.mem_cons_self ..)] using ih fun k hk => h k (List.mem_cons_of_mem _ hk)

/-- Elements that raise no flag. -/
theorem mapLane_of_noFlag {w : Nat} {f : Nat → Nat × Flags} {g : Nat → Nat} (hf : ∀ k, (f k).2 = 0)
    (hg : ∀ k, (f k).1 % 2 ^ w = g k % 2 ^ w) : mapLane w f = (packLane w g, 0) := by
  rw [mapLane_eq, packLane_congr fun k _ => hg k, foldl_or_zero _ _ fun k _ => hf k]

/-! ## Integers in elements -/

/-- The low bits of an integer, cut again, are what they were. -/
@[simp] theorem wrapTo_mod (w : Nat) (x : Int) : wrapTo w x % 2 ^ w = wrapTo w x := by
  refine Nat.mod_eq_of_lt ?_
  have h := Int.emod_lt_of_pos x (show (0 : Int) < 2 ^ w by positivity)
  rw [wrapTo, Int.toNat_lt' (Nat.two_pow_pos w)]
  exact_mod_cast h

/-- The low bits of an integer are the integer modulo the power of its width. -/
theorem cast_wrapTo (w : Nat) (x : Int) : (wrapTo w x : Int) = x % 2 ^ w :=
  Int.toNat_of_nonneg (Int.emod_nonneg _ (by positivity))

/-- The low bits of a number. -/
theorem wrapTo_natCast (w x : Nat) : wrapTo w (x : Int) = x % 2 ^ w := by
  have h := cast_wrapTo w x
  exact_mod_cast h

/-- The low bits of the integer that an element holds are those of the element. -/
theorem wrapTo_intOf (e : EType) (x : Nat) : wrapTo e.width (intOf e x) = x % 2 ^ e.width := by
  unfold intOf signedOf
  split
  · split
    · exact wrapTo_natCast ..
    · rw [← wrapTo_natCast, wrapTo, Int.sub_emod_right, wrapTo]
  · exact wrapTo_natCast ..

/-- A number within the range of two's complement is read back from its low bits. -/
theorem signedOf_wrapTo {w : Nat} {x : Int} (hw : 0 < w) (hl : -(2 ^ (w - 1)) ≤ x) (hh : x < 2 ^ (w - 1)) :
    signedOf w (wrapTo w x) = x := by
  have hp : (2 : Int) ^ w = 2 * 2 ^ (w - 1) := by rw [← pow_succ', Nat.sub_add_cancel hw]
  have hc := cast_wrapTo w x
  have hn : wrapTo w x < 2 ^ (w - 1) ↔ (wrapTo w x : Int) < 2 ^ (w - 1) := by norm_cast
  rw [signedOf, if_congr hn rfl rfl, hc]
  rcases le_or_gt 0 x with h0 | h0
  · rw [Int.emod_eq_of_lt h0 (by omega), if_pos hh]
  · rw [← Int.add_emod_right, Int.emod_eq_of_lt (by omega) (by omega), if_neg (by omega)]
    omega

theorem EType.width_pos (e : EType) : 0 < e.width := by cases e <;> decide

/-- An integer within the range of a type is read back from its low bits. -/
theorem intOf_wrapTo (e : EType) {x : Int} (hl : intMin e ≤ x) (hh : x ≤ intMax e) : intOf e (wrapTo e.width x) = x := by
  unfold intMin at hl
  unfold intMax at hh
  unfold intOf
  by_cases hs : e.isSigned = true
  · rw [if_pos hs] at hl hh ⊢
    exact signedOf_wrapTo e.width_pos hl (by omega)
  · rw [if_neg hs] at hl hh ⊢
    rw [cast_wrapTo, Int.emod_eq_of_lt hl (by omega)]

theorem intMin_le_intMax (e : EType) : intMin e ≤ intMax e := by cases e <;> decide

/-- With MR.sat an integer result is the nearest number of the type's range (R42). -/
theorem intOf_reduceInt_sat (e : EType) (x : Int) : intOf e (reduceInt e true x) = max (intMin e) (min (intMax e) x) := by
  have h := intMin_le_intMax e
  exact intOf_wrapTo e (le_max_left ..) (max_le h (min_le_left ..))

/-! ## Instructions under an element type -/

/-- Registers held are held in part. -/
theorem State.HoldsRegs.mono {s : State} {rs rs' : List (BitVec 7)} (h : s.HoldsRegs rs') (hs : rs ⊆ rs') : s.HoldsRegs rs :=
  fun r hr => h r (hs hr)

/-- Guarded lanes are lanes. -/
theorem State.lt_of_mem_guarded {s : State} {l : Nat} (h : l ∈ s.guarded) : l < 32 :=
  List.mem_range.1 (List.mem_filter.1 h).1

/-- The flags of lanes that agree are the same. -/
theorem foldl_or_congr {α : Type} {l : List α} {f g : α → Flags} (h : ∀ k ∈ l, f k = g k) (z : Flags) :
    l.foldl (fun x k => x ||| f k) z = l.foldl (fun x k => x ||| g k) z :=
  List.foldl_ext _ _ _ fun _ k hk => by rw [h k hk]

/-- A vector result is what its 32 lanes are. -/
theorem State.VectorDone.congr {s t : State} {d : BitVec 7} {f g : Nat → Lane × Flags} (h : s.VectorDone t d f)
    (hfg : ∀ l < 32, f l = g l) : s.VectorDone t d g := by
  obtain ⟨hw, hl, hv, hp⟩ := h
  refine ⟨hw, fun l h => by rw [hl l h, hfg l h], ?_, hp⟩
  rwa [foldl_or_congr fun l hg => by rw [hfg l (State.lt_of_mem_guarded hg)]] at hv

/-- An operation on the elements under a type that the instruction lists, with registers that the wave holds. -/
theorem State.withType_elementwise_done (s : State) (d a b : BitVec 7) {rs : List (BitVec 7)} {ok : EType → Bool}
    (f : EType → Nat → Nat → Nat → Nat × Flags) {e : EType} (hr : s.HoldsRegs rs) (he : etypeOf s.etypeCode = some e)
    (hk : ok e = true) :
    s.VectorDone (s.withType rs ok (fun t => s.elementwise d a b t.width (f t))) d (fun l => mapLane e.width (fun k =>
      f e (elemOf e.width (laneOf (s.getV a) l) k) (elemOf e.width (laneOf (s.getV b) l) k)
        (elemOf e.width (laneOf (s.getV d) l) k))) := by
  rw [s.withType_of_ok rs ok _ e hr he hk]
  exact s.putLanes_done d _

/-- A relation of the elements under a type that the instruction lists, with registers that the wave holds. -/
theorem State.withType_relate_done (s : State) (d : BitVec 3) (a b : BitVec 7) {rs : List (BitVec 7)} {ok : EType → Bool}
    (f : EType → Nat → Nat → Bool × Flags) {e : EType} (hr : s.HoldsRegs rs) (he : etypeOf s.etypeCode = some e)
    (hk : ok e = true) :
    s.CompareDone (s.withType rs ok (fun t => s.relate d a b t.width (f t))) d (fun l =>
      ((List.range (32 / e.width)).any (fun k =>
          (f e (elemOf e.width (laneOf (s.getV a) l) k) (elemOf e.width (laneOf (s.getV b) l) k)).1),
       (List.range (32 / e.width)).foldl (fun x k => x |||
          (f e (elemOf e.width (laneOf (s.getV a) l) k) (elemOf e.width (laneOf (s.getV b) l) k)).2) 0)) := by
  rw [s.withType_of_ok rs ok _ e hr he hk]
  unfold State.relate
  simp only [List.any_map, List.foldl_map]
  exact s.putBits_done d _

/-- An integer result from what its elements are modulo the width (R42). -/
theorem State.intDone_of {s : State} {i : Instr} {d a b : BitVec 7} {rs : List (BitVec 7)} {ok : EType → Bool}
    {f : EType → Int → Int → Int → Int} (g : EType → Nat → Nat → Nat → Nat × Flags)
    (hi : exec i s = .next (s.withType rs ok (fun t => s.elementwise d a b t.width (g t)))) (hs : rs ⊆ [d, a, b])
    (hk : ∀ e, e.isInt = true → ok e = true)
    (hg : ∀ e x y z, e.isInt = true → (g e x y z).2 = 0
      ∧ (g e x y z).1 % 2 ^ e.width = wrapTo e.width (f e (intOf e x) (intOf e y) (intOf e z))) : s.IntDone i d a b f :=
  fun e hr he hint => ⟨_, hi, (s.withType_elementwise_done d a b g (hr.mono hs) he (hk e hint)).congr fun _ _ =>
    mapLane_of_noFlag (fun _ => (hg e _ _ _ hint).1) fun _ => (hg e _ _ _ hint).2.trans (wrapTo_mod ..).symm⟩

/-- An integer operation of the vint group from what its elements are modulo the width (R158). -/
theorem State.intDone_of_intOp {s : State} {i : Instr} {d a b : BitVec 7} {f : EType → Int → Int → Int → Int}
    {g : EType → Bool → Nat → Nat → Nat → Nat} (hi : exec i s = .next (s.intOp d a b g))
    (hg : ∀ e x y z, g e s.sat x y z % 2 ^ e.width = wrapTo e.width (f e (intOf e x) (intOf e y) (intOf e z))) :
    s.IntDone i d a b f :=
  State.intDone_of _ hi (List.Subset.refl _) (fun _ h => h) fun e x y z _ => ⟨rfl, hg e x y z⟩

/-- An operation on the bits of the elements (R43, R158). -/
theorem State.bitsDone_of_intOp {s : State} {i : Instr} {d a b : BitVec 7} {f : EType → Nat → Nat → Nat}
    {g : EType → Bool → Nat → Nat → Nat → Nat} (hi : exec i s = .next (s.intOp d a b g))
    (hg : ∀ e x y z, x < 2 ^ e.width → g e s.sat x y z = f e x y) : s.BitsDone i d a b f :=
  fun e hr he hint => ⟨_, hi, (s.withType_elementwise_done d a b _ hr he hint).congr fun _ _ =>
    mapLane_of_noFlag (fun _ => rfl) fun _ => congrArg (· % _) (hg e _ _ _ (elemOf_lt ..))⟩

/-- An integer compare: the bit of a lane is set where the relation holds of any of its elements (R159). -/
theorem State.intCompared_of {s : State} {i : Instr} {d : BitVec 3} {a b : BitVec 7} {r : Int → Int → Prop}
    {q : Int → Int → Bool} (hi : exec i s = .next (s.intCompare d a b q)) (hq : ∀ x y, q x y = true ↔ r x y) :
    s.IntCompared i d a b r := by
  intro e hr he hint
  have h := s.withType_relate_done d a b (fun t x y => (q (intOf t x) (intOf t y), 0)) hr he hint
  simp only [foldl_or_zero _ (fun _ => (0 : Flags)) fun _ _ => rfl] at h
  exact ⟨_, _, hi, fun l => by simp [List.any_eq_true, hq], h⟩

/-! ## The statements -/

/-- Settles O12: what R42 makes of an exact result, then each operation and each compare by what it does to one element. -/
theorem integerVectorAndCompareResults : Obligations.IntegerVectorAndCompareResults := by
  unfold Obligations.IntegerVectorAndCompareResults
  refine ⟨fun e x _ => ⟨cast_wrapTo .., ?_, ?_⟩, fun s d a b => ⟨?_, ?_, ?_, ?_, ?_, ?_, ?_, ?_, ?_⟩,
    fun s d a b => ⟨?_, ?_, ?_, ?_, ?_, ?_⟩⟩
  · rw [intOf_reduceInt_sat]
    rintro (rfl | rfl | rfl) <;> rfl
  · rw [intOf_reduceInt_sat]
    rintro (rfl | rfl | rfl) <;> rfl
  · exact State.intDone_of_intOp rfl fun _ _ _ _ => wrapTo_mod ..
  · exact State.intDone_of_intOp rfl fun _ _ _ _ => wrapTo_mod ..
  · exact State.intDone_of_intOp rfl fun _ _ _ _ => wrapTo_mod ..
  · exact State.intDone_of_intOp rfl fun _ _ _ _ => wrapTo_mod ..
  · exact State.intDone_of_intOp rfl fun _ _ _ _ => wrapTo_mod ..
  · refine State.intDone_of_intOp rfl fun e x y _ => ?_
    rw [min_def]
    split <;> exact (wrapTo_intOf ..).symm
  · refine State.intDone_of_intOp rfl fun e x y _ => ?_
    rw [max_def]
    split <;> exact (wrapTo_intOf ..).symm
  · refine State.intDone_of_intOp rfl fun e x y _ => ?_
    rw [Int.abs_eq_natAbs]
    exact (wrapTo_natCast ..).symm
  · exact State.intDone_of_intOp rfl fun _ _ _ _ => wrapTo_mod ..
  · exact State.intCompared_of rfl fun _ _ => beq_iff_eq
  · exact State.intCompared_of rfl fun _ _ => bne_iff_ne
  all_goals exact State.intCompared_of rfl fun _ _ => decide_eq_true_iff

/-- A rotation of an element: the bits that leave at the top come in at the bottom. -/
theorem rotateElem_eq (e : EType) (x y : Nat) (h : x < 2 ^ e.width) :
    rotateElem e x y = (x * 2 ^ (y % e.width) + x / 2 ^ (e.width - y % e.width)) % 2 ^ e.width := by
  have hy : y % e.width < e.width := Nat.mod_lt _ e.width_pos
  have hlow : x / 2 ^ (e.width - y % e.width) < 2 ^ (y % e.width) := by
    rw [Nat.div_lt_iff_lt_mul (Nat.two_pow_pos _), ← Nat.pow_add, Nat.add_sub_cancel' hy.le]
    exact h
  rw [rotateElem, elemShift, Nat.shiftRight_eq_div_pow, ← Nat.shiftLeft_add_eq_or_of_lt hlow, Nat.shiftLeft_eq]

/-- Settles O13: each shift or rotation by what it does to one element. -/
theorem vectorShiftResults : Obligations.VectorShiftResults := by
  unfold Obligations.VectorShiftResults
  refine fun s d a b => ⟨?_, ?_, ?_, ?_, ?_, ?_⟩
  · exact State.bitsDone_of_intOp rfl fun _ _ _ _ _ => rfl
  · exact State.bitsDone_of_intOp rfl fun _ _ _ _ _ => Nat.shiftRight_eq_div_pow ..
  · exact State.bitsDone_of_intOp rfl fun _ _ _ _ _ => rfl
  · exact State.bitsDone_of_intOp rfl fun e x y _ h => rotateElem_eq e x y h
  · exact State.bitsDone_of_intOp rfl fun _ _ _ _ _ => countBits_eq ..
  · exact State.bitsDone_of_intOp rfl fun _ _ _ _ _ => leadingZeros_eq ..

end Sys2Proof.Machine
end

section
/-! Float results: elements under a float type, NaN operands, and minima and maxima (R45 to R51, R161 to R166). -/

namespace Sys2Proof.Machine

/-! ## Elements under a float type -/

/-- fp32 and bf16 are the float types, and fix the number of fraction bits (R45). -/
theorem EType.float_facts {e : EType} (h : e = .fp32 ∨ e = .bf16) :
    e.isFloat = true ∧ e.fracBits = if e = .fp32 then 23 else 7 := by
  rcases h with rfl | rfl <;> exact ⟨rfl, rfl⟩

/-- No integer type is a float type. -/
theorem EType.not_isFloat_of_isInt {e : EType} (h : e.isInt = true) : e.isFloat = false := by
  revert h
  cases e <;> decide

/-- A float result from what each element is. -/
theorem State.floatDone_of {s : State} {i : Instr} {d a b : BitVec 7} {rs : List (BitVec 7)} {ok : EType → Bool}
    {f : Nat → Rounding → Nat → Nat → Nat → Nat × Flags} (g : EType → Nat → Nat → Nat → Nat × Flags)
    (hi : exec i s = .next (s.withType rs ok (fun t => s.elementwise d a b t.width (g t)))) (hs : rs ⊆ [d, a, b])
    (hk : ∀ e, e.isFloat = true → ok e = true)
    (hg : ∀ e, e.isFloat = true → g e = f e.fracBits s.rounding) : s.FloatDone i d a b f := by
  intro e hr he hf
  obtain ⟨hfl, hfb⟩ := EType.float_facts hf
  have h := s.withType_elementwise_done d a b g (hr.mono hs) he (hk e hfl)
  rw [hg e hfl, hfb] at h
  exact ⟨_, hi, h⟩

/-- A float operation gives each element what its function makes of the elements (R161). -/
theorem State.floatDone_of_floatOp {s : State} {i : Instr} {d a b : BitVec 7}
    {f : Nat → Rounding → Nat → Nat → Nat → Nat × Flags} (hi : exec i s = .next (s.floatOp d a b f)) :
    s.FloatDone i d a b f :=
  State.floatDone_of _ hi (List.Subset.refl _) (fun _ h => h) fun _ _ => rfl

/-- A float compare sets the bit of a lane where its relation holds of any of its elements (R162). -/
theorem State.floatCompared_of {s : State} {i : Instr} {d : BitVec 3} {a b : BitVec 7}
    {r : Nat → Nat → Nat → Bool × Flags} (hi : exec i s = .next (s.floatCompare d a b r)) : s.FloatCompared i d a b r := by
  intro e hr he hf
  obtain ⟨hfl, hfb⟩ := EType.float_facts hf
  have h := s.withType_relate_done d a b (fun t => r t.fracBits) hr he hfl
  rw [hfb] at h
  exact ⟨_, hi, h⟩

/-! ## NaN operands -/

/-- A NaN result is the default NaN, with the flags of the operation. -/
theorem finish_nan (fb : Nat) (r : Rounding) (f : Flags) : finish fb r (.nan false, f) = (defaultNaN fb, f) := by
  simp [finish, packFloat]

theorem Exact.isNaN_negate (x : Exact) : x.negate.isNaN = x.isNaN := by cases x <;> rfl

section
variable {x y : Exact} (h : x.isNaN = true ∨ y.isNaN = true)

include h

/-- A sum with a NaN operand is a NaN, and invalid where an operand is signalling (R48). -/
theorem addValues_of_nan (r : Rounding) :
    addValues r x y = (.nan false, if x.isSignalling || y.isSignalling then flagNV else 0) := by
  cases x <;> cases y <;> simp_all [Exact.isNaN, addValues]

/-- A product with a NaN operand is a NaN, and invalid where an operand is signalling (R48). -/
theorem mulValues_of_nan :
    mulValues x y = (.nan false, if x.isSignalling || y.isSignalling then flagNV else 0) := by
  cases x <;> cases y <;> simp_all [Exact.isNaN, mulValues]

end

/-- The value of an infinity (R45). -/
theorem unpackFloat_infFloat {fb : Nat} (hf : fb = 23 ∨ fb = 7) (n : Bool) : unpackFloat fb (infFloat fb n) = .inf n := by
  rcases hf with rfl | rfl <;> cases n <;> decide

/-- The value of a zero with a sign (R45). -/
theorem unpackFloat_signBit {fb : Nat} (hf : fb = 23 ∨ fb = 7) (m : Bool) :
    unpackFloat fb (signBit fb m) = .fin m 0 (-126 - fb) := by
  rcases hf with rfl | rfl <;> cases m <;> decide

section
variable {fb x y : Nat} (h : (unpackFloat fb x).isNaN = true ∨ (unpackFloat fb y).isNaN = true) (r : Rounding)

include h

theorem fAdd_of_nan : fAdd fb r x y
    = (defaultNaN fb, if (unpackFloat fb x).isSignalling || (unpackFloat fb y).isSignalling then flagNV else 0) := by
  rw [fAdd, addValues_of_nan h, finish_nan]

theorem fst_fSub_of_nan : (fSub fb r x y).1 = defaultNaN fb := by
  rw [fSub, addValues_of_nan (by rwa [Exact.isNaN_negate]), finish_nan]

theorem fMul_of_nan : fMul fb r x y
    = (defaultNaN fb, if (unpackFloat fb x).isSignalling || (unpackFloat fb y).isSignalling then flagNV else 0) := by
  rw [fMul, mulValues_of_nan h, finish_nan]

end

section
variable {fb : Nat} (hf : fb = 23 ∨ fb = 7) (r : Rounding) (n m : Bool)

include hf

/-- ∞ − ∞ as a sum (R48). -/
theorem fAdd_inf_opposite : fAdd fb r (infFloat fb n) (infFloat fb (!n)) = (defaultNaN fb, flagNV) := by
  rw [fAdd, unpackFloat_infFloat hf, unpackFloat_infFloat hf, ← finish_nan fb r flagNV]
  cases n <;> rfl

/-- ∞ − ∞ as a difference (R48). -/
theorem fSub_inf_same : fSub fb r (infFloat fb n) (infFloat fb n) = (defaultNaN fb, flagNV) := by
  rw [fSub, unpackFloat_infFloat hf, ← finish_nan fb r flagNV]
  cases n <;> rfl

/-- 0 × ∞ (R48). -/
theorem fMul_zero_inf : fMul fb r (signBit fb m) (infFloat fb n) = (defaultNaN fb, flagNV) := by
  rw [fMul, unpackFloat_infFloat hf, unpackFloat_signBit hf, ← finish_nan fb r flagNV]
  rfl

/-- ∞ × 0 (R48). -/
theorem fMul_inf_zero : fMul fb r (infFloat fb n) (signBit fb m) = (defaultNaN fb, flagNV) := by
  rw [fMul, unpackFloat_infFloat hf, unpackFloat_signBit hf, ← finish_nan fb r flagNV]
  rfl

end

/-! ## The statement on float operations -/

/-- Settles O15: each operation and compare by what it does to one element, and the NaN rules by the values of the operands. -/
theorem floatVectorAndNaNResults : Obligations.FloatVectorAndNaNResults := by
  unfold Obligations.FloatVectorAndNaNResults
  refine ⟨fun s d a b p => ⟨?_, ?_, ?_, ?_, ?_, ?_, ?_, ?_, ?_, ?_, ?_, ?_, ?_, ?_, ?_, ?_, ?_, ?_, ?_, ?_, ?_, ?_, ?_⟩,
    fun fb x y r n m hf => ⟨fun h => ?_, fAdd_inf_opposite hf r n, fSub_inf_same hf r n, fMul_zero_inf hf r n m,
      fMul_inf_zero hf r n m⟩⟩
  case refine_15 | refine_16 =>
    exact State.floatDone_of _ rfl (by simp) (fun e h => by simp [h]) fun e h => by simp only [if_pos h]
  case refine_17 | refine_18 | refine_19 | refine_20 => exact State.floatCompared_of rfl
  case refine_21 =>
    refine State.intDone_of _ rfl (by simp) (fun e h => by simp [h]) fun e x y z h => ?_
    simp only [EType.not_isFloat_of_isInt h]
    exact ⟨rfl, wrapTo_mod ..⟩
  case refine_22 =>
    refine State.intDone_of _ rfl (by simp) (fun e h => by simp [h]) fun e x y z h => ?_
    simp only [EType.not_isFloat_of_isInt h, Int.abs_eq_natAbs]
    exact ⟨rfl, wrapTo_mod ..⟩
  case refine_23 =>
    intro e hr he
    exact ⟨_, rfl, (s.withType_elementwise_done d a a _ hr he rfl).congr fun _ _ =>
      mapLane_of_noFlag (fun _ => rfl) fun _ => rfl⟩
  case refine_24 =>
    rw [fAdd_of_nan h, fMul_of_nan h]
    exact ⟨rfl, fst_fSub_of_nan h r, rfl, rfl, rfl⟩
  all_goals exact State.floatDone_of_floatOp rfl

/-! ## Minimum and maximum -/

/-- A float is a NaN where its exponent is all ones and its fraction is not 0 (R45). -/
theorem isNaN_unpackFloat (fb v : Nat) :
    (unpackFloat fb v).isNaN = decide (v / 2 ^ fb % 256 = 255 ∧ v % 2 ^ fb ≠ 0) := by
  unfold unpackFloat
  rw [Nat.shiftRight_eq_div_pow]
  dsimp only
  split
  · next h => split <;> simp [*, Exact.isNaN]
  · next h => split <;> simp [h, Exact.isNaN]

/-- A NaN is signalling where the first bit of its fraction is 0 (R48). -/
theorem isSignalling_unpackFloat {fb : Nat} (v : Nat) (hf : 0 < fb) :
    (unpackFloat fb v).isSignalling = ((unpackFloat fb v).isNaN && !v.testBit (fb - 1)) := by
  have hb : (v % 2 ^ fb).testBit (fb - 1) = v.testBit (fb - 1) := by
    rw [Nat.testBit_mod_two_pow, decide_eq_true (by omega), Bool.true_and]
  unfold unpackFloat
  dsimp only
  split
  · split
    · rfl
    · simp [Exact.isNaN, Exact.isSignalling, hb]
  · split <;> rfl

section
variable (fb x y : Nat)

/-- The flag of a minimum: invalid for a signalling operand alone (R50). -/
theorem fMin_flags :
    (fMin fb x y).2 = if (unpackFloat fb x).isSignalling || (unpackFloat fb y).isSignalling then flagNV else 0 := by
  simp only [fMin, apply_ite Prod.snd, ite_self]

/-- The flag of a maximum: invalid for a signalling operand alone (R50). -/
theorem fMax_flags :
    (fMax fb x y).2 = if (unpackFloat fb x).isSignalling || (unpackFloat fb y).isSignalling then flagNV else 0 := by
  simp only [fMax, apply_ite Prod.snd, ite_self]

variable {x y}

/-- With a NaN first a minimum and a maximum return the other operand, or the default NaN where that is one too (R50). -/
theorem fMin_fMax_of_nan_left (hx : (unpackFloat fb x).isNaN = true) {z : Nat}
    (hz : (if (unpackFloat fb y).isNaN then defaultNaN fb else y) = z) : (fMin fb x y).1 = z ∧ (fMax fb x y).1 = z := by
  subst hz
  simp [fMin, fMax, hx]

/-- With a NaN second alone a minimum and a maximum return the first operand (R50). -/
theorem fMin_fMax_of_nan_right (hx : (unpackFloat fb x).isNaN = false) (hy : (unpackFloat fb y).isNaN = true) :
    (fMin fb x y).1 = x ∧ (fMax fb x y).1 = x := by
  simp [fMin, fMax, hx, hy]

end

/-- A minimum and a maximum of zeros of both signs: −0 is below +0 (R50). -/
theorem fMin_fMax_zeros {fb : Nat} (hf : fb = 23 ∨ fb = 7) :
    (fMin fb (2 ^ (fb + 8)) 0).1 = 2 ^ (fb + 8) ∧ (fMin fb 0 (2 ^ (fb + 8))).1 = 2 ^ (fb + 8)
      ∧ (fMax fb (2 ^ (fb + 8)) 0).1 = 0 ∧ (fMax fb 0 (2 ^ (fb + 8))).1 = 0 := by
  rcases hf with rfl | rfl <;> decide

/-- Settles O16: the results by which operands are NaNs, the zeros, and the flag. -/
theorem floatMinimumMaximum : Obligations.FloatMinimumMaximum := by
  unfold Obligations.FloatMinimumMaximum
  intro fb x y isNaN signalling hf _ _ hn hs
  have hnan : ∀ v, isNaN v = (unpackFloat fb v).isNaN := fun v => (hn v).trans (isNaN_unpackFloat fb v).symm
  have hsig : ∀ v, signalling v = (unpackFloat fb v).isSignalling := fun v => by
    rw [hs v, hnan v, isSignalling_unpackFloat v (by omega)]
  simp only [hnan, hsig]
  obtain ⟨z1, z2, z3, z4⟩ := fMin_fMax_zeros hf
  exact ⟨fun hx hy => fMin_fMax_of_nan_left fb hx (by simp [hy]), fun hx hy => fMin_fMax_of_nan_right fb hx hy,
    fun hx hy => fMin_fMax_of_nan_left fb hx (by simp [hy, defaultNaN]), z1, z2, z3, z4, fMin_flags fb x y, fMax_flags fb x y⟩

end Sys2Proof.Machine
end

section
/-! Conversions, moves between scalars and lanes, and the operations across lanes (R61, R167 to R175). -/

namespace Sys2Proof.Machine

/-! ## Whole lanes written to guarded lanes -/

/-- Whole lanes written to the guarded lanes of a register, with registers that the wave holds. -/
theorem State.vectorDone_of_putRaw {i : Instr} {s : State} {d : BitVec 7} {rs : List (BitVec 7)} {f g : Nat → Lane}
    (hi : exec i s = .next (s.withRegs rs (s.putRaw d f))) (hfg : ∀ l < 32, f l = g l) (hr : s.HoldsRegs rs) :
    ∃ t, exec i s = .next t ∧ s.VectorDone t d (fun l => (g l, 0)) := by
  rw [s.withRegs_of_holds rs _ hr] at hi
  exact ⟨_, hi, (s.putLanes_done d _).congr fun l hl => by rw [hfg l hl]⟩

/-- A permute takes a lane of a where the source names one, and keeps the lane of d elsewhere (R169). -/
theorem State.vectorDone_of_permute {i : Instr} {s : State} {d a b : BitVec 7} {src : Nat → Nat → Int} {g : Nat → Lane}
    (hi : exec i s = .next (s.permute d a b src))
    (hin : ∀ l < 32, ∀ k : Nat, k ≤ 31 → src l (laneOf (s.getV b) l).toNat = k → g l = laneOf (s.getV a) k)
    (hout : ∀ l < 32, ¬(0 ≤ src l (laneOf (s.getV b) l).toNat ∧ src l (laneOf (s.getV b) l).toNat ≤ 31) →
      g l = laneOf (s.getV d) l) (hr : s.HoldsRegs [d, a, b]) :
    ∃ t, exec i s = .next t ∧ s.VectorDone t d (fun l => (g l, 0)) := by
  refine State.vectorDone_of_putRaw hi (fun l hl => ?_) hr
  dsimp only
  split
  · next h => exact (hin l hl _ (by omega) (Int.toNat_of_nonneg h.1).symm).symm
  · next h => exact (hout l hl h).symm

/-! ## The flags of a reduction -/

/-- A level of the tree over absent positions leaves them absent and raises no flag (R61). -/
theorem pairUp_absent (op : Nat → Nat → Nat × Flags) (l : List (Option Nat)) (h : ∀ x ∈ l, x = none) :
    (∀ x ∈ (pairUp op l).1, x = none) ∧ (pairUp op l).2 = 0 := by
  induction l using pairUp.induct op with
  | case1 => simp at h
  | case2 => simp at h
  | case3 y rest r f hp ih =>
    obtain ⟨hy, hr⟩ := List.forall_mem_cons.1 (List.forall_mem_cons.1 h).2
    obtain ⟨h1, h2⟩ := ih hr
    exact ⟨List.forall_mem_cons.2 ⟨hy, h1⟩, h2⟩
  | case4 x => cases x <;> exact ⟨h, rfl⟩
  | case5 => exact ⟨h, rfl⟩

/-- A reduction of no element raises no flag (R61). -/
theorem reduceTree_absent (op : Nat → Nat → Nat × Flags) (n : Nat) (l : List (Option Nat)) (h : ∀ x ∈ l, x = none) :
    (reduceTree op n l).2 = 0 := by
  induction n generalizing l with
  | zero => rfl
  | succ n ih =>
    obtain ⟨h1, h2⟩ := pairUp_absent op l h
    simp [reduceTree, h2, ih _ h1]

/-- With no lane guarded a reduction raises no flag. -/
theorem reduceAll_unguarded (e : EType) (op : ReduceOp) (r : Rounding) (sat : Bool) (v : Vector Lane 32) (w n : Nat) :
    (reduceAll e op r sat (positions v w [] n)).2 = 0 :=
  reduceTree_absent _ _ _ (by simp [positions])

/-- The same flag of every lane, joined. -/
theorem foldl_or_const {α : Type} (l : List α) (f z : Flags) (h : l = [] → f = 0) :
    l.foldl (fun x _ => x ||| f) z = z ||| f := by
  cases l with
  | nil => simp [h rfl]
  | cons a r =>
    rw [List.foldl_cons]
    induction r with
    | nil => rfl
    | cons b r ih => rw [List.foldl_cons, BitVec.or_assoc, BitVec.or_self, ih (by simp)]

/-- Flags raised after a write of the guarded lanes are flags of every one of them. -/
theorem State.VectorDone.raiseFlags {s t : State} {d : BitVec 7} {g : Nat → Lane}
    (h : s.VectorDone t d (fun l => (g l, 0))) (f : Flags) (hf : s.guarded = [] → f = 0) :
    s.VectorDone (t.raiseFlags f) d (fun l => (g l, f)) := by
  obtain ⟨⟨ht, hfr, hwv⟩, hl, ⟨hv, hvr, hfl⟩, hp⟩ := h
  have hc : t.cur = s.cur := by rw [ht]
  rw [foldl_or_zero _ _ fun _ _ => rfl] at hfl
  refine ⟨⟨?_, hfr, fun k hk => ?_⟩, fun l hlt => ?_, ⟨?_, fun r hr => ?_, ?_⟩, hp⟩
  · rw [ht]
    rfl
  · rw [State.raiseFlags, State.setWv, findAt_putAt_ne _ _ (by rwa [hc]), hwv k hk]
  · simpa [State.getV, State.raiseFlags] using hl l hlt
  · rw [State.raiseFlags, State.wv_setWv, hv]
  · simpa [State.raiseFlags] using hvr r hr
  · rw [foldl_or_const _ _ _ hf, State.raiseFlags, State.wv_setWv, hfl]
    simp

/-- A reduction: its value in every element of every guarded lane, and its flags (R172). -/
theorem State.reduceLanes_done (s : State) (d a : BitVec 7) (op : ReduceOp) {e : EType} (hr : s.HoldsRegs [d, a])
    (he : etypeOf s.etypeCode = some e) (hk : (e.isInt || e.isFloat) = true) :
    s.VectorDone (s.reduceLanes d a op) d (fun _ =>
      (packLane e.width (fun _ => (reduceAll e op s.rounding s.sat (positions (s.getV a) e.width s.guarded 1024)).1.getD
          (reduceIdentity e op)),
        (reduceAll e op s.rounding s.sat (positions (s.getV a) e.width s.guarded 1024)).2)) := by
  rw [State.reduceLanes, s.withType_of_ok _ _ _ e hr he hk]
  exact (s.putLanes_done d _).raiseFlags _ fun hg => by rw [hg]; exact reduceAll_unguarded ..

/-! ## Compress and expand -/

/-- A write of a vector register and the move past the instruction change that register and the program counter alone. -/
theorem State.setV_advance_frame (s : State) (d : BitVec 7) (x : Vector Lane 32) :
    s.OnlyWave (s.setV d x).advance ∧ (s.setV d x).advance.fr = { s.fr with pc := s.fr.pc + 4 }
      ∧ s.wv.OnlyVector (s.setV d x).advance.wv d 0 := by
  refine ⟨s.setWv_setFr_onlyWave _ _, by simp [State.setV], by simp [State.setV], fun r h => ?_, by simp [State.setV]⟩
  simp only [State.setV, State.wv_advance, State.wv_setWv]
  exact Vector.getElem_set_ne d.isLt r.isLt fun e => h (BitVec.eq_of_toNat_eq e.symm)

/-- The row that a list of pairs with keys of their own gives a key. -/
theorem getAt_of_mem_pairs {ps : List (Nat × Nat)} (hn : (ps.map (·.2)).Nodup) {p : Nat × Nat} (hp : p ∈ ps) (z : Nat) :
    getAt z (ps.map (fun x => (x.2, x.1))) p.2 = p.1 := by
  induction ps with
  | nil => cases hp
  | cons q r ih =>
    obtain ⟨hq, hr⟩ := List.nodup_cons.1 hn
    rcases List.mem_cons.1 hp with rfl | hp
    · simp [getAt, findAt_cons]
    · have hne : q.2 ≠ p.2 := fun h => hq (List.mem_map.2 ⟨p, hp, h.symm⟩)
      simpa [getAt, findAt_cons, hne] using ih hr hp

/-- Lanes moved pair by pair: each destination takes its source, and every other lane is as it was (R175). -/
theorem State.moveLanes_done (s : State) (d a : BitVec 7) (ps : List (Nat × Nat)) (hr : s.HoldsRegs [d, a])
    (hn : (ps.map (·.2)).Nodup) :
    s.OnlyWave (s.moveLanes d a ps) ∧ (s.moveLanes d a ps).fr = { s.fr with pc := s.fr.pc + 4 }
      ∧ s.wv.OnlyVector (s.moveLanes d a ps).wv d 0
      ∧ (∀ p ∈ ps, p.2 < 32 → laneOf ((s.moveLanes d a ps).getV d) p.2 = laneOf (s.getV a) p.1)
      ∧ ∀ l < 32, l ∉ ps.map (·.2) → laneOf ((s.moveLanes d a ps).getV d) l = laneOf (s.getV d) l := by
  rw [State.moveLanes, s.withRegs_of_holds _ _ hr]
  dsimp only
  generalize hx : withLanes (s.getV d) _ _ = x
  have hv : (s.setV d x).advance.getV d = x := by simp [State.getV, State.setV]
  obtain ⟨h1, h2, h3⟩ := s.setV_advance_frame d x
  refine ⟨h1, h2, h3, fun p hp hl => ?_, fun l hl hm => ?_⟩
  · rw [hv, ← hx, laneOf_withLanes _ _ _ _ hl, if_pos (List.mem_map_of_mem hp), getAt_of_mem_pairs hn hp]
  · rw [hv, ← hx, laneOf_withLanes _ _ _ _ hl, if_neg hm]

/-- The lanes of a mask are named once each. -/
theorem nodup_lanesOf (m : Lane) : (lanesOf m).Nodup := List.nodup_range.filter _

/-- The lanes of a mask are lanes. -/
theorem lt_of_mem_lanesOf {m : Lane} {l : Nat} (h : l ∈ lanesOf m) : l < 32 := List.mem_range.1 (List.mem_filter.1 h).1

/-- The guarded lanes are lanes of LMASK. -/
theorem State.guarded_sublist (s : State) : s.guarded.Sublist (lanesOf s.fr.lmask) :=
  List.monotone_filter_right _ fun _ h => (Bool.and_eq_true_iff.1 h).1

/-- A place of a list of lanes holds a lane, and 0 past its end. -/
theorem getD_lt_of_forall {ls : List Nat} (h : ∀ l ∈ ls, l < 32) (k : Nat) : ls.getD k 0 < 32 := by
  rw [List.getD_eq_getElem?_getD]
  cases hk : ls[k]? with
  | none => decide
  | some l => exact h l (List.mem_of_getElem? hk)

/-- The pair at a place of two lists. -/
theorem getD_mem_zip {xs ys : List Nat} {k : Nat} (hx : k < xs.length) (hy : k < ys.length) :
    (xs.getD k 0, ys.getD k 0) ∈ xs.zip ys := by
  rw [List.getD_eq_getElem _ _ hx, List.getD_eq_getElem _ _ hy, ← List.getElem_zip (h := by simp [hx, hy])]
  exact List.getElem_mem _

/-- Of two lists paired the second parts are those that the first is long enough for. -/
theorem map_snd_zip_eq_take (xs ys : List Nat) : (xs.zip ys).map (·.2) = ys.take xs.length := by
  induction xs generalizing ys with
  | nil => rfl
  | cons x xs ih => cases ys <;> simp [ih]

/-- What compress and expand answer: the pairs of lanes that they move have destinations of their own, all of them lanes. -/
theorem State.moveLanes_zip_done {i : Instr} {s : State} {d a : BitVec 7} {xs ys : List Nat}
    (hi : exec i s = .next (s.moveLanes d a (xs.zip ys))) (hr : s.HoldsRegs [d, a]) (hn : ys.Nodup) (hl : ∀ l ∈ ys, l < 32)
    (n : Nat) (hx : n ≤ xs.length) (hy : n ≤ ys.length) :
    ∃ t, exec i s = .next t ∧ s.OnlyWave t ∧ t.fr = { s.fr with pc := s.fr.pc + 4 } ∧ s.wv.OnlyVector t.wv d 0
      ∧ (∀ k < n, laneOf (t.getV d) (ys.getD k 0) = laneOf (s.getV a) (xs.getD k 0))
      ∧ ∀ l < 32, l ∉ ys.take xs.length → laneOf (t.getV d) l = laneOf (s.getV d) l := by
  have hm := map_snd_zip_eq_take xs ys
  obtain ⟨hw, hf, hv, hin, hout⟩ := s.moveLanes_done d a (xs.zip ys) hr (hm ▸ hn.sublist (List.take_sublist ..))
  rw [hm] at hout
  exact ⟨_, hi, hw, hf, hv, fun k hk =>
    hin _ (getD_mem_zip (hk.trans_le hx) (hk.trans_le hy)) (getD_lt_of_forall hl k), hout⟩

/-! ## The statement -/

/-- Settles O17: each conversion and move by the lanes that it writes, reductions with their flags, and compress and expand by
the pairs of lanes that they move. -/
theorem moveAndCrossLaneResults : Obligations.MoveAndCrossLaneResults := by
  unfold Obligations.MoveAndCrossLaneResults
  refine ⟨fun s d a b r lane part ty src dst => ⟨fun hr hs hd hc => ?_, ?_, ?_, fun hr => ?_, ?_, ?_, ?_, ?_, fun hr => ?_⟩,
    fun s d a b n e => ⟨?_, ?_, fun hr => ?_, fun hr he hk => ⟨?_, ?_⟩, fun hr => ?_, fun hr => ?_⟩⟩
  · refine ⟨_, rfl, ?_⟩
    rw [s.withType_of_ok _ _ _ src hr hs rfl]
    simp only [hd, hc]
    exact s.putLanes_done d _
  · exact State.vectorDone_of_putRaw rfl fun _ _ => (BitVec.ofNat_toNat ..).symm
  · exact State.vectorDone_of_putRaw rfl fun _ _ => by rw [BitVec.ofNat_toNat]
  · exact State.scalarDone_of (congrArg Host.Outcome.next (s.withRegs_of_holds _ _ hr)) (BitVec.ofNat_toNat ..).symm
  · exact State.vectorDone_of_putRaw rfl fun _ _ => rfl
  · exact State.vectorDone_of_permute rfl (fun l _ k _ h => by rw [← Int.ofNat_inj.1 h]) fun l _ h => by omega
  · refine State.vectorDone_of_permute rfl (fun l _ k _ h => ?_) fun l _ h => if_neg (by omega)
    exact (if_pos (by omega)).trans (congrArg _ (by omega))
  · refine State.vectorDone_of_permute rfl (fun l _ k _ h => ?_) fun l _ h => if_neg (by omega)
    exact (if_pos (by omega)).trans (congrArg _ (by omega))
  · obtain ⟨t, ht, hd⟩ := State.vectorDone_of_permute (i := .vshflx d a b) (g := fun l =>
      laneOf (s.getV a) (l ^^^ (laneOf (s.getV b) l).toNat % 32)) rfl (fun l _ k _ h => by rw [← Int.ofNat_inj.1 h])
      (fun l hl h => by
        have := Nat.xor_lt_two_pow (n := 5) hl
          (show (laneOf (s.getV b) l).toNat % 32 < 2 ^ 5 from Nat.mod_lt _ (by decide))
        omega) hr
    exact ⟨t, ht, _, fun _ _ => rfl, hd⟩
  · exact State.vectorDone_of_putRaw rfl fun _ _ => rfl
  · exact State.vectorDone_of_putRaw rfl fun _ _ => rfl
  · obtain ⟨t, ht, hd⟩ := State.vectorDone_of_putRaw (i := .vballot d a) rfl (fun _ _ => rfl) hr
    refine ⟨t, _, ht, fun l hl => ?_, hd⟩
    rw [getLsbD_maskOf _ _ hl]
    simp [List.mem_filter, bne, beq_eq_decide]
  · rintro op i (⟨rfl, rfl⟩ | ⟨rfl, rfl⟩ | ⟨rfl, rfl⟩) <;>
      exact ⟨_, rfl, s.reduceLanes_done d a _ hr he (by simpa using hk)⟩
  · refine ⟨_, rfl, ?_⟩
    rw [s.withType_of_ok _ _ _ e hr he (by simpa using hk)]
    exact s.putLanes_done d _
  · exact State.moveLanes_zip_done rfl hr (nodup_lanesOf _) (fun _ => lt_of_mem_lanesOf) _ le_rfl
      s.guarded_sublist.length_le
  · have h := State.moveLanes_zip_done (i := .vexpnd d a) rfl hr ((nodup_lanesOf _).sublist s.guarded_sublist)
      (fun _ => State.lt_of_mem_guarded) _ s.guarded_sublist.length_le le_rfl
    rwa [List.take_of_length_le s.guarded_sublist.length_le] at h

end Sys2Proof.Machine
end

section
/-! The checks that come before any other effect of a vector instruction: REG_RANGE and TYPE (R41, R72, R84, R167). -/

namespace Sys2Proof.Machine

section
variable {s : State} {i : Instr} {rs rs' : List (BitVec 7)}

/-- An instruction that checks the registers that it names raises REG_RANGE for one that the wave does not hold. -/
theorem State.rangeTraps_of {k : State} (hi : exec i s = .next (s.withRegs rs' k)) (hs : rs ⊆ rs') : s.RangeTraps i rs :=
  fun hf ⟨r, hr, hb⟩ => ⟨_, hi, by
    rw [s.withRegs_of_lacks rs' k ⟨r, hs hr, hb⟩]
    exact s.trap_trapped _ _ _ _ hf⟩

/-- An instruction under an element type checks its registers first and its type next: it raises REG_RANGE, and with its
registers held and a type that it does not list TYPE. -/
theorem State.rangeTraps_typeTraps_of {ok : EType → Bool} {k : EType → State}
    (hi : exec i s = .next (s.withType rs' ok k)) (hs : rs ⊆ rs') (hs' : rs' ⊆ rs) :
    s.RangeTraps i rs ∧ s.TypeTraps i rs ok :=
  ⟨State.rangeTraps_of hi hs, fun hf hr hk => ⟨_, hi, by
    rw [s.withType_of_bad rs' ok k (hr.mono hs') hk]
    exact s.trap_trapped _ _ _ _ hf⟩⟩

end

/-- `vcvt` raises TYPE for a type pair or a part that it refuses (R167). -/
theorem State.vcvt_trapped (s : State) (d a : BitVec 7) (part : BitVec 3) (ty : BitVec 4) {src dst : EType} (hf : s.TrapFree)
    (hr : s.HoldsRegs [d, a]) (hs : etypeOf s.etypeCode = some src) (hd : etypeOf ty.toNat = some dst)
    (hc : cvtRefused src dst part.toNat = true) :
    ∃ t, exec (.vcvt d a part ty) s = .next t ∧ s.Trapped t 0x10 0 0 s.fr.pc 0 (s.tinfoWord 0) := by
  refine ⟨_, rfl, ?_⟩
  rw [s.withType_of_ok _ _ _ src hr hs rfl]
  simp only [hd, hc]
  exact s.trap_trapped _ _ _ _ hf

/-- Settles O18: every vector instruction of a group makes the checks of the group before it does anything else. -/
theorem vectorRangeAndTypeTraps : Obligations.VectorRangeAndTypeTraps := by
  unfold Obligations.VectorRangeAndTypeTraps
  intro s d a b p r lane part ty
  refine ⟨fun i hi => ?_, fun i hi => ?_, ?_, fun i hi => ?_, fun i hi => ?_, fun i hi => ?_, fun i hi => ?_, fun i hi => ?_,
    fun i hi => ?_, fun src dst hf hr hs hd hc => ?_, fun i hi => ?_, fun i hi => ?_, ?_, fun i hi => ?_, ?_⟩
  · obtain ⟨g, hg⟩ : ∃ g, exec i s = .next (s.intOp d a b g) := by fin_cases hi <;> exact ⟨_, rfl⟩
    exact State.rangeTraps_typeTraps_of hg (by simp) (by simp)
  · fin_cases hi <;> exact State.rangeTraps_of rfl (by simp)
  · exact State.rangeTraps_typeTraps_of rfl (by simp) (by simp)
  · obtain ⟨q, hq⟩ : ∃ q, exec i s = .next (s.intCompare p a b q) := by fin_cases hi <;> exact ⟨_, rfl⟩
    exact State.rangeTraps_typeTraps_of hq (by simp) (by simp)
  · obtain ⟨g, hg⟩ : ∃ g, exec i s = .next (s.floatOp d a b g) := by fin_cases hi <;> exact ⟨_, rfl⟩
    exact State.rangeTraps_typeTraps_of hg (by simp) (by simp)
  · obtain ⟨q, hq⟩ : ∃ q, exec i s = .next (s.floatCompare p a b q) := by fin_cases hi <;> exact ⟨_, rfl⟩
    exact State.rangeTraps_typeTraps_of hq (by simp) (by simp)
  · obtain ⟨g, hg⟩ : ∃ g, exec i s = .next (s.floatOp d a a g) := by fin_cases hi <;> exact ⟨_, rfl⟩
    exact State.rangeTraps_typeTraps_of hg (by simp) (by simp)
  · obtain ⟨g, hg⟩ : ∃ g, exec i s = .next (s.intOp d a a g) := by fin_cases hi <;> exact ⟨_, rfl⟩
    exact State.rangeTraps_typeTraps_of hg (by simp) (by simp)
  · fin_cases hi <;> exact State.rangeTraps_typeTraps_of rfl (by simp) (by simp)
  · refine s.vcvt_trapped d a part ty hf hr hs hd ?_
    rcases hc with ⟨rfl, h⟩ | ⟨rfl, h⟩ | h <;> simp [cvtRefused, cvtParts, h]
  · fin_cases hi <;> exact State.rangeTraps_of rfl (by simp)
  · fin_cases hi <;> exact State.rangeTraps_of rfl (by simp)
  · exact State.rangeTraps_of rfl (by simp)
  · fin_cases hi <;> exact State.rangeTraps_typeTraps_of rfl (by simp) (by simp)
  · exact State.rangeTraps_of rfl (by simp)

end Sys2Proof.Machine
end

section
/-! The forms of a word: a word has a form with given fields exactly when its slices are those fields (R69, R70). -/

namespace Sys2Proof

/-- A slice of a slice is a slice. -/
@[simp] theorem extractLsb'_of_slice {n i l j m : Nat} (x : BitVec n) (h : j + m ≤ l) :
    (x.extractLsb' i l).extractLsb' j m = x.extractLsb' (i + j) m := by
  ext k hk
  have hl : j + k < l := by omega
  simp [hl, Nat.add_assoc]

/-- Two fields side by side make a word when each of them is a slice of it. -/
@[simp] theorem append_eq_iff {n m : Nat} (x : BitVec n) (y : BitVec m) (v : BitVec (n + m)) :
    @Eq (no_index _) (HAppend.hAppend (γ := no_index _) x y) v ↔ x = v.extractLsb' m n ∧ y = v.extractLsb' 0 m := by
  constructor
  · rintro rfl
    exact ⟨BitVec.extractLsb'_append_eq_left.symm, BitVec.extractLsb'_append_eq_right.symm⟩
  · rintro ⟨rfl, rfl⟩
    exact BitVec.extractLsb'_append_extractLsb'

section Forms

variable (w : BitVec 32) (op : BitVec 7)

@[simp] theorem encS3_eq_iff (d a b : BitVec 6) (fn : BitVec 7) : encS3 op d a b fn = w ↔
    op = majorOf w ∧ d = w.extractLsb' 19 6 ∧ a = w.extractLsb' 13 6 ∧ b = w.extractLsb' 7 6 ∧ fn = w.extractLsb' 0 7 := by
  rw [encS3, append_eq_iff, append_eq_iff, append_eq_iff, append_eq_iff]
  simp [majorOf, and_assoc]

@[simp] theorem encI13_eq_iff (d a : BitVec 6) (imm : BitVec 13) : encI13 op d a imm = w ↔
    op = majorOf w ∧ d = w.extractLsb' 19 6 ∧ a = w.extractLsb' 13 6 ∧ imm = w.extractLsb' 0 13 := by
  rw [encI13, append_eq_iff, append_eq_iff, append_eq_iff]
  simp [majorOf, and_assoc]

@[simp] theorem encL19_eq_iff (d : BitVec 6) (imm : BitVec 19) : encL19 op d imm = w ↔
    op = majorOf w ∧ d = w.extractLsb' 19 6 ∧ imm = w.extractLsb' 0 19 := by
  rw [encL19, append_eq_iff, append_eq_iff]
  simp [majorOf, and_assoc]

@[simp] theorem encJ25_eq_iff (imm : BitVec 25) : encJ25 op imm = w ↔ op = majorOf w ∧ imm = w.extractLsb' 0 25 := by
  rw [encJ25, append_eq_iff]
  rfl

@[simp] theorem encVR_eq_iff (d a b : BitVec 7) (fn : BitVec 4) : encVR op d a b fn = w ↔
    op = majorOf w ∧ d = w.extractLsb' 18 7 ∧ a = w.extractLsb' 11 7 ∧ b = w.extractLsb' 4 7 ∧ fn = w.extractLsb' 0 4 := by
  rw [encVR, append_eq_iff, append_eq_iff, append_eq_iff, append_eq_iff]
  simp [majorOf, and_assoc]

@[simp] theorem encM12_eq_iff (r : BitVec 7) (b : BitVec 6) (imm : BitVec 12) : encM12 op r b imm = w ↔
    op = majorOf w ∧ r = w.extractLsb' 18 7 ∧ b = w.extractLsb' 12 6 ∧ imm = w.extractLsb' 0 12 := by
  rw [encM12, append_eq_iff, append_eq_iff, append_eq_iff]
  simp [majorOf, and_assoc]

@[simp] theorem encX7_eq_iff (d : BitVec 7) (b : BitVec 6) (x : BitVec 7) (fn : BitVec 5) : encX7 op d b x fn = w ↔
    op = majorOf w ∧ d = w.extractLsb' 18 7 ∧ b = w.extractLsb' 12 6 ∧ x = w.extractLsb' 5 7 ∧ fn = w.extractLsb' 0 5 := by
  rw [encX7, append_eq_iff, append_eq_iff, append_eq_iff, append_eq_iff]
  simp [majorOf, and_assoc]

@[simp] theorem encE_eq_iff (b : BitVec 6) (t : BitVec 4) (fn : BitVec 15) : encE op b t fn = w ↔
    op = majorOf w ∧ b = w.extractLsb' 19 6 ∧ t = w.extractLsb' 15 4 ∧ fn = w.extractLsb' 0 15 := by
  rw [encE, append_eq_iff, append_eq_iff, append_eq_iff]
  simp [majorOf, and_assoc]

@[simp] theorem encVB_eq_iff (p : BitVec 3) (neg : BitVec 1) (off : BitVec 21) : encVB op p neg off = w ↔
    op = majorOf w ∧ p = w.extractLsb' 22 3 ∧ neg = w.extractLsb' 21 1 ∧ off = w.extractLsb' 0 21 := by
  rw [encVB, append_eq_iff, append_eq_iff, append_eq_iff]
  simp [majorOf, and_assoc]

@[simp] theorem encVJ_eq_iff (a : BitVec 7) (tag : BitVec 13) (z : BitVec 5) : encVJ op a tag z = w ↔
    op = majorOf w ∧ a = w.extractLsb' 18 7 ∧ tag = w.extractLsb' 5 13 ∧ z = w.extractLsb' 0 5 := by
  rw [encVJ, append_eq_iff, append_eq_iff, append_eq_iff]
  simp [majorOf, and_assoc]

@[simp] theorem encRC_eq_iff (rid : BitVec 8) (z : BitVec 17) : encRC op rid z = w ↔
    op = majorOf w ∧ rid = w.extractLsb' 17 8 ∧ z = w.extractLsb' 0 17 := by
  rw [encRC, append_eq_iff, append_eq_iff]
  simp [majorOf, and_assoc]

end Forms

/-- The three highest bits, which mark the custom majors of `xop`, are those of the major opcode. -/
theorem extractLsb'_top (w : BitVec 32) : w.extractLsb' 29 3 = (majorOf w).extractLsb' 4 3 := by
  simp [majorOf]

end Sys2Proof
end

section
/-! The instruction that the decoder gives for a word is well formed and has that word (R70 to R76). -/

namespace Sys2Proof

/-- What the decoder reads off a word: nothing, or a well-formed instruction with that word. -/
def Reads (w : BitVec 32) (r : Except Reject Instr) : Prop :=
  ∀ i, r = .ok i → i.wellFormed = true ∧ encode i = some w

section Reads

variable {w v : BitVec 32} {i : Instr} {e e' : Reject} {r r' : Except Reject Instr} {c c' : Prop} [Decidable c] [Decidable c']

theorem reads_error : Reads w (.error e) := nofun

theorem reads_ok (hi : i.wellFormed = true) (he : encode i = some v) (hv : v = w) : Reads w (.ok i) := by
  rintro _ ⟨⟩
  exact ⟨hi, hv ▸ he⟩

theorem reads_ite (hr : c → Reads w r) (hr' : ¬c → Reads w r') : Reads w (if c then r else r') := by
  split
  · exact hr ‹_›
  · exact hr' ‹_›

/-- An instruction read under a condition on its fields. -/
theorem reads_guard (hi : c → i.wellFormed = true) (he : encode i = some v) (hv : c → v = w) :
    Reads w (if c then .ok i else .error e) :=
  reads_ite (fun h => reads_ok (hi h) he (hv h)) (fun _ => reads_error)

/-- An instruction read under a condition on the reserved fields and one on an operand. -/
theorem reads_guards (hi : c' → i.wellFormed = true) (he : encode i = some v) (hv : c → v = w) :
    Reads w (if c then if c' then .ok i else .error e else .error e') :=
  reads_ite (fun h => reads_guard hi he (fun _ => hv h)) (fun _ => reads_error)

/-- A field of one bit that is not 0 is 1. -/
theorem eq_one_of_ne_zero {b : BitVec 1} (h : ¬b = 0) : b = 1 := by
  revert b
  decide

theorem reads_decodeSop (h : majorOf w = 0x01) : Reads w (decodeSop w) := by
  unfold decodeSop
  split
  case h_26 => exact reads_error
  case h_23 | h_24 | h_25 => exact reads_guard (fun _ => rfl) rfl (fun _ => by simp [*])
  all_goals exact reads_ok rfl rfl (by simp [*])

theorem reads_decodeCtl (h : majorOf w = 0x10) : Reads w (decodeCtl w) := by
  unfold decodeCtl
  split
  case h_12 => exact reads_error
  case h_8 | h_9 | h_10 => exact reads_guards decide_eq_true rfl (fun _ => by simp [*])
  case h_7 =>
    refine reads_ite (fun _ => ?_) (fun hn => ?_)
    · exact reads_guards decide_eq_true rfl (fun _ => by simp [*])
    · have he := eq_one_of_ne_zero hn
      exact reads_guards decide_eq_true rfl (fun _ => by simp [*])
  all_goals exact reads_guard (fun _ => rfl) rfl (fun _ => by simp [*])

theorem reads_decodePred (h : majorOf w = 0x13) : Reads w (decodePred w) := by
  unfold decodePred
  split
  case h_10 => exact reads_error
  all_goals exact reads_guard (fun _ => rfl) rfl (fun _ => by simp [*])

theorem reads_decodeVint (h : majorOf w = 0x20) : Reads w (decodeVint w) := by
  unfold decodeVint
  split
  case h_17 => exact reads_error
  all_goals exact reads_ok rfl rfl (by simp [*])

theorem reads_decodeVcmp (h : majorOf w = 0x21) : Reads w (decodeVcmp w) := by
  unfold decodeVcmp
  split
  case h_10 => exact reads_error
  case h_7 | h_8 | h_9 => exact reads_ok rfl rfl (by simp [*])
  all_goals exact reads_guard (fun _ => rfl) rfl (fun _ => by simp [*])

theorem reads_decodeVflt (h : majorOf w = 0x22) : Reads w (decodeVflt w) := by
  unfold decodeVflt
  split
  case h_15 => exact reads_error
  case h_9 | h_10 | h_11 | h_12 | h_14 => exact reads_guard (fun _ => rfl) rfl (fun _ => by simp [*])
  all_goals exact reads_ok rfl rfl (by simp [*])

theorem reads_decodeVun (h : majorOf w = 0x23) : Reads w (decodeVun w) := by
  unfold decodeVun
  split
  case h_17 => exact reads_error
  case h_12 => exact reads_guard decide_eq_true rfl (fun _ => by simp [*])
  all_goals exact reads_guard (fun _ => rfl) rfl (fun _ => by simp [*])

theorem reads_decodeVxl (h : majorOf w = 0x24) : Reads w (decodeVxl w) := by
  unfold decodeVxl
  split
  case h_14 => exact reads_error
  case h_1 | h_2 | h_3 | h_4 | h_5 | h_6 => exact reads_ok rfl rfl (by simp [*])
  all_goals exact reads_guard (fun _ => rfl) rfl (fun _ => by simp [*])

theorem reads_decodeAtom (h : majorOf w = 0x3A) : Reads w (decodeAtom w) := by
  unfold decodeAtom
  split
  case h_29 => exact reads_error
  case h_11 | h_25 => exact reads_guard decide_eq_true rfl (fun _ => by simp [*])
  all_goals exact reads_ok rfl rfl (by simp [*])

theorem reads_decodeSatom (h : majorOf w = 0x3B) : Reads w (decodeSatom w) := by
  unfold decodeSatom
  split
  case h_29 => exact reads_error
  case h_11 | h_25 => exact reads_guards decide_eq_true rfl (fun _ => by simp [*])
  all_goals exact reads_guard (fun _ => rfl) rfl (fun _ => by simp [*])

theorem reads_decodeMemctl (h : majorOf w = 0x3C) : Reads w (decodeMemctl w) := by
  unfold decodeMemctl
  split
  case h_10 => exact reads_error
  case h_7 => exact reads_ok rfl rfl (by simp [*])
  all_goals exact reads_guard (fun _ => rfl) rfl (fun _ => by simp [*])

theorem reads_decodeTxc (h : majorOf w = 0x42) : Reads w (decodeTxc w) := by
  unfold decodeTxc
  split
  case h_7 => exact reads_error
  all_goals exact reads_guard (fun _ => rfl) rfl (fun _ => by simp [*])

theorem reads_decodeMat (h : majorOf w = 0x48) : Reads w (decodeMat w) := by
  unfold decodeMat
  split
  case h_11 => exact reads_error
  case h_7 => exact reads_guards decide_eq_true rfl (fun _ => by simp [*])
  all_goals exact reads_guard (fun _ => rfl) rfl (fun _ => by simp [*])

theorem reads_decodeCopy (h : majorOf w = 0x50) : Reads w (decodeCopy w) := by
  unfold decodeCopy
  split
  case h_7 => exact reads_error
  all_goals exact reads_guard decide_eq_true rfl (fun _ => by simp [*])

theorem reads_decodeTimeline (h : majorOf w = 0x51) : Reads w (decodeTimeline w) := by
  unfold decodeTimeline
  split
  case h_3 => exact reads_error
  case h_2 =>
    refine reads_ite (fun _ => ?_) (fun _ => reads_ite (fun _ => ?_) (fun _ => reads_error))
    all_goals exact reads_guard (fun _ => rfl) rfl (fun _ => by simp [*])
  all_goals exact reads_guard (fun _ => rfl) rfl (fun _ => by simp [*])

theorem reads_decodeChurn (h : majorOf w = 0x58) : Reads w (decodeChurn w) := by
  unfold decodeChurn
  split
  case h_6 => exact reads_error
  all_goals exact reads_guard (fun _ => rfl) rfl (fun _ => by simp [*])

theorem reads_decodeMilk (h : majorOf w = 0x5C) : Reads w (decodeMilk w) := by
  unfold decodeMilk
  split
  case h_4 => exact reads_error
  case h_3 => exact reads_guard (fun _ => rfl) rfl (fun _ => by simp [*])
  case h_1 =>
    refine reads_ite (fun _ => ?_) (fun _ => reads_guard (fun _ => rfl) rfl (fun _ => by simp [*]))
    exact reads_ok rfl rfl (by simp [*])
  case h_2 =>
    refine reads_ite (fun _ => ?_) (fun _ => reads_ite (fun _ => ?_) (fun _ => reads_error))
    all_goals exact reads_guard (fun _ => rfl) rfl (fun _ => by simp [*])

theorem reads_decodeToken (h : majorOf w = 0x60) : Reads w (decodeToken w) := by
  unfold decodeToken
  split
  case h_13 => exact reads_error
  case h_2 | h_3 | h_6 | h_8 => exact reads_guard (fun _ => rfl) rfl (fun _ => by simp [*])
  case h_9 | h_12 => exact reads_guard decide_eq_true rfl (fun _ => by simp [*])
  case h_10 | h_11 => exact reads_guards decide_eq_true rfl (fun _ => by simp [*])
  all_goals exact reads_ok rfl rfl (by simp [*])

theorem reads_decodeBridge (h : majorOf w = 0x64) : Reads w (decodeBridge w) := by
  unfold decodeBridge
  split
  case h_3 => exact reads_error
  case h_2 => exact reads_guard (fun _ => rfl) rfl (fun _ => by simp [*])
  all_goals exact reads_guard decide_eq_true rfl (fun _ => by simp [*])

/-- Whatever the decoder gives for a word is well formed and has that word. -/
theorem reads_decodeWord (w : BitVec 32) : Reads w (decodeWord w) := by
  unfold decodeWord
  refine reads_ite (fun htop => ?_) (fun _ => ?_)
  · exact reads_ok rfl rfl (by simp [*, majorOf])
  split
  case h_1 h => exact reads_decodeSop h
  case h_16 h => exact reads_decodeCtl h
  case h_19 h => exact reads_decodePred h
  case h_25 h => exact reads_decodeVint h
  case h_26 h => exact reads_decodeVcmp h
  case h_27 h => exact reads_decodeVflt h
  case h_28 h => exact reads_decodeVun h
  case h_29 h => exact reads_decodeVxl h
  case h_40 h => exact reads_decodeAtom h
  case h_41 h => exact reads_decodeSatom h
  case h_42 h => exact reads_decodeMemctl h
  case h_45 h => exact reads_decodeTxc h
  case h_46 h => exact reads_decodeMat h
  case h_47 h => exact reads_decodeCopy h
  case h_48 h => exact reads_decodeTimeline h
  case h_49 h => exact reads_decodeChurn h
  case h_50 h => exact reads_decodeMilk h
  case h_51 h => exact reads_decodeToken h
  case h_52 h => exact reads_decodeBridge h
  case h_53 => exact reads_error
  case h_6 | h_7 | h_8 | h_17 | h_18 | h_21 | h_22 | h_23 | h_24 | h_32 | h_33 | h_34 | h_35 | h_36 | h_37 | h_38 | h_39 =>
    exact reads_guard (fun _ => rfl) rfl (fun _ => by simp [*])
  all_goals exact reads_ok rfl rfl (by simp [*])

end Reads

/-- Settles O57: the word of what a word decodes to is that word, group by group of the major opcodes. -/
theorem encodingInvertsDecoding : Obligations.EncodingInvertsDecoding := by
  unfold Obligations.EncodingInvertsDecoding
  exact fun w => reads_decodeWord w

end Sys2Proof
end

section
/-! The word of a well-formed instruction decodes to the instruction (R70 to R76). -/

namespace Sys2Proof

/-! ## The decoder by major opcode (R75) -/

section Majors

variable {w : BitVec 32}

theorem decodeWord_sop (h : majorOf w = 0x1) : decodeWord w = decodeSop w := by
  rw [decodeWord, extractLsb'_top, h]
  rfl

theorem decodeWord_ctl (h : majorOf w = 0x10) : decodeWord w = decodeCtl w := by
  rw [decodeWord, extractLsb'_top, h]
  rfl

theorem decodeWord_pred (h : majorOf w = 0x13) : decodeWord w = decodePred w := by
  rw [decodeWord, extractLsb'_top, h]
  rfl

theorem decodeWord_vint (h : majorOf w = 0x20) : decodeWord w = decodeVint w := by
  rw [decodeWord, extractLsb'_top, h]
  rfl

theorem decodeWord_vcmp (h : majorOf w = 0x21) : decodeWord w = decodeVcmp w := by
  rw [decodeWord, extractLsb'_top, h]
  rfl

theorem decodeWord_vflt (h : majorOf w = 0x22) : decodeWord w = decodeVflt w := by
  rw [decodeWord, extractLsb'_top, h]
  rfl

theorem decodeWord_vun (h : majorOf w = 0x23) : decodeWord w = decodeVun w := by
  rw [decodeWord, extractLsb'_top, h]
  rfl

theorem decodeWord_vxl (h : majorOf w = 0x24) : decodeWord w = decodeVxl w := by
  rw [decodeWord, extractLsb'_top, h]
  rfl

theorem decodeWord_atom (h : majorOf w = 0x3A) : decodeWord w = decodeAtom w := by
  rw [decodeWord, extractLsb'_top, h]
  rfl

theorem decodeWord_satom (h : majorOf w = 0x3B) : decodeWord w = decodeSatom w := by
  rw [decodeWord, extractLsb'_top, h]
  rfl

theorem decodeWord_memctl (h : majorOf w = 0x3C) : decodeWord w = decodeMemctl w := by
  rw [decodeWord, extractLsb'_top, h]
  rfl

theorem decodeWord_txc (h : majorOf w = 0x42) : decodeWord w = decodeTxc w := by
  rw [decodeWord, extractLsb'_top, h]
  rfl

theorem decodeWord_mat (h : majorOf w = 0x48) : decodeWord w = decodeMat w := by
  rw [decodeWord, extractLsb'_top, h]
  rfl

theorem decodeWord_copy (h : majorOf w = 0x50) : decodeWord w = decodeCopy w := by
  rw [decodeWord, extractLsb'_top, h]
  rfl

theorem decodeWord_timeline (h : majorOf w = 0x51) : decodeWord w = decodeTimeline w := by
  rw [decodeWord, extractLsb'_top, h]
  rfl

theorem decodeWord_churn (h : majorOf w = 0x58) : decodeWord w = decodeChurn w := by
  rw [decodeWord, extractLsb'_top, h]
  rfl

theorem decodeWord_milk (h : majorOf w = 0x5C) : decodeWord w = decodeMilk w := by
  rw [decodeWord, extractLsb'_top, h]
  rfl

theorem decodeWord_token (h : majorOf w = 0x60) : decodeWord w = decodeToken w := by
  rw [decodeWord, extractLsb'_top, h]
  rfl

theorem decodeWord_bridge (h : majorOf w = 0x64) : decodeWord w = decodeBridge w := by
  rw [decodeWord, extractLsb'_top, h]
  rfl

end Majors

/-! ## An instruction that has a word which decodes to it -/

/-- The instruction has a word, and the word decodes to it. -/
def Written (i : Instr) : Prop := ∃ w, encode i = some w ∧ decodeWord w = .ok i

section Written

variable {i j : Instr} {v : BitVec 32} {op : BitVec 7} {D : BitVec 32 → Except Reject Instr} {e e' : Reject}
  {c c' : Prop} [Decidable c] [Decidable c']

/-- It is enough to decode a word of which the form alone is known. -/
theorem written_of (he : encode i = some v) (h : ∀ w, v = w → decodeWord w = .ok i) : Written i :=
  ⟨v, he, h v rfl⟩

theorem written_S3 {d a b : BitVec 6} {fn : BitVec 7} (hD : ∀ {w}, majorOf w = op → decodeWord w = D w)
    (he : encode i = some (encS3 op d a b fn))
    (h : ∀ w, w.extractLsb' 0 7 = fn → encS3 op d a b fn = w → D w = .ok i) : Written i := by
  refine written_of he fun w hw => ?_
  obtain ⟨hop, -, -, -, hf⟩ := (encS3_eq_iff ..).1 hw
  exact (hD hop.symm).trans (h w hf.symm hw)

theorem written_VR {d a b : BitVec 7} {fn : BitVec 4} (hD : ∀ {w}, majorOf w = op → decodeWord w = D w)
    (he : encode i = some (encVR op d a b fn))
    (h : ∀ w, w.extractLsb' 0 4 = fn → encVR op d a b fn = w → D w = .ok i) : Written i := by
  refine written_of he fun w hw => ?_
  obtain ⟨hop, -, -, -, hf⟩ := (encVR_eq_iff ..).1 hw
  exact (hD hop.symm).trans (h w hf.symm hw)

theorem written_X7 {d x : BitVec 7} {b : BitVec 6} {fn : BitVec 5} (hD : ∀ {w}, majorOf w = op → decodeWord w = D w)
    (he : encode i = some (encX7 op d b x fn))
    (h : ∀ w, w.extractLsb' 0 5 = fn → encX7 op d b x fn = w → D w = .ok i) : Written i := by
  refine written_of he fun w hw => ?_
  obtain ⟨hop, -, -, -, hf⟩ := (encX7_eq_iff ..).1 hw
  exact (hD hop.symm).trans (h w hf.symm hw)

theorem written_E {b : BitVec 6} {t : BitVec 4} {fn : BitVec 15} (hD : ∀ {w}, majorOf w = op → decodeWord w = D w)
    (he : encode i = some (encE op b t fn))
    (h : ∀ w, w.extractLsb' 0 15 = fn → encE op b t fn = w → D w = .ok i) : Written i := by
  refine written_of he fun w hw => ?_
  obtain ⟨hop, -, -, hf⟩ := (encE_eq_iff ..).1 hw
  exact (hD hop.symm).trans (h w hf.symm hw)

/-- A condition on the fields that holds lets an instruction be read. -/
theorem ok_of_guard (hc : c) (hj : j = i) : (if c then .ok j else .error e : Except Reject Instr) = .ok i := by
  rw [if_pos hc, hj]

/-- A condition on the reserved fields and one on an operand, both of which hold, let an instruction be read. -/
theorem ok_of_guards (hc : c) (hc' : c') (hj : j = i) :
    (if c then if c' then .ok j else .error e else .error e' : Except Reject Instr) = .ok i := by
  rw [if_pos hc, ok_of_guard hc' hj]

end Written

/-- Every well-formed instruction word is written: by its group, and in the group by the conditions on its fields. -/
theorem written_of_wellFormed (i : Instr) (hw : i.isWord = true) (hi : i.wellFormed = true) : Written i := by
  cases i with
  | sadd | ssub | smul | smulh | smulhu | sdiv | sdivu | srem | sremu | sand | sor | sxor | sshl | sshr | ssra
  | smin | smax | sminu | smaxu | sseq | sslt | ssltu =>
    exact written_S3 decodeWord_sop rfl fun w hf hw => by
      obtain ⟨-, rfl, rfl, rfl, -⟩ := (encS3_eq_iff ..).1 hw
      rw [decodeSop, hf]
      rfl
  | sclz | spopc | spmov =>
    exact written_S3 decodeWord_sop rfl fun w hf hw => by
      simp at hw
      rw [decodeSop, hf]
      exact ok_of_guard (by simp [← hw]) (by simp [← hw])
  | ret | exit | yield | trap | rtt | brk | frz =>
    exact written_S3 decodeWord_ctl rfl fun w hf hw => by
      simp at hw
      rw [decodeCtl, hf]
      exact ok_of_guard (by simp [← hw]) (by simp [← hw])
  | racq =>
    have hr := of_decide_eq_true hi
    exact written_S3 decodeWord_ctl rfl fun w hf hw => by
      simp at hw
      rw [decodeCtl, hf]
      exact (if_pos (by simp [← hw])).trans (ok_of_guards (by simp [← hw]) (by simpa [← hw] using hr) (by simp [← hw]))
  | racqE =>
    have hr := of_decide_eq_true hi
    exact written_S3 decodeWord_ctl rfl fun w hf hw => by
      simp at hw
      rw [decodeCtl, hf]
      exact (if_neg (by simp [← hw])).trans (ok_of_guards (by simp [← hw]) (by simpa [← hw] using hr) (by simp [← hw]))
  | rrel | srd | swr =>
    have hr := of_decide_eq_true hi
    exact written_S3 decodeWord_ctl rfl fun w hf hw => by
      simp at hw
      rw [decodeCtl, hf]
      exact ok_of_guards (by simp [← hw]) (by simpa [← hw] using hr) (by simp [← hw])
  | pand | por | pxor | pandn | pnot | pmov | pcnt | pfirst | pset =>
    exact written_VR decodeWord_pred rfl fun w hf hw => by
      simp at hw
      rw [decodePred, hf]
      exact ok_of_guard (by simp [← hw]) (by simp [← hw])
  | vadd | vsub | vmul | vmulh | vmad | vmin | vmax | vand | vor | vxor | vandn | vshl | vshr | vsra | vrot | vsel =>
    exact written_VR decodeWord_vint rfl fun w hf hw => by
      obtain ⟨-, rfl, rfl, rfl, -⟩ := (encVR_eq_iff ..).1 hw
      rw [decodeVint, hf]
      rfl
  | vcmpeq | vcmpne | vcmplt | vcmple | vcmpgt | vcmpge =>
    exact written_VR decodeWord_vcmp rfl fun w hf hw => by
      simp at hw
      rw [decodeVcmp, hf]
      exact ok_of_guard (by simp [← hw]) (by simp [← hw])
  | vabsd | vavg | vdot4 =>
    exact written_VR decodeWord_vcmp rfl fun w hf hw => by
      obtain ⟨-, rfl, rfl, rfl, -⟩ := (encVR_eq_iff ..).1 hw
      rw [decodeVcmp, hf]
      rfl
  | vfadd | vfsub | vfmul | vfma | vfms | vfnma | vfmin | vfmax | vfscal =>
    exact written_VR decodeWord_vflt rfl fun w hf hw => by
      obtain ⟨-, rfl, rfl, rfl, -⟩ := (encVR_eq_iff ..).1 hw
      rw [decodeVflt, hf]
      rfl
  | vfcmpeq | vfcmplt | vfcmple | vfcmpun | vfcls =>
    exact written_VR decodeWord_vflt rfl fun w hf hw => by
      simp at hw
      rw [decodeVflt, hf]
      exact ok_of_guard (by simp [← hw]) (by simp [← hw])
  | vmov | vnot | vneg | vabs | vpopc | vclz | vlaneid | vfrcp | vfrsq | vfexp2 | vflog2 | vbcst | vextr | vins
  | vbrev =>
    exact written_VR decodeWord_vun rfl fun w hf hw => by
      simp at hw
      rw [decodeVun, hf]
      exact ok_of_guard (by simp [← hw]) (by simp [← hw])
  | vcvt =>
    have hr := of_decide_eq_true hi
    exact written_VR decodeWord_vun rfl fun w hf hw => by
      simp at hw
      rw [decodeVun, hf]
      exact ok_of_guard (by simpa [← hw] using hr) (by simp [← hw])
  | vperm | vbperm | vshflu | vshfld | vshflx | vslide =>
    exact written_VR decodeWord_vxl rfl fun w hf hw => by
      obtain ⟨-, rfl, rfl, rfl, -⟩ := (encVR_eq_iff ..).1 hw
      rw [decodeVxl, hf]
      rfl
  | vredadd | vredmin | vredmax | vscan | vballot | vcmprs | vexpnd =>
    exact written_VR decodeWord_vxl rfl fun w hf hw => by
      simp at hw
      rw [decodeVxl, hf]
      exact ok_of_guard (by simp [← hw]) (by simp [← hw])
  | aadd | asub | amin | amax | aminu | amaxu | aand | aor | axor | axchg | afadd | afmin | afmax | aaddN | asubN
  | aminN | amaxN | aminuN | amaxuN | aandN | aorN | axorN | axchgN | afaddN | afminN | afmaxN =>
    exact written_X7 decodeWord_atom rfl fun w hf hw => by
      obtain ⟨-, rfl, rfl, rfl, -⟩ := (encX7_eq_iff ..).1 hw
      rw [decodeAtom, hf]
      rfl
  | acas | acasN =>
    have hr := of_decide_eq_true hi
    exact written_X7 decodeWord_atom rfl fun w hf hw => by
      simp at hw
      rw [decodeAtom, hf]
      exact ok_of_guard (by simpa [← hw] using hr) (by simp [← hw])
  | aaddScalar | asubScalar | aminScalar | amaxScalar | aminuScalar | amaxuScalar | aandScalar | aorScalar
  | axorScalar | axchgScalar | afaddScalar | afminScalar | afmaxScalar | aaddNScalar | asubNScalar | aminNScalar
  | amaxNScalar | aminuNScalar | amaxuNScalar | aandNScalar | aorNScalar | axorNScalar | axchgNScalar | afaddNScalar
  | afminNScalar | afmaxNScalar =>
    exact written_S3 decodeWord_satom rfl fun w hf hw => by
      simp at hw
      rw [decodeSatom, hf]
      exact ok_of_guard (by simp [← hw]) (by simp [← hw])
  | acasScalar | acasNScalar =>
    have hr := of_decide_eq_true hi
    exact written_S3 decodeWord_satom rfl fun w hf hw => by
      simp at hw
      rw [decodeSatom, hf]
      exact ok_of_guards (by simp [← hw]) (by simpa [← hw] using hr) (by simp [← hw])
  | fence | pref | flush | inv | pin | unpin | tset | tqry =>
    exact written_S3 decodeWord_memctl rfl fun w hf hw => by
      simp at hw
      rw [decodeMemctl, hf]
      exact ok_of_guard (by simp [← hw]) (by simp [← hw])
  | tdef =>
    exact written_S3 decodeWord_memctl rfl fun w hf hw => by
      obtain ⟨-, rfl, rfl, rfl, -⟩ := (encS3_eq_iff ..).1 hw
      rw [decodeMemctl, hf]
      rfl
  | tend | tabrt | retry | tstat | twatch | tdepth =>
    exact written_S3 decodeWord_txc rfl fun w hf hw => by
      simp at hw
      rw [decodeTxc, hf]
      exact ok_of_guard (by simp [← hw]) (by simp [← hw])
  | mma | mmaz | mmab | msca | mrd | mwr | mswap | mldb | mqry =>
    exact written_S3 decodeWord_mat rfl fun w hf hw => by
      simp at hw
      rw [decodeMat, hf]
      exact ok_of_guard (by simp [← hw]) (by simp [← hw])
  | mzero =>
    have hr := of_decide_eq_true hi
    exact written_S3 decodeWord_mat rfl fun w hf hw => by
      simp at hw
      rw [decodeMat, hf]
      exact ok_of_guards (by simp [← hw]) (by simpa [← hw] using hr) (by simp [← hw])
  | cpy | cpy2d | cgath | cscat | cfill | cpym =>
    have hr := of_decide_eq_true hi
    exact written_E decodeWord_copy rfl fun w hf hw => by
      simp at hw
      rw [decodeCopy, hf]
      exact ok_of_guard (by simpa [← hw] using hr) (by simp [← hw])
  | tlrd =>
    exact written_S3 decodeWord_timeline rfl fun w hf hw => by
      simp at hw
      rw [decodeTimeline, hf]
      exact ok_of_guard (by simp [← hw]) (by simp [← hw])
  | tlinc =>
    exact written_S3 decodeWord_timeline rfl fun w hf hw => by
      simp at hw
      rw [decodeTimeline, hf]
      exact (if_pos (by simp [← hw])).trans (ok_of_guard (by simp [← hw]) (by simp [← hw]))
  | tlincC =>
    exact written_S3 decodeWord_timeline rfl fun w hf hw => by
      simp at hw
      rw [decodeTimeline, hf]
      exact ((if_neg (by simp [← hw])).trans (if_pos (by simp [← hw]))).trans (ok_of_guard (by simp [← hw]) (by simp [← hw]))
  | xload | xdrop | xqry | xmark | xswap =>
    exact written_S3 decodeWord_churn rfl fun w hf hw => by
      simp at hw
      rw [decodeChurn, hf]
      exact ok_of_guard (by simp [← hw]) (by simp [← hw])
  | mrboard =>
    exact written_S3 decodeWord_milk rfl fun w hf hw => by
      simp at hw
      rw [decodeMilk, hf]
      exact (if_pos (by simp [← hw])).trans (by simp [← hw])
  | mrboardT =>
    exact written_S3 decodeWord_milk rfl fun w hf hw => by
      simp at hw
      rw [decodeMilk, hf]
      exact (if_neg (by simp [← hw])).trans (ok_of_guard (by simp [← hw]) (by simp [← hw]))
  | mrleave =>
    exact written_S3 decodeWord_milk rfl fun w hf hw => by
      simp at hw
      rw [decodeMilk, hf]
      exact (if_pos (by simp [← hw])).trans (ok_of_guard (by simp [← hw]) (by simp [← hw]))
  | mrleaveT =>
    exact written_S3 decodeWord_milk rfl fun w hf hw => by
      simp at hw
      rw [decodeMilk, hf]
      exact ((if_neg (by simp [← hw])).trans (if_pos (by simp [← hw]))).trans (ok_of_guard (by simp [← hw]) (by simp [← hw]))
  | mrstat =>
    exact written_S3 decodeWord_milk rfl fun w hf hw => by
      simp at hw
      rw [decodeMilk, hf]
      exact ok_of_guard (by simp [← hw]) (by simp [← hw])
  | tknew | tkpush | tkroute | tkhdr =>
    exact written_S3 decodeWord_token rfl fun w hf hw => by
      obtain ⟨-, rfl, rfl, rfl, -⟩ := (encS3_eq_iff ..).1 hw
      rw [decodeToken, hf]
      rfl
  | tkfree | tkpop | tkcancel | tkcnt =>
    exact written_S3 decodeWord_token rfl fun w hf hw => by
      simp at hw
      rw [decodeToken, hf]
      exact ok_of_guard (by simp [← hw]) (by simp [← hw])
  | comb | combRn =>
    have hr := of_decide_eq_true hi
    exact written_S3 decodeWord_token rfl fun w hf hw => by
      simp at hw
      rw [decodeToken, hf]
      exact ok_of_guard (by simpa [← hw] using hr) (by simp [← hw])
  | skput | skdrain =>
    have hr := of_decide_eq_true hi
    exact written_S3 decodeWord_token rfl fun w hf hw => by
      simp at hw
      rw [decodeToken, hf]
      exact ok_of_guards (by simp [← hw]) (by simpa [← hw] using hr) (by simp [← hw])
  | pksend =>
    have hr := of_decide_eq_true hi
    exact written_S3 decodeWord_bridge rfl fun w hf hw => by
      simp at hw
      rw [decodeBridge, hf]
      exact ok_of_guard (by simpa [← hw] using hr) (by simp [← hw])
  | tick =>
    exact written_S3 decodeWord_bridge rfl fun w hf hw => by
      simp at hw
      rw [decodeBridge, hf]
      exact ok_of_guard (by simp [← hw]) (by simp [← hw])
  | saddi | sandi | sori | sslti | sli | slui | slxi | br | call | brz | brnz | vbr | vld | vst | tbeg | orelse =>
    refine written_of rfl fun w hw => ?_
    simp at hw
    rw [decodeWord, extractLsb'_top, ← hw.1]
    show Except.ok _ = _
    simp [← hw]
  | sshli | ssrai | sshri | lpad | mode | reconv | jmpi | calli | vjmpi | sld | sst | sldw | sstw | vldx | vstx
  | tld | tst =>
    refine written_of rfl fun w hw => ?_
    simp at hw
    rw [decodeWord, extractLsb'_top, ← hw.1]
    exact ok_of_guard (by simp [← hw]) (by simp [← hw])
  | xop =>
    refine written_of rfl fun w hw => ?_
    simp [majorOf] at hw
    exact (if_pos (by simp [← hw])).trans (by simp [← hw])
  | _ => cases hw

/-- Settles O55: the words are closed terms, and the decoder is run on each. -/
theorem writtenWordsDecode : Obligations.WrittenWordsDecode := by
  unfold Obligations.WrittenWordsDecode
  and_intros <;> rfl

/-- Settles O56: by the group of the instruction, each field of its word being the slice that the decoder reads. -/
theorem decodingInvertsEncoding : Obligations.DecodingInvertsEncoding := by
  unfold Obligations.DecodingInvertsEncoding
  exact written_of_wellFormed

end Sys2Proof
end

section
/-! Predicate operations and the hard-wired registers (R79, R134), and the answer of every step (R8, R73). -/

namespace Sys2Proof.Machine

/-! ## Predicates -/

/-- An instruction whose meaning writes one predicate gives the result that the predicate holds. -/
theorem State.predDone_of {i : Instr} {s : State} {d : BitVec 3} {x y : Lane}
    (hi : exec i s = s.putPred d x) (h : x = y) : ∃ t, exec i s = .next t ∧ s.PredDone t d y := by
  rw [hi, h]
  exact s.putPred_done d y

/-- The set bits of a mask, counted lane by lane. -/
theorem countBits_toNat (m : Lane) : countBits 32 m.toNat = (List.range 32).countP (fun i => m.getLsbD i) :=
  countBits_eq 32 m.toNat

/-- Of a mask and its negation together the lowest set bit of the mask alone is set. -/
theorem getLsbD_and_neg (m : Lane) (i : Nat) (hi : i < 32) :
    (m &&& -m).getLsbD i = (m.getLsbD i && (List.range i).all (fun j => !m.getLsbD j)) := by
  rw [Bool.eq_iff_iff, BitVec.getLsbD_and, BitVec.getLsbD_neg]
  cases m.getLsbD i <;> simp [hi]

/-- Settles O2: every operation writes one register, and `s0` and `p0` are read and written as they are wired. -/
theorem predicateAndHardWiredResults : Obligations.PredicateAndHardWiredResults := by
  unfold Obligations.PredicateAndHardWiredResults
  refine ⟨fun s d a b r => ⟨?_, ?_, ?_, ?_, ?_, ?_, ?_, ?_, ?_⟩, fun s x m => ⟨?_, ?_, ?_, ?_⟩⟩
  · exact State.predDone_of rfl rfl
  · exact State.predDone_of rfl rfl
  · exact State.predDone_of rfl rfl
  · exact State.predDone_of rfl rfl
  · exact State.predDone_of rfl rfl
  · exact State.predDone_of rfl rfl
  · refine State.scalarDone_of rfl ?_
    rw [countBits_toNat]
    simp only [BitVec.getLsbD_and]
  · obtain ⟨t, ht, hd⟩ := s.putPred_done d ((s.getP a &&& s.fr.lmask) &&& -(s.getP a &&& s.fr.lmask))
    refine ⟨t, _, ht, hd, fun i hi => ?_⟩
    rw [getLsbD_and_neg _ i hi]
    simp only [BitVec.getLsbD_and]
  · exact State.predDone_of rfl (BitVec.ofNat_toNat ..).symm
  · exact s.fr.getS_zero
  · exact s.fr.getP_zero
  · exact congrArg s.setFr (s.fr.setS_zero x)
  · exact congrArg s.setFr (s.fr.setP_zero m)

/-! ## The answer of a step -/

/-- Every instruction and every step of the opcode table answers a next state: no arm of its meaning is a fault or a refusal. -/
theorem exec_answers (i : Instr) (s : State) : ∃ t, exec i s = .next t := by
  cases i <;> exact ⟨_, rfl⟩

/-- Settles O59: a move is done, or it runs an instruction or an event, which answers. -/
theorem everyStepAnswersNext : Obligations.EveryStepAnswersNext := by
  unfold Obligations.EveryStepAnswersNext
  intro s
  cases h : s.plan with
  | done t => exact ⟨t, step_of_done h⟩
  | event t i =>
    obtain ⟨u, hu⟩ := exec_answers i t
    exact ⟨u, (step_of_event h).trans hu⟩
  | word t w i =>
    obtain ⟨u, hu⟩ := exec_answers i (t.noteWord w)
    exact ⟨t.afterIssue (t.closeIssue u), by rw [step_of_word h, hu, State.finishIssue]⟩

end Sys2Proof.Machine
end

section
/-! Direct and indirect transfers, landing pads and the mode register (R78, R121 to R125, R138). -/

namespace Sys2Proof.Machine

/-- The target of a direct transfer is its own address and four times the signed offset (R69). -/
theorem State.target_eq {n : Nat} (s : State) (off : BitVec n) :
    s.target off = s.fr.pc + BitVec.ofInt 64 (4 * off.toInt) := by
  have hx : off.signExtend 64 = BitVec.ofInt 64 off.toInt := rfl
  rw [State.target, BitVec.ofInt_mul, hx]
  rfl

/-- The two low bits of an address are 0 where it is aligned to a word (R69). -/
theorem extractLsb'_low_eq_zero_iff (x : Word) : x.extractLsb' 0 2 = 0 ↔ x.toNat % 4 = 0 := by
  rw [← BitVec.toNat_inj]
  simp

section CheckTarget

variable {s : State} {t : Word} {kind : Nat} {tag : BitVec 13} {x : Place × Target} (ht : t.toNat % 4 = 0)
  (hx : s.xlateAll [t] .fetch = .ok [x]) (ha : s.allFetched s.waveOwner (wordPlaces x) = true)
  (hp : s.enginePoison s.waveOwner x = false)

include ht hx ha hp

/-- An aligned target that is fetched unpoisoned is checked for its landing pad alone (R124). -/
theorem State.checkTarget_of_fetched (lane : Nat) : s.checkTarget t kind tag lane
    = if landsOn (s.fetchWord x) kind tag = true then none else some (s.trap causeLANDING t lane 0) := by
  have hz := (extractLsb'_low_eq_zero_iff t).2 ht
  simp [State.checkTarget, hz, hx, ha, hp]

end CheckTarget

/-- Two words one after the other, as a number. -/
theorem toNat_append_eq {n m : Nat} (x : BitVec n) (y : BitVec m) : (x ++ y).toNat = x.toNat * 2 ^ m + y.toNat := by
  rw [BitVec.toNat_append, ← Nat.shiftLeft_add_eq_or_of_lt y.isLt, Nat.shiftLeft_eq]

/-- The fields of MR as one number (R78). -/
theorem modeWord_eq (order : BitVec 2) (scope : BitVec 3) (sat : BitVec 1) (round : BitVec 2) (etype guard : BitVec 4) :
    modeWord order scope sat round etype guard = BitVec.ofNat 25 (order.toNat * 2 ^ 14 + scope.toNat * 2 ^ 11
      + sat.toNat * 2 ^ 10 + round.toNat * 2 ^ 8 + etype.toNat * 2 ^ 4 + guard.toNat) := by
  have hz : (0 : BitVec 9).toNat = 0 := rfl
  apply BitVec.eq_of_toNat_eq
  simp only [modeWord, toNat_append_eq, hz, BitVec.toNat_ofNat]
  omega

/-! ## The transfers -/

section Indirect

variable {s : State} {a : BitVec 6} {tag : BitVec 13}

/-- An indirect jump whose target passes its checks is made (R125). -/
theorem execJmpi_of_passed (h : s.checkTarget (s.getS a) 13 tag 0 = none) : execJmpi a tag s = .next (s.goTo (s.getS a)) := by
  rw [execJmpi, h]

/-- An indirect jump whose target fails a check ends as the check does (R124). -/
theorem execJmpi_of_failed {t : State} (h : s.checkTarget (s.getS a) 13 tag 0 = some t) : execJmpi a tag s = .next t := by
  rw [execJmpi, h]

/-- An indirect call whose target passes its checks is made (R125). -/
theorem execCalli_of_passed (h : s.checkTarget (s.getS a) 14 tag 0 = none) :
    execCalli a tag s = .next (s.callTo (s.getS a)) := by
  rw [execCalli, h]

/-- An indirect call whose target fails a check ends as the check does (R124). -/
theorem execCalli_of_failed {t : State} (h : s.checkTarget (s.getS a) 14 tag 0 = some t) : execCalli a tag s = .next t := by
  rw [execCalli, h]

end Indirect

/-- The direct transfers move the program counter, and a call notes where it came from (R121). -/
theorem directTransfers_eq (s : State) (d : BitVec 6) (off25 : BitVec 25) (off19 : BitVec 19) :
    execBr off25 s = .next (s.goTo (s.fr.pc + BitVec.ofInt 64 (4 * off25.toInt)))
    ∧ execCall off25 s = .next (s.callTo (s.fr.pc + BitVec.ofInt 64 (4 * off25.toInt)))
    ∧ execBrz d off19 s = .next (s.goTo
        (if s.getS d = 0 then s.fr.pc + BitVec.ofInt 64 (4 * off19.toInt) else s.fr.pc + 4))
    ∧ execBrnz d off19 s = .next (s.goTo
        (if s.getS d ≠ 0 then s.fr.pc + BitVec.ofInt 64 (4 * off19.toInt) else s.fr.pc + 4)) := by
  rw [execBr, execCall, execBrz, execBrnz, s.target_eq, s.target_eq, State.advance]
  refine ⟨rfl, rfl, ?_, ?_⟩
  · split <;> rfl
  · rw [ite_not]
    split <;> rfl

/-- Settles O3: each transfer by its own equation, an indirect one by the check of its target. -/
theorem transferAndModeResults : Obligations.TransferAndModeResults := by
  unfold Obligations.TransferAndModeResults
  refine ⟨fun s d off25 off19 _ _ _ _ => ?_, fun s a tag x ht hx ha hp => ⟨?_, ?_, ?_, ?_⟩,
    fun s order scope sat round etype guard => ⟨?_, ?_⟩⟩
  · obtain ⟨hbr, hcall, hbrz, hbrnz⟩ := directTransfers_eq s d off25 off19
    exact ⟨hbr, hcall, hbrz, hbrnz, rfl⟩
  · intro hl
    exact execJmpi_of_passed (by rw [State.checkTarget_of_fetched ht hx ha hp, if_pos hl])
  · intro hl
    exact execCalli_of_passed (by rw [State.checkTarget_of_fetched ht hx ha hp, if_pos hl])
  · intro hl hf
    exact ⟨_, execJmpi_of_failed (by rw [State.checkTarget_of_fetched ht hx ha hp, if_neg (by simp [hl])]),
      s.trap_trapped causeLANDING _ _ _ hf⟩
  · intro hl hf
    exact ⟨_, execCalli_of_failed (by rw [State.checkTarget_of_fetched ht hx ha hp, if_neg (by simp [hl])]),
      s.trap_trapped causeLANDING _ _ _ hf⟩
  · intro hs
    show execMode order scope sat round etype guard s = _
    rw [execMode, if_neg (by omega), modeWord_eq, State.advance, State.fr_setFr, State.setFr_setFr]
  · intro hs hf
    refine ⟨_, ?_, s.trap_trapped causeILL 0 0 0 hf⟩
    show execMode order scope sat round etype guard s = _
    rw [execMode, if_pos hs]

end Sys2Proof.Machine
end

section
/-! Taking a trap: what trap entry saves, and what a second cause leaves (R80 to R84, R143, R145, R221). -/

namespace Sys2Proof.Machine

/-! ## Trap entry outside a trap -/

/-- The state after a trap has been entered: the saved registers written, MR cleared, PC at the handler (R143). -/
def State.entered (s : State) (cause cls detail : Nat) (tpc taddr tinfo : Word) : State :=
  (s.setWv { s.wv with
      tcause := tcauseOf s.fr.mr detail cls cause, tpc := tpc, taddr := taddr, tinfo := tinfo,
      handler := some s.cur.frag }).setFr
    { s.fr with mr := 0, pc := s.wv.tvec + BitVec.ofNat 64 (64 * cls) }

/-- The other waves of the task held where a trap of the debug class finds HOLD set (R147). -/
def State.heldByTrap (s : State) (cls : Nat) : State :=
  if cls = 2 ∧ s.wv.dbgHold then s.placeHold (s.siblings s.cur) s.cur.wave else s

/-- Entering a trap leaves DBG as it was. -/
theorem State.entered_dbgHold (s : State) (cause cls detail : Nat) (tpc taddr tinfo : Word) :
    (s.entered cause cls detail tpc taddr tinfo).wv.dbgHold = s.wv.dbgHold := by
  rw [State.entered, State.wv_setFr, State.wv_setWv]

section Entry

variable {s : State} (ha : s.wv.active = false) (cause cls : Nat) (tpc taddr tinfo : Word) (detail : Nat)

include ha

/-- Outside a trap and an attempt a cause is entered as the state stands (R143). -/
theorem State.trapEntry_of_trapFree (ht : s.inTx = false) : s.trapEntry s.cur cause cls tpc taddr tinfo detail
    = (s.entered cause cls detail tpc taddr tinfo).heldByTrap cls := by
  unfold State.inTx at ht
  unfold State.trapEntry
  rw [State.wvOf_cur, if_neg (by simp [ha])]
  cases hx : s.wv.tx with
  | none =>
    simp only [State.heldByTrap, State.entered_dbgHold, State.wvOf_setWvOf, State.frOf_setWvOf, State.wvOf_setFrOf]
    rfl
  | some a =>
    have ho : a.owner ≠ s.cur.frag := by simpa [hx] using ht
    simp only [if_neg ho, State.heldByTrap, State.entered_dbgHold, State.wvOf_setWvOf, State.frOf_setWvOf,
      State.wvOf_setFrOf]
    rfl

/-- Inside an attempt a cause is entered after the attempt has been abandoned with status trap, and the handler of the attempt
is saved in the place of the address (R82, R221). -/
theorem State.trapEntry_of_attempt {a : Attempt} {u : State} (hx : s.wv.tx = some a) (ho : a.owner = s.cur.frag)
    (hu : s.abandon s.cur 5 0 s.fr.pc 0 = u) (hc : u.cur = s.cur) :
    s.trapEntry s.cur cause cls tpc taddr tinfo detail
      = (u.entered cause cls detail a.handler taddr tinfo).heldByTrap cls := by
  unfold State.trapEntry
  rw [State.wvOf_cur, if_neg (by simp [ha]), hx]
  simp only [if_pos ho, State.frOf_cur, hu]
  simp only [← hc, State.heldByTrap, State.entered_dbgHold, State.wvOf_setWvOf, State.frOf_setWvOf, State.wvOf_setFrOf]
  rfl

end Entry

/-- A trap of another class than debug, or one under DBG.HOLD 0, holds no wave. -/
theorem State.heldByTrap_of_off {s : State} {cls : Nat} (h : cls ≠ 2 ∨ s.wv.dbgHold = false) : s.heldByTrap cls = s := by
  rw [State.heldByTrap, if_neg]
  rcases h with h | h <;> simp [h]

/-! ## The fields of the trap registers -/

/-- The number that TCAUSE holds after trap entry, field by field (R81). -/
theorem tcauseOf_fields (mr : BitVec 25) {detail cls cause : Nat} (hd : detail < 256) (hl : cls < 4) (hc : cause < 256)
    (x : Word) (hx : x = tcauseOf mr detail cls cause) :
    fieldOf x 56 32 = mr.toNat ∧ fieldOf x 23 16 = detail ∧ x.getLsbD 15 = true ∧ fieldOf x 9 8 = cls
      ∧ fieldOf x 7 0 = cause ∧ fieldOf x 63 57 = 0 ∧ fieldOf x 31 24 = 0 ∧ fieldOf x 14 10 = 0 := by
  have hm : mr.toNat < 2 ^ 25 := mr.isLt
  subst hx
  rw [tcauseOf]
  have hn : mr.toNat * 2 ^ 32 + detail * 2 ^ 16 + 2 ^ 15 + cls * 2 ^ 8 + cause < 2 ^ 64 := by omega
  simp only [fieldOf_ofNat _ _ _ hn]
  refine ⟨?_, ?_, getLsbD_ofNat_of_bit _ 15 true (by decide) ?_, ?_, ?_, ?_, ?_, ?_⟩
  case refine_3 => rw [Bool.toNat_true]; omega
  all_goals omega

/-- The fields of TINFO: the word and the lane (R80). -/
theorem State.tinfoWord_fields (s : State) {lane : Nat} (h : lane < 32) :
    fieldOf (s.tinfoWord lane) 31 0 = s.fr.word.toNat ∧ fieldOf (s.tinfoWord lane) 36 32 = lane
      ∧ fieldOf (s.tinfoWord lane) 63 37 = 0 := by
  have hw : s.fr.word.toNat < 2 ^ 32 := s.fr.word.isLt
  have hn : s.fr.word.toNat + lane % 32 * 2 ^ 32 < 2 ^ 64 := by omega
  simp only [State.tinfoWord, fieldOf_ofNat _ _ _ hn]
  omega

/-! ## A cause while a trap is active -/

/-- A record whose cause is none of those that merge, made by a fragment, merges with none (R201). -/
theorem FaultRecord.merges_eq_false {a b : FaultRecord} (hc : b.cause ∉ mergingCauses) (hg : b.agent = 0) :
    a.merges b = false := by
  have h20 : b.cause ≠ 0x20 := fun h => hc (by rw [h]; decide)
  have h21 : b.cause ≠ 0x21 := fun h => hc (by rw [h]; decide)
  by_cases ha : a.cause ∈ mergingCauses
  · have hne : a.cause ≠ b.cause := fun h => hc (h ▸ ha)
    by_cases h3 : a.agent = 3 <;> simp [FaultRecord.merges, hg, h3, h20, h21, hne]
  · simp [FaultRecord.merges, ha]

/-- A record that merges with none is listed last, under a number of its own (R201). -/
theorem State.postRecord_of_unmerged (s : State) {r : FaultRecord} (h : ∀ x : FaultRecord, x.merges r = false) :
    s.postRecord r = ({ s with records := s.records ++
      [{ r with id := s.nextRecord, posted := decide (s.outstanding (r.core / 32) < 1024), arisen := s.tick }] },
      s.nextRecord) := by
  rw [State.postRecord, List.find?_eq_none.2 (fun x _ => by simp [h x])]

/-- A cause that arises while a trap is active suspends the fragment on a record of its own, and nothing else differs (R84). -/
theorem State.trapEntry_of_active {s : State} (ha : s.wv.active = true) {cause : Nat} (hc : cause ∉ mergingCauses)
    (cls : Nat) (tpc taddr tinfo : Word) (detail : Nat) :
    ∃ t r, s.trapEntry s.cur cause cls tpc taddr tinfo detail = t ∧ r ∈ t.records ∧ r.cause = cause ∧ r.va = taddr
      ∧ s.cur ∈ r.suspended ∧ t.fr = { s.fr with status := .suspended r.id }
      ∧ t = { s with records := t.records, frags := t.frags } := by
  rw [State.trapEntry, State.wvOf_cur, if_pos ha, State.suspend, State.suspendOn,
    s.postRecord_of_unmerged (fun _ => FaultRecord.merges_eq_false hc rfl)]
  exact ⟨_, _, rfl, List.mem_append_right _ (List.mem_singleton.2 rfl), rfl, rfl, List.mem_singleton.2 rfl,
    State.fr_setFr .., rfl⟩

/-! ## A trap inside an attempt -/

/-- Abandoning an attempt that has acquired no register blocks drops it, restores the fragment, leaves memory and returns
nothing (R222). -/
theorem State.abandon_of_sameBlocks {s : State} {a : Attempt} (hx : s.wv.tx = some a) (hr : s.wv.rblk = a.checkpoint.rblk)
    (status code : Nat) (addr1 addr2 : Word) :
    ∃ u, s.abandon s.cur status code addr1 addr2 = u ∧ u.cur = s.cur ∧ u.mem = s.mem ∧ u.wv.tx = none
      ∧ u.wv.dbgHold = s.wv.dbgHold ∧ u.wv.tvec = s.wv.tvec ∧ u.fr.txStatus = status ∧ u.fr.s = a.checkpoint.s
      ∧ u.fr.p = a.checkpoint.p ∧ u.fr.lmask = a.checkpoint.lmask ∧ u.fr.depth = a.checkpoint.depth := by
  have hb : s.wv.rblk - a.checkpoint.rblk = 0 := by rw [hr, Nat.sub_self]
  refine ⟨_, rfl, ?_⟩
  simp only [State.abandon, State.dropAttempt, State.wvOf_cur, hx, hb, State.returnBlocks, if_pos]
  refine ⟨rfl, rfl, ?_, ?_, ?_, ?_, ?_, ?_, ?_, ?_⟩
  all_goals simp only [State.setWvOf, State.setFrOf, State.wv, State.fr, getAt_putAt_same]
  all_goals rfl

/-! ## Settling -/

/-- What the saved registers and the fragment hold after a trap has been entered (R80, R81, R143). -/
theorem State.Trapped.fields {s t : State} {cause cls detail lane : Nat} {tpc taddr : Word} (hc : cause < 256) (hl : cls < 4)
    (hd : detail < 256) (hn : lane < 32) (h : s.Trapped t cause cls detail tpc taddr (s.tinfoWord lane)) :
    fieldOf t.wv.tcause 56 32 = s.fr.mr.toNat ∧ fieldOf t.wv.tcause 23 16 = detail ∧ t.wv.active = true
      ∧ fieldOf t.wv.tcause 9 8 = cls ∧ fieldOf t.wv.tcause 7 0 = cause ∧ fieldOf t.wv.tcause 63 57 = 0
      ∧ fieldOf t.wv.tcause 31 24 = 0 ∧ fieldOf t.wv.tcause 14 10 = 0
      ∧ fieldOf t.wv.tinfo 31 0 = s.fr.word.toNat ∧ fieldOf t.wv.tinfo 36 32 = lane ∧ fieldOf t.wv.tinfo 63 37 = 0
      ∧ t.wv.tpc = tpc ∧ t.wv.taddr = taddr ∧ t.fr.mr = 0
      ∧ t.fr.lmask = s.fr.lmask ∧ t.fr.depth = s.fr.depth ∧ t.fr.s = s.fr.s ∧ t.fr.p = s.fr.p
      ∧ t.wv.stack = s.wv.stack ∧ s.MemSame t := by
  replace h : t = s.entered cause cls detail tpc taddr (s.tinfoWord lane) := h
  obtain ⟨hmr, hdet, hact, hcls, hcau, h63, h31, h14⟩ := tcauseOf_fields s.fr.mr hd hl hc _ rfl
  obtain ⟨hword, hlane, h37⟩ := s.tinfoWord_fields hn
  subst h
  simp only [State.entered, State.wv_setFr, State.wv_setWv, State.fr_setFr, Wave.active, true_and]
  exact ⟨hmr, hdet, hact, hcls, hcau, h63, h31, h14, hword, hlane, h37, fun _ => rfl⟩

/-- A `brk` inside an attempt that has acquired no register blocks: the attempt is gone, its checkpoint is back, and the trap
returns to its handler (R82, R143, R221). -/
theorem State.brk_in_attempt {s : State} {a : Attempt} (ha : s.wv.active = false) (hx : s.wv.tx = some a)
    (ho : a.owner = s.cur.frag) (hr : s.wv.rblk = a.checkpoint.rblk) (hh : s.wv.dbgHold = false) (taddr tinfo : Word) :
    ∃ u : State, s.trapEntry s.cur causeBRK 2 s.fr.pc taddr tinfo 0 = u.entered causeBRK 2 0 a.handler taddr tinfo
      ∧ u.mem = s.mem ∧ u.wv.tx = none ∧ u.wv.tvec = s.wv.tvec ∧ u.fr.txStatus = 5 ∧ u.fr.s = a.checkpoint.s
      ∧ u.fr.p = a.checkpoint.p ∧ u.fr.lmask = a.checkpoint.lmask ∧ u.fr.depth = a.checkpoint.depth := by
  obtain ⟨u, hu, hc, hm, htx, hhold, hrest⟩ := State.abandon_of_sameBlocks hx hr 5 0 s.fr.pc 0
  have hoff : (u.entered causeBRK 2 0 a.handler taddr tinfo).wv.dbgHold = false := by
    rw [State.entered_dbgHold, hhold, hh]
  refine ⟨u, ?_, hm, htx, hrest⟩
  rw [State.trapEntry_of_attempt ha causeBRK 2 s.fr.pc taddr tinfo 0 hx ho hu hc, State.heldByTrap_of_off (Or.inr hoff)]

/-- Settles O8: trap entry by the three states it can find: no trap and no attempt, a trap, an attempt. -/
theorem takingATrap : Obligations.TakingATrap := by
  unfold Obligations.TakingATrap
  refine ⟨fun s code word ⟨ha, ht⟩ => ⟨?_, ?_, fun hh => ?_, fun hh => ?_⟩,
    fun _ _ _ _ _ _ _ _ hc hl hd hn h => State.Trapped.fields hc hl hd hn h,
    fun s code word ha => ⟨?_, ?_, ?_, fun hp => ?_⟩, fun s code a ha hx ho hr hh => ?_⟩
  · refine ⟨_, ?_, rfl⟩
    show execTrap code s = _
    rw [execTrap, if_neg (by simp [ha]), State.trapEntry_of_trapFree ha _ _ _ _ _ _ ht,
      State.heldByTrap_of_off (Or.inl (by decide))]
    rfl
  · refine ⟨_, ?_, rfl⟩
    show execIllegalInstruction word s = _
    rw [execIllegalInstruction, State.trapEntry_of_trapFree ha _ _ _ _ _ _ ht,
      State.heldByTrap_of_off (Or.inl (by decide)), ← BitVec.ofNat_toNat]
    rfl
  · exact ⟨_, rfl, s.trapEntry_trapped causeBRK 2 _ _ _ _ ⟨ha, ht⟩ hh⟩
  · refine ⟨_, s.entered causeBRK 2 0 s.fr.pc 0 (s.tinfoWord 0), ?_, rfl, rfl⟩
    show execBrk code s = _
    rw [execBrk, State.trapEntry_of_trapFree ha _ _ _ _ _ _ ht, State.heldByTrap,
      if_pos ⟨rfl, by rw [State.entered_dbgHold, hh]⟩]
    rfl
  · obtain ⟨t, r, he, hr, hc, -, hrest⟩ :=
      State.trapEntry_of_active ha (show causeBRK ∉ mergingCauses by decide) 2 s.fr.pc 0 (s.tinfoWord 0) 0
    exact ⟨t, r, congrArg _ he, hr, hc, hrest⟩
  · obtain ⟨t, r, he, hr, hc, -, hs, hf, ht⟩ := State.trapEntry_of_active (s := s.advance) ha
      (show causeTRAP ∉ mergingCauses by decide) 0 (s.fr.pc + 4) 0 (s.tinfoWord 0) 0
    refine ⟨t, r, ?_, hr, hc, hs, ?_, ht⟩
    · show execTrap code s = _
      rw [execTrap, if_pos ha]
      exact congrArg _ he
    · rw [hf, State.fr_advance]
  · obtain ⟨t, r, he, hr, hc, -, hrest⟩ :=
      State.trapEntry_of_active ha (show causeILL ∉ mergingCauses by decide) 0 s.fr.pc 0 (word.setWidth 64) 0
    exact ⟨t, r, congrArg _ he, hr, hc, hrest⟩
  · obtain ⟨t, r, he, hr, hc, hv, hrest⟩ := State.trapEntry_of_active ha
      (show causeLANDING ∉ mergingCauses by decide) 0 s.fr.pc s.wv.tpc (s.tinfoWord 0) 0
    refine ⟨t, r, ?_, hr, hc, hv, hrest⟩
    show execRtt s = _
    rw [execRtt, if_neg (by simp [ha]), if_pos (fun h => hp ((extractLsb'_low_eq_zero_iff _).1 h))]
    exact congrArg _ he
  · obtain ⟨u, hu, hm, htx, hv, hst, hs, hpr, hl, hd⟩ := State.brk_in_attempt ha hx ho hr hh 0 (s.tinfoWord 0)
    obtain ⟨-, -, hact, hcls, hcau, -⟩ := tcauseOf_fields u.fr.mr (show 0 < 256 by decide) (show 2 < 4 by decide)
      (show causeBRK < 256 by decide) _ rfl
    refine ⟨_, congrArg Host.Outcome.next hu, ?_⟩
    simp only [State.entered, State.wv_setFr, State.wv_setWv, State.fr_setFr, Wave.active, true_and]
    exact ⟨htx, hact, hcau, hcls, hst, by rw [hv]; rfl, hs, hpr, hl, hd, fun p => congrArg (·.readByte p) hm⟩

end Sys2Proof.Machine
end

section
/-! Fences and cache control: what passes, and that no value changes (R106, R196). -/

namespace Sys2Proof.Machine

/-! ## fence -/

/-- With no access on its way, the marks of a fence have nothing to stay behind (R106). -/
theorem State.markFence_of_idle {s : State} (h : s.accesses = []) (kinds : List Nat) : s.markFence kinds = s := by
  induction kinds with
  | nil => rfl
  | cons k ks ih =>
    have hmark : dropFences (s.accesses ++ [s.newAccess .here (.fence k) 0]) = s.accesses := by rw [h]; rfl
    have hone : ({ s with accesses := dropFences (s.accesses ++ [s.newAccess .here (.fence k) 0]) } : State) = s := by
      rw [hmark]
    rw [State.markFence, List.foldl_cons, hone]
    exact ih

/-- `fence` passes where no access is on its way, or an attempt is open (R106, R218). -/
theorem exec_fence_of_idle {s : State} (h : s.accesses = [] ∨ s.inTx = true) (k : BitVec 2) :
    exec (.fence k) s = .next s.advance := by
  show execFence k s = _
  unfold execFence
  split
  · rfl
  · next hp => rw [State.markFence_of_idle (h.resolve_right (by simp_all))]

/-! ## An access that can be performed -/

/-- An access whose bytes can be reached, and that reads no poison, does what it does where the bytes lie (R99, R116). -/
theorem State.performOp_of_reached {s : State} {a : Access}
    (hk : ∀ k ∈ a.op.keys, s.lineLost k = false ∧ s.linePinned k = true)
    (hp : s.readsPoison { a with op := s.redirect a.op } = none) :
    s.performOp a = s.applyOp { a with op := s.redirect a.op } := by
  have hlost : ¬ a.op.keys.any s.lineLost = true := by
    simpa using fun k h => (hk k h).1
  have hpin : ¬ (!a.op.keys.all s.linePinned) = true := by
    simpa using fun k h => (hk k h).2
  simp only [State.performOp, if_neg hlost, if_neg hpin, hp]

/-! ## A flush that nothing holds up -/

/-- The places of the line of a byte of HBM are no scratchpad bytes. -/
theorem key_lt_of_mem_linePlaces {p q : Place} (hp : isHbm p.key = true) (hq : q ∈ linePlaces p) :
    q.key < scratchBase := by
  obtain ⟨i, hi, rfl⟩ := List.mem_map.1 hq
  have hi := List.mem_range.1 hi
  have hp : p.key ≤ 0x12A05F1FFFF := by simpa [isHbm] using hp
  show p.key / 512 * 512 + i < scratchBase
  unfold scratchBase
  omega

section Plain

variable {s : State} {ps : List Place} (hps : ∀ q ∈ ps, q.key < scratchBase)

include hps

/-- Bytes that are not the scratchpad's lie in no save image. -/
theorem State.imageChip_flush_of_plain : s.imageChip (.flush ps) = none := by
  unfold State.imageChip AccessOp.places
  cases ps with
  | nil => rfl
  | cons p rest => simp [State.imageOf, hps p List.mem_cons_self]

/-- Performing a flush of bytes that are not the scratchpad's changes nothing (R196). -/
theorem State.performOp_flush {a : Access} (ha : a.op = .flush ps) : s.performOp a = s := by
  rw [State.performOp_of_reached]
  · simp [State.applyOp, State.redirect, ha, AccessOp.mapPlaces]
  · rw [ha]
    intro k hk
    obtain ⟨q, hq, rfl⟩ := List.mem_map.1 hk
    rw [State.lineLost, State.linePinned, if_pos (hps q hq), if_pos (hps q hq)]
    exact ⟨rfl, rfl⟩
  · simp [State.readsPoison, State.redirect, ha, AccessOp.mapPlaces, AccessOp.isRead]

/-- Where nothing stands before it, an instruction that only flushes bytes that are not the scratchpad's passes (R196). -/
theorem State.issueParts_flush (h : s.Clear) (kind : Nat) :
    s.issueParts [{ target := .here, op := .flush ps, kind := kind }] = s.advance := by
  obtain ⟨-, -, hdef, hacc, hready, hbr, -, -⟩ := h
  have hroute : s.routePart { target := .here, op := .flush ps, kind := kind }
      = { target := .here, op := .flush ps, kind := kind } := by
    rw [State.routePart, State.imageChip_flush_of_plain hps]
  have hforce : ∀ part, s.forceParts [part] = some s := fun part => by
    simp [State.forceParts, State.forceFor, hacc, neededFor, State.forceAll]
  have hcut : ∀ parts, s.pathCut parts = none := fun parts => by
    simp [State.pathCut, State.cutDie, State.cutBetween, hbr]
  have hissue : s.issuePart false { target := .here, op := .flush ps, kind := kind } = s := by
    simp only [State.issuePart, hroute, hacc, List.filter_nil, State.forceAll, State.staysOut, hdef, Bool.false_and]
    exact State.performOp_flush hps rfl
  have hsend : s.sendParts [{ target := .here, op := .flush ps, kind := kind }] = s.advance := by
    simp [State.sendParts, State.waitsFor, AccessOp.returns, hissue, hready]
  simp [State.issueParts, hroute, atomicsAway, State.allFetched, State.unread, State.fetchOut, hacc, hforce,
    State.movedOn, State.remoteRoom, Part.isRemote, hcut, State.badPart, AccessOp.returns, AccessOp.isRead,
    Part.awayAtomic, hsend]

end Plain

/-! ## flush and inv -/

/-- Abandoning an attempt that has acquired no register blocks takes the fragment to its handler (R222). -/
theorem State.pc_abandon_of_sameBlocks {s : State} {a : Attempt} (hx : s.wv.tx = some a)
    (hr : s.wv.rblk = a.checkpoint.rblk) (status code : Nat) (addr1 addr2 : Word) :
    (s.abandon s.cur status code addr1 addr2).fr.pc = a.handler := by
  have hb : s.wv.rblk - a.checkpoint.rblk = 0 := by rw [hr, Nat.sub_self]
  simp only [State.abandon, State.dropAttempt, State.wvOf_cur, hx, hb, State.returnBlocks, if_pos]
  simp only [State.setWvOf, State.setFrOf, State.fr, getAt_putAt_same]
  rfl

/-- Outside an attempt, `flush` and `inv` of an address of the scratch window pass (R196). -/
theorem State.cacheControl_of_window {s : State} {va : Word} (h : s.inTx = false) (hlo : windowBase ≤ va.toNat)
    (hhi : va.toNat < 2 ^ 49) : s.cacheControl va = s.advance := by
  rw [State.cacheControl, if_neg (by simp [h]), if_pos ⟨hlo, hhi⟩]

/-- With nothing before them in the way, `flush` and `inv` of an address that may be read pass (R196). -/
theorem State.cacheControl_of_readable {s : State} {va : Word} {x : Place × Target} (h : s.Clear)
    (hx : s.xlate va .read = .ok x) : s.cacheControl va = s.advance := by
  obtain ⟨p, target⟩ := x
  have htx : s.inTx = false := h.2.1
  rw [State.cacheControl, if_neg (by simp [htx]), hx]
  split
  · rfl
  · dsimp only
    split
    · next hbm =>
      have hp : isHbm p.key = true := (Bool.and_eq_true _ _ ▸ hbm).2
      exact State.issueParts_flush (fun q hq => key_lt_of_mem_linePlaces hp hq) h _
    · rfl

/-- In an attempt that has acquired no register blocks, `flush` and `inv` abandon it with status unsupported, and the fragment
goes on at the handler (R213, R222). -/
theorem State.cacheControl_of_attempt {s : State} {t : Attempt} (ht : s.wv.tx = some t) (ho : t.owner = s.cur.frag)
    (hr : s.wv.rblk = t.checkpoint.rblk) (va : Word) :
    ∃ u, s.cacheControl va = u ∧ u.wv.tx = none ∧ u.fr.txStatus = 6 ∧ u.fr.pc = t.handler ∧ s.MemSame u := by
  have hin : s.inTx = true := by simp [State.inTx, ht, ho]
  have hab : s.cacheControl va = s.abandon s.cur 6 0 s.fr.pc 0 := by
    rw [State.cacheControl, if_pos hin]; rfl
  obtain ⟨u, hu, -, hm, htx, -, -, hst, -⟩ := State.abandon_of_sameBlocks ht hr 6 0 s.fr.pc 0
  exact ⟨u, hab.trans hu, htx, hst, hu ▸ State.pc_abandon_of_sameBlocks ht hr 6 0 s.fr.pc 0, fun p => by rw [hm]⟩

/-- Settles O24: `fence`, `pref`, and `flush` and `inv` in the three places where they can stand. -/
theorem fenceAndCacheControl : Obligations.FenceAndCacheControl := by
  unfold Obligations.FenceAndCacheControl
  intro s a k own lvl x
  refine ⟨fun h => exec_fence_of_idle h k, rfl, fun hc hx => ?_, fun hin hlo hhi => ?_, fun t ht ho hr i hi => ?_⟩
  · have h := State.cacheControl_of_readable hc hx
    exact ⟨congrArg _ h, congrArg _ h⟩
  · have h := State.cacheControl_of_window hin hlo hhi
    exact ⟨congrArg _ h, congrArg _ h⟩
  · obtain ⟨u, hu, h⟩ := State.cacheControl_of_attempt ht ho hr (s.getS a)
    rcases List.mem_pair.1 hi with rfl | rfl
    · exact ⟨u, congrArg _ hu, h⟩
    · exact ⟨u, congrArg _ hu, h⟩

end Sys2Proof.Machine
end

section
/-! Timeline counters: how the value moves, and what `tlrd`, `tlinc` and `tlinc.c` do (R111, R264 to R266). -/

namespace Sys2Proof.Machine

/-! ## Numbers that complete -/

/-- The next number, once completed, is the value (R111). -/
theorem Timeline.runOne_of_next {t : Timeline} (h : t.value + 1 ∈ t.done) :
    t.runOne = { t with value := t.value + 1, done := t.done.filter (fun k => decide (k ≠ t.value + 1)) } := by
  rw [Timeline.runOne, if_pos (by simpa using h)]

/-- A counter whose next number has neither completed nor failed stays as it is (R111). -/
theorem Timeline.runOne_of_waiting {t : Timeline} (hd : t.value + 1 ∉ t.done) (hf : t.fails = []) : t.runOne = t := by
  rw [Timeline.runOne, if_neg (by simpa using hd), if_neg (by simp [hf])]

section Completes

variable {t : Timeline} (hd : t.done = []) (hf : t.fails = [])

include hd

/-- With none waiting, a number that completes is looked for twice. -/
theorem Timeline.complete_of_none (n : Nat) : t.complete n = ({ t with done := [n] } : Timeline).runOne.runOne := by
  simp [Timeline.complete, Timeline.run, hd, List.range_succ]

include hf

/-- With none waiting, the next number to complete becomes the value (R111, R264). -/
theorem Timeline.complete_next : t.complete (t.value + 1) = { t with value := t.value + 1, done := [] } := by
  have hone : ({ t with done := [t.value + 1] } : Timeline).runOne = { t with value := t.value + 1, done := [] } := by
    rw [Timeline.runOne_of_next List.mem_cons_self]
    simp
  rw [Timeline.complete_of_none hd, hone]
  exact Timeline.runOne_of_waiting List.not_mem_nil hf

/-- With none waiting, a number that is not the next waits (R111, R264). -/
theorem Timeline.complete_waits {n : Nat} (hn : n ≠ t.value + 1) : t.complete n = { t with done := [n] } := by
  have hone : ({ t with done := [n] } : Timeline).runOne = { t with done := [n] } :=
    Timeline.runOne_of_waiting (by simpa using fun h => hn h.symm) hf
  rw [Timeline.complete_of_none hd, hone, hone]

/-- Two numbers that complete in the wrong order both count once the first has completed (R111). -/
theorem Timeline.value_complete_swapped :
    ((t.complete (t.value + 2)).complete (t.value + 1)).value = t.value + 2 := by
  rw [Timeline.complete_waits hd hf (by omega)]
  simp [Timeline.complete, Timeline.run, Timeline.runOne, List.range_succ, hf]

end Completes

/-! ## A counter of a slot -/

/-- What an operator holds on a core with one counter replaced. -/
def Seat.withCounter (q : Seat) (k : Nat) (t : Timeline) : Seat :=
  { q with counters := q.counters.setIfInBounds k t }

/-- A counter replaced while no attempt is open: the notices to its watchers are all that differs besides (R264). -/
theorem State.setCounter_of_noAttempt {s : State} (h : s.attempts = []) (oper core k : Nat) (t : Timeline) :
    ∃ ns, s.setCounter oper core k t
      = { s.setSeatOf oper core ((s.seatOf oper core).withCounter k t) with notices := ns } := by
  let s1 := s.setSeatOf oper core ((s.seatOf oper core).withCounter k t)
  by_cases hsame : (s.counter oper core k).value = t.value ∧ (s.counter oper core k).error = t.error
  · exact ⟨s.notices, if_pos hsame⟩
  · obtain ⟨ns, hn⟩ := s1.writeWord_of_noAttempt h (.counter core (s.seatOf oper core).slot k)
    exact ⟨ns, (if_neg hsame).trans hn⟩

/-- A counter of a slot, once replaced, reads as replaced. -/
theorem State.counter_of_withCounter {s u : State} {oper core k : Nat} {q : Seat} {t : Timeline} (hk : k < 16)
    (hu : u.seats = (s.setSeatOf oper core (q.withCounter k t)).seats) : u.counter oper core k = t := by
  rw [State.counter, State.seatOf, hu, ← State.seatOf, State.seatOf_setSeatOf]
  simp [Seat.withCounter, List.getD, hk]

/-- The state differs in what operators hold on cores, tile entries and notices to watchers alone. -/
def State.OnlySlots (s u : State) : Prop := u = { s with seats := u.seats, tiles := u.tiles, notices := u.notices }

/-- The error of a counter cleared while no attempt is open: the counter, and what else may differ (R266). -/
theorem State.clearCounter_of_noAttempt {s : State} (h : s.attempts = []) (oper core : Nat) {k : Nat} (hk : k < 16)
    (he : (s.counter oper core k).error = true) :
    (s.clearCounter oper core k).counter oper core k = (s.counter oper core k).clear
      ∧ s.OnlySlots (s.clearCounter oper core k) := by
  rw [State.clearCounter, if_pos he]
  dsimp only
  generalize hs1 : ({ s with tiles := _ } : State) = s1
  have h1 : s1.attempts = [] := by rw [← hs1]; exact h
  obtain ⟨n2, h2⟩ := State.setCounter_of_noAttempt h1 oper core k (s.counter oper core k).clear
  generalize s1.setCounter oper core k _ = s2 at h2
  obtain ⟨n3, h3⟩ := s2.writeWord_of_noAttempt (by rw [h2]; exact h1) (.counter core (s.seatOf oper core).slot k)
  rw [h3]
  exact ⟨State.counter_of_withCounter hk (by rw [h2]), by rw [h2, ← hs1]; rfl⟩

/-- A counter that is in no error has none to clear (R266). -/
theorem State.clearCounter_of_noError {s : State} {oper core k : Nat} (he : (s.counter oper core k).error = false) :
    s.clearCounter oper core k = s := by
  rw [State.clearCounter, if_neg (by simp [he])]

/-- A scalar result after changes to slots: what a scalar result does, the rest being as the changes have left it. -/
theorem State.OnlySlots.putScalar {s u : State} (h : s.OnlySlots u) (d : BitVec 6) (x : Word) :
    ∃ t, u.putScalar d x = .next t ∧ t = { u with frags := t.frags } ∧ s.fr.OnlyScalar t.fr d
      ∧ t.getS d = (if d = 0 then 0 else x) ∧ t.fr.pc = s.fr.pc + 4 := by
  obtain ⟨t, ht, ⟨hf, -⟩, hs, hd, hp⟩ := u.putScalar_done d x
  have hfr : u.fr = s.fr := by rw [h]; rfl
  rw [hfr] at hs hp
  exact ⟨t, ht, hf, hs, hd, hp⟩

/-! ## The instructions, outside an attempt -/

section Outside

variable {s : State} (hin : s.inTx = false) (d : BitVec 6) (tl : BitVec 4)

include hin

/-- `tlrd` is a scalar result: the value with the error bit, or the number last issued (R265). -/
theorem exec_tlrd_of_noAttempt (sel : BitVec 1) : exec (.tlrd d tl sel) s = s.putScalar d
    (if sel = 0 then BitVec.ofNat 64 ((if (s.counter s.tk.oper s.cur.core tl.toNat).error then 2 ^ 63 else 0)
        + (s.counter s.tk.oper s.cur.core tl.toNat).value)
      else BitVec.ofNat 64 (s.counter s.tk.oper s.cur.core tl.toNat).issued) := by
  have hread : s.addRead (.counter s.cur.core s.seat.slot tl.toNat) 0 = (s, true) := by
    simp [State.addRead, State.attempt, hin]
  show execTlrd d tl sel s = _
  simp only [execTlrd, hread, if_true, State.putScalar]

/-- `tlinc` with a number free takes the next, which completes, and gives it (R266). -/
theorem exec_tlinc_of_noAttempt (hn : (s.counter s.tk.oper s.cur.core tl.toNat).issued < 2 ^ 63 - 1) :
    exec (.tlinc d tl) s = (s.setCounter s.tk.oper s.cur.core tl.toNat
      (({ s.counter s.tk.oper s.cur.core tl.toNat with
          issued := (s.counter s.tk.oper s.cur.core tl.toNat).issued + 1 } : Timeline).complete
        ((s.counter s.tk.oper s.cur.core tl.toNat).issued + 1))).putScalar d
      (BitVec.ofNat 64 ((s.counter s.tk.oper s.cur.core tl.toNat).issued + 1)) := by
  have hfree : ¬ (s.counter s.tk.oper s.cur.core tl.toNat).issued ≥ maxNumber := by rw [maxNumber]; omega
  show execTlinc d tl s = _
  simp [execTlinc, hin, State.tlincIssue, State.tlincCmd, hfree, State.putScalar]

/-- `tlinc.c` clears the counter's error, and gives the failed number, or 0 where there is none (R266). -/
theorem exec_tlincC_of_noAttempt : exec (.tlincC d tl) s = (s.clearCounter s.tk.oper s.cur.core tl.toNat).putScalar d
    (if (s.counter s.tk.oper s.cur.core tl.toNat).error
      then BitVec.ofNat 64 (s.counter s.tk.oper s.cur.core tl.toNat).failed else 0) := by
  show execTlincC d tl s = _
  rw [execTlincC, if_neg (by simp [hin])]
  simp only [State.tlincClearIssue, State.tlincCmd, BitVec.ofNat_toNat, BitVec.setWidth_eq]
  rfl

end Outside

/-- Settles O36: how a counter's value moves, and the three instructions outside an attempt. -/
theorem timelineResults : Obligations.TimelineResults := by
  unfold Obligations.TimelineResults
  refine ⟨fun t n hd hf he => ?_, fun s d tl k hk hin hat => ?_⟩
  · have hnext := Timeline.complete_next hd hf
    refine ⟨?_, fun hn => ?_, ?_⟩
    · rintro rfl
      rw [hnext]
      exact ⟨rfl, rfl⟩
    · rw [Timeline.complete_waits hd hf (by omega)]
      refine ⟨rfl, rfl, ?_⟩
      rintro rfl
      rw [← Timeline.complete_waits hd hf (by omega)]
      exact Timeline.value_complete_swapped hd hf
    · by_cases hn : n = t.value + 1
      · subst hn
        rw [hnext]
        exact ⟨he, rfl⟩
      · rw [Timeline.complete_waits hd hf hn]
        exact ⟨he, rfl⟩
  · subst hk
    have htl : tl.toNat < 16 := tl.isLt
    refine ⟨?_, ?_, fun hn => ?_, fun he => ?_, fun he => ?_⟩
    · rw [exec_tlrd_of_noAttempt hin]
      exact s.putScalar_done d _
    · rw [exec_tlrd_of_noAttempt hin]
      exact s.putScalar_done d _
    · rw [exec_tlinc_of_noAttempt hin d tl hn]
      obtain ⟨ns, h1⟩ := State.setCounter_of_noAttempt hat s.tk.oper s.cur.core tl.toNat _
      generalize s.setCounter _ _ _ _ = u at h1 ⊢
      have ho : s.OnlySlots u := by rw [h1]; rfl
      obtain ⟨t, ht, hf, hs, hd, hp⟩ := ho.putScalar d _
      exact ⟨t, ht, by rw [hf, h1]; rfl, hs, hd, hp, State.counter_of_withCounter htl (by rw [hf, h1])⟩
    · rw [exec_tlincC_of_noAttempt hin, if_pos he]
      obtain ⟨hc, ho⟩ := State.clearCounter_of_noAttempt hat s.tk.oper s.cur.core htl he
      obtain ⟨t, ht, hf, hs, hd, hp⟩ := ho.putScalar d _
      exact ⟨t, ht, by rw [hf, ho], hs, hd, hp, by rw [hf]; exact hc⟩
    · rw [exec_tlincC_of_noAttempt hin, State.clearCounter_of_noError he, he]
      exact s.putScalar_done d _

end Sys2Proof.Machine
end

section
/-! Accesses on their way: one performed here or at a peer, a request and an answer of another chip (R99, R112 to R116, R379). -/

namespace Sys2Proof.Machine

/-! ## What waits for an access -/

/-- An access whose fragment waits for nothing that it brings holds nobody back. -/
theorem State.resumeAwait_of_unawaited {s : State} {a : Access} (hn : ∀ got, (s.frOf a.agent).status ≠ .awaiting a.id got)
    (hf : (s.frOf a.agent).status ≠ .fetching) : s.resumeAwait a = s := by
  unfold State.resumeAwait
  dsimp only
  split
  · rfl
  · split
    · next n got hst =>
      rw [if_neg]
      rintro rfl
      exact hn got hst
    · next hst => exact absurd hst hf
    · rfl

/-- A fragment replaced twice. -/
theorem State.setFrOf_setFrOf (s : State) (i : FragId) (f g : Frag) : (s.setFrOf i f).setFrOf i g = s.setFrOf i g := by
  rw [State.setFrOf, State.setFrOf, State.setFrOf, putAt_putAt]

/-- A write of a scalar leaves what the fragment waits for. -/
theorem Frag.setS_status (f : Frag) (st : RunStatus) (d : BitVec 6) (x : Word) :
    ({ f with status := st } : Frag).setS d x = { f.setS d x with status := st } := by
  unfold Frag.setS
  split <;> rfl

/-- The fragment of an access that has brought it a scalar, the last of what it has waited for (R99). -/
def Frag.brought (f : Frag) (d : Nat) (x : Nat) : Frag :=
  { f.setS (BitVec.ofNat 6 d) (BitVec.ofNat 64 x) with
    status := .ready, pc := (f.setS (BitVec.ofNat 6 d) (BitVec.ofNat 64 x)).pc + 4 }

/-- A fragment that waits for one value of one access takes it, and goes on (R99, R112). -/
theorem State.resumeAwait_answer {s : State} {a b : Access} {d : Nat} {x : Nat} (hs : s.accesses = [])
    (hst : (s.frOf a.agent).status = .awaiting a.id []) (hw : a.ofWave = true) (hb : b.agent = a.agent)
    (haw : b.awaitedBy a.agent = true) (hd : b.op.dest = .scalar d) :
    (s.answer b [x]).resumeAwait a = s.setFrOf a.agent ((s.frOf a.agent).brought d x) := by
  have hans : s.answer b [x]
      = s.setFrOf a.agent { s.frOf a.agent with status := .awaiting a.id [(.scalar d, [x])] } := by
    simp only [State.answer, hb, hst, haw, Bool.true_or, if_true, hd, List.nil_append]
  have hacc : (s.answer b [x]).accesses = [] := by rw [hans]; exact hs
  have hread : (s.answer b [x]).frOf a.agent = { s.frOf a.agent with status := .awaiting a.id [(.scalar d, [x])] } := by
    rw [hans, State.frOf_setFrOf]
  unfold State.resumeAwait
  dsimp only
  rw [if_neg (by simp [hw]), hread, hacc]
  simp only [if_true, List.find?_nil, List.foldl_cons, List.foldl_nil, State.deliver, hans, State.frOf_setFrOf,
    State.setFrOf_setFrOf, Frag.setS_status]
  rw [Frag.brought, Frag.setS_pc]
  rfl

/-! ## The one access on its way performed -/

/-- A store puts its bytes at its places (R99). -/
theorem State.applyOp_store {s : State} {a : Access} {data : List (Place × Byte)} (h : a.op = .store data) :
    s.applyOp a = s.storeBytes (some a.agent) data := by
  rw [State.applyOp, h]

/-- A load answers with the bytes of its places (R99). -/
theorem State.applyOp_load {s : State} {a : Access} {ps : List Place} {dst : Dest} (h : a.op = .load ps dst) :
    s.applyOp a = s.answer a (dst.split (ps.map s.mem.readByte)) := by
  rw [State.applyOp, h]

section Performed

variable {s : State} {a : Access}

/-- An access of this device's own memory or of a peer's scratchpad, with no other on its way, is performed when its event
comes (R99, R101). -/
theorem exec_performed {n c : Nat} {i : Instr} (hs : s.accesses = [a]) (hn : a.id = n) (hp : a.op.isPacket = false)
    (hi : (i, a.target) ∈ [(Instr.memoryAccessPerformed n, Target.here), (.peerArrival n, .peer c)]) :
    exec i s = .next (s.performAccess a) := by
  have hof : s.accessOf n = some a := by simp [State.accessOf, hs, hn]
  have hforce : s.forceFor a = some s := by simp [State.forceFor, hs, neededFor, State.forceAll]
  simp only [List.mem_cons, Prod.mk.injEq, List.not_mem_nil, or_false] at hi
  obtain ⟨rfl, ht⟩ | ⟨rfl, ht⟩ := hi
  · show execMemoryAccessPerformed n s = _
    simp only [execMemoryAccessPerformed, hof, ht, hp, hforce]
    rfl
  · show execPeerArrival n s = _
    simp only [execPeerArrival, hof, ht, hforce]

variable (hs : s.accesses = [a]) (hf : a.final = none)
  (hk : ∀ k ∈ a.op.keys, s.lineLost k = false ∧ s.linePinned k = true)

include hs hf hk

/-- The one access on its way performed where its bytes lie: what it does, and what waits for it (R99). -/
theorem State.performAccess_of_reached (hp : s.readsPoison { a with op := s.redirect a.op } = none) :
    s.performAccess a
      = (({ s with accesses := [] } : State).applyOp { a with op := s.redirect a.op }).resumeAwait a := by
  have hdrop : s.dropAccess a.id = { s with accesses := [] } := by simp [State.dropAccess, hs, dropFences]
  have hdo := State.performOp_of_reached (s := { s with accesses := [] }) hk hp
  rw [State.performAccess, hdrop, hdo, State.afterAccess, hf]
  rfl

/-- The one access on its way, a store, puts its bytes at its places, and changes nothing else where no attempt is open (R99). -/
theorem State.performAccess_store {data : List (Place × Byte)} (ha : s.attempts = [])
    (hop : s.redirect a.op = .store data) (hn : ∀ got, (s.frOf a.agent).status ≠ .awaiting a.id got)
    (hfe : (s.frOf a.agent).status ≠ .fetching) :
    ∃ t, s.performAccess a = t ∧ t = { s with accesses := [], mem := t.mem, notices := t.notices } ∧ s.Stored t data := by
  have hp : s.readsPoison { a with op := s.redirect a.op } = none := by
    simp [State.readsPoison, hop, AccessOp.isRead]
  obtain ⟨ns, hst⟩ := State.storeBytes_of_noAttempt { s with accesses := [] } ha (some a.agent) data
  rw [State.performAccess_of_reached hs hf hk hp, State.applyOp_store hop]
  have hgo := State.resumeAwait_of_unawaited (a := a) (s := { s with
    accesses := [], mem := (s.mem.writeBytes data).clearPoison (data.map (·.1.key)), notices := ns }) hn hfe
  exact ⟨_, (congrArg (·.resumeAwait a) hst).trans hgo, rfl, s.stored_of_mem _ _ rfl⟩

/-- The one access on its way, a load that its fragment waits for, gives the register its bytes, and the fragment goes on
(R99). -/
theorem State.performAccess_load {ps : List Place} {d : Nat} (hop : s.redirect a.op = .load ps (.scalar d))
    (hst : (s.frOf a.agent).status = .awaiting a.id []) (hw : a.ofWave = true) (hsent : a.sent = true)
    (hp : ∀ p ∈ ps, s.mem.poisoned p.key = false) :
    s.performAccess a = ({ s with accesses := [] } : State).setFrOf a.agent
      ((s.frOf a.agent).brought d (ofBytes (ps.map s.mem.readByte))) := by
  have hclean : s.readsPoison { a with op := s.redirect a.op } = none := by
    simp only [State.readsPoison, hop, AccessOp.places]
    split
    · rfl
    · exact List.find?_eq_none.2 fun p h => by simp [hp p h]
  have haw : ({ a with op := s.redirect a.op } : Access).awaitedBy a.agent = true := by
    simpa [Access.awaitedBy, Access.ofFrag, Access.ofWave, hsent, hop, AccessOp.returns] using hw
  rw [State.performAccess_of_reached hs hf hk hclean, State.applyOp_load hop]
  exact State.resumeAwait_answer (s := { s with accesses := [] }) (b := { a with op := s.redirect a.op })
    rfl hst hw rfl haw (congrArg AccessOp.dest hop)

end Performed

end Sys2Proof.Machine
end

section
/-! Requests and answers of other chips (R112, R113, R379). -/

namespace Sys2Proof.Machine

/-! ## Answers of other chips -/

section Answered

variable {s : State} {a : Access} (hs : s.accesses = [a]) (hf : a.final = none)

/-- An access of a wave to another chip, sent and not failed, is answered by an answer that holds what it asks for (R112). -/
theorem exec_remoteResponse_of_sent {n c : Nat} {data : List Byte} (hs : s.accesses = [a]) (hn : a.id = n)
    (ht : a.target = .chip c) (hsent : a.sent = true) (hfail : a.failed = false) (hlen : data.length = a.op.answerSize) :
    exec (.remoteResponse n data false) s = .next (s.answered a data false) := by
  have hof : s.accessOf n = some a := by simp [State.accessOf, hs, hn]
  have hrem : a.isRemote = true := by rw [Access.isRemote, ht]
  show execRemoteResponse n data false s = _
  simp [execRemoteResponse, hof, hrem, hsent, hfail, hlen]

/-- No access that was held is sent where none is on its way. -/
theorem State.sendHeld_of_idle {s : State} (h : s.accesses = []) : s.sendHeld = s := by
  rw [State.sendHeld, h, List.foldl_nil]

include hs hf

/-- The acknowledgement of the one access on its way, a store of a wave, is counted, and nothing else differs (R113). -/
theorem State.answered_store {data : List (Place × Byte)} (hop : a.op = .store data) (hw : a.ofWave = true)
    (htask : (s.wvOf a.agent).task = a.task) (hn : ∀ got, (s.frOf a.agent).status ≠ .awaiting a.id got)
    (hfe : (s.frOf a.agent).status ≠ .fetching) :
    s.answered a [] false = ({ s with accesses := [] } : State).setWvOf a.agent
      { s.wvOf a.agent with acks := (s.wvOf a.agent).acks - 1 } := by
  have hdrop : s.dropAccess a.id = { s with accesses := [] } := by simp [State.dropAccess, hs, dropFences]
  have hack : ({ s with accesses := [] } : State).acked a = ({ s with accesses := [] } : State).setWvOf a.agent
      { s.wvOf a.agent with acks := (s.wvOf a.agent).acks - 1 } :=
    if_pos ⟨hw, htask, by simp [hop, AccessOp.returns]⟩
  have hgo := State.resumeAwait_of_unawaited (a := a) (s := ({ s with accesses := [] } : State).setWvOf a.agent
    { s.wvOf a.agent with acks := (s.wvOf a.agent).acks - 1 }) hn hfe
  simp only [State.answered, hdrop, hack, State.afterAccess, hf, hop, AccessOp.dest, hw, AccessOp.isRead,
    Bool.false_and, Bool.not_true, Bool.false_eq_true, reduceCtorEq, if_false, hgo]
  exact State.sendHeld_of_idle rfl

/-- The answer to the one access on its way, a load that its fragment waits for, gives the register its bytes, and the fragment
goes on (R112). -/
theorem State.answered_load {ps : List Place} {d c : Nat} (data : List Byte) (ht : a.target = .chip c)
    (hop : a.op = .load ps (.scalar d)) (hw : a.ofWave = true) (hst : (s.frOf a.agent).status = .awaiting a.id []) :
    s.answered a data false = ({ s with accesses := [] } : State).setFrOf a.agent
      ((s.frOf a.agent).brought d (ofBytes (a.op.answerBytes data))) := by
  have hdrop : s.dropAccess a.id = { s with accesses := [] } := by simp [State.dropAccess, hs, dropFences]
  have hack : ({ s with accesses := [] } : State).acked a = { s with accesses := [] } :=
    if_neg (by simp [hop, AccessOp.returns])
  have haw : a.awaitedBy a.agent = true := by
    simpa [Access.awaitedBy, Access.ofFrag, Access.ofWave, Access.isRemote, ht, hop, AccessOp.returns] using hw
  have hgo := State.resumeAwait_answer (s := { s with accesses := [] }) (b := a) (x := ofBytes (a.op.answerBytes data))
    rfl hst hw rfl haw (congrArg AccessOp.dest hop)
  rw [hop] at hgo ⊢
  simp only [State.answered, hdrop, hack, State.afterAccess, hf, hop, AccessOp.dest, hw, AccessOp.isRead, Dest.split,
    Bool.and_false, Bool.not_true, Bool.false_eq_true, reduceCtorEq, if_false, hgo]
  exact State.sendHeld_of_idle rfl

end Answered

/-! ## Requests of other chips -/

section Requests

variable {s : State} {r : RemoteRequest}

/-- A request for a byte that this chip has not, or for a die that is cut off, is held on its way. -/
def State.holdsRequest (s : State) (r : RemoteRequest) : Bool :=
  !(requestPlaces r).all (fun p => localOk p.key)
    || (requestPlaces r).any (fun p => (s.cutDie hubCore (p, .here)).isSome)

/-- A request for bytes of this chip is taken while every die bridge is up (R381). -/
theorem State.holdsRequest_of_up (hp : ∀ p ∈ requestPlaces r, localOk p.key = true) (hb : s.bridgesDown = []) :
    s.holdsRequest r = false := by
  simpa [State.holdsRequest, State.cutDie, State.cutBetween, hb] using hp

variable (hh : s.holdsRequest r = false)

include hh

/-- A request without a number is performed and answered (R112). -/
theorem exec_remoteRequest_unnumbered (hq : r.seq = none) : exec (.remoteRequestArrival r) s
    = .next ((s.serve r).1.reply (.remote r.chip r.die none (s.serve r).2.1 (s.serve r).2.2.1 0)) := by
  show execRemoteRequestArrival r s = _
  rw [State.holdsRequest] at hh
  simp only [execRemoteRequestArrival, hh, hq, Bool.false_eq_true, if_false]

/-- A request whose number has not been performed is performed under it and answered (R379). -/
theorem exec_remoteRequest_new {q : Nat} (hq : r.seq = some q) (hw : (s.window (pairKey r.chip r.die)).has q = false) :
    exec (.remoteRequestArrival r) s
      = .next (((s.serve r).1.performSeq (pairKey r.chip r.die) q (s.serve r).2.2.2).reply
        (.remote r.chip r.die (some q) (s.serve r).2.1 (s.serve r).2.2.1 0)) := by
  show execRemoteRequestArrival r s = _
  rw [State.holdsRequest] at hh
  simp only [execRemoteRequestArrival, hh, hq, hw, Bool.false_eq_true, if_false]

/-- A request whose number has been performed is answered alone (R379). -/
theorem exec_remoteRequest_again {q : Nat} (hq : r.seq = some q) (hw : (s.window (pairKey r.chip r.die)).has q = true) :
    exec (.remoteRequestArrival r) s = .next (s.answerAgain r (pairKey r.chip r.die) q) := by
  show execRemoteRequestArrival r s = _
  rw [State.holdsRequest] at hh
  simp only [execRemoteRequestArrival, hh, hq, hw, Bool.false_eq_true, if_false, if_true]

omit hh in
/-- What is answered to a request that has been performed before is one answer, and nothing else differs (R379). -/
theorem State.answerAgain_reply (s : State) (r : RemoteRequest) (pair seq : Nat) :
    ∃ x, s.answerAgain r pair seq = s.reply x := by
  unfold State.answerAgain
  split
  · split <;> exact ⟨_, rfl⟩
  · exact ⟨_, rfl⟩

end Requests

/-- Marking a sector poisoned, with no access on its way, changes the marks of memory alone, and it is then poisoned (R202). -/
theorem State.poisonSector_of_idle {s : State} (h : s.accesses = []) (p : Place) :
    ∃ marks, s.poisonSector p = { s with mem := { s.mem with poison := marks } }
      ∧ (s.poisonSector p).mem.poisoned p.key = true := by
  by_cases hp : s.mem.poisoned p.key = true
  · have hone : s.poisonSector p = s := by
      simp [State.poisonSector, h, State.settle, hp]
    exact ⟨s.mem.poison, hone, by rw [hone]; exact hp⟩
  · have hone : s.poisonSector p = { s with mem := { s.mem with poison := s.mem.poison ++ [sectorOf p.key] } } := by
      simp [State.poisonSector, h, State.settle, hp]
    exact ⟨_, hone, by rw [hone]; simp [Memory.poisoned]⟩

/-- The bytes that a write of another chip puts at the places of its request. -/
def requestStored (r : RemoteRequest) (data : List (Option Byte)) : List (Place × Byte) :=
  ((requestPlaces r).zip data).filterMap (fun x => x.2.map (fun y => (x.1, y)))

/-- A write of another chip while no attempt is open: its bytes are stored, and where it brings poison its sector is marked
(R202, R268). -/
theorem State.serve_write {s : State} {r : RemoteRequest} {data : List (Option Byte)} {poisoned : Bool}
    (ha : s.attempts = []) (hop : r.op = .write data poisoned) (hacc : poisoned = true → s.accesses = []) :
    ∃ t, s.serve r = (t, [], false, none) ∧ t = { s with mem := t.mem, notices := t.notices }
      ∧ s.Stored t (requestStored r data) ∧ (poisoned = true → ∀ p ∈ (requestPlaces r).head?, t.mem.poisoned p.key = true) := by
  obtain ⟨ns, hst⟩ := s.storeBytes_of_noAttempt ha none (requestStored r data)
  have hstored := s.stored_of_mem (s.storeBytes none (requestStored r data)) (requestStored r data) (by rw [hst])
  cases poisoned with
  | false => exact ⟨_, by simp only [State.serve, hop, requestStored], by rw [hst], hstored, nofun⟩
  | true =>
    cases hps : requestPlaces r with
    | nil => exact ⟨_, by simp only [State.serve, hop, requestStored, hps], by rw [hst], hstored, by simp⟩
    | cons p rest =>
      obtain ⟨marks, hm, hp⟩ := State.poisonSector_of_idle (s := s.storeBytes none (requestStored r data))
        (by rw [hst]; exact hacc rfl) p
      obtain ⟨hbytes, hkeys, hepoch, hread⟩ := hstored
      refine ⟨(s.storeBytes none (requestStored r data)).poisonSector p, by simp only [State.serve, hop, requestStored, hps],
        by rw [hm, hst], ⟨?_, ?_, ?_, ?_⟩, fun _ q hq => ?_⟩
      · rw [hm]; exact hbytes
      · rw [hm]; exact hkeys
      · rw [hm]; exact hepoch
      · intro q hq
        rw [← hread q hq, hm]
        rfl
      · cases hq
        exact hp

end Sys2Proof.Machine
end

section
/-! Walks and fetches that fail (R199 to R201). -/

namespace Sys2Proof.Machine

/-! ## What a walk finds is held -/

/-- A TLB with room takes an entry and gives up none (R200). -/
theorem State.holdEntry_of_room {s : State} {e : TlbEntry}
    (h : (s.tlb.filter (fun t => t.core == e.core)).length < tlbRoom e.core) :
    s.holdEntry e = { s with tlb := e :: s.tlb } := by
  simp only [State.holdEntry, if_pos h]

/-- The number of a die's shared TLB is no core's. -/
theorem sharedTlb_ne {core : Nat} (h : core < 256) : sharedTlb core ≠ core := by
  unfold sharedTlb
  omega

section Held

variable {s : State} {core : Nat} (hcore : core < 256) (hown : (s.tlb.filter (fun t => t.core == core)).length < 64)
  (hdie : (s.tlb.filter (fun t => t.core == sharedTlb core)).length < 16384) {e : Nat → TlbEntry}
  (he : ∀ c, (e c).core = c)

include hcore hown hdie he

/-- A core and the shared TLB of its die, both with room, come to hold what a walk gives (R200). -/
theorem State.holdEntry_both : (s.holdEntry (e (sharedTlb core))).holdEntry (e core)
    = { s with tlb := e core :: e (sharedTlb core) :: s.tlb } := by
  have hroom : tlbRoom (sharedTlb core) = 16384 := if_neg (by unfold sharedTlb; omega)
  rw [State.holdEntry_of_room (e := e (sharedTlb core)) (by rw [he, hroom]; exact hdie), State.holdEntry_of_room]
  rw [he, tlbRoom, if_pos hcore]
  show (List.filter _ (e (sharedTlb core) :: s.tlb)).length < 64
  rw [List.filter_cons_of_neg (by simpa [he] using sharedTlb_ne hcore)]
  exact hown

end Held

section Walks

variable {s : State} {core ctx : Nat} {va : Word} (hcore : core < 256)
  (hown : (s.tlb.filter (·.core == core)).length < 64)
  (hdie : (s.tlb.filter (·.core == sharedTlb core)).length < 16384)

/-- The pointers that a walk has met, as the page-walk cache comes to hold them (R200). -/
def State.walkNoted (s : State) (core ctx : Nat) (va : Word) : State :=
  if (s.cachedWalk (core / 32) ctx va.toNat).isSome then s
  else { s with walks := s.walks ++ s.walkEntries (core / 32) ctx va.toNat }

/-- Nothing but the page-walk cache differs. -/
theorem State.walkNoted_eq (s : State) (core ctx : Nat) (va : Word) :
    ∃ ws, s.walkNoted core ctx va = { s with walks := ws } := by
  unfold State.walkNoted
  split
  · exact ⟨s.walks, rfl⟩
  · exact ⟨_, rfl⟩

include hcore hown hdie

/-- A walk that finds something comes to be held, by the core and by its die (R200). -/
theorem exec_pageWalk_held {e : Nat → TlbEntry} (he : ∀ c, (e c).core = c)
    (hw : exec (.pageWalkComplete core ctx va) s
      = .next (((s.walkNoted core ctx va).holdEntry (e (sharedTlb core))).holdEntry (e core))) :
    ∃ t, exec (.pageWalkComplete core ctx va) s = .next t
      ∧ t = { s with tlb := e core :: e (sharedTlb core) :: s.tlb, walks := t.walks } := by
  obtain ⟨ws, hws⟩ := s.walkNoted_eq core ctx va
  rw [hw, hws, State.holdEntry_both (s := { s with walks := ws }) hcore hown hdie he]
  exact ⟨_, rfl, rfl⟩

/-- A walk that ends in a translation has it held (R200). -/
theorem exec_pageWalk_leaf {l : Leaf} (hva : va.toNat < windowBase) (hl : s.walk core ctx va.toNat = .ok l) :
    ∃ t, exec (.pageWalkComplete core ctx va) s = .next t
      ∧ t = { s with
          tlb := l.held core ctx va.toNat :: l.held (sharedTlb core) ctx va.toNat :: s.tlb, walks := t.walks } := by
  refine exec_pageWalk_held (e := fun c => l.held c ctx va.toNat) hcore hown hdie (fun _ => rfl) ?_
  show execPageWalkComplete core ctx va s = _
  rw [execPageWalkComplete, if_neg (by omega), hl]
  rfl

/-- A walk that ends at an entry that is not present has that held (R200). -/
theorem exec_pageWalk_missing {d : Nat} (hva : va.toNat < windowBase) (hl : s.walk core ctx va.toNat = .error d) (hd : d ≠ 6) :
    ∃ t, exec (.pageWalkComplete core ctx va) s = .next t
      ∧ t = { s with
          tlb := missingEntry core ctx va.toNat d :: missingEntry (sharedTlb core) ctx va.toNat d :: s.tlb
          walks := t.walks } := by
  refine exec_pageWalk_held (e := fun c => missingEntry c ctx va.toNat d) hcore hown hdie (fun _ => rfl) ?_
  show execPageWalkComplete core ctx va s = _
  rw [execPageWalkComplete, if_neg (by omega), hl]
  dsimp only
  rw [if_neg hd]
  rfl

end Walks

/-- An entry that is not present stands for a range that holds the address it was met for (R199). -/
theorem missingEntry_covers (core ctx va d : Nat) :
    (missingEntry core ctx va d).va ≤ va ∧ va < (missingEntry core ctx va d).va + (missingEntry core ctx va d).size := by
  have hsize : 0 < 2 ^ (levelShape (d - 2)).2 := Nat.two_pow_pos _
  have hmod := Nat.mod_lt va hsize
  have hdiv := Nat.div_add_mod' va (2 ^ (levelShape (d - 2)).2)
  show va / 2 ^ (levelShape (d - 2)).2 * 2 ^ (levelShape (d - 2)).2 ≤ va
    ∧ va < va / 2 ^ (levelShape (d - 2)).2 * 2 ^ (levelShape (d - 2)).2 + 2 ^ (levelShape (d - 2)).2
  omega

/-! ## A fetch that fails -/

/-- An address of the scratch window that does not translate is refused for its page (R95, R201). -/
theorem State.windowPlace_error {s : State} {pinned : Bool} {oper core ctx va : Nat} {n : Need} {e : Nat × Nat}
    (h : s.windowPlace pinned oper core ctx va n = .error e) : e.1 = causePROT := by
  unfold State.windowPlace at h
  dsimp only at h
  split at h
  · cases h; rfl
  · split at h
    · split at h
      · cases h
      · cases h; rfl
    · split at h
      · cases h; rfl
      · split at h
        · cases h
        · cases h; rfl

/-- A translation that fails fails for its entry or for its page (R201). -/
theorem State.xlate_error {s : State} {va : Word} {n : Need} {e : Nat × Nat} (h : s.xlate va n = .error e) :
    e.1 = causeXLATE ∨ e.1 = causePROT := by
  unfold State.xlate State.translateAs at h
  dsimp only at h
  split at h
  · exact .inl (by cases h; rfl)
  · split at h
    · exact .inr (State.windowPlace_error h)
    · grind

/-- A record of a failing address of a wave merges with one of the same context, access and page alone (R201). -/
theorem FaultRecord.same_of_merges {a b : FaultRecord} (h : a.merges b = true)
    (hc : b.cause = causeXLATE ∨ b.cause = causePROT) (hb : b.agent = 0) :
    a.ctx = b.ctx ∧ a.access = b.access ∧ a.page = b.page := by
  unfold FaultRecord.merges causeXLATE causePROT at *
  grind

/-- A record posted for the executing fragment, which is suspended on it: a record of its own, or one that it has merged with
(R83, R201). -/
theorem State.suspendOn_cur (s : State) (b : FaultRecord) :
    ∃ t r, s.suspendOn s.cur b = t ∧ r ∈ t.records ∧ t = { s with records := t.records, frags := t.frags }
      ∧ t.fr = { s.fr with status := .suspended r.id }
      ∧ ((∃ x ∈ s.records, x.merges { b with suspended := [s.cur] } = true ∧ r = x.join { b with suspended := [s.cur] })
        ∨ ∃ n posted, r = { b with suspended := [s.cur], id := n, posted := posted, arisen := s.tick }) := by
  rw [State.suspendOn, State.postRecord]
  cases hx : s.records.find? (fun x => x.merges { b with suspended := [s.cur] }) with
  | none => exact ⟨_, _, rfl, List.mem_append_right _ (List.mem_singleton.2 rfl), rfl, State.fr_setFr .., .inr ⟨_, _, rfl⟩⟩
  | some x =>
    have hmem : x ∈ s.records := List.mem_of_find?_eq_some hx
    have hmerges : x.merges { b with suspended := [s.cur] } = true :=
      List.find?_some (p := fun x : FaultRecord => x.merges { b with suspended := [s.cur] }) hx
    have hid : (x.join { b with suspended := [s.cur] }).id = x.id := by
      unfold FaultRecord.join
      dsimp only
      split <;> rfl
    refine ⟨_, x.join { b with suspended := [s.cur] }, rfl, List.mem_map.2 ⟨x, hmem, if_pos (by simp)⟩, rfl, ?_,
      .inl ⟨x, hmem, hmerges, rfl⟩⟩
    rw [hid]
    exact State.fr_setFr ..

/-- What is left of two records that merge keeps what makes them one, and holds what is suspended on either (R201). -/
theorem FaultRecord.join_same (a b : FaultRecord) : (a.join b).ctx = a.ctx ∧ (a.join b).access = a.access
    ∧ (a.join b).page = a.page ∧ (a.join b).suspended = a.suspended ++ b.suspended := by
  unfold FaultRecord.join
  dsimp only
  split <;> exact ⟨rfl, rfl, rfl, rfl⟩

/-- The record of a fetch that fails at the program counter (R201). -/
def State.fetchRecord (s : State) (cause detail : Nat) : FaultRecord :=
  { s.waveRecord s.cur cause detail Need.fetch.code s.fr.pc with page := s.pageOf s.cur.core s.ctxId s.fr.pc }

/-- Outside an attempt a fetch that fails suspends the executing fragment on its record (R95, R121, R201). -/
theorem exec_instructionFetchFault {s : State} {cause detail : Nat} (hin : s.inTx = false)
    (hx : s.xlate s.fr.pc .fetch = .error (cause, detail)) :
    exec .instructionFetchFault s = .next (s.suspendOn s.cur (s.fetchRecord cause detail)) := by
  have hor : s.xlateOr (fun _ => none) s.fr.pc .fetch = .error (cause, detail) := by rw [State.xlateOr, hx]
  show execInstructionFetchFault s = _
  simp [execInstructionFetchFault, State.xlateAll, State.xlateWith, hor, State.suspendAll, hin, onePerPage,
    State.fetchRecord]

end Sys2Proof.Machine
end

section
/-! Errors of memory and of the device's parts (R202, R426, R427). -/

namespace Sys2Proof.Machine

/-! ## What an event of the front end leaves -/

/-- Fragments, waves, the RAS state and the poison marks of the device's own memory are as they were: what an event of the front
end leaves, which is written into the host's memory (R397). -/
structure State.EventsOnly (s t : State) : Prop where
  frags : t.frags = s.frags
  waves : t.waves = s.waves
  ras : t.ras = s.ras
  poisoned : ∀ k < hostBase, s.mem.poisoned k = true → t.mem.poisoned k = true

theorem State.EventsOnly.refl (s : State) : s.EventsOnly s := ⟨rfl, rfl, rfl, fun _ _ h => h⟩

theorem State.EventsOnly.trans {s t u : State} (h : s.EventsOnly t) (k : t.EventsOnly u) : s.EventsOnly u :=
  ⟨k.frags.trans h.frags, k.waves.trans h.waves, k.ras.trans h.ras, fun n hn hp => k.poisoned n hn (h.poisoned n hn hp)⟩

/-- Where no attempt was open, none is. -/
theorem State.EventsOnly.noAttempt {s t : State} (h : s.EventsOnly t) (ha : s.attempts = []) : t.attempts = [] := by
  rw [State.attempts, h.waves]
  exact ha

/-- Steps that each leave these leave them together. -/
theorem State.eventsOnly_foldl {α : Type} {f : State → α → State} (hf : ∀ (t : State) (x : α), t.EventsOnly (f t x))
    (l : List α) (s : State) : s.EventsOnly (l.foldl f s) := by
  induction l generalizing s with
  | nil => exact .refl s
  | cons x xs ih => exact (hf s x).trans (ih (f s x))

/-- A host queue replaced. -/
theorem State.eventsOnly_setHq (s : State) (q : Nat) (x : HostQueue) : s.EventsOnly (s.setHq q x) :=
  ⟨rfl, rfl, rfl, fun _ _ h => h⟩

/-- The messages due replaced. -/
theorem State.eventsOnly_msixDue (s : State) (l : List Nat) : s.EventsOnly { s with msixDue := l } :=
  ⟨rfl, rfl, rfl, fun _ _ h => h⟩

/-- A sector that a write does not touch at all is not one that it covers whole. -/
theorem notMem_wholeSectors {keys : List Nat} {n : Nat} (h : ∀ k ∈ keys, n < k) : sectorOf n ∉ wholeSectors keys := by
  intro hmem
  have hall := (List.mem_filter.1 hmem).2
  have hfirst : sectorOf n * 128 ∈ upFrom (sectorOf n * 128) 128 := by simp [upFrom]
  have hin : sectorOf n * 128 ∈ keys := by simpa using List.all_eq_true.1 hall _ hfirst
  have hlt := h _ hin
  unfold sectorOf at hlt
  omega

/-- A write beyond a byte leaves the mark of its sector (R202). -/
theorem Memory.poisoned_clearPoison {m : Memory} {keys : List Nat} {n : Nat} (h : ∀ k ∈ keys, n < k)
    (hp : m.poisoned n = true) : (m.clearPoison keys).poisoned n = true := by
  unfold Memory.clearPoison
  split
  · exact hp
  · have hnot := notMem_wholeSectors h
    simpa [Memory.poisoned, hnot] using hp

/-- Bytes written leave the poison marks. -/
theorem Memory.poison_writeBytes (m : Memory) (data : List (Place × Byte)) : (m.writeBytes data).poison = m.poison := by
  induction data generalizing m with
  | nil => rfl
  | cons x xs ih => exact ih (m.writeByte x.1 x.2)

/-- The front end writes into the host's memory alone (R397). -/
theorem State.hostWrite_eventsOnly {s : State} (h : s.attempts = []) (addr : Nat) (data : List Byte) :
    s.EventsOnly (s.hostWrite addr data) := by
  obtain ⟨ns, hst⟩ := s.storeBytes_of_noAttempt h none
    ((upFrom (hostBase + addr % hostBase) data.length).map (fun k => plainPlace k 0) |>.zip data)
  rw [State.hostWrite, hst]
  refine ⟨rfl, rfl, rfl, fun n hn hp => Memory.poisoned_clearPoison (fun k hk => ?_) ?_⟩
  · obtain ⟨x, hx, rfl⟩ := List.mem_map.1 hk
    obtain ⟨k, hk, hp⟩ := List.mem_map.1 (List.of_mem_zip hx).1
    obtain ⟨i, -, hi⟩ := List.mem_map.1 hk
    rw [← hp]
    show n < k
    omega
  · rw [Memory.poisoned, Memory.poison_writeBytes]
    exact hp

/-- A command given up takes nothing from these (R398). -/
theorem State.dropBegun_eventsOnly (s : State) (q : Nat) : s.EventsOnly (s.dropBegun q) := by
  let w (i : Nat) : Word := (s.hq q).begun.getD i 0
  let x := fieldOf (w 2) 15 0
  have hundo : s.EventsOnly (match fieldOf (w 1) 7 0 with
      | 0x05 => if (findAt s.contexts x).isSome then s.setCtx x { s.ctxOf x with frozen := false } else s
      | 0x08 => s.stayGraph (fieldOf (w 1) 47 32) x
      | _ => s) := by
    split
    · split <;> exact ⟨rfl, rfl, rfl, fun _ _ h => h⟩
    · exact ⟨rfl, rfl, rfl, fun _ _ h => h⟩
    · exact .refl s
  have hend : ∀ (l : List Launch) (t : State), t.EventsOnly (l.foldl (fun t l => t.endAsk (.launch l.id)) t) :=
    State.eventsOnly_foldl (fun _ _ => ⟨rfl, rfl, rfl, fun _ _ h => h⟩)
  have hstart : ∀ (u : State) (ls : List Launch), u.EventsOnly { u with launches := ls } :=
    fun _ _ => ⟨rfl, rfl, rfl, fun _ _ h => h⟩
  have hstop : ∀ (u : State), u.EventsOnly ((u.endAsk (.queue q)).setHq q { u.hq q with begun := [] }) :=
    fun _ => ⟨rfl, rfl, rfl, fun _ _ h => h⟩
  exact hundo.trans ((hstart _ _).trans ((hend _ _).trans (hstop _)))

/-- A queue stopped takes nothing from these (R398). -/
theorem State.stopQueue_eventsOnly (s : State) (q st : Nat) : s.EventsOnly (s.stopQueue q st) :=
  (s.dropBegun_eventsOnly q).trans (State.eventsOnly_setHq _ q _)

section NoAttempt

variable {s : State} (h : s.attempts = []) (q : Nat)

include h

/-- The status block written (R397). -/
theorem State.writeStatus_eventsOnly : s.EventsOnly (s.writeStatus q) := by
  unfold State.writeStatus
  dsimp only
  split
  · exact s.stopQueue_eventsOnly q 5
  · split
    · exact State.hostWrite_eventsOnly h _ _
    · exact (State.hostWrite_eventsOnly h _ _).trans (State.eventsOnly_msixDue _ _)

/-- An event written into its ring (R397). -/
theorem State.writeEvent_eventsOnly (ws : List Word) : s.EventsOnly (s.writeEvent q ws) := by
  unfold State.writeEvent
  dsimp only
  split
  · exact (s.eventsOnly_setHq q _).trans (State.stopQueue_eventsOnly _ q 5)
  · exact (State.hostWrite_eventsOnly h _ _).trans (State.eventsOnly_setHq _ q _)

/-- An event posted, or held (R397). -/
theorem State.postEvent_eventsOnly (ws : List Word) : s.EventsOnly (s.postEvent q ws) := by
  unfold State.postEvent
  dsimp only
  split
  · have hw := State.writeEvent_eventsOnly h q ws
    exact hw.trans (State.writeStatus_eventsOnly (hw.noAttempt h) q)
  · exact s.eventsOnly_setHq q _

omit q in
/-- A RAS event (R427). -/
theorem State.rasEvent_eventsOnly : s.EventsOnly s.rasEvent :=
  State.EventsOnly.trans (t := s.takeFresh) ⟨rfl, rfl, rfl, fun _ _ h => h⟩
    (State.postEvent_eventsOnly (s := s.takeFresh) h 0 _)

end NoAttempt

/-! ## Errors -/

/-- A location whose retirement changes the map alone: neither a die bridge nor a register block (R427). -/
def onlyMapped (l : RasLocation) : Bool :=
  match l with
  | .dieBridge .. => false
  | .registerBlock .. => false
  | _ => true

/-- The map of retired locations grown by one (R427). -/
def State.withRetired (s : State) (l : RasLocation) : State :=
  { s with ras := { s.ras with retired := s.ras.retired ++ [l] } }

/-- The retirement of a location that changes the map alone (R426, R427). -/
theorem State.retire_of_onlyMapped (s : State) {l : RasLocation} (hl : onlyMapped l = true) :
    s.retire l = if s.outOfUse l then s else if s.hasSpare l then (s.withRetired l).rasEvent else s.rasEvent := by
  cases l with
  | dieBridge d b => cases hl
  | registerBlock c b => cases hl
  | _ => rfl

/-- The retirement of a location that changes the map alone leaves fragments, waves and the poison marks (R427). -/
theorem State.retire_frame {s : State} (h : s.attempts = []) {l : RasLocation} (hl : onlyMapped l = true) :
    (s.retire l).frags = s.frags ∧ (s.retire l).waves = s.waves
      ∧ ∀ k < hostBase, s.mem.poisoned k = true → (s.retire l).mem.poisoned k = true := by
  rw [s.retire_of_onlyMapped hl]
  split
  · exact ⟨rfl, rfl, fun _ _ h => h⟩
  · split
    · have he := State.rasEvent_eventsOnly (s := s.withRetired l) h
      exact ⟨he.frags, he.waves, he.poisoned⟩
    · have he := State.rasEvent_eventsOnly h
      exact ⟨he.frags, he.waves, he.poisoned⟩

/-- A way of an L1 of which more than 12 stay, not retired yet, is retired (R426, R427). -/
theorem State.retire_l1Way {s : State} (h : s.attempts = []) {c k : Nat} (hroom : 12 < s.l1Ways c)
    (hnot : RasLocation.l1Way c k ∉ s.ras.retired) :
    (s.retire (.l1Way c k)).ras = (s.withRetired (.l1Way c k)).ras := by
  have hspare : s.hasSpare (.l1Way c k) = true := decide_eq_true hroom
  have hout : s.outOfUse (.l1Way c k) = false := by simp [State.outOfUse, hnot]
  rw [s.retire_of_onlyMapped rfl, if_neg (by simp [hout]), if_pos hspare]
  exact (State.rasEvent_eventsOnly (s := s.withRetired (.l1Way c k)) h).ras

/-- One way fewer where one is retired (R187, R426). -/
theorem State.l1Ways_of_retired {s t : State} {c k : Nat} (hroom : 12 < s.l1Ways c)
    (ht : t.ras.retired = s.ras.retired ++ [.l1Way c k]) : t.l1Ways c + 1 = s.l1Ways c := by
  unfold State.l1Ways at *
  rw [ht, List.countP_append, List.countP_singleton, if_pos (by simp)]
  omega

/-- A byte of the device's own memory is none of the host's. -/
theorem lt_hostBase_of_localOk {n : Nat} (h : localOk n = true) : n < hostBase := by
  have hcases : n ≤ 0x12A05F1FFFF ∨ 0x20000000000 ≤ n ∧ n < 0x20000000000 + 256 * 2 ^ 24 := by simpa [localOk] using h
  unfold hostBase
  omega

/-- An uncorrectable error that names a sector marks it poisoned and retires its location; where that changes the map alone,
fragments and waves are as they were (R202, R426). -/
theorem exec_uncorrectableError {s : State} {n : Nat} {loc : RasLocation} {sector : Option Nat} (ha : s.attempts = [])
    (hacc : s.accesses = []) (hn : localOk n = true) (hloc : locationOk loc = true) (hmap : onlyMapped loc = true)
    (hsec : RasLocation.sector loc sector = some n) :
    ∃ t, exec (.uncorrectableError { loc := loc, sector := sector }) s = .next t ∧ t.mem.poisoned n = true
      ∧ t.frags = s.frags ∧ t.waves = s.waves := by
  have hbits : RasLocation.holdsBits loc = true := by cases loc <;> simp_all [onlyMapped, RasLocation.holdsBits]
  have hname : onlyMapped (locationName loc) = true := by
    cases loc <;> simp_all [onlyMapped, locationName]
  obtain ⟨marks, hm, hp⟩ := State.poisonSector_of_idle hacc (plainPlace n 0)
  obtain ⟨hf, hw, hpoison⟩ := State.retire_frame (s := s.poisonSector (plainPlace n 0)) (by rw [hm]; exact ha) hname
  refine ⟨_, ?_, hpoison n (lt_hostBase_of_localOk hn) hp, hf.trans (by rw [hm]), hw.trans (by rw [hm])⟩
  show execUncorrectableError { loc := loc, sector := sector } s = _
  simp only [execUncorrectableError, hloc, hbits, Bool.and_true, if_true, hsec]

/-- The errors counted of late, with one more now (R426). -/
def State.countsWith (s : State) (l : RasLocation) : List (RasLocation × Nat) :=
  s.ras.counts.filter (fun c => decide (s.tick < c.2 + (windowOf c.1).1)) ++ [(l, s.tick)]

/-- A corrected error counted (R426). -/
def State.counted (s : State) (counts : List (RasLocation × Nat)) : State :=
  { s with ras := { s.ras with counts := counts, corrected := s.ras.corrected + 1 } }

/-- A corrected error of bits is counted, and at the threshold its location is retired (R426). -/
theorem exec_correctedError {s : State} {l : RasLocation} (hok : locationOk l = true)
    (hbits : RasLocation.holdsBits l = true) (hname : locationName l = l) :
    exec (.correctedError l) s = .next
      (if (s.countsWith l).countP (fun c => c.1 == l) < (windowOf l).2 then s.counted (s.countsWith l)
       else (s.counted ((s.countsWith l).filter (fun c => c.1 != l))).retire l) := by
  show execCorrectedError l s = _
  simp only [execCorrectedError, hname, hok, hbits, Bool.not_true, Bool.or_self, Bool.false_eq_true, if_false]
  rfl

end Sys2Proof.Machine
end

section
/-! What the memory system does (R99, R112, R113, R116, R200 to R202, R379, R426). -/

namespace Sys2Proof.Machine

/-- Settles O46: the access on its way, requests and answers of other chips, walks, fetches, and errors of memory. -/
theorem memorySystemEvents : Obligations.MemorySystemEvents := by
  unfold Obligations.MemorySystemEvents
  intro s n ha
  refine ⟨fun a i c hs hn hi hf hk => ⟨fun data hop hnw hfe => ?_, fun ps d hop _ hst hw hsent hp => ?_⟩,
    fun r hp hb => ⟨fun k hq hop => ?_, fun q data poisoned hq hop hacc hw => ?_, fun q hq hw => ?_⟩,
    fun a c hs hn ht hsent hfail hw hf => ⟨fun x hop htask hnw hfe => ?_, fun ps d data hop _ hst hlen => ?_⟩,
    fun core ctx va hcore hva hown hdie => ⟨fun l hl => ?_, fun d hl hd => ?_⟩,
    fun cause detail hin hx => ?_, fun loc sector hacc hn hmem hok => ?_, fun d b => ?_,
    fun l w kept hok hbits hw hname hkept => ⟨fun hlt => ?_, fun c k hl hge hroom hnot => ?_⟩⟩
  · have hpk : a.op.isPacket = false := by
      cases hop' : a.op <;> simp_all [State.redirect, AccessOp.mapPlaces, AccessOp.isPacket]
    subst hn
    obtain ⟨t, ht, h⟩ := State.performAccess_store hs hf hk ha hop hnw hfe
    exact ⟨t, (exec_performed hs rfl hpk hi).trans (congrArg _ ht), h⟩
  · have hpk : a.op.isPacket = false := by
      cases hop' : a.op <;> simp_all [State.redirect, AccessOp.mapPlaces, AccessOp.isPacket]
    subst hn
    refine ⟨_, _, (exec_performed hs rfl hpk hi).trans
      (congrArg _ (State.performAccess_load hs hf hk hop hst hw hsent hp)), rfl, rfl, State.frOf_setFrOf .., fun k hk => ?_⟩
    exact findAt_putAt_ne _ _ hk
  · rw [exec_remoteRequest_unnumbered (State.holdsRequest_of_up hp hb) hq]
    simp only [State.serve, hop]
    rfl
  · obtain ⟨t, hserve, hframe, hstored, hpoison⟩ := State.serve_write ha hop hacc
    rw [exec_remoteRequest_new (State.holdsRequest_of_up hp hb) hq hw, hserve]
    refine ⟨_, rfl, by rw [hframe]; rfl, hstored, hpoison, by rw [hframe]; rfl⟩
  · obtain ⟨x, hx⟩ := s.answerAgain_reply r (pairKey r.chip r.die) q
    rw [exec_remoteRequest_again (State.holdsRequest_of_up hp hb) hq hw, hx]
    exact ⟨_, rfl, rfl, List.length_append⟩
  · subst hn
    rw [exec_remoteResponse_of_sent hs rfl ht hsent hfail (by rw [hop]; rfl),
      State.answered_store hs hf hop hw htask hnw hfe]
  · subst hn
    rw [exec_remoteResponse_of_sent hs rfl ht hsent hfail hlen, State.answered_load hs hf data ht hop hw hst]
    exact ⟨_, _, rfl, rfl, rfl, State.frOf_setFrOf ..⟩
  · obtain ⟨t, ht, h⟩ := exec_pageWalk_leaf hcore hown hdie hva hl
    exact ⟨t, _, _, ht, h, rfl, rfl, rfl, rfl, rfl, rfl, rfl, rfl, rfl, rfl, rfl, rfl, rfl, rfl⟩
  · obtain ⟨t, ht, h⟩ := exec_pageWalk_missing hcore hown hdie hva hl hd
    obtain ⟨hlo, hhi⟩ := missingEntry_covers core ctx va.toNat d
    exact ⟨t, missingEntry core ctx va.toNat d, ht, h, rfl, rfl, rfl, hlo, hhi⟩
  · obtain ⟨t, r, ht, hr, hframe, hfr, hwhich⟩ := s.suspendOn_cur (s.fetchRecord cause detail)
    refine ⟨t, r, (exec_instructionFetchFault hin hx).trans (congrArg _ ht), hr, ?_⟩
    obtain ⟨x, hxs, hmerges, rfl⟩ | ⟨m, posted, rfl⟩ := hwhich
    · obtain ⟨hctx, hacc, hpage⟩ := FaultRecord.same_of_merges hmerges (State.xlate_error hx) rfl
      obtain ⟨jctx, jacc, jpage, jsus⟩ := x.join_same { s.fetchRecord cause detail with suspended := [s.cur] }
      refine ⟨by simp [jsus], jctx.trans hctx, jacc.trans hacc, jpage.trans hpage, fun hno => ?_, hframe, hfr⟩
      exact absurd hmerges (ne_true_of_eq_false (hno x hxs))
    · exact ⟨List.mem_singleton_self _, rfl, rfl, rfl, fun _ => ⟨rfl, rfl, rfl⟩, hframe, hfr⟩
  · have hmap : onlyMapped loc = true ∧ RasLocation.sector loc sector = some n := by
      simp only [List.mem_cons, Prod.mk.injEq, List.not_mem_nil, or_false] at hmem
      rcases hmem with ⟨rfl, rfl⟩ | ⟨rfl, rfl⟩ | ⟨rfl, rfl⟩ | ⟨rfl, rfl⟩ <;> exact ⟨rfl, rfl⟩
    exact exec_uncorrectableError ha hacc hn hok hmap.1 hmap.2
  · show execCorrectedError (.dieBridge d b) s = _
    simp [execCorrectedError, RasLocation.holdsBits]
  · subst hw hkept
    exact (exec_correctedError hok hbits hname).trans (congrArg Host.Outcome.next (if_pos hlt))
  · subst hw hkept hl
    rw [exec_correctedError hok hbits hname, if_neg (by simpa [State.countsWith] using hge)]
    have hras := State.retire_l1Way (s := s.counted ((s.countsWith (.l1Way c k)).filter (fun x => x.1 != .l1Way c k)))
      (k := k) ha hroom hnot
    have hret : ((s.counted ((s.countsWith (.l1Way c k)).filter (fun x => x.1 != .l1Way c k))).retire
        (.l1Way c k)).ras.retired = s.ras.retired ++ [.l1Way c k] := by rw [hras]; rfl
    exact ⟨_, rfl, hret, State.l1Ways_of_retired hroom hret, by rw [hras]; rfl⟩

end Sys2Proof.Machine
end

section
/-! The operations of the state that leave memory alone (R92): a frame for each, which `simp` uses, in an order in which
each rests on those before it. -/

namespace Sys2Proof.Machine

@[simp] theorem State.mem_ite (c : Prop) [Decidable c] (s t : State) :
    (if c then s else t).mem = if c then s.mem else t.mem := apply_ite ..

/-- A fold over a state and something more keeps the memory that each of its steps keeps. -/
theorem foldl_fst_mem {α β : Type} (f : State × β → α → State × β) (h : ∀ r a, (f r a).1.mem = r.1.mem) (l : List α)
    (r : State × β) : (l.foldl f r).1.mem = r.1.mem := by
  induction l generalizing r with
  | nil => rfl
  | cons a l ih => rw [List.foldl_cons, ih, h]

/-! ## Fragments and vector registers -/

@[simp] theorem State.mem_trapReturn (s : State) : (s.trapReturn).mem = s.mem := by simp [State.trapReturn]
@[simp] theorem State.mem_stepTrap (s : State) (f : FragId) : (s.stepTrap f).mem = s.mem := by simp [State.stepTrap]

@[simp] theorem State.mem_afterIssue (t s : State) : (t.afterIssue s).mem = s.mem := by
  unfold State.afterIssue
  repeat' split
  all_goals simp

@[simp] theorem State.mem_sleepOn (s : State) (words : List Watch) (handler : Bool) :
    (s.sleepOn words handler).mem = s.mem := by simp [State.sleepOn]

@[simp] theorem State.mem_backOff (s : State) (handler : Bool) :
    (s.backOff handler).mem = s.mem := by simp [State.backOff]

@[simp] theorem State.mem_withRegs {s k : State} (rs : List (BitVec 7)) (h : k.mem = s.mem) :
    (s.withRegs rs k).mem = s.mem := by
  unfold State.withRegs
  split <;> simp [h]

@[simp] theorem State.mem_withType {s : State} (rs : List (BitVec 7)) (ok : EType → Bool) {k : EType → State}
    (h : ∀ t, (k t).mem = s.mem) : (s.withType rs ok k).mem = s.mem := by
  refine State.mem_withRegs rs ?_
  repeat' split
  all_goals simp [h]

@[simp] theorem State.mem_putLanes (s : State) (d : BitVec 7) (f : Nat → Lane × Flags) :
    (s.putLanes d f).mem = s.mem := by simp [State.putLanes]

@[simp] theorem State.mem_putRaw (s : State) (d : BitVec 7) (f : Nat → Lane) :
    (s.putRaw d f).mem = s.mem := by simp [State.putRaw]

@[simp] theorem State.mem_putBits (s : State) (d : BitVec 3) (f : Nat → Bool × Flags) :
    (s.putBits d f).mem = s.mem := by simp [State.putBits]

@[simp] theorem State.mem_elementwise (s : State) (d a b : BitVec 7) (w : Nat) (f : Nat → Nat → Nat → Nat × Flags) :
    (s.elementwise d a b w f).mem = s.mem := by simp [State.elementwise]

@[simp] theorem State.mem_lanewise (s : State) (d a b : BitVec 7) (f : Lane → Lane → Lane → Lane) :
    (s.lanewise d a b f).mem = s.mem := by simp [State.lanewise]

@[simp] theorem State.mem_relate (s : State) (d : BitVec 3) (a b : BitVec 7) (w : Nat) (f : Nat → Nat → Bool × Flags) :
    (s.relate d a b w f).mem = s.mem := by simp [State.relate]

/-! ## Accesses -/

@[simp] theorem State.mem_deliver (s : State) (f : FragId) (dst : Dest) (vals : List Nat) (noted : Bool) :
    (s.deliver f dst vals noted).mem = s.mem := by
  unfold State.deliver
  split <;> simp

@[simp] theorem State.mem_dropAccess (s : State) (n : Nat) : (s.dropAccess n).mem = s.mem := by simp [State.dropAccess]

@[simp] theorem State.mem_answer (s : State) (a : Access) (vals : List Nat) : (s.answer a vals).mem = s.mem := by
  unfold State.answer
  split <;> simp

@[simp] theorem State.mem_dropAwaited (s : State) (f : FragId) :
    (s.dropAwaited f).mem = s.mem := by simp [State.dropAwaited]

@[simp] theorem State.mem_raisePoison (s : State) (a : Access) (va : Word) :
    (s.raisePoison a va).mem = s.mem := by simp [State.raisePoison]

@[simp] theorem State.mem_accessPoison (s : State) (a : Access) (va : Word) :
    (s.accessPoison a va).mem = s.mem := by simp [State.accessPoison]

@[simp] theorem State.mem_latePoison (s : State) (a : Access) (va : Word) :
    (s.latePoison a va).mem = s.mem := by simp [State.latePoison]

@[simp] theorem State.mem_resumeAwait (s : State) (a : Access) : (s.resumeAwait a).mem = s.mem := by
  simp only [State.resumeAwait]
  (repeat' split) <;> simp [foldl_mem]

@[simp] theorem State.mem_setTileState (s : State) (core entry st : Nat) :
    (s.setTileState core entry st).mem = s.mem := by simp [State.setTileState]

@[simp] theorem State.mem_emptyTile (s : State) (core entry : Nat) :
    (s.emptyTile core entry).mem = s.mem := by simp [State.emptyTile]

@[simp] theorem State.mem_finalTile (s : State) (core entry : Nat) :
    (s.finalTile core entry).mem = s.mem := by simp [State.finalTile]

@[simp] theorem State.mem_afterAccess (s : State) (a : Access) : (s.afterAccess a).mem = s.mem := by
  unfold State.afterAccess
  split <;> simp

@[simp] theorem State.mem_suspendAll (s : State) (fails : List ((Nat × Nat) × Word)) (n : Need) :
    (s.suspendAll fails n).mem = s.mem := by simp [State.suspendAll, foldl_mem]

theorem State.mem_xlateWith {s t : State} {refuse : Place × Target → Option (Nat × Nat)} {vas : List Word} {n : Need}
    (h : s.xlateWith refuse vas n = .error t) : t.mem = s.mem := by
  simp only [State.xlateWith] at h
  repeat' split at h
  all_goals cases h <;> simp

/-! ## Attempts and requests -/

@[simp] theorem State.mem_setAttempt (s : State) (a : Attempt) :
    (s.setAttempt a).mem = s.mem := by simp [State.setAttempt]

@[simp] theorem State.mem_txConflict (s : State) (secs : List (Watch × Word)) (write : Bool) :
    (s.txConflict secs write).1.mem = s.mem := by
  simp only [State.txConflict]
  split
  · split_ifs <;> simp [foldl_mem]
  · simp [foldl_mem]

@[simp] theorem State.mem_addRead (s : State) (w : Watch) (va : Word) : (s.addRead w va).1.mem = s.mem := by
  unfold State.addRead
  split
  · rfl
  · split_ifs <;> simp

@[simp] theorem State.mem_addReads (s : State) (ws : List (Watch × Word)) : (s.addReads ws).1.mem = s.mem := by
  induction ws generalizing s with
  | nil => rfl
  | cons w ws ih =>
    simp only [State.addReads]
    split_ifs <;> simp [ih]

@[simp] theorem State.mem_growWrites (s : State) (data : List TxWrite) (va : Word) :
    (s.growWrites data va).1.mem = s.mem := by
  unfold State.growWrites
  split
  · rfl
  · dsimp only
    split <;> simp

@[simp] theorem State.mem_addWrites (s : State) (data : List (Place × Byte)) (va : Word) :
    (s.addWrites data va).1.mem = s.mem := by
  simp [State.addWrites]

@[simp] theorem State.mem_holdCut (s : State) (die : Nat) : (s.holdCut die).mem = s.mem := by simp [State.holdCut]
@[simp] theorem State.mem_takeSeq (s : State) (die chip : Nat) : (s.takeSeq die chip).1.mem = s.mem := rfl

@[simp] theorem State.mem_listAccess (s : State) (a : Access) :
    (s.listAccess a).mem = s.mem := by simp [State.listAccess]

@[simp] theorem State.mem_putOut (s : State) (a : Access) (chip : Nat) : (s.putOut a chip).1.mem = s.mem := by
  simp only [State.putOut]
  split_ifs <;> simp

@[simp] theorem State.mem_sendAccess (s : State) (a : Access) : (s.sendAccess a).mem = s.mem := by
  unfold State.sendAccess
  split
  · split_ifs <;> simp
  · simp

@[simp] theorem State.mem_sendHeld (s : State) : s.sendHeld.mem = s.mem := by
  refine foldl_mem _ (fun t a => ?_) _ _
  split
  · split_ifs <;> simp
  · rfl

theorem State.mem_badPart {s t : State} {parts : List Part} (h : s.badPart parts = some t) : t.mem = s.mem := by
  unfold State.badPart at h
  repeat' split at h
  · cases h
    simp
  · cases h
  · obtain ⟨p, -, rfl⟩ := Option.map_eq_some_iff.1 h
    simp

@[simp] theorem State.mem_askFor (s : State) (o : Owner) (xs : List (Place × Target)) :
    (s.askFor o xs).mem = s.mem := by simp [State.askFor, foldl_mem]

@[simp] theorem State.mem_dropFetched (s : State) (o : Owner) :
    (s.dropFetched o).mem = s.mem := by simp [State.dropFetched]

@[simp] theorem State.mem_txPart (s : State) (p : Part) : (s.txPart p).1.mem = s.mem := by
  unfold State.txPart
  split
  case h_6 =>
    dsimp only
    split <;> split <;> simp
  all_goals simp

@[simp] theorem State.mem_txParts (s : State) (ps : List Part) : (s.txParts ps).mem = s.mem := by
  induction ps generalizing s with
  | nil => simp [State.txParts]
  | cons p ps ih =>
    simp only [State.txParts]
    split <;> simp [ih]

@[simp] theorem State.mem_txPerform (s : State) (parts : List Part) : (s.txPerform parts).mem = s.mem := by
  simp only [State.txPerform]
  repeat' split
  all_goals simp

/-! ## Host queues -/

@[simp] theorem State.mem_askHub (s : State) (who : AskOwner) (ctx access : Nat) (e : HubStop) :
    (s.askHub who ctx access e).mem = s.mem := by
  unfold State.askHub
  split <;> simp

@[simp] theorem State.mem_trapPoison (s : State) (p : Place) (lane : Nat) :
    (s.trapPoison p lane).mem = s.mem := by simp [State.trapPoison]

@[simp] theorem State.mem_setHq (s : State) (q : Nat) (x : HostQueue) :
    (s.setHq q x).mem = s.mem := by simp [State.setHq]

@[simp] theorem State.mem_stayGraph (s : State) (ctx graph : Nat) :
    (s.stayGraph ctx graph).mem = s.mem := by simp [State.stayGraph]

@[simp] theorem State.mem_endAsk (s : State) (who : AskOwner) : (s.endAsk who).mem = s.mem := by simp [State.endAsk]

@[simp] theorem State.mem_dropBegun (s : State) (q : Nat) : (s.dropBegun q).mem = s.mem := by
  simp only [State.dropBegun]
  (repeat' split) <;> simp [foldl_mem]

@[simp] theorem State.mem_stopQueue (s : State) (q st : Nat) :
    (s.stopQueue q st).mem = s.mem := by simp [State.stopQueue]

/-! ## Transfers, reconvergence and waits -/

@[simp] theorem State.mem_newFragment (s : State) (lanes : Lane) (pc : Word) :
    (s.newFragment lanes pc).mem = s.mem := by
  unfold State.newFragment
  split <;> simp

@[simp] theorem State.mem_pushPending (s : State) (lanes : Lane) (pc : Word) :
    (s.pushPending lanes pc).mem = s.mem := by simp [State.pushPending]

@[simp] theorem State.mem_joinParked (s : State) (rid : Nat) : (s.joinParked rid).mem = s.mem := by
  unfold State.joinParked
  split <;> simp

@[simp] theorem State.mem_merge (s : State) (ids : List Nat) : (s.merge ids).mem = s.mem := by
  unfold State.merge
  split <;> simp

@[simp] theorem State.mem_releaseOne (s : State) (core wave : Nat) : (s.releaseOne core wave).mem = s.mem := by
  unfold State.releaseOne
  split <;> simp

@[simp] theorem State.mem_reconvRows (s : State) (rid : Nat) : (s.reconvRows rid).mem = s.mem := by
  simp only [State.reconvRows]
  (repeat' split) <;> simp

@[simp] theorem State.mem_reconverge (s : State) (rid : Nat) :
    (s.reconverge rid).mem = s.mem := by simp [State.reconverge]

@[simp] theorem State.mem_releaseAll (s : State) : s.releaseAll.mem = s.mem := by
  unfold State.releaseAll
  split
  · exact foldl_mem _ (fun t x => by split <;> simp) _ _
  · rfl

@[simp] theorem State.mem_acquire (s : State) (d : BitVec 6) (n : Nat) (emergency : Bool) :
    (s.acquire d n emergency).mem = s.mem := by
  simp only [State.acquire]
  split_ifs <;> simp

@[simp] theorem State.mem_stampAge (s : State) : (s.stampAge).mem = s.mem := by simp [State.stampAge]

@[simp] theorem State.mem_registerOn (s : State) (words : List Watch) (handler : Bool) :
    (s.registerOn words handler).mem = s.mem := by
  unfold State.registerOn
  dsimp only
  split
  · simp
  · rw [State.mem_backOff, State.mem_report]

@[simp] theorem State.mem_waitOn (s : State) (w : Watch) : (s.waitOn w).mem = s.mem := by simp [State.waitOn]

@[simp] theorem State.mem_rollBack (s : State) (a : Attempt) (alt : Alternative) (rest : List Alternative) :
    (s.rollBack a alt rest).mem = s.mem := by simp [State.rollBack]

@[simp] theorem State.mem_noteEarly (s : State) (w : Watch) : (s.noteEarly w).mem = s.mem := by simp [State.noteEarly]

@[simp] theorem State.mem_actRetry (s : State) : (s.actRetry).mem = s.mem := by
  simp only [State.actRetry]
  (repeat' split) <;> simp

@[simp] theorem State.mem_waitFor (s : State) (w : Watch) : (s.waitFor w).mem = s.mem := by
  simp only [State.waitFor]
  split_ifs <;> simp

@[simp] theorem State.mem_waitAllowance (s : State) (k : Nat) : (s.waitAllowance k).mem = s.mem := by
  unfold State.waitAllowance
  split <;> simp

@[simp] theorem State.mem_endAllowWait (s : State) (f : FragId) : (s.endAllowWait f).mem = s.mem := by
  unfold State.endAllowWait
  split <;> simp

@[simp] theorem State.mem_wakeFrag (s : State) (f : FragId) (why : Nat) : (s.wakeFrag f why).mem = s.mem := by
  simp only [State.wakeFrag]
  (repeat' split) <;> simp

@[simp] theorem State.mem_wakeOn (s : State) (core : Nat) (word : Watch) (early : List Nat) :
    (s.wakeOn core word early).mem = s.mem := by simp [State.wakeOn, foldl_mem]

@[simp] theorem State.mem_registered (s : State) (f : FragId) :
    (s.registered f).mem = s.mem := by simp [State.registered]

@[simp] theorem State.mem_trapMisaligned (s : State) (a : Word) (lane : Nat) :
    (s.trapMisaligned a lane).mem = s.mem := by simp [State.trapMisaligned]

@[simp] theorem State.mem_markFence (s : State) (kinds : List Nat) :
    (s.markFence kinds).mem = s.mem := by simp [State.markFence, foldl_mem]

@[simp] theorem State.mem_callTo (s : State) (t : Word) : (s.callTo t).mem = s.mem := by simp [State.callTo]
@[simp] theorem State.mem_trapStackFull (s : State) : (s.trapStackFull).mem = s.mem := by simp [State.trapStackFull]

@[simp] theorem State.mem_splitOff (s : State) (out : Lane) (outPc : Word) (stay : Lane) (stayPc : Word) :
    (s.splitOff out outPc stay stayPc).mem = s.mem := by simp [State.splitOff]

@[simp] theorem State.mem_spread (s : State) (dest : Nat → Word) (m : Lane) (ts : List Word) :
    (s.spread dest m ts).mem = s.mem := by
  induction ts generalizing s with
  | nil => rfl
  | cons t ts ih => simp [State.spread, ih]

@[simp] theorem State.mem_pushAll (s : State) (dest : Nat → Word) (m : Lane) (ts : List Word) :
    (s.pushAll dest m ts).mem = s.mem := by
  induction ts generalizing s with
  | nil => rfl
  | cons t ts ih => simp [State.pushAll, ih]

@[simp] theorem State.mem_jumpSets (s : State) (dest : Nat → Word) : (s.jumpSets dest).mem = s.mem := by
  simp only [State.jumpSets]
  repeat' split
  all_goals simp

@[simp] theorem State.mem_trapTile (s : State) (detail : Nat) :
    (s.trapTile detail).mem = s.mem := by simp [State.trapTile]

@[simp] theorem State.mem_setTo (s : State) (core entry x : Nat) :
    (s.setTo core entry x).mem = s.mem := by simp [State.setTo]

/-! ## The matrix engine -/

@[simp] theorem State.mem_setBank (s : State) (core : Nat) (b : Bank) :
    (s.setBank core b).mem = s.mem := by simp [State.setBank]

@[simp] theorem State.mem_changeBank (s : State) (core : Nat) (b : Bank) :
    (s.changeBank core b).mem = s.mem := by simp [State.changeBank]

@[simp] theorem State.mem_setAcc (s : State) (k : Nat) (x : Lane) : (s.setAcc k x).mem = s.mem := by simp [State.setAcc]

@[simp] theorem State.mem_emptySets (s : State) (core ctx : Nat) :
    (s.emptySets core ctx).mem = s.mem := by simp [State.emptySets]

@[simp] theorem State.mem_forgetUser (s : State) (u : SetUser) :
    (s.forgetUser u).mem = s.mem := by simp [State.forgetUser]

@[simp] theorem State.mem_applyMat (s : State) (core : Nat) (o : MatOp) : (s.applyMat core o).1.mem = s.mem := by
  have hz : ∀ (u : State) (f : Nat → Nat) (n : Nat), ((List.range n).foldl (fun v j => v.setAcc (f j) 0) u).mem = u.mem :=
    fun u f n => foldl_mem _ (fun _ _ => by simp) _ _
  simp only [State.applyMat]
  split
  · rw [foldl_fst_mem _ fun r row => foldl_fst_mem _ (fun q j => by simp) _ _]
    split
    · exact foldl_mem _ (fun u i => hz u _ _) _ _
    · rfl
  · exact foldl_fst_mem _ (fun r i => foldl_fst_mem _ (fun q j => by simp) _ _) _ _

@[simp] theorem State.mem_setCopies (s : State) (core : Nat) (r : CopyRow) :
    (s.setCopies core r).mem = s.mem := by simp [State.setCopies]

@[simp] theorem State.mem_noteCarried (s : State) (core : Nat) (n : Option Nat) :
    (s.noteCarried core n).mem = s.mem := by
  unfold State.noteCarried
  split <;> simp

@[simp] theorem State.mem_setPending (s : State) (core : Nat) (q : List MatOp) :
    (s.setPending core q).mem = s.mem := by simp [State.setPending]

@[simp] theorem State.mem_completeMat (s : State) (core : Nat) : (s.completeMat core).mem = s.mem := by
  unfold State.completeMat
  split
  · rfl
  · dsimp only
    split <;> simp

@[simp] theorem State.mem_completeThrough (s : State) (core : Nat) (p : MatOp → Bool) :
    (s.completeThrough core p).mem = s.mem := by simp [State.completeThrough, foldl_mem]

@[simp] theorem State.mem_settleAccs (s : State) (oper core first n : Nat) :
    (s.settleAccs oper core first n).mem = s.mem := by simp [State.settleAccs]

@[simp] theorem State.mem_settleFlags (s : State) : (s.settleFlags).mem = s.mem := by simp [State.settleFlags]

@[simp] theorem State.mem_queueMat (s : State) (core : Nat) (o : MatOp) :
    (s.queueMat core o).mem = s.mem := by simp [State.queueMat, foldl_mem]

@[simp] theorem State.mem_zeroAccs (s : State) (oper core first n : Nat) :
    (s.zeroAccs oper core first n).mem = s.mem := by simp [State.zeroAccs]

@[simp] theorem State.mem_swapBanks (s : State) (core : Nat) :
    (s.swapBanks core).mem = s.mem := by simp [State.swapBanks]

/-! ## Copies and timelines -/

@[simp] theorem State.mem_bufferCmd (s : State) (c : Command) : (s.bufferCmd c).mem = s.mem := by
  unfold State.bufferCmd
  split <;> simp

@[simp] theorem State.mem_setCounter (s : State) (oper core k : Nat) (t : Timeline) :
    (s.setCounter oper core k t).mem = s.mem := by simp [State.setCounter]

@[simp] theorem State.mem_readTiles (s : State) (fn : Nat) (ws : List Word) : (s.readTiles fn ws).1.mem = s.mem := by
  simp [State.readTiles]

theorem State.mem_copyCheck {s t : State} {fn : Nat} {ws : List Word} (h : s.copyCheck fn ws = some t) :
    t.mem = s.mem := by
  simp only [State.copyCheck] at h
  repeat' split at h
  all_goals cases h <;> simp

@[simp] theorem State.mem_copyRecord (s : State) (core : Nat) (c : CopyCmd) (detail access second : Nat) (va : Word) :
    (s.copyRecord core c detail access second va).mem = s.mem := by simp [State.copyRecord]

@[simp] theorem State.mem_countTile (s : State) (core : Nat) (add : Bool) (e : Nat) :
    (s.countTile core add e).mem = s.mem := by simp [State.countTile]

@[simp] theorem State.mem_copyIssue (s : State) (fn : Nat) (c : Command) (release : Bool) (scope : Nat) :
    (s.copyIssue fn c release scope).mem = s.mem := by
  simp only [State.copyIssue]
  (repeat' split) <;> simp [foldl_mem]

@[simp] theorem State.mem_copy (s : State) (fn : Nat) (b : BitVec 6) (t : BitVec 4) : (s.copy fn b t).mem = s.mem := by
  simp only [State.copy]
  repeat' split
  case h_1 h => exact State.mem_copyCheck h
  all_goals simp

@[simp] theorem State.mem_putCopy (s : State) (core : Nat) (c : CopyCmd) :
    (s.putCopy core c).mem = s.mem := by simp [State.putCopy]

@[simp] theorem State.mem_dropCopy (s : State) (core : Nat) (c : CopyCmd) : (s.dropCopy core c).mem = s.mem := by
  simp only [State.dropCopy]
  rw [foldl_mem _ (fun t x => by split <;> simp), State.mem_setCopies]

@[simp] theorem State.mem_failCopy (s : State) (core : Nat) (c : CopyCmd) (detail access second : Nat) (va : Word) :
    (s.failCopy core c detail access second va).mem = s.mem := by
  unfold State.failCopy
  split <;> simp

@[simp] theorem State.mem_linkLost (s : State) (ctx chip : Nat) :
    (s.linkLost ctx chip).mem = s.mem := by simp [State.linkLost]

@[simp] theorem State.mem_loseCopy (s : State) (core : Nat) (c : CopyCmd) (chip access : Nat) (va : Word) :
    (s.loseCopy core c chip access va).mem = s.mem := by simp [State.loseCopy]

@[simp] theorem State.mem_loseCopies (s : State) (chip : Nat) :
    (s.loseCopies chip).mem = s.mem := by simp [State.loseCopies, foldl_mem]

@[simp] theorem State.mem_servedCopy (s : State) (core : Nat) (c : CopyCmd) :
    (s.servedCopy core c).mem = s.mem := by simp [State.servedCopy]

@[simp] theorem State.mem_endCopy (s : State) (core : Nat) (c : CopyCmd) :
    (s.endCopy core c).mem = s.mem := by simp [State.endCopy]

@[simp] theorem State.mem_finishCopy (s : State) (core : Nat) (c : CopyCmd) : (s.finishCopy core c).mem = s.mem := by
  unfold State.finishCopy
  split <;> simp

@[simp] theorem State.mem_stopCarried (s : State) (core : Nat) (c : CopyCmd) (m : MatStop) :
    (s.stopCarried core c m).mem = s.mem := by
  simp only [State.stopCarried]
  (repeat' split) <;> simp

@[simp] theorem State.mem_queueCarried (s : State) (core : Nat) (c : CopyCmd) (k : MatKind) :
    (s.queueCarried core c k).mem = s.mem := by simp [State.queueCarried, foldl_mem]

@[simp] theorem State.mem_issueCarried (s : State) (core : Nat) (c : CopyCmd) :
    (s.issueCarried core c).mem = s.mem := by
  simp only [State.issueCarried]
  (repeat' split) <;> simp

@[simp] theorem State.mem_tlincIssue (s : State) (c : Command) :
    (s.tlincIssue c).mem = s.mem := by simp [State.tlincIssue]

@[simp] theorem State.mem_clearCounter (s : State) (oper core k : Nat) :
    (s.clearCounter oper core k).mem = s.mem := by simp [State.clearCounter]

@[simp] theorem State.mem_tlincClearIssue (s : State) (c : Command) :
    (s.tlincClearIssue c).mem = s.mem := by simp [State.tlincClearIssue]

/-! ## Budgets and rounds -/

@[simp] theorem State.mem_chargeClass (s : State) (ctx cls res : Nat) (amount : Int) :
    (s.chargeClass ctx cls res amount).mem = s.mem := by simp [State.chargeClass]

@[simp] theorem State.mem_chargeTasks (s : State) : s.chargeTasks.mem = s.mem :=
  foldl_mem _ (fun t x => by split <;> simp) _ _

@[simp] theorem State.mem_chargeCycle (s : State) : s.chargeCycle.mem = s.mem := by
  simp only [State.chargeCycle, State.takeFresh_mem]
  rw [foldl_mem _ (fun t x => by split_ifs <;> simp), State.mem_chargeTasks]

@[simp] theorem State.mem_setRound (s : State) (n : Nat) (r : Round) :
    (s.setRound n r).mem = s.mem := by simp [State.setRound]

@[simp] theorem State.mem_boardSeats (s : State) (oper n stop : Nat) :
    (s.boardSeats oper n stop).mem = s.mem := by simp [State.boardSeats]

@[simp] theorem State.mem_board (s : State) (oper ctx : Nat) (w : Word) : (s.board oper ctx w).1.mem = s.mem := by
  simp only [State.board]
  repeat' split
  all_goals simp

@[simp] theorem State.mem_leaveRound (s : State) (oper : Nat) : (s.leaveRound oper).1.mem = s.mem := by
  unfold State.leaveRound
  split <;> rfl

@[simp] theorem State.mem_boardTask (s : State) (w : Word) : (s.boardTask w).1.mem = s.mem := by
  simp only [State.boardTask]
  split_ifs <;> rfl

@[simp] theorem State.mem_leaveTask (s : State) : s.leaveTask.1.mem = s.mem := by
  unfold State.leaveTask
  split <;> rfl

@[simp] theorem State.mem_boardIssue (s : State) (c : Command) : (s.boardIssue c).mem = s.mem := by
  simp only [State.boardIssue]
  split <;> simp

@[simp] theorem State.mem_boarding (s : State) (k : CmdKind) (d : BitVec 6) (regs : List Word) :
    (s.boarding k d regs).mem = s.mem := by simp [State.boarding]

@[simp] theorem State.mem_releaseCore (s : State) (core : Nat) :
    (s.releaseCore core).mem = s.mem := by simp [State.releaseCore]

@[simp] theorem State.mem_detachSeat (s : State) (oper core : Nat) (keep : Bool) :
    (s.detachSeat oper core keep).mem = s.mem := by simp [State.detachSeat]

@[simp] theorem State.mem_beginGroup (s : State) (n : Nat) (r : Round) (cores : List Nat) :
    (s.beginGroup n r cores).mem = s.mem := by simp [State.beginGroup, foldl_mem]

@[simp] theorem State.mem_noteExpert (s : State) (ctx expert : Nat) :
    (s.noteExpert ctx expert).mem = s.mem := by simp [State.noteExpert]

@[simp] theorem State.mem_sampleSector (s : State) (n core k : Nat) : (s.sampleSector n core k).mem = s.mem := by
  simp only [State.sampleSector]
  (repeat' split) <;> simp

@[simp] theorem State.mem_blockRecord (s : State) (n : Nat) (r : Round) (e : BitVec 256) (core cause detail word7 : Nat)
    :
    (s.blockRecord n r e core cause detail word7).1.mem = s.mem := by
  simp [State.blockRecord]

@[simp] theorem State.mem_chargeRound (s : State) (n bytes : Nat) :
    (s.chargeRound n bytes).mem = s.mem := by simp [State.chargeRound, foldl_mem]

@[simp] theorem State.mem_fillCores (s : State) (e : BitVec 256) (raw : Option (List Byte)) (cores : List Nat) :
    (s.fillCores e raw cores).mem = s.mem := by
  simp only [State.fillCores]
  (repeat' split) <;> simp [foldl_mem]

@[simp] theorem State.mem_stopRound (s : State) (n : Nat) (r : Round) (e : BitVec 256) (core : Nat) :
    (s.stopRound n r e core).mem = s.mem := by
  simp [State.stopRound]

theorem State.mem_creamBlock {s t : State} {n : Nat} {r : Round} {e : BitVec 256} {core : Nat}
    (h : s.creamBlock n r e core = some t) : t.mem = s.mem := by
  unfold State.creamBlock at h
  split at h <;> cases h <;> simp

@[simp] theorem State.mem_creamBlocks (s : State) (n : Nat) (r : Round) (e : BitVec 256) (cs : List Nat) :
    (s.creamBlocks n r e cs).mem = s.mem := by
  induction cs generalizing s with
  | nil => simp [State.creamBlocks]
  | cons c cs ih =>
    simp only [State.creamBlocks]
    split
    · next h => rw [ih, State.mem_creamBlock h]
    · simp

/-! ## Queues and records -/

@[simp] theorem State.mem_setQueue (s : State) (q : Nat) (x : TokenQueue) :
    (s.setQueue q x).mem = s.mem := by simp [State.setQueue]

@[simp] theorem State.mem_changeQueue (s : State) (q : Nat) (x : TokenQueue) :
    (s.changeQueue q x).mem = s.mem := by simp [State.changeQueue]

@[simp] theorem State.mem_pushWaits (s : State) (q : Nat) (e : PushStop) : (s.pushWaits q e).mem = s.mem := by
  unfold State.pushWaits
  split <;> simp

@[simp] theorem State.mem_endSpill (s : State) (q : Nat) : (s.endSpill q).mem = s.mem := by simp [State.endSpill]

@[simp] theorem State.mem_pushFailed (s : State) (q status : Nat) :
    (s.pushFailed q status).mem = s.mem := by simp [State.pushFailed]

@[simp] theorem State.mem_makeLive (s : State) (core entry ctx task : Nat) (rs : List (List Word)) :
    (s.makeLive core entry ctx task rs).mem = s.mem := by simp [State.makeLive]

@[simp] theorem State.mem_dropRow (s : State) (core entry row : Nat) :
    (s.dropRow core entry row).mem = s.mem := by simp [State.dropRow]

@[simp] theorem State.mem_trapRecord (s : State) (va : Word) (detail : Nat) :
    (s.trapRecord va detail).mem = s.mem := by simp [State.trapRecord]

@[simp] theorem State.mem_suspendScope (s : State) (q detail : Nat) :
    (s.suspendScope q detail).mem = s.mem := by simp [State.suspendScope]

@[simp] theorem State.mem_addTokenOp (s : State) (o : TokenOp) (data : List (Place × Byte)) :
    (s.addTokenOp o data).1.mem = s.mem := by
  simp only [State.addTokenOp]
  repeat' split
  all_goals simp

@[simp] theorem State.mem_freeIssue (s : State) (c : Command) : (s.freeIssue c).mem = s.mem := by
  unfold State.freeIssue
  split <;> simp

@[simp] theorem State.mem_countExperts (s : State) (ctx : Nat) (es : List Nat) :
    (s.countExperts ctx es).mem = s.mem := by simp [State.countExperts, foldl_mem]

@[simp] theorem State.mem_clearCounts (s : State) (d : BitVec 6) :
    (s.clearCounts d).mem = s.mem := by simp [State.clearCounts]

@[simp] theorem State.mem_setChain (s : State) (core : Nat) (c : Chain) :
    (s.setChain core c).mem = s.mem := by simp [State.setChain]

@[simp] theorem State.mem_skim (s : State) {f : Chain → State → State} (h : ∀ c t, (f c t).mem = t.mem) :
    (s.skim f).mem = s.mem := by
  unfold State.skim
  repeat' split
  all_goals simp [h]

@[simp] theorem State.mem_saveChain (s : State) (core : Nat) : (s.saveChain core).mem = s.mem := by
  simp only [State.saveChain]
  (repeat' split) <;> simp

@[simp] theorem State.mem_endChain (s : State) (core task : Nat) : (s.endChain core task).mem = s.mem := by
  unfold State.endChain
  split <;> simp

@[simp] theorem State.mem_endRows (s : State) (core task : Nat) :
    (s.endRows core task).mem = s.mem := by simp [State.endRows, foldl_mem]

/-! ## Packets and other chips -/

@[simp] theorem State.mem_useFlits (s : State) (k n : Nat) : (s.useFlits k n).mem = s.mem := by simp [State.useFlits]

@[simp] theorem State.mem_sendPacket (s : State) (c : Command) (r : RowRef) : (s.sendPacket c r).mem = s.mem := by
  simp only [State.sendPacket]
  (repeat' split) <;> simp

@[simp] theorem State.mem_pksendIssue (s : State) (c : Command) : (s.pksendIssue c).mem = s.mem := by
  unfold State.pksendIssue
  split <;> simp

@[simp] theorem State.mem_performSeq (s : State) (k seq : Nat) (result : Option (Option Nat)) :
    (s.performSeq k seq result).mem = s.mem := by simp [State.performSeq]

@[simp] theorem State.mem_reply (s : State) (r : Reply) : (s.reply r).mem = s.mem := by simp [State.reply]

@[simp] theorem State.mem_endFlight (s : State) (f : Flight) : (s.endFlight f).mem = s.mem := by
  simp only [State.endFlight]
  (repeat' split) <;> simp

@[simp] theorem State.mem_setFlight (s : State) (f : Flight) : (s.setFlight f).mem = s.mem := by simp [State.setFlight]

@[simp] theorem State.mem_stopFlight (s : State) (f : Flight) (va : Word) (cause detail : Nat) :
    (s.stopFlight f va cause detail).mem = s.mem := by simp [State.stopFlight]

theorem State.mem_arrivalRecord {s : State} {f : Flight} {x : State × List Word} (h : s.arrivalRecord f = some x) :
    x.1.mem = s.mem := by
  simp only [State.arrivalRecord] at h
  repeat' split at h
  all_goals cases h <;> rfl

@[simp] theorem State.mem_discardFlight (s : State) (f : Flight) :
    (s.discardFlight f).mem = s.mem := by simp [State.discardFlight]

@[simp] theorem State.mem_answerAgain (s : State) (r : RemoteRequest) (pair seq : Nat) :
    (s.answerAgain r pair seq).mem = s.mem := by
  simp only [State.answerAgain]
  (repeat' split) <;> simp

@[simp] theorem State.mem_acked (s : State) (a : Access) : (s.acked a).mem = s.mem := by simp [State.acked]

@[simp] theorem State.mem_keepFetched (s : State) (a : Access) (data : List Byte) (poisoned : Bool) :
    (s.keepFetched a data poisoned).mem = s.mem := by
  unfold State.keepFetched
  split <;> simp

@[simp] theorem State.mem_answered (s : State) (a : Access) (data : List Byte) (poisoned : Bool) :
    (s.answered a data poisoned).mem = s.mem := by
  simp only [State.answered]
  (repeat' split) <;> simp

@[simp] theorem State.mem_noteRoutes (s : State) : (s.noteRoutes).mem = s.mem := by simp [State.noteRoutes]

@[simp] theorem State.mem_resend (s : State) (a : Access) : (s.resend a).mem = s.mem := by
  simp only [State.resend]
  (repeat' split) <;> simp

@[simp] theorem State.mem_resendFrom (s : State) (port : Option Nat) :
    (s.resendFrom port).mem = s.mem := by simp [State.resendFrom, foldl_mem]

@[simp] theorem State.mem_failChip (s : State) (chip : Nat) :
    (s.failChip chip).mem = s.mem := by simp [State.failChip, foldl_mem]

@[simp] theorem State.mem_runTick (s : State) (ns : Nat) : (s.runTick ns).mem = s.mem := by simp [State.runTick]

/-! ## Churns -/

@[simp] theorem State.mem_setChurnRow (s : State) (core : Nat) (r : ChurnRow) :
    (s.setChurnRow core r).mem = s.mem := by simp [State.setChurnRow]

@[simp] theorem State.mem_setChurn (s : State) (core i : Nat) (c : Churn) :
    (s.setChurn core i c).mem = s.mem := by simp [State.setChurn]

@[simp] theorem State.mem_setNet (s : State) (core i : Nat) (n : Net) :
    (s.setNet core i n).mem = s.mem := by simp [State.setNet]

@[simp] theorem State.mem_setImage (s : State) (core ctx slot : Nat) (g : ChurnImage) :
    (s.setImage core ctx slot g).mem = s.mem := by simp [State.setImage]

@[simp] theorem State.mem_setMism (s : State) (core : Nat) (n : Net) : (s.setMism core n).mem = s.mem := by
  unfold State.setMism
  split <;> simp

@[simp] theorem State.mem_xopFlags (s : State) (x : XopRec) (f : Flags) :
    (s.xopFlags x f).mem = s.mem := by simp [State.xopFlags]

@[simp] theorem State.mem_lateFlags (s : State) (n : Net) (e : Option (Nat × Nat × Nat × Flags)) :
    (s.lateFlags n e).mem = s.mem := by
  simp only [State.lateFlags]
  (repeat' split) <;> simp

@[simp] theorem State.mem_moveNet (s : State) (core i : Nat) (n : Net) :
    (s.moveNet core i n).mem = s.mem := by simp [State.moveNet]

@[simp] theorem State.mem_netStep (s : State) (core i : Nat) (n : Net) (e : NetEffect) :
    (s.netStep core i n e).mem = s.mem := by simp [State.netStep]

@[simp] theorem State.mem_agFault (s : State) (core churn ag : Nat) (n : Net) (x : Option XopRec) (va : Word)
    (write : Bool) (detail : Nat) : (s.agFault core churn ag n x va write detail).mem = s.mem := by
  simp [State.agFault]

@[simp] theorem State.mem_agFlags (s : State) (n : Net) (num k : Nat) (f : Nat → Flags) :
    (s.agFlags n num k f).1.mem = s.mem :=
  foldl_fst_mem _ (fun r c => by simp) _ _

@[simp] theorem State.mem_unpark (s : State) (core i : Nat) (n : Net) :
    (s.unpark core i n).mem = s.mem := by simp [State.unpark]

@[simp] theorem State.mem_endFlags (s : State) (n : Net) : (s.endFlags n).mem = s.mem := by
  unfold State.endFlags
  repeat' split
  case isTrue => exact foldl_mem _ (fun t x => by split <;> simp) _ _
  all_goals rfl

@[simp] theorem State.mem_markStreams (s : State) (core : Nat) (p : Net → Bool) :
    (s.markStreams core p).mem = s.mem := by
  simp only [State.markStreams]
  split
  case' isFalse => rw [State.mem_setChurnRow]
  all_goals
    rw [foldl_mem _ fun t i => ?_, foldl_mem _ fun t n => t.mem_endFlags n]
    repeat' split
    all_goals simp

@[simp] theorem State.mem_endStreams (s : State) (f : FragId) :
    (s.endStreams f).mem = s.mem := by simp [State.endStreams]

@[simp] theorem State.mem_clearSlot (s : State) (core ctx slot : Nat) : (s.clearSlot core ctx slot).mem = s.mem := by
  have h := foldl_mem (fun (t : State) i => if (t.churn core i).has ctx slot then t.setChurn core i Churn.reset else t)
    (fun t x => by split <;> simp) (List.range 4) s
  simp only [State.clearSlot]
  split <;> simp [h]

@[simp] theorem State.mem_trapGraph (s : State) (va : Word) (detail : Nat) :
    (s.trapGraph va detail).mem = s.mem := by simp [State.trapGraph]

@[simp] theorem State.mem_writePort (s : State) (n : Net) (g : ChurnImage) (num j : Nat) (x : XopRec) (port : Nat) :
    (s.writePort n g num j x port).mem = s.mem := by simp [State.writePort]

@[simp] theorem State.mem_finishXop (s : State) (core i : Nat) (n : Net) (g : ChurnImage) (v : Invocation) (j : Nat)
    (x : XopRec) : (s.finishXop core i n g v j x).mem = s.mem := by
  simp [State.finishXop, foldl_mem]

/-! ## Tasks, waves and contexts -/

theorem State.mem_writeSpecial {s t : State} {idx : Nat} {x : Word} (h : s.writeSpecial idx x = some t) :
    t.mem = s.mem := by
  unfold State.writeSpecial at h
  repeat' split at h
  all_goals cases h <;> simp

@[simp] theorem State.mem_endTile (s : State) (t : Task) : (s.endTile t).mem = s.mem := by simp [State.endTile]
@[simp] theorem State.mem_dropWaves (s : State) (t : Task) : (s.dropWaves t).mem = s.mem := by simp [State.dropWaves]

@[simp] theorem State.mem_dropTask (s : State) (key : Nat) (t : Task) :
    (s.dropTask key t).mem = s.mem := by simp [State.dropTask]

@[simp] theorem State.mem_endTask (s : State) (key : Nat) : (s.endTask key).mem = s.mem := by simp [State.endTask]
@[simp] theorem State.mem_endWave (s : State) (f : FragId) : (s.endWave f).mem = s.mem := by simp [State.endWave]
@[simp] theorem State.mem_endFragment (s : State) : (s.endFragment).mem = s.mem := by simp [State.endFragment]

@[simp] theorem State.mem_beginWave (s : State) (key : Nat) (t : Task) (w : Nat) (r : Role) (index : Nat) :
    (s.beginWave key t w r index).mem = s.mem := by simp [State.beginWave]

@[simp] theorem State.mem_grant (s : State) (core n : Nat) : (s.grant core n).mem = s.mem := by simp [State.grant]

@[simp] theorem State.mem_startFired (s : State) (key : Nat) (t : Task) :
    (s.startFired key t).mem = s.mem := by simp [State.startFired, foldl_mem]

@[simp] theorem State.mem_moveWave (s : State) (old new : FragId) :
    (s.moveWave old new).mem = s.mem := by simp [State.moveWave]

@[simp] theorem State.mem_startSaved (s : State) (key : Nat) (t : Task) :
    (s.startSaved key t).mem = s.mem := by simp [State.startSaved, foldl_mem]

@[simp] theorem State.mem_removeWaves (s : State) (key : Nat) (t : Task) :
    (s.removeWaves key t).mem = s.mem := by simp [State.removeWaves]

@[simp] theorem State.mem_retireRows (s : State) (key : Nat) :
    (s.retireRows key).mem = s.mem := by simp [State.retireRows]

@[simp] theorem State.mem_discardTask (s : State) (key : Nat) :
    (s.discardTask key).mem = s.mem := by simp [State.discardTask]

@[simp] theorem State.mem_discardTasks (s : State) (keys : List Nat) :
    (s.discardTasks keys).mem = s.mem := by simp [State.discardTasks, foldl_mem]

@[simp] theorem State.mem_dropNets (s : State) (ctx : Nat) : (s.dropNets ctx).mem = s.mem := by simp [State.dropNets]

@[simp] theorem State.mem_removeQueue (s : State) (q : Nat) :
    (s.removeQueue q).mem = s.mem := by simp [State.removeQueue]

@[simp] theorem State.mem_removeQueues (s : State) (ctx : Nat) (p : Nat → Bool) :
    (s.removeQueues ctx p).mem = s.mem := by simp [State.removeQueues, foldl_mem]

@[simp] theorem State.mem_removeGraphs (s : State) (ctx : Nat) (p : Nat → Bool) :
    (s.removeGraphs ctx p).mem = s.mem := by simp [State.removeGraphs]

@[simp] theorem State.mem_leaveGraph (s : State) (ctx graph : Nat) :
    (s.leaveGraph ctx graph).mem = s.mem := by simp [State.leaveGraph]

@[simp] theorem State.mem_leaveCore (s : State) (core ctx : Nat) :
    (s.leaveCore core ctx).mem = s.mem := by simp [State.leaveCore]

@[simp] theorem State.mem_dropOperators (s : State) : (s.dropOperators).mem = s.mem := by simp [State.dropOperators]
@[simp] theorem State.mem_dropRounds (s : State) : (s.dropRounds).mem = s.mem := by simp [State.dropRounds, foldl_mem]

@[simp] theorem State.mem_dropLaunches (s : State) (ctx : Nat) (p : Nat → Bool) :
    (s.dropLaunches ctx p).mem = s.mem := by simp [State.dropLaunches]

@[simp] theorem State.mem_endContext (s : State) (ctx : Nat) (st : CtxState) :
    (s.endContext ctx st).mem = s.mem := by simp [State.endContext]

@[simp] theorem State.mem_terminate (s : State) (ctx : Nat) : (s.terminate ctx).mem = s.mem := by simp [State.terminate]

@[simp] theorem State.mem_loseContext (s : State) (ctx : Nat) :
    (s.loseContext ctx).mem = s.mem := by simp [State.loseContext]

@[simp] theorem State.mem_forgetContext (s : State) (ctx : Nat) :
    (s.forgetContext ctx).mem = s.mem := by simp [State.forgetContext]

@[simp] theorem State.mem_dropContexts (s : State) : s.dropContexts.mem = s.mem :=
  foldl_mem _ (fun t x => by split <;> simp) _ _

@[simp] theorem State.mem_reap (s : State) : (s.reap).mem = s.mem := by simp [State.reap]

@[simp] theorem State.mem_preemptContext (s : State) (ctx : Nat) :
    (s.preemptContext ctx).mem = s.mem := by simp [State.preemptContext]

@[simp] theorem State.mem_wakeSaved (s : State) (f : FragId) (handler : Bool) :
    (s.wakeSaved f handler).mem = s.mem := by simp [State.wakeSaved]

@[simp] theorem State.mem_saveFrag (s : State) (f : FragId) : (s.saveFrag f).mem = s.mem := by
  simp only [State.saveFrag]
  (repeat' split) <;> simp

@[simp] theorem State.mem_saveWaiting (s : State) (key : Nat) (t : Task) :
    (s.saveWaiting key t).mem = s.mem := by simp [State.saveWaiting]

@[simp] theorem State.mem_saveTask (s : State) (key : Nat) : (s.saveTask key).mem = s.mem := by
  simp only [State.saveTask]
  (repeat' split) <;> simp [foldl_mem]

@[simp] theorem State.mem_moveAccess (s : State) (a : Access) : (s.moveAccess a).mem = s.mem := by
  unfold State.moveAccess
  split <;> simp

@[simp] theorem State.mem_homeAccess (oper core : Nat) (image : List (Place × Target)) (s : State) (a : Access) :
    (State.homeAccess oper core image s a).mem = s.mem := by
  simp only [State.homeAccess]
  split <;> simp

@[simp] theorem State.mem_reboard (s : State) (ctx : Nat) (was : List (Nat × Nat × Nat)) :
    (s.reboard ctx was).mem = s.mem :=
  foldl_mem _ (fun t x => by simp) _ _

@[simp] theorem State.mem_unsuspend (s : State) (f : FragId) : (s.unsuspend f).mem = s.mem := by
  unfold State.unsuspend
  split <;> simp

@[simp] theorem State.mem_forceReset (s : State) (ctx : Nat) : (s.forceReset ctx).mem = s.mem := by
  simp only [State.forceReset, State.setCtx_mem]
  rw [foldl_mem _ fun t k => foldl_mem _ (fun u e => by split <;> simp) _ _]
  simp

/-! ## The front end -/

@[simp] theorem State.mem_startLoad (s : State) (kind : Nat) :
    (s.startLoad kind).mem = s.mem := by simp [State.startLoad]

@[simp] theorem State.mem_setLoad (s : State) (f : Control → Control) :
    (s.setLoad f).mem = s.mem := by simp [State.setLoad]

@[simp] theorem State.mem_setAdmin (s : State) (f : Control → Control) :
    (s.setAdmin f).mem = s.mem := by simp [State.setAdmin]

@[simp] theorem State.mem_hostRemoteAtomic (s : State) (o : Owner) (off chip : Nat) (xs : List (Place × Target))
    (op : AtomicOp) (x y : Word) : (s.hostRemoteAtomic o off chip xs op x y).1.mem = s.mem := by
  unfold State.hostRemoteAtomic
  split_ifs <;> simp

@[simp] theorem State.mem_putOperator (s : State) (ctx graph oper : Nat) (o : OpPlan) (spots : List Spot) :
    (s.putOperator ctx graph oper o spots).mem = s.mem := by simp [State.putOperator]

@[simp] theorem State.mem_reserve (s : State) (ctx : Nat) (g : GraphPlan) :
    (s.reserve ctx g).mem = s.mem := by simp [State.reserve, foldl_mem]

@[simp] theorem State.mem_putQueues (s : State) (g : GraphPlan) : (s.putQueues g).mem = s.mem :=
  foldl_mem _ (fun t x => by dsimp only; split <;> simp) _ _

@[simp] theorem State.mem_putGraph (s : State) (ctx : Nat) (g : GraphPlan) (spots : List Spot) :
    (s.putGraph ctx g spots).mem = s.mem := by
  simp only [State.putGraph]
  (repeat' split) <;> simp [foldl_mem]

theorem State.mem_installGraph {s : State} {r : Reader} {addr : Nat} {x : State × Nat}
    (h : s.installGraph r addr = .ok x) : x.1.mem = s.mem := by
  unfold State.installGraph at h
  split at h
  · cases h
    rfl
  · cases hg : s.readGraph r addr with
    | error e => rw [hg] at h; cases h
    | ok g =>
      rw [hg] at h
      cases h
      dsimp only
      split <;> simp

@[simp] theorem State.mem_retireEffect (s : State) (l : RasLocation) : (s.retireEffect l).mem = s.mem := by
  unfold State.retireEffect
  split <;> simp

@[simp] theorem State.mem_discardCommands (s : State) :
    (s.discardCommands).mem = s.mem := by simp [State.discardCommands, foldl_mem]

@[simp] theorem State.mem_lowerClock (s : State) : (s.lowerClock).mem = s.mem := by simp [State.lowerClock]

@[simp] theorem State.mem_loseWithRecord (s : State) (ctx : Nat) :
    (s.loseWithRecord ctx).mem = s.mem := by simp [State.loseWithRecord]

@[simp] theorem State.mem_setTable (s : State) (table : Tab (List Nat)) (root : Nat) :
    (s.setTable table root).mem = s.mem := by simp [State.setTable]

@[simp] theorem State.mem_measure (s : State) (mctp : Bool) : (s.measure mctp).mem = s.mem := by simp [State.measure]
@[simp] theorem State.mem_setLaunch (s : State) (l : Launch) : (s.setLaunch l).mem = s.mem := by simp [State.setLaunch]

@[simp] theorem State.mem_dropLaunch (s : State) (l : Launch) :
    (s.dropLaunch l).mem = s.mem := by simp [State.dropLaunch]

@[simp] theorem State.mem_dropPages (s : State) (ctx lo hi : Nat) :
    (s.dropPages ctx lo hi).mem = s.mem := by simp [State.dropPages]

@[simp] theorem State.mem_resumeContext (s : State) (ctx : Nat) :
    (s.resumeContext ctx).mem = s.mem := by simp [State.resumeContext, foldl_mem]

@[simp] theorem State.mem_setRoutes (s : State) (es : List Nat) (timeout root : Nat) :
    (s.setRoutes es timeout root).mem = s.mem := by simp [State.setRoutes]

@[simp] theorem State.mem_holdEntry (s : State) (e : TlbEntry) :
    (s.holdEntry e).mem = s.mem := by simp [State.holdEntry]

/-! ## Vector operations and the next move -/

@[simp] theorem State.mem_floatOp (s : State) (d a b : BitVec 7) (f : Nat → Rounding → Nat → Nat → Nat → Nat × Flags) :
    (s.floatOp d a b f).mem = s.mem := by simp [State.floatOp]

@[simp] theorem State.mem_floatCompare (s : State) (d : BitVec 3) (a b : BitVec 7) (f : Nat → Nat → Nat → Bool × Flags)
    : (s.floatCompare d a b f).mem = s.mem := by
  simp [State.floatCompare]

@[simp] theorem State.mem_intOp (s : State) (d a b : BitVec 7) (f : EType → Bool → Nat → Nat → Nat → Nat) :
    (s.intOp d a b f).mem = s.mem := by simp [State.intOp]

@[simp] theorem State.mem_bitOp (s : State) (d a b : BitVec 7) (f : Lane → Lane → Lane → Lane) :
    (s.bitOp d a b f).mem = s.mem := by simp [State.bitOp]

@[simp] theorem State.mem_intCompare (s : State) (d : BitVec 3) (a b : BitVec 7) (r : Int → Int → Bool) :
    (s.intCompare d a b r).mem = s.mem := by simp [State.intCompare]

@[simp] theorem State.mem_permute (s : State) (d a b : BitVec 7) (src : Nat → Nat → Int) :
    (s.permute d a b src).mem = s.mem := by simp [State.permute]

@[simp] theorem State.mem_reduceLanes (s : State) (d a : BitVec 7) (op : ReduceOp) :
    (s.reduceLanes d a op).mem = s.mem := by simp [State.reduceLanes]

@[simp] theorem State.mem_moveLanes (s : State) (d a : BitVec 7) (pairs : List (Nat × Nat)) :
    (s.moveLanes d a pairs).mem = s.mem := State.mem_withRegs _ rfl

@[simp] theorem State.mem_passFrag (s : State) (f : FragId) : (s.passFrag f).mem = s.mem := by simp [State.passFrag]

end Sys2Proof.Machine
end

section
/-! The operations of the state that may write memory keep its canonical form (R93): every byte is written through
`State.storeBytes`, and what is dropped from memory leaves the rest in order. -/

namespace Sys2Proof.Machine

@[simp] theorem Memory.wf_ite (c : Prop) [Decidable c] (m n : Memory) :
    (if c then m else n).wf = if c then m.wf else n.wf := apply_ite ..

/-- A fold keeps the canonical form that each of its steps keeps. -/
theorem foldl_wf {α : Type} {f : State → α → State} (hf : ∀ t a, t.mem.wf → (f t a).mem.wf) (l : List α) {s : State}
    (h : s.mem.wf) : (l.foldl f s).mem.wf := by
  induction l generalizing s with
  | nil => exact h
  | cons a l ih => exact ih (hf s a h)

@[simp] theorem State.wf_storeBytes {s : State} (agent : Option FragId) (data : List (Place × Byte)) (h : s.mem.wf) :
    (s.storeBytes agent data).mem.wf := s.storeBytes_inv agent data h

theorem Memory.wf_dropLines {m : Memory} (oper core first n : Nat) (h : m.wf) :
    (m.dropLines oper core first n).wf :=
  Memory.wf_filter _ (fun _ => true) rfl (List.filter_eq_self.2 fun _ _ => rfl).symm h

/-- The same of the whole state: a fold of states is then compared as one. -/
theorem foldl_inv {α : Type} {f : State → α → State} (hf : ∀ t a, t.Inv → (f t a).Inv) (l : List α) {s : State}
    (h : s.Inv) : (l.foldl f s).Inv :=
  foldl_wf hf l h

/-- A fold over what may be no state keeps the canonical form where each of its steps does. -/
theorem foldl_wf_option {α : Type} {f : Option State → α → Option State}
    (hf : ∀ r a, (∀ t, r = some t → t.mem.wf) → ∀ u, f r a = some u → u.mem.wf) {l : List α} {s t : State} (h : s.mem.wf)
    (e : l.foldl f (some s) = some t) : t.mem.wf :=
  List.foldlRecOn (motive := fun r => ∀ t, r = some t → t.mem.wf) l f (fun _ e => Option.some.inj e ▸ h)
    (fun r hr a _ => hf r a hr) t e

/-! ## Marks of records and stores -/

@[simp] theorem State.wf_stampRow {s : State} (oper core t row : Nat) (w0 : Word) (h : s.mem.wf) :
    (s.stampRow oper core t row w0).mem.wf := by simp [State.stampRow, h]

/-- The same of the step that marks the row of a record, said of the whole state: its folds are compared as folds of
states. -/
theorem State.inv_stampRow {s : State} (oper core t row : Nat) (w0 : Word) (h : s.Inv) :
    (s.stampRow oper core t row w0).Inv :=
  State.wf_stampRow oper core t row w0 h

@[simp] theorem State.wf_stampSaved {s : State} (oper core : Nat) (entries : Tab TileEntry) (h : s.mem.wf) :
    (s.stampSaved oper core entries).mem.wf := by
  rw [State.stampSaved]
  show State.Inv _
  apply foldl_inv _ _ h
  intro t e ht
  apply foldl_inv _ _ ht
  intro u r hu
  exact State.inv_stampRow oper core e.1 r.row r.w0 hu

@[simp] theorem State.wf_hostWrite {s : State} (addr : Nat) (data : List Byte) (h : s.mem.wf) :
    (s.hostWrite addr data).mem.wf := by simp [State.hostWrite, h]

@[simp] theorem State.wf_writeStatus {s : State} (q : Nat) (h : s.mem.wf) :
    (s.writeStatus q).mem.wf := by simp [State.writeStatus, h]

@[simp] theorem State.wf_writeEvent {s : State} (q : Nat) (ws : List Word) (h : s.mem.wf) :
    (s.writeEvent q ws).mem.wf := by simp [State.writeEvent, h]

@[simp] theorem State.wf_postEvent {s : State} (q : Nat) (ws : List Word) (h : s.mem.wf) :
    (s.postEvent q ws).mem.wf := by simp [State.postEvent, h]

@[simp] theorem State.wf_looseEvent {s : State} (kind : Nat) (word4 : Word) (h : s.mem.wf) :
    (s.looseEvent kind word4).mem.wf := by simp [State.looseEvent, h]

@[simp] theorem State.wf_engineStore {s : State} (o : Owner) (x : Target) (data : List (Place × Byte)) (poisoned : Bool)
    (h : s.mem.wf) : (s.engineStore o x data poisoned).mem.wf := by
  simp only [State.engineStore]
  (repeat' split) <;> simp [h]

@[simp] theorem State.wf_runAtomic {s : State} (agent : Option FragId) (op : AtomicOp) (ps : List Place) (x y : Word)
    (h : s.mem.wf) : (s.runAtomic agent op ps x y).1.mem.wf := by
  simp [State.runAtomic, h]

@[simp] theorem State.wf_applyOp {s : State} (a : Access) (h : s.mem.wf) : (s.applyOp a).mem.wf := by
  unfold State.applyOp
  split
  case h_6 => dsimp only; split <;> simp [h]
  all_goals simp [h]

@[simp] theorem State.wf_performOp {s : State} (a : Access) (h : s.mem.wf) : (s.performOp a).mem.wf := by
  simp only [State.performOp]
  (repeat' split) <;> simp [h]

@[simp] theorem State.wf_performAccess {s : State} (a : Access) (h : s.mem.wf) :
    (s.performAccess a).mem.wf := by simp [State.performAccess, h]

/-! ## Accesses -/

theorem State.wf_forceAll {s t : State} {l : List Access} (h : s.mem.wf) (e : s.forceAll l = some t) : t.mem.wf := by
  induction l generalizing s with
  | nil => cases e; exact h
  | cons a l ih =>
    simp only [State.forceAll] at e
    split at e
    · cases e
    · exact ih (State.wf_performAccess a h) e

theorem State.wf_forceFor {s t : State} {b : Access} (h : s.mem.wf) (e : s.forceFor b = some t) : t.mem.wf :=
  State.wf_forceAll h e

@[simp] theorem State.wf_settle {s : State} (loads : List Access) (h : s.mem.wf) : (s.settle loads).mem.wf := by
  refine foldl_wf (fun t a ht => ?_) _ h
  split
  · split
    · next e => exact State.wf_performAccess _ (State.wf_forceFor ht e)
    · exact ht
  · exact ht

@[simp] theorem State.wf_poisonSector {s : State} (p : Place) (h : s.mem.wf) : (s.poisonSector p).mem.wf := by
  simp only [State.poisonSector]
  split
  · simp [h]
  · exact Memory.wf_congr rfl rfl (State.wf_settle _ h)

@[simp] theorem State.wf_copySector {s : State} (o : Owner) (src dst : Place × Target) (h : s.mem.wf) :
    (s.copySector o src dst).mem.wf := by simp [State.copySector, h]

@[simp] theorem State.wf_markRecords {s : State} (ctx : Nat) (ids : List Nat) (h : s.mem.wf) :
    (s.markRecords ctx ids).mem.wf := by
  simp only [State.markRecords]
  rw [foldl_mem _ fun t q => by simp]
  show State.Inv _
  apply foldl_inv
  · intro t x ht
    exact State.inv_stampRow x.2.1 x.2.2.1 x.2.2.2 x.1.row (cancelledWord x.1.w0) ht
  · exact h

@[simp] theorem State.wf_cancelId {s : State} (ctx id : Nat) (h : s.mem.wf) : (s.cancelId ctx id).1.mem.wf := by
  simp only [State.cancelId]
  split <;> simp [h]

@[simp] theorem State.wf_publish {s : State} (a : Attempt) (h : s.mem.wf) :
    (s.publish a).mem.wf := by simp +contextual [State.publish, foldl_wf, h]

theorem State.wf_forceParts {s t : State} {ps : List Part} (h : s.mem.wf) (e : s.forceParts ps = some t) :
    t.mem.wf := by
  induction ps generalizing s with
  | nil => cases e; exact h
  | cons p ps ih =>
    simp only [State.forceParts] at e
    split at e
    · next e' => exact ih (State.wf_forceFor h e') e
    · cases e

theorem State.wf_after {s : State} {forced : Option State} {go : State → State} (h : s.mem.wf)
    (hf : ∀ t, forced = some t → t.mem.wf) (hg : ∀ t, t.mem.wf → (go t).mem.wf) : (s.after forced go).mem.wf := by
  unfold State.after
  split
  · simp [h]
  · next t =>
    split
    · exact hf t rfl
    · exact hg t (hf t rfl)

theorem State.wf_forceTx {s t : State} {ps : List Part} (h : s.mem.wf) (e : s.forceTx ps = some t) : t.mem.wf :=
  State.wf_forceParts h e

@[simp] theorem State.wf_txIssue {s : State} (parts : List Part) (h : s.mem.wf) : (s.txIssue parts).mem.wf := by
  unfold State.txIssue
  split
  · simp [h]
  · split
    · simp [h]
    · exact State.wf_after h (fun t e => State.wf_forceTx h e) (fun t ht => by simp [ht])

@[simp] theorem State.wf_awaitFetch {s : State} (xs : List (Place × Target)) (h : s.mem.wf) :
    (s.awaitFetch xs).mem.wf := by
  unfold State.awaitFetch
  split
  · simp [h]
  · next e =>
    have ht := State.wf_forceParts h e
    split <;> simp [ht]

@[simp] theorem State.wf_issuePart {s : State} (waits : Bool) (part : Part) (h : s.mem.wf) :
    (State.issuePart waits s part).mem.wf := by
  simp only [State.issuePart]
  split
  · simp [h]
  · next e =>
    have ht := State.wf_forceAll h e
    split <;> simp [ht]

@[simp] theorem State.wf_sendParts {s : State} (parts : List Part) (h : s.mem.wf) : (s.sendParts parts).mem.wf := by
  have hissue : ∀ waits (u : State), u.mem.wf → (parts.foldl (State.issuePart waits) u).mem.wf :=
    fun waits u hu => foldl_wf (fun t p ht => State.wf_issuePart waits p ht) parts hu
  simp only [State.sendParts]
  split
  · split <;> simp [hissue, foldl_mem, h]
  · simp [hissue, h]
  · simp [hissue, h]

@[simp] theorem State.wf_issueParts {s : State} (asked : List Part) (h : s.mem.wf) : (s.issueParts asked).mem.wf := by
  simp only [State.issueParts]
  split
  · simp [h]
  · split
    · simp [h]
    · next e =>
      have ht := State.wf_forceParts h e
      repeat' split
      case h_2 e' => rw [State.mem_badPart e']; exact ht
      all_goals simp [h, ht]

@[simp] theorem State.wf_access {s : State} (parts : List Part) (h : s.mem.wf) :
    (s.access parts).mem.wf := by simp [State.access, h]

/-! ## Seats, records and copies -/

@[simp] theorem State.wf_freeSeat {s : State} (oper core : Nat) (h : s.mem.wf) : (s.freeSeat oper core).mem.wf := by
  have hf : ∀ (m : Memory) p q, m.wf → ({ m with bytes := m.bytes.filter p, poison := q } : Memory).wf := fun m p q hm =>
    Memory.wf_filter p (fun _ => true) rfl (List.filter_eq_self.2 fun _ _ => rfl).symm hm
  simp [State.freeSeat, h, hf]

@[simp] theorem State.wf_freeSeats {s : State} (h : s.mem.wf) :
    (s.freeSeats).mem.wf := by simp +contextual [State.freeSeats, foldl_wf, h]

@[simp] theorem State.wf_sweep {s : State} (h : s.mem.wf) : (s.sweep).mem.wf := by simp [State.sweep, h]

theorem State.wf_spillRecord {s t : State} {q pos : Nat} {r : List Word} (h : s.mem.wf)
    (e : s.spillRecord q pos r = .ok t) : t.mem.wf := by
  unfold State.spillRecord at e
  split at e
  · cases e
  · cases e
    simp [h]

theorem State.wf_forcePast {s t : State} {core : Nat} {c : CopyCmd} {keys : List Nat} (h : s.mem.wf)
    (e : s.forcePast core c keys = some t) : t.mem.wf := by
  simp only [State.forcePast] at e
  refine foldl_wf_option (fun r a hr u e => ?_) h e
  split at e
  · cases e
  · next t =>
    have ht := hr t rfl
    split at e
    · cases e
      exact ht
    · split at e
      · cases e
      · split at e
        · next e' => cases e; exact State.wf_performAccess _ (State.wf_forceFor ht e')
        · cases e

theorem State.wf_copyPiece {s : State} {core : Nat} {c : CopyCmd} {listed : Word} {x : State × CopyCmd} (h : s.mem.wf)
    (e : s.copyPiece core c listed = .ok x) : x.1.mem.wf := by
  unfold State.copyPiece at e
  dsimp only at e
  split at e
  · cases e; exact h
  generalize (if c.fn = 4 then ([] : List Word) else _) = sas at e
  split at e
  · cases e
  split at e
  · cases e
  split at e
  · cases e
  next s1 e' =>
  have ht : s1.mem.wf := State.wf_forcePast h e'
  split at e
  · cases e
  split at e
  · cases e
  generalize List.find? (fun x : (Place × Target) × Word => s1.enginePoison (c.owner core) x.1) _ = bad at e
  cases bad with
  | none =>
    cases e
    simp [ht]
  | some p =>
    cases e
    dsimp only
    split <;> simp [ht]

theorem State.wf_pksendReady {s t : State} {c : Command} (h : s.mem.wf) (e : s.pksendReady c = some t) : t.mem.wf := by
  unfold State.pksendReady at e
  repeat' split at e
  case h_2.isFalse.isFalse => exact State.wf_forceFor h e
  all_goals cases e
  all_goals exact h

theorem State.wf_forceFlight {s t : State} {f : Flight} {parts : List Part} (h : s.mem.wf)
    (e : s.forceFlight f parts = some t) : t.mem.wf := by
  unfold State.forceFlight at e
  split at e
  · cases e
    exact h
  · refine foldl_wf_option (fun r a hr u e => ?_) h e
    obtain ⟨u, hu, e⟩ := Option.bind_eq_some_iff.1 e
    exact State.wf_forceFor (hr _ hu) e

theorem State.wf_appendRecord {s t : State} {q : Nat} {r : List Word} (h : s.mem.wf)
    (e : s.appendRecord q r = .ok t) : t.mem.wf := by
  simp only [State.appendRecord] at e
  repeat' split at e
  all_goals cases e
  · simp [h]
  · simp [State.wf_spillRecord h ‹_›]

theorem State.wf_holdCopy {s t : State} {q : Nat} {r : List Word} (h : s.mem.wf) (e : s.holdCopy q r = .ok t) :
    t.mem.wf := by
  simp only [State.holdCopy] at e
  repeat' split at e
  all_goals cases e
  simp [State.wf_spillRecord h ‹_›]

theorem State.wf_pushQueue {s t : State} {q : Nat} {r : List Word} (h : s.mem.wf) (e : s.pushQueue q r = .ok t) :
    t.mem.wf := by
  simp only [State.pushQueue] at e
  repeat' split at e
  · cases e
  · exact State.wf_appendRecord (by simp [h]) e
  · exact State.wf_holdCopy h e
  · exact State.wf_appendRecord h e

theorem State.wf_createRecord {s : State} {ctx q : Nat} {img : List Word} {x : State × Nat} (h : s.mem.wf)
    (e : s.createRecord ctx q img = .ok x) : x.1.mem.wf := by
  simp only [State.createRecord] at e
  split at e
  · cases e
    exact h
  · split at e
    · next e' => cases e; exact State.wf_pushQueue (by simp [h]) e'
    · split at e <;> cases e
      simp [h]

theorem State.wf_makeRecord {s : State} {ctx q : Nat} {b : Except HubStop (List Byte)} {x : State × Nat} (h : s.mem.wf)
    (e : s.makeRecord ctx q b = .ok x) : x.1.mem.wf := by
  simp only [State.makeRecord] at e
  repeat' split at e
  · cases e
    exact h
  · cases e
    exact h
  · exact State.wf_createRecord (by simp [h]) e

theorem State.wf_makeRecords {s : State} {ctx q : Nat} {bs : List (Except HubStop (List Byte))} {x : State × List Nat}
    (h : s.mem.wf) (e : s.makeRecords ctx q bs = .ok x) : x.1.mem.wf := by
  induction bs generalizing s x with
  | nil => cases e; exact h
  | cons b bs ih =>
    simp only [State.makeRecords] at e
    split at e
    · cases e
    · next t w e1 =>
      have ht : t.mem.wf := State.wf_makeRecord h e1
      split at e <;> cases e
      next u ws e2 => exact ih (x := (u, ws)) ht e2

@[simp] theorem State.wf_flushEvents {s : State} (q : Nat) (es : List (List Word)) (h : s.mem.wf) :
    (s.flushEvents q es).mem.wf := by
  induction es generalizing s with
  | nil => exact h
  | cons e es ih =>
    simp only [State.flushEvents]
    repeat' split
    · exact h
    · simp [h]
    · exact ih (State.wf_writeStatus _ (State.wf_writeEvent _ _ (by simp [h])))

/-! ## Host queues, packets and routes -/

@[simp] theorem State.wf_createQueue {s : State} (q : Nat) (x : HostQueue) (h : s.mem.wf) :
    (s.createQueue q x).mem.wf := State.wf_flushEvents _ _ (State.wf_writeStatus _ (by simp [h]))

@[simp] theorem State.wf_enableAdmin {s : State} (h : s.mem.wf) :
    (s.enableAdmin).mem.wf := by simp [State.enableAdmin, h]

@[simp] theorem State.wf_disableAdmin {s : State} (h : s.mem.wf) :
    (s.disableAdmin).mem.wf := by simp [State.disableAdmin, h]

@[simp] theorem State.wf_setControlReg {s : State} (off : Nat) (v : Word) (h : s.mem.wf) :
    (s.setControlReg off v).mem.wf := by
  unfold State.setControlReg
  split <;> simp [h]

@[simp] theorem State.wf_pushFlight {s : State} (f : Flight) (h : s.mem.wf) : (s.pushFlight f).mem.wf := by
  simp only [State.pushFlight]
  split
  · simp [h]
  · next s1 _ e1 =>
    have h1 : ({ s1 with flights := s1.flights.filter (fun g => g.id != f.id) } : State).mem.wf :=
      (congrArg Memory.wf (State.mem_arrivalRecord e1)).trans h
    split
    · exact h
    · next e2 =>
      split
      · next e3 => simpa using State.wf_pushQueue (State.wf_forceFlight h1 e2) e3
      · split <;> simp [h]

@[simp] theorem State.wf_writeRow {s : State} (f : Flight) (h : s.mem.wf) : (s.writeRow f).mem.wf := by
  simp only [State.writeRow, State.mem_setFlight]
  exact foldl_wf (fun t x ht => by split <;> simp [ht]) _ h

@[simp] theorem State.wf_runFlight {s : State} (f : Flight) (h : s.mem.wf) : (s.runFlight f).mem.wf := by
  unfold State.runFlight
  split
  · exact h
  split
  · simp [h]
  split
  · exact h
  split
  · split <;> simp [h]
  split
  · simp [h]
  split
  · exact h
  split
  · exact h
  · next e =>
    have ht := State.wf_forceFlight h e
    dsimp only
    split <;> simp [ht]

@[simp] theorem State.wf_resumeOther {s : State} (rec n : Nat) (h : s.mem.wf) : (s.resumeOther rec n).mem.wf := by
  simp only [State.resumeOther]
  (repeat' split) <;> simp [h]

@[simp] theorem State.wf_replayRecord {s : State} (id : Nat) (h : s.mem.wf) : (s.replayRecord id).mem.wf := by
  simp only [State.replayRecord]
  (repeat' split) <;> simp +contextual [foldl_wf, h]

@[simp] theorem State.wf_replayDeferred {s : State} (ctx : Nat) (h : s.mem.wf) :
    (s.replayDeferred ctx).mem.wf := by simp +contextual [State.replayDeferred, foldl_wf, h]

@[simp] theorem State.wf_replan {s : State} (h : s.mem.wf) : (s.replan).mem.wf := by simp [State.replan, h]

theorem State.wf_pushRecords {s t : State} {rs : List (Nat × List Word)} (h : s.mem.wf) (e : s.pushRecords rs = .ok t) :
    t.mem.wf := by
  induction rs generalizing s with
  | nil => cases e; exact h
  | cons r rs ih =>
    simp only [State.pushRecords] at e
    split at e
    · next e' => exact ih (State.wf_pushQueue h e') e
    · cases e

theorem State.wf_routeRow {s : State} {r : RowRef} {b : List Word} {x : State × Nat} (h : s.mem.wf)
    (e : s.routeRow r b = .ok x) : x.1.mem.wf := by
  simp only [State.routeRow] at e
  split at e
  · cases e
    simp [h]
  split at e
  · split at e <;> cases e
    simp [h]
  next e' =>
  split at e <;> cases e
  · exact h
  · simp [State.wf_pushRecords h e']

theorem State.wf_routeIssue_ok {s t : State} {c : Command} (h : s.mem.wf) (e : s.routeIssue c = .ok t) : t.mem.wf := by
  unfold State.routeIssue at e
  repeat' split at e
  all_goals cases e
  · simp [h]
  · next e' => simpa using State.wf_routeRow h e'

theorem State.wf_routeIssue_error {s t : State} {c : Command} (h : s.mem.wf) (e : s.routeIssue c = .error t) :
    t.mem.wf := by
  unfold State.routeIssue at e
  repeat' split at e
  all_goals cases e
  simp [h]

@[simp] theorem State.wf_rasEvent {s : State} (h : s.mem.wf) : (s.rasEvent).mem.wf := by simp [State.rasEvent, h]

@[simp] theorem State.wf_dropBridge {s : State} (die bridge : Nat) (h : s.mem.wf) :
    (s.dropBridge die bridge).mem.wf := by simp [State.dropBridge, h]

@[simp] theorem State.wf_drain {s : State} (f : FragId) (h : s.mem.wf) :
    (s.drain f).mem.wf := by simp +contextual [State.drain, foldl_wf, h]

/-! ## Reads of a wave -/

theorem State.wf_waveBytes_ok {s : State} {xs : List (Place × Target)} {n : Nat} {x : State × List Byte} (h : s.mem.wf)
    (e : s.waveBytes xs n = .ok x) : x.1.mem.wf := by
  simp only [State.waveBytes] at e
  split at e
  · cases e
  · cases e
  split at e
  · split at e
    · cases e
    next e' =>
    split at e
    · cases e
    split at e
    · cases e
    split at e
    · cases e
    split at e <;> cases e
    simp [State.wf_forceTx h e']
  · split at e
    · cases e
    split at e
    · cases e
    next e' =>
    split at e
    · cases e
    split at e <;> cases e
    exact State.wf_forceParts h e'

theorem State.wf_waveBytes_error {s t : State} {xs : List (Place × Target)} {n : Nat} (h : s.mem.wf)
    (e : s.waveBytes xs n = .error t) : t.mem.wf := by
  simp only [State.waveBytes] at e
  split at e
  · cases e
    simp [h]
  · cases e
    simp [h]
  split at e
  · split at e
    · cases e
      simp [h]
    next e' =>
    have ht := State.wf_forceTx h e'
    repeat' split at e
    all_goals cases e
    all_goals simp [ht]
  · split at e
    · cases e
      simp [h]
    split at e
    · cases e
      simp [h]
    next e' =>
    have ht := State.wf_forceParts h e'
    split at e
    · cases e
      exact ht
    split at e
    · next e1 =>
      cases e
      rwa [State.mem_badPart e1]
    · cases e
      simp [ht]
    · cases e

theorem State.wf_waveRead_ok {s : State} {va : Word} {x : State × List Byte} (h : s.mem.wf) (e : s.waveRead va = .ok x)
    :
    x.1.mem.wf := by
  unfold State.waveRead at e
  split at e
  · cases e
  · exact State.wf_waveBytes_ok h e

theorem State.wf_waveRead_error {s t : State} {va : Word} (h : s.mem.wf) (e : s.waveRead va = .error t) : t.mem.wf := by
  unfold State.waveRead at e
  split at e
  · next e' =>
    cases e
    rwa [State.mem_xlateWith e']
  · exact State.wf_waveBytes_error h e

theorem State.wf_releaseAt {s t : State} {release : Bool} {scope : Nat} (h : s.mem.wf)
    (e : s.releaseAt release scope = some t) : t.mem.wf := by
  unfold State.releaseAt at e
  split at e
  · cases e
    exact h
  · exact State.wf_forceFor h e

theorem State.wf_beforeCancel {s t : State} {id : Nat} (h : s.mem.wf) (e : s.beforeCancel id = some t) : t.mem.wf := by
  simp only [State.beforeCancel] at e
  split at e
  · cases e
  · next e' => exact State.wf_releaseAt (State.wf_forceParts h e') e

@[simp] theorem State.wf_finishCommand {s : State} (c : HostCmd) (status : Nat) (result : Word) (detail : Nat)
    (h : s.mem.wf) : (s.finishCommand c status result detail).mem.wf := by
  simp [State.finishCommand, h]

@[simp] theorem State.wf_stopMat {s : State} (tile : Nat) (c : MatStop) (h : s.mem.wf) : (s.stopMat tile c).mem.wf := by
  unfold State.stopMat
  split <;> simp [h]

/-! ## Launches and saved contexts -/

@[simp] theorem State.wf_hubStore {s : State} (o : Owner) (xs : List (Place × Target)) (data : List Byte) (h : s.mem.wf)
    : (s.hubStore o xs data).mem.wf := by
  simp +contextual [State.hubStore, foldl_wf, h]

theorem State.wf_writeFence {s t : State} {l : Launch} (h : s.mem.wf) (e : s.writeFence l = .ok t) : t.mem.wf := by
  simp only [State.writeFence] at e
  repeat' split at e
  all_goals cases e
  all_goals simp [h]

@[simp] theorem State.wf_completeLaunch {s : State} (l : Launch) (h : s.mem.wf) : (s.completeLaunch l).mem.wf := by
  unfold State.completeLaunch
  split
  case h_1 e => simp [State.wf_writeFence h e]
  all_goals simp [h]

@[simp] theorem State.wf_loadLines {s : State} (ctx oper core : Nat) (image : List (Place × Target)) (h : s.mem.wf) :
    (s.loadLines ctx oper core image).mem.wf := by simp +contextual [State.loadLines, foldl_wf, h]

@[simp] theorem State.wf_restoreSeat {s : State} (p : Spot) (h : s.mem.wf) : (s.restoreSeat p).mem.wf := by
  have htiles : ∀ (l : Tab TileEntry) (t : State),
      (l.foldl (fun t e => t.setTile (p.row % 256) (p.part + e.1) e.2) t).mem = t.mem :=
    fun l t => foldl_mem _ (by intros; rfl) l t
  simp only [State.restoreSeat]
  refine State.wf_stampSaved _ _ _ ?_
  rw [foldl_mem _ fun t a => t.mem_homeAccess _ _ _ _]
  simp only [State.setSeatOf_mem]
  refine State.wf_loadLines _ _ _ _ ?_
  split <;> simp [h, htiles]

theorem State.wf_restoreContext {s t : State} {ctx : Nat} (h : s.mem.wf) (e : s.restoreContext ctx = some t) :
    t.mem.wf := by
  simp only [State.restoreContext] at e
  split at e
  · cases e
  · cases e
    have h1 := fun spots => foldl_wf (f := State.restoreSeat) (fun t p ht => State.wf_restoreSeat p ht) spots h
    simp [h1]

@[simp] theorem State.wf_resumeTurn {s : State} (h : s.mem.wf) : s.resumeTurn.mem.wf := by
  simp only [State.resumeTurn]
  split
  · exact h
  split
  · exact h
  split
  · split
    · exact h
    · simp [h]
    · next e _ => exact State.wf_restoreContext h e
  · exact h

@[simp] theorem State.wf_endTurn {s : State} (l : RunList) (e : RunEntry) (h : s.mem.wf) :
    (s.endTurn l e).mem.wf := by simp [State.endTurn, h]

theorem State.wf_forceXop {s t : State} {x : Option XopRec} {keys : List Nat} (h : s.mem.wf)
    (e : s.forceXop x keys = some t) : t.mem.wf := by
  unfold State.forceXop at e
  split at e
  · cases e
    exact h
  · refine foldl_wf_option (fun r a hr u e => ?_) h e
    obtain ⟨u, hu, e⟩ := Option.bind_eq_some_iff.1 e
    split at e
    · cases e
      exact hr _ hu
    · split at e
      · cases e
      · obtain ⟨v, hv, rfl⟩ := Option.map_eq_some_iff.1 e
        exact State.wf_performAccess _ (State.wf_forceFor (hr _ hu) hv)

@[simp] theorem State.wf_agAccess {s : State} (core churn ag : Nat) (n : Net) (g : ChurnImage) (e : List Byte)
    (h : s.mem.wf) : (s.agAccess core churn ag n g e).mem.wf := by
  simp only [State.agAccess]
  split
  · simp [h]
  split
  · simp [h]
  · exact h
  split
  · exact h
  split
  · exact h
  next e' =>
  have ht := State.wf_forceXop h e'
  split
  · simp [ht]
  split
  · simp [ht]
  split
  · split
    · exact ht
    · simp only [State.mem_moveNet, State.mem_agFlags]
      exact foldl_wf (fun t q hq => State.wf_engineStore _ _ _ _ hq) _ ht
  · simp [ht]

@[simp] theorem State.wf_noteThrottles {s : State} (h : s.mem.wf) :
    (s.noteThrottles).mem.wf := by simp +contextual [State.noteThrottles, foldl_wf, h]

/-! ## Instructions -/

@[simp] theorem State.wf_oneAccess {s : State} (ea : Word) (align : Nat) (need : Need) (make : Place → AccessOp)
    (h : s.mem.wf) : (s.oneAccess ea align need make).mem.wf := by
  unfold State.oneAccess
  split
  · simp [h]
  split
  · next e => rwa [State.mem_xlateWith e]
  · split <;> simp [h]

@[simp] theorem State.wf_storeScalar {s : State} (d b : BitVec 6) (imm : BitVec 12) (n : Nat) (h : s.mem.wf) :
    (s.storeScalar d b imm n).mem.wf := by simp [State.storeScalar, h]

@[simp] theorem State.wf_scalarAtomic {s : State} (op : AtomicOp) (returning : Bool) (d a : BitVec 6) (n : Nat)
    (h : s.mem.wf) : (s.scalarAtomic op returning d a n).mem.wf := by
  simp only [State.scalarAtomic]
  split
  · simp [h]
  · split
    · next e => rwa [State.mem_xlateWith e]
    · split <;> simp [h]

@[simp] theorem State.wf_cancelIssue {s : State} (c : Command) (h : s.mem.wf) : (s.cancelIssue c).mem.wf := by
  simp [State.cancelIssue, h]

@[simp] theorem State.wf_countIssue {s : State} (c : Command) (h : s.mem.wf) : (s.countIssue c).mem.wf := by
  rw [State.countIssue, State.mem_clearCounts]
  exact foldl_wf (fun t p ht => State.wf_issuePart _ p ht) _ h

theorem State.wf_issueCmd_ok {s t : State} {c : Command} (h : s.mem.wf) (e : s.issueCmd c = .ok t) : t.mem.wf := by
  unfold State.issueCmd at e
  split at e
  case h_5 => exact State.wf_routeIssue_ok h e
  case h_12 =>
    split at e <;> cases e
    next e' => simp [State.wf_pksendReady h e']
  case h_1 | h_13 => split at e <;> cases e; simp [h]
  all_goals
    cases e
    simp [h]

theorem State.wf_issueCmd_error {s t : State} {c : Command} (h : s.mem.wf) (e : s.issueCmd c = .error t) :
    t.mem.wf := by
  unfold State.issueCmd at e
  split at e
  case h_5 => exact State.wf_routeIssue_error h e
  case h_1 | h_12 | h_13 => split at e <;> cases e; exact h
  all_goals cases e

@[simp] theorem State.wf_issueDue {s : State} (n : Nat) (h : s.mem.wf) : (s.issueDue n).mem.wf := by
  induction n generalizing s with
  | zero => exact h
  | succ n ih =>
    simp only [State.issueDue]
    repeat' split
    · exact h
    · next e => exact ih (State.wf_issueCmd_ok (by simp [h]) e)
    · next e => simpa using State.wf_issueCmd_error (by simp [h]) e

@[simp] theorem State.wf_stopRing {s : State} (q st : Nat) (h : s.mem.wf) :
    (s.stopRing q st).mem.wf := by simp [State.stopRing, h]

@[simp] theorem State.wf_settleFor {s : State} (i : Instr) (h : s.mem.wf) :
    (s.settleFor i).mem.wf := by simp [State.settleFor, h]

@[simp] theorem State.wf_contextEvent {s : State} (ctx core detail cause kind : Nat) (rest : List Word) (h : s.mem.wf) :
    (s.contextEvent ctx core detail cause kind rest).mem.wf := by simp [State.contextEvent, h]

theorem State.wf_checkTarget {s u : State} {t : Word} {kind : Nat} {tag : BitVec 13} {lane : Nat} (h : s.mem.wf)
    (e : s.checkTarget t kind tag lane = some u) : u.mem.wf := by
  unfold State.checkTarget at e
  split at e
  · cases e
    simp [h]
  split at e
  · next e' =>
    cases e
    rwa [State.mem_xlateWith e']
  repeat' split at e
  all_goals cases e
  all_goals simp [h]

theorem State.wf_checkTargets {s u : State} {tag : BitVec 13} {ts : List (Nat × Word)} (h : s.mem.wf)
    (e : s.checkTargets tag ts = some u) : u.mem.wf := by
  induction ts with
  | nil => cases e
  | cons t ts ih =>
    simp only [State.checkTargets] at e
    split at e
    · next e' =>
      cases e
      exact State.wf_checkTarget h e'
    · exact ih e

@[simp] theorem State.wf_loadScalar {s : State} (d b : BitVec 6) (imm : BitVec 12) (n : Nat) (h : s.mem.wf) :
    (s.loadScalar d b imm n).mem.wf := by simp [State.loadScalar, h]

@[simp] theorem State.wf_laneAccesses {s : State} (b : BitVec 6) (x : BitVec 7) (need : Need)
    (refuse : Place × Target → Option (Nat × Nat)) (make : Nat → Place → AccessOp) (h : s.mem.wf) :
    (s.laneAccesses b x need refuse make).mem.wf := by
  simp only [State.laneAccesses]
  split
  · simp [h]
  split
  · simp [h]
  split
  · next e => rwa [State.mem_xlateWith e]
  · simp [h]

@[simp] theorem State.wf_storeFinal {s : State} (entry : Nat) (sector : Word) (make : Place → AccessOp) (h : s.mem.wf) :
    (s.storeFinal entry sector make).mem.wf := by
  simp only [State.storeFinal]
  (repeat' split) <;> simp [h]

theorem State.wf_withRegs {s k : State} (rs : List (BitVec 7)) (h : s.mem.wf) (hk : k.mem.wf) :
    (s.withRegs rs k).mem.wf := by
  unfold State.withRegs
  split <;> simp [h, hk]

@[simp] theorem State.wf_vectorAtomic {s : State} (op : AtomicOp) (returning : Bool) (d : BitVec 7) (b : BitVec 6)
    (x : BitVec 7) (h : s.mem.wf) : (s.vectorAtomic op returning d b x).mem.wf :=
  State.wf_withRegs _ h (State.wf_laneAccesses _ _ _ _ _ h)

@[simp] theorem State.wf_cacheControl {s : State} (va : Word) (h : s.mem.wf) : (s.cacheControl va).mem.wf := by
  simp only [State.cacheControl]
  (repeat' split) <;> simp [h]

@[simp] theorem State.wf_pinLoop {s : State} (oper core fuel got : Nat) (h : s.mem.wf) :
    (s.pinLoop oper core fuel got).1.mem.wf := by
  induction fuel generalizing s got with
  | zero => exact h
  | succ fuel ih =>
    simp only [State.pinLoop]
    split
    · exact h
    · exact ih _ (Memory.wf_dropLines _ _ _ _ h)

@[simp] theorem State.wf_landGroups {s : State} (oper core first : Nat) (h : s.mem.wf) :
    (s.landGroups oper core first).mem.wf := by simp [State.landGroups, h]

theorem State.wf_pushRow {s : State} {r : RowRef} {q : Nat} {x : State × Nat} (h : s.mem.wf) (e : s.pushRow r q = .ok x)
    :
    x.1.mem.wf := by
  unfold State.pushRow at e
  split at e
  · cases e
    simp [h]
  split at e
  · next e' => cases e; simp [State.wf_pushQueue h e']
  · split at e <;> cases e
    simp [h]

@[simp] theorem State.wf_applyTokenOp {s : State} (o : TokenOp) (h : s.mem.wf) : (s.applyTokenOp o).mem.wf := by
  unfold State.applyTokenOp
  split
  · simp [h]
  split
  · exact h
  split
  · next e =>
    have ht := State.wf_pushRow h e
    split <;> simp [ht]
  · exact h

@[simp] theorem State.wf_commit {s : State} (h : s.mem.wf) : s.commit.mem.wf := by
  have h0 : (s.drain s.cur).mem.wf := State.wf_drain _ h
  simp only [State.commit]
  split
  · exact h0
  · split
    · split <;> simp [h0]
    · refine State.wf_issueDue _ ?_
      simp only [State.setFr_mem]
      refine foldl_wf (fun t o ht => State.wf_applyTokenOp o ht) _ (State.wf_publish _ ?_)
      simp only [State.setWv_mem]
      split <;> simp [h0]

@[simp] theorem State.wf_product {s : State} (form : ProductForm) (d : BitVec 4) (t b : BitVec 6) (h : s.mem.wf) :
    (s.product form d t b).mem.wf := by
  unfold State.product
  split
  · simp [h]
  split
  · simp [h]
  split
  · simp [h]
  split
  · simp [h]
  next e =>
  have ht := State.wf_forceParts h e
  split
  · exact ht
  split
  · simp [h]
  · simp [ht]

theorem State.wf_readImage_ok {s : State} {va : Word} {x : State × List Byte} (h : s.mem.wf)
    (e : s.readImage va = .ok x) : x.1.mem.wf := by
  unfold State.readImage at e
  split at e
  · cases e
  split at e
  · cases e
  next s1 _ e1 =>
  have h1 : s1.mem.wf := State.wf_waveRead_ok h e1
  split at e
  · cases e
  split at e <;> cases e
  next s2 bytes e2 => exact State.wf_waveBytes_ok (x := (s2, bytes)) h1 e2

theorem State.wf_readImage_error {s t : State} {va : Word} (h : s.mem.wf) (e : s.readImage va = .error t) :
    t.mem.wf := by
  unfold State.readImage at e
  split at e
  · cases e
    simp [h]
  split at e
  · next e1 => cases e; exact State.wf_waveRead_error h e1
  next e1 =>
  have h1 := State.wf_waveRead_ok h e1
  split at e
  · next e2 =>
    cases e
    exact (congrArg Memory.wf (State.mem_xlateWith e2)).trans h1
  split at e <;> cases e
  next e2 => exact State.wf_waveBytes_error h1 e2

theorem State.wf_beforePush {s t : State} {release : Bool} {scope : Nat} {rs : List (Nat × List Word)} (h : s.mem.wf)
    (e : s.beforePush release scope rs = some t) : t.mem.wf := by
  unfold State.beforePush at e
  repeat' split at e
  · cases e
  · next e' _ =>
    cases e
    exact State.wf_releaseAt h e'
  · next e' _ => exact State.wf_forceParts (State.wf_releaseAt h e') e

@[simp] theorem State.mem_popTx (s : State) (t q : Nat) : (s.popTx t q).mem = s.mem := by simp [State.popTx]

@[simp] theorem State.wf_popNow {s : State} (t q : Nat) (h : s.mem.wf) : (s.popNow t q).mem.wf := by
  simp only [State.popNow]
  split
  · split <;> simp [h]
  · refine State.wf_after h (fun t e => State.wf_forceParts h e) fun t ht => ?_
    split <;> simp [ht]

theorem State.wf_rowReady {s t : State} {r : RowRef} (h : s.mem.wf) (e : s.rowReady r = some t) : t.mem.wf :=
  State.wf_forceParts h e

@[simp] theorem State.mem_txPush (s : State) (r : RowRef) (q : Nat) (d : BitVec 6) : (s.txPush r q d).mem = s.mem := by
  simp only [State.txPush]
  (repeat' split) <;> simp

@[simp] theorem State.wf_combRows {s : State} (rn : Bool) (dst rows : Word) (n : Nat) (r : List Word) (h : s.mem.wf) :
    (s.combRows rn dst rows n r).mem.wf := by
  simp only [State.combRows]
  split
  · next e => rwa [State.mem_xlateWith e]
  · split
    · next e => rwa [State.mem_xlateWith e]
    · split
      · exact State.wf_waveBytes_error h ‹_›
      · next e =>
        have ht := State.wf_waveBytes_ok h e
        split <;> simp [ht]

@[simp] theorem State.wf_comb {s : State} (rn : Bool) (d a b : BitVec 6) (h : s.mem.wf) : (s.comb rn d a b).mem.wf := by
  simp only [State.comb]
  split
  · simp [h]
  split
  · simp [h]
  split
  · simp [h]
  split
  · next e => exact State.wf_waveRead_error h e
  next e =>
  have h1 := State.wf_waveRead_ok h e
  split
  · simp [h]
  · exact State.wf_combRows _ _ _ _ _ h1

theorem State.wf_packetRow_ok {s : State} {row : Word} {n : Nat} {x : State × List Byte} (h : s.mem.wf)
    (e : s.packetRow row n = .ok x) : x.1.mem.wf := by
  unfold State.packetRow at e
  split at e
  · cases e
  · exact State.wf_waveBytes_ok h e

theorem State.wf_packetRow_error {s t : State} {row : Word} {n : Nat} (h : s.mem.wf) (e : s.packetRow row n = .error t)
    :
    t.mem.wf := by
  unfold State.packetRow at e
  split at e
  · next e' =>
    cases e
    rwa [State.mem_xlateWith e']
  · exact State.wf_waveBytes_error h e

@[simp] theorem State.wf_pksendOn {s : State} (d : BitVec 6) (va dw drowa : Word) (r : RowRef) (k : Nat) (h : s.mem.wf)
    :
    (s.pksendOn d va dw drowa r k).mem.wf := by
  simp only [State.pksendOn]
  split
  · simp [h]
  split
  · next e => exact State.wf_packetRow_error h e
  next e =>
  have h1 := State.wf_packetRow_ok h e
  split
  · split_ifs <;> simp [h1]
  split
  · simp [h]
  split
  · simp [h]
  · exact State.wf_after h1 (fun t e => State.wf_forceFor h1 e) (fun u hu => by simp [hu])

@[simp] theorem State.wf_fire {s : State} (q oper core entry : Nat) (o : Operator) (h : s.mem.wf) :
    (s.fire q oper core entry o).mem.wf := by simp [State.fire, h]

@[simp] theorem State.wf_serve {s : State} (r : RemoteRequest) (h : s.mem.wf) : (s.serve r).1.mem.wf := by
  simp only [State.serve]
  split
  · exact h
  · dsimp only
    split <;> simp [h]
  · split <;> simp [h]

@[simp] theorem State.wf_retire {s : State} (l : RasLocation) (h : s.mem.wf) : (s.retire l).mem.wf := by
  unfold State.retire
  split <;> simp [h]

/-! ## The front end -/

theorem State.wf_copyList {s : State} {core : Nat} {c : CopyCmd} {x : State × CopyCmd} (h : s.mem.wf)
    (e : s.copyList core c = .ok x) : x.1.mem.wf := by
  simp only [State.copyList] at e
  split at e
  · cases e
  split at e
  · cases e
  next e' =>
  split at e
  · cases e
  · cases e
    simp [State.wf_forcePast h e']

theorem State.wf_copyStep {s : State} {core : Nat} {c : CopyCmd} {x : State × CopyCmd} (h : s.mem.wf)
    (e : s.copyStep core c = .ok x) : x.1.mem.wf := by
  unfold State.copyStep at e
  split at e
  · split at e
    · exact State.wf_copyPiece h e
    · exact State.wf_copyList h e
  · exact State.wf_copyPiece h e

@[simp] theorem State.wf_saveFree {s : State} (ctx : Nat) (vas : List Nat) (h : s.mem.wf) :
    (s.saveFree ctx vas).mem.wf :=
  foldl_wf (fun t va ht => by split <;> simp [ht]) _ h

@[simp] theorem State.wf_lapRing {s : State} (q : Nat) (h : s.mem.wf) :
    (s.lapRing q).mem.wf := by simp [State.lapRing, h]

@[simp] theorem State.wf_ringDoorbell {s : State} (q : Nat) (v : Word) (h : s.mem.wf) :
    (s.ringDoorbell q v).mem.wf := by simp [State.ringDoorbell, h]

@[simp] theorem State.wf_ackEvents {s : State} (q : Nat) (v : Word) (h : s.mem.wf) : (s.ackEvents q v).mem.wf := by
  simp only [State.ackEvents]
  split
  · exact h
  · split <;> simp [h]

@[simp] theorem State.wf_healthTest {s : State} (test : HealthTest) (h : s.mem.wf) : (s.healthTest test).mem.wf := by
  have hfold : ∀ (l : List RasLocation) (x : State × Bool), x.1.mem.wf →
      (l.foldl (fun (x : State × Bool) l => (x.1.retire l, x.2 && x.1.canRetire l)) x).1.mem.wf := by
    intro l
    induction l with
    | nil => exact fun _ hx => hx
    | cons a l ih => exact fun x hx => ih _ (State.wf_retire a hx)
  unfold State.healthTest
  dsimp only
  split <;> exact hfold _ (s, test.ok) h

@[simp] theorem State.wf_barWrite {s : State} (off : Nat) (v : Word) (h : s.mem.wf) : (s.barWrite off v).mem.wf := by
  simp only [State.barWrite]
  (repeat' split) <;> simp [h]

@[simp] theorem State.wf_halfWrite {s : State} (off : Nat) (v : Word) (h : s.mem.wf) :
    (s.halfWrite off v).mem.wf := by simp [State.halfWrite, h]

@[simp] theorem State.wf_pollThrottles {s : State} (h : s.mem.wf) :
    (s.pollThrottles).mem.wf := by simp [State.pollThrottles, h]

/-- Memory is canonical in the state that a command leaves, if it leaves one. -/
def CmdEnd.Canonical (e : CmdEnd) : Prop :=
  match e with
  | .done t _ _ _ => t.mem.wf
  | .begin t => t.mem.wf
  | .waits t => t.mem.wf
  | .later => True

@[simp] theorem CmdEnd.canonical_done (t : State) (status : Nat) (result : Word) (detail : Nat) :
    (CmdEnd.done t status result detail).Canonical ↔ t.mem.wf := Iff.rfl

@[simp] theorem CmdEnd.canonical_begin (t : State) : (CmdEnd.begin t).Canonical ↔ t.mem.wf := Iff.rfl
@[simp] theorem CmdEnd.canonical_waits (t : State) : (CmdEnd.waits t).Canonical ↔ t.mem.wf := Iff.rfl
@[simp] theorem CmdEnd.canonical_later : CmdEnd.later.Canonical := trivial
@[simp] theorem CmdEnd.canonical_fails (s : State) (status : Nat) : (s.fails status).Canonical ↔ s.mem.wf := Iff.rfl
@[simp] theorem CmdEnd.canonical_succeeds (s : State) : s.succeeds.Canonical ↔ s.mem.wf := Iff.rfl

/-- A command that reads keeps memory canonical where what it does with what it has read does. -/
theorem State.canonical_onRead {α : Type} {s : State} {r : Reader} {access : Nat} {x : Except HubStop α}
    {go : α → CmdEnd} (h : s.mem.wf) (hg : ∀ a, x = .ok a → (go a).Canonical) : (s.onRead r access x go).Canonical := by
  unfold State.onRead
  split
  · exact hg _ rfl
  · split <;> simp [h]

theorem State.wf_hostCommand {s : State} (q : Nat) (mine : Nat → Bool) {f : State → HostCmd → CmdEnd}
    (hf : ∀ t c, t.mem.wf → (f t c).Canonical) (h : s.mem.wf) : (s.hostCommand q mine f).mem.wf := by
  have h0 : s.sweep.pollThrottles.mem.wf := by simp [h]
  simp only [State.hostCommand]
  split
  · exact h0
  split
  · exact State.wf_stopRing _ _ h0
  split
  · exact h0
  split
  · have hc := hf _ (s.sweep.pollThrottles.commandOf q) h0
    split
    · next e => rw [e] at hc; exact State.wf_finishCommand _ _ _ _ hc
    · next e => rw [e] at hc; exact hc
    · next e => rw [e] at hc; exact hc
    · exact h0
  · exact State.wf_finishCommand _ _ _ _ h0

@[simp] theorem State.wf_restartQueue {s : State} (q : Nat) (h : s.mem.wf) : (s.restartQueue q).mem.wf :=
  State.wf_flushEvents _ _ (State.wf_writeStatus _ (by simp [h]))

@[simp] theorem State.wf_destroy {s : State} (ctx : Nat) (h : s.mem.wf) :
    (s.destroy ctx).mem.wf := by simp +contextual [State.destroy, foldl_wf, h]

@[simp] theorem State.wf_removeGraph {s : State} (ctx graph : Nat) (h : s.mem.wf) :
    (s.removeGraph ctx graph).mem.wf := by simp [State.removeGraph, h]

theorem Memory.wf_clearedBut {m : Memory} (keep : Nat → Bool) (h : m.wf) : (m.clearedBut keep).wf :=
  Memory.wf_filter _ _ rfl rfl h

@[simp] theorem State.wf_scrubbed {s : State} (h : s.mem.wf) : s.scrubbed.mem.wf := Memory.wf_clearedBut _ h

@[simp] theorem State.wf_startLaunch {s : State} (l : Launch) (h : s.mem.wf) : (s.startLaunch l).mem.wf := by
  simp only [State.startLaunch]
  split
  · simp [h]
  split
  · simp [h]
  · simp [h]
  split
  · simp [h]
  · next e => exact State.wf_finishCommand _ _ _ _ (by simpa using State.wf_makeRecords h e)

@[simp] theorem State.wf_saveLines {s : State} (ctx oper core : Nat) (image : List (Place × Target)) (h : s.mem.wf) :
    (s.saveLines ctx oper core image).mem.wf := by
  have h1 := foldl_wf (fun t (x : (Place × Target) × Place × Target) ht => State.wf_copySector (saveOwner ctx) x.2 x.1 ht)
    (imagePairs oper core image) h
  exact Memory.wf_filter _ (fun _ => true) rfl (List.filter_eq_self.2 fun _ _ => rfl).symm h1

@[simp] theorem State.wf_saveSeat {s : State} (oper core : Nat) (h : s.mem.wf) :
    (s.saveSeat oper core).mem.wf := by simp +contextual [State.saveSeat, foldl_wf, h]

@[simp] theorem State.wf_saveSeats {s : State} (ctx : Nat) (h : s.mem.wf) : (s.saveSeats ctx).mem.wf := by
  simp only [State.saveSeats]
  rw [foldl_mem _ fun t c => by simp, State.mem_dropNets]
  exact foldl_wf (fun t k ht => State.wf_saveSeat _ _ ht) _ (State.wf_saveFree _ _ h)

@[simp] theorem State.wf_becomeSaved {s : State} (ctx : Nat) (h : s.mem.wf) : (s.becomeSaved ctx).mem.wf := by
  simp only [State.becomeSaved]
  refine State.wf_contextEvent _ _ _ _ _ _ ?_
  simp only [State.setCtx_mem, State.mem_endAsk]
  exact State.wf_saveSeats _ (by simp [h, foldl_mem])

@[simp] theorem State.wf_saveStep {s : State} (ctx : Nat) (h : s.mem.wf) : (s.saveStep ctx).mem.wf := by
  simp only [State.saveStep]
  (repeat' split) <;> simp +contextual [foldl_wf, h]

@[simp] theorem State.wf_restart {s : State} (h : s.mem.wf) : s.restart.mem.wf := Memory.wf_clearedBut _ h

@[simp] theorem State.wf_hostPerform {s : State} (off ctx : Nat) (xs : List (Place × Target)) (a : HostAccess)
    (h : s.mem.wf) : (s.hostPerform off ctx xs a).1.mem.wf := by
  simp only [State.hostPerform]
  repeat' split
  all_goals simp [h]

@[simp] theorem State.wf_tryBar2 {s : State} (off : Nat) (a : HostAccess) (h : s.mem.wf) :
    (s.tryBar2 off a).1.mem.wf := by
  simp only [State.tryBar2]
  repeat' split
  all_goals simp [h]

@[simp] theorem State.wf_runBar2 {s : State} (n : Nat) (h : s.mem.wf) : (s.runBar2 n).mem.wf := by
  induction n generalizing s with
  | zero => exact h
  | succ n ih =>
    simp only [State.runBar2]
    split
    · exact h
    · next off a _ _ =>
      have ht := State.wf_tryBar2 off a h
      split
      · next e => rw [e] at ht; exact ih (by simpa using ht)
      · next e => rw [e] at ht; exact ht

@[simp] theorem State.wf_goBar2 {s : State} (h : s.mem.wf) : (s.goBar2).mem.wf := by simp [State.goBar2, h]

@[simp] theorem State.wf_grantPage {s : State} (page : Nat) (h : s.mem.wf) :
    (s.grantPage page).mem.wf := by simp +contextual [State.grantPage, foldl_wf, h]

@[simp] theorem State.wf_refuseAsks {s : State} (page : Nat) (h : s.mem.wf) :
    (s.refuseAsks page).mem.wf := by simp +contextual [State.refuseAsks, foldl_wf, h]

@[simp] theorem State.wf_refusePage {s : State} (page : Nat) (h : s.mem.wf) : (s.refusePage page).mem.wf := by
  simp only [State.refusePage]
  refine State.wf_refuseAsks _ ?_
  rw [foldl_mem, foldl_mem, foldl_mem, foldl_mem, foldl_mem]
  · exact h
  · intro t x
    simp
  · intro t core
    exact foldl_mem _ (fun u c => by simp) _ _
  · intro t a
    split
    · split <;> simp
    · rfl
  · intro t n
    split
    · split <;> simp
    · rfl
  · intro t f
    split <;> simp

@[simp] theorem State.wf_freeLost {s : State} (h : s.mem.wf) :
    (s.freeLost).mem.wf := by simp +contextual [State.freeLost, foldl_wf, h]

@[simp] theorem State.wf_resumeQueue {s : State} (q : Nat) (h : s.mem.wf) : (s.resumeQueue q).mem.wf :=
  State.wf_flushEvents _ _ (State.wf_lapRing _ h)

@[simp] theorem State.mem_noteIssued (s before : State) : (s.noteIssued before).mem = s.mem := by
  simp only [State.noteIssued]
  (repeat' split) <;> simp

/-! ## Translations and copies -/

theorem State.wf_xlateAll {s t : State} {vas : List Word} {n : Need} (h : s.mem.wf) (e : s.xlateAll vas n = .error t) :
    t.mem.wf :=
  (congrArg Memory.wf (State.mem_xlateWith e)).trans h

theorem State.wf_ite {c : Prop} [Decidable c] {t u : State} (ht : c → t.mem.wf) (hu : ¬c → u.mem.wf) :
    (if c then t else u).mem.wf := by
  split
  · exact ht ‹_›
  · exact hu ‹_›

/-- A sector of a command that is not reached does not ask for bytes. -/
theorem State.copyXlate_ne_needs {s t : State} {core : Nat} {c : CopyCmd} {va : Word} {n : Need}
    {xs : List (Place × Target)} :
    s.copyXlate core c va n ≠ .error (.needs t xs) := by
  unfold State.copyXlate
  repeat' split
  all_goals exact nofun

theorem State.copyXlates_ne_needs {s t : State} {core : Nat} {c : CopyCmd} {n : Need} {l : List (Word × Word)}
    {xs : List (Place × Target)} : s.copyXlates core c n l ≠ .error (.needs t xs) := by
  induction l with
  | nil => exact nofun
  | cons x l ih =>
    unfold State.copyXlates
    split
    · exact nofun
    · exact nofun
    · next e =>
      intro e'
      cases e'
      exact State.copyXlate_ne_needs e
    · split
      · next e =>
        intro e'
        cases e'
        exact ih e
      · exact nofun

theorem State.wf_copyPiece_needs {s t : State} {core : Nat} {c : CopyCmd} {listed : Word} {xs : List (Place × Target)}
    (h : s.mem.wf) (e : s.copyPiece core c listed = .error (.needs t xs)) : t.mem.wf := by
  unfold State.copyPiece at e
  dsimp only at e
  split at e
  · cases e
  generalize (if c.fn = 4 then ([] : List Word) else _) = sas at e
  split at e
  · next e' =>
    cases e
    exact absurd e' State.copyXlates_ne_needs
  split at e
  · next e' =>
    cases e
    exact absurd e' State.copyXlates_ne_needs
  split at e
  · cases e
  next e' =>
  split at e
  · cases e
    exact State.wf_forcePast h e'
  split at e
  · cases e
  generalize List.find? _ _ = bad at e
  cases bad <;> cases e

theorem State.wf_copyList_needs {s t : State} {core : Nat} {c : CopyCmd} {xs : List (Place × Target)}
    (h : s.mem.wf) (e : s.copyList core c = .error (.needs t xs)) : t.mem.wf := by
  simp only [State.copyList] at e
  split at e
  · next e' =>
    cases e
    exact absurd e' State.copyXlates_ne_needs
  split at e
  · cases e
  next e' =>
  split at e <;> cases e
  exact State.wf_forcePast h e'

theorem State.wf_copyStep_needs {s t : State} {core : Nat} {c : CopyCmd} {xs : List (Place × Target)}
    (h : s.mem.wf) (e : s.copyStep core c = .error (.needs t xs)) : t.mem.wf := by
  unfold State.copyStep at e
  split at e
  · split at e
    · exact State.wf_copyPiece_needs h e
    · exact State.wf_copyList_needs h e
  · exact State.wf_copyPiece_needs h e

end Sys2Proof.Machine
end

section
/-! The commands of the host keep memory canonical (R395 to R399). -/

namespace Sys2Proof.Machine

section Commands

variable {s : State} (h : s.mem.wf) (c : HostCmd)

include h

theorem State.canonical_qcreate : (s.qcreate c).Canonical := by
  simp only [State.qcreate]
  split_ifs <;> simp [h]

theorem State.canonical_qdestroy : (s.qdestroy c).Canonical := by
  simp only [State.qdestroy]
  split_ifs <;> simp [h]

theorem State.canonical_qrestart : (s.qrestart c).Canonical := by
  simp only [State.qrestart]
  split_ifs <;> simp [h]

theorem State.canonical_ctxcreate : (s.ctxcreate c).Canonical := by
  unfold State.ctxcreate
  split_ifs
  · simp [h]
  · simp [h]
  refine State.canonical_onRead h fun v _ => ?_
  split_ifs
  · simp [h]
  · simp [h]
  split <;> simp [h]

theorem State.canonical_ctxdestroy : (s.ctxdestroy c).Canonical := by
  simp only [State.ctxdestroy]
  split_ifs <;> simp [h]

theorem State.canonical_setbudget : (s.setbudget c).Canonical := by
  simp only [State.setbudget]
  split_ifs <;> simp [h]

theorem State.canonical_qbudget : (s.qbudget c).Canonical := by
  simp only [State.qbudget]
  split_ifs <;> simp [h]

theorem State.canonical_keyalloc : (s.keyalloc c).Canonical := by
  simp only [State.keyalloc]
  split
  · simp [h]
  split <;> simp [h]

theorem State.canonical_groupset : (s.groupset c).Canonical := by
  simp only [State.groupset]
  split_ifs
  · simp [h]
  · simp [h]
  · simp [h]
  refine State.canonical_onRead h fun m _ => ?_
  split <;> simp [h]

theorem State.canonical_install : (s.install c).Canonical := by
  refine State.canonical_onRead h fun r e => ?_
  have hr : r.1.mem.wf := (congrArg Memory.wf (State.mem_installGraph e)).trans h
  split <;> simp [h, hr]

theorem State.canonical_removeCmd : (s.removeCmd c).Canonical := by
  simp only [State.removeCmd]
  split_ifs <;> simp [h]

theorem State.canonical_submit : (s.submit c).Canonical := by
  simp only [State.submit]
  split
  · simp [h]
  split
  · simp [h]
  split
  · simp [h]
  split
  · simp
  split
  · split
    · simp [h]
    split
    · simp [h]
    · next e => exact State.wf_hostWrite _ _ (State.wf_makeRecords h e)
  · refine State.canonical_onRead h fun ps _ => ?_
    split
    · simp [h]
    split
    · simp [h]
    · next e => exact State.wf_hubStore _ _ _ (State.wf_makeRecords h e)

theorem State.canonical_launch : (s.launch c).Canonical := by
  simp only [State.launch]
  split_ifs <;> simp [h]

theorem State.canonical_preemptCmd : (s.preemptCmd c).Canonical := by
  simp only [State.preemptCmd]
  split_ifs <;> simp [h]

theorem State.canonical_restoreCmd : (s.restoreCmd c).Canonical := by
  simp only [State.restoreCmd]
  split_ifs
  · simp [h]
  · simp [h]
  split
  · simp [h]
  · simp [h]
  · next e _ => exact State.wf_restoreContext h e

theorem State.canonical_invalCmd : (s.invalCmd c).Canonical := by
  simp only [State.invalCmd]
  split_ifs <;> simp [h]

theorem State.canonical_replayCmd : (s.replayCmd c).Canonical := by
  unfold State.replayCmd
  split
  · simp [h]
  split <;> simp [h]

theorem State.canonical_killCmd : (s.killCmd c).Canonical := by
  unfold State.killCmd
  split <;> simp [h]

theorem State.canonical_releaseCmd : (s.releaseCmd c).Canonical := by
  simp only [State.releaseCmd]
  split <;> simp [h]

theorem State.canonical_resumeCmd : (s.resumeCmd c).Canonical := by
  simp only [State.resumeCmd]
  split <;> simp [h]

theorem State.canonical_clearerrCmd : (s.clearerrCmd c).Canonical := by
  simp only [State.clearerrCmd]
  split
  · simp [h]
  split <;> simp [h]

theorem State.canonical_routeset : (s.routeset c).Canonical := by
  simp only [State.routeset]
  split
  · simp [h]
  refine State.canonical_onRead h fun es _ => ?_
  split <;> simp [h]

theorem State.canonical_roundshare : (s.roundshare c).Canonical := by
  simp only [State.roundshare]
  split
  · simp [h]
  split <;> simp [h]

theorem State.canonical_runlistCmd : (s.runlistCmd c).Canonical := by
  simp only [State.runlistCmd]
  split
  · simp [h]
  refine State.canonical_onRead h fun es _ => ?_
  split <;> simp [h]

theorem State.canonical_turnover (test : HealthTest) : (State.turnover test s c).Canonical := by
  simp only [State.turnover]
  split
  · simp [h]
  · exact State.wf_healthTest test (State.wf_replan (State.wf_scrubbed h))

end Commands

end Sys2Proof.Machine
end

section
/-! Every instruction and every step of the opcode table keeps memory canonical (R93). -/

namespace Sys2Proof.Machine

/-- Memory is canonical in the state that comes of a step, if one does. -/
def Canonical (r : Result) : Prop := ∀ t, r = .next t → t.mem.wf

@[simp] theorem canonical_next (t : State) : Canonical (.next t) ↔ t.mem.wf :=
  ⟨fun h => h t rfl, fun h _ e => by cases e; exact h⟩

theorem State.canonical_putScalar {s : State} (d : BitVec 6) (x : Word) (h : s.mem.wf) :
    Canonical (s.putScalar d x) := by
  simpa [State.putScalar] using h

theorem State.canonical_putPred {s : State} (d : BitVec 3) (x : Lane) (h : s.mem.wf) : Canonical (s.putPred d x) := by
  simpa [State.putPred] using h

section Arms

variable {s : State} (h : s.mem.wf)

include h

theorem canonical_twatch (a : BitVec 6) : Canonical (execTwatch a s) := by
  refine (canonical_next _).2 ?_
  split
  · simp [h]
  split
  · next e => exact State.wf_xlateAll h e
  split
  · simp [h]
  dsimp only
  split
  · simp [h]
  split <;> simp [h]

theorem canonical_tkhdr (d a b : BitVec 6) : Canonical (execTkhdr d a b s) := by
  refine (canonical_next _).2 ?_
  dsimp only
  split
  · simp [h]
  split
  · simp [h]
  split
  · simp [h]
  refine State.wf_after h (fun _ e => State.wf_forceParts h e) fun t ht => ?_
  rw [State.mem_advance, State.mem_setS]
  exact State.wf_storeBytes _ _ ht

theorem canonical_endOfGroupEntry (n : Nat) : Canonical (execEndOfGroupEntry n s) := by
  refine (canonical_next _).2 ?_
  split
  · exact h
  split
  · exact h
  split
  · exact h
  exact foldl_wf (fun t c ht => by simpa using ht) _ (by simpa using h)

theorem canonical_launchStart (n : Nat) : Canonical (execLaunchStart n s) := by
  have h0 : s.sweep.pollThrottles.mem.wf := by simp [h]
  refine (canonical_next _).2 ?_
  split
  · exact h0
  split
  · exact h0
  · exact State.wf_startLaunch _ h0

theorem canonical_xop (n : BitVec 4) (d a b : BitVec 7) (imm : BitVec 4) : Canonical (execXop n d a b imm s) := by
  refine (canonical_next _).2 (State.wf_withRegs _ h ?_)
  split
  · simp [h]
  split
  · simp [h]
  split
  · simp [h]
  split
  · simp [h]
  · dsimp only
    split <;> simp [h]

theorem canonical_vextr (d : BitVec 6) (a : BitVec 7) (lane : BitVec 5) : Canonical (execVextr d a lane s) :=
  (canonical_next _).2 (State.wf_withRegs _ h (by simp [h]))

theorem canonical_vst (d : BitVec 7) (b : BitVec 6) (imm : BitVec 12) : Canonical (execVst d b imm s) := by
  refine (canonical_next _).2 (State.wf_withRegs _ h ?_)
  split <;> simp [h]

theorem canonical_tkcancel (d a : BitVec 6) : Canonical (execTkcancel d a s) := by
  refine (canonical_next _).2 ?_
  split
  · simp [h]
  split
  · simp [h]
  exact State.wf_after h (fun _ e => State.wf_beforeCancel h e) (fun _ ht => by simp [ht])

theorem canonical_unpin (d a : BitVec 6) : Canonical (execUnpin d a s) := by
  refine (canonical_next _).2 ?_
  dsimp only
  split
  · simp [h]
  · simp [Memory.wf_dropLines, h]

theorem canonical_memoryAccessPerformed (n : Nat) : Canonical (execMemoryAccessPerformed n s) := by
  refine (canonical_next _).2 ?_
  split
  · split
    · split
      · next e => exact State.wf_performAccess _ (State.wf_forceFor h e)
      · exact h
    · exact h
  · exact h

theorem canonical_pksend (d a b : BitVec 6) : Canonical (execPksend d a b s) := by
  refine (canonical_next _).2 ?_
  split
  · simp [h]
  split
  · simp [h]
  split
  · simp [h]
  refine State.wf_after h (fun _ e => State.wf_rowReady h e) fun t ht => ?_
  dsimp only
  split
  · simp [ht]
  split <;> simp [ht]

theorem canonical_swr (a idx : BitVec 6) : Canonical (execSwr a idx s) := by
  refine (canonical_next _).2 ?_
  split
  · simp [h]
  split
  · simp [h]
  split
  · next e => simp [State.mem_writeSpecial e, h]
  · simp [h]

theorem canonical_carriedInstructionIssue (core n : Nat) : Canonical (execCarriedInstructionIssue core n s) := by
  refine (canonical_next _).2 ?_
  split
  · exact h
  split
  · exact h
  split
  · next e => simp [State.wf_forcePast h e]
  · simp [h]

theorem canonical_vjmpi (a : BitVec 7) (tag : BitVec 13) : Canonical (execVjmpi a tag s) := by
  refine (canonical_next _).2 ?_
  split
  · simp [h]
  dsimp only
  split
  · next e => exact State.wf_checkTargets h e
  · simp [h]

theorem canonical_launchComplete (n : Nat) : Canonical (execLaunchComplete n s) := by
  have h0 : s.sweep.mem.wf := State.wf_sweep h
  refine (canonical_next _).2 ?_
  split
  · exact h0
  split
  · exact h0
  · exact foldl_wf (fun _ l ht => State.wf_completeLaunch l ht) _ h0

theorem canonical_tkpush (d a b : BitVec 6) : Canonical (execTkpush d a b s) := by
  refine (canonical_next _).2 ?_
  split
  · simp [h]
  split
  · simp [h]
  split
  · simp [h]
  refine State.wf_after h (fun _ e => State.wf_rowReady h e) fun t ht => ?_
  split
  · simp [ht]
  split
  · simp [ht]
  refine State.wf_after ht (fun _ e => State.wf_beforePush ht e) fun u hu => ?_
  split
  · next e => simp [State.wf_pushRow hu e]
  · simp [hu]

theorem canonical_streamPark (core churn : Nat) : Canonical (execStreamPark core churn s) := by
  -- The 2048 lines of a save area stay a name: a goal in which they stand written out is too deep to check.
  obtain ⟨rest, hrest⟩ : ∃ r, State.saveRest s = r := ⟨_, rfl⟩
  rw [execStreamPark, hrest]
  refine (canonical_next _).2 (State.wf_ite (fun _ => ?_) fun _ => h)
  split
  · split <;> simp [h]
  · exact h

theorem canonical_lockstepRecoveryEnd : Canonical (execLockstepRecoveryEnd s) := by
  refine (canonical_next _).2 ?_
  split
  · exact State.wf_rasEvent (foldl_wf (fun _ q ht => State.wf_resumeQueue q ht) _ h)
  · exact h

theorem canonical_msca (d a : BitVec 4) (b : BitVec 6) : Canonical (execMsca d a b s) := by
  refine (canonical_next _).2 ?_
  split
  · simp [h]
  split
  · simp [h]
  split
  · simp [h]
  · next e =>
    have ht := State.wf_forceParts h e
    split
    · exact ht
    dsimp only
    split <;> simp [h, ht]

theorem canonical_vld (d : BitVec 7) (b : BitVec 6) (imm : BitVec 12) : Canonical (execVld d b imm s) := by
  refine (canonical_next _).2 (State.wf_withRegs _ h ?_)
  split <;> simp [h]

theorem canonical_instructionFetchFault : Canonical (execInstructionFetchFault s) := by
  refine (canonical_next _).2 ?_
  split
  · next e => exact State.wf_xlateAll h e
  split <;> simp [h]

theorem canonical_calli (a : BitVec 6) (tag : BitVec 13) : Canonical (execCalli a tag s) := by
  refine (canonical_next _).2 ?_
  split
  · next e => exact State.wf_checkTarget h e
  · simp [h]

theorem canonical_vstx (d : BitVec 7) (b : BitVec 6) (x : BitVec 7) : Canonical (execVstx d b x s) :=
  (canonical_next _).2 (State.wf_withRegs _ h (State.wf_laneAccesses _ _ _ _ _ h))

theorem canonical_jmpi (a : BitVec 6) (tag : BitVec 13) : Canonical (execJmpi a tag s) := by
  refine (canonical_next _).2 ?_
  split
  · next e => exact State.wf_checkTarget h e
  · simp [h]

theorem canonical_bringUpComplete (test : HealthTest) (chip : BitVec 12) (b : BringUp) :
    Canonical (execBringUpComplete test chip b s) := by
  refine (canonical_next _).2 ?_
  split
  · exact h
  have ht := State.wf_healthTest { test with ok := test.ok && !s.control.failed } h
  dsimp only
  split
  · exact ht
  · rw [State.mem_setTable]
    exact Memory.wf_clearedBut _ ht

theorem canonical_mrd (d : BitVec 6) (a : BitVec 4) (b : BitVec 6) : Canonical (execMrd d a b s) := by
  refine (canonical_next _).2 (State.wf_withRegs _ h ?_)
  split
  · simp [h]
  split
  · simp [h]
  dsimp only
  split
  · refine foldl_wf (fun t k ht => by simpa using ht) _ ?_
    split <;> simp [h]
  · simp [h]

theorem canonical_tld (d : BitVec 7) (t sb : BitVec 6) : Canonical (execTld d t sb s) := by
  refine (canonical_next _).2 (State.wf_withRegs _ h ?_)
  dsimp only
  split_ifs <;> simp [h]

theorem canonical_tkroute (d a b : BitVec 6) : Canonical (execTkroute d a b s) := by
  -- The 128 places of a row stay a name: a goal in which they stand written out is too deep to check.
  obtain ⟨places, hplaces⟩ : ∃ x, State.rowPlaces s = x := ⟨_, rfl⟩
  rw [execTkroute, hplaces]
  refine (canonical_next _).2 ?_
  dsimp only
  split
  · simp [h]
  split
  · simp [h]
  split
  · next e => exact State.wf_waveRead_error h e
  next e =>
  have h1 := State.wf_waveRead_ok h e
  split
  · simp [h]
  split
  · simp [h]
  refine State.wf_after h1 (fun _ e => State.wf_rowReady h1 e) fun t ht => ?_
  split
  · simp [ht]
  split
  · split
    · simp [ht]
    split <;> simp [ht]
  refine State.wf_after ht (fun _ e => State.wf_beforePush ht e) fun u hu => ?_
  split
  · next e => simp [State.wf_routeIssue_ok hu e]
  · next e => simp [State.wf_routeIssue_error hu e]

theorem canonical_flr : Canonical (execFlr s) := by
  have h1 : ((s.contexts.map (·.1)).foldl State.destroy s).Inv := foldl_inv (fun _ ctx ht => State.wf_destroy ctx ht) _ h
  rw [execFlr, canonical_next]
  apply State.wf_sweep
  apply foldl_inv
  · intro t q ht
    split
    · exact ht
    · apply State.wf_writeStatus
      rw [State.mem_stopQueue]
      exact ht
  · exact h1

theorem canonical_xswap (x : BitVec 4) (a : BitVec 6) : Canonical (execXswap x a s) := by
  refine (canonical_next _).2 ?_
  dsimp only
  split
  · simp [h]
  split
  · next e => exact State.wf_readImage_error h e
  next e =>
  have h1 := State.wf_readImage_ok h e
  split
  · simp [h1]
  split
  · simp [h1]
  split_ifs <;> simp [h1]

theorem canonical_vldx (d : BitVec 7) (b : BitVec 6) (x : BitVec 7) : Canonical (execVldx d b x s) :=
  (canonical_next _).2 (State.wf_withRegs _ h (State.wf_laneAccesses _ _ _ _ _ h))

theorem canonical_xload (x : BitVec 4) (a : BitVec 6) : Canonical (execXload x a s) := by
  refine (canonical_next _).2 ?_
  dsimp only
  split
  · simp [h]
  split
  · next e => exact State.wf_readImage_error h e
  next s1 data e =>
  have h1 := State.wf_readImage_ok h e
  split
  · rwa [State.mem_trapGraph]
  generalize s1.loadedSlots s.cur.core s.ctxId - _ = n
  split
  · rwa [State.mem_trapGraph]
  split
  · simp [h]
  · simp [h]
  · split
    · simp [h]
    · simpa using h1

theorem canonical_thermalTrip : Canonical (execThermalTrip s) := by
  rw [execThermalTrip, canonical_next]
  split
  · exact h
  · apply State.wf_sweep
    apply State.wf_freeLost
    apply foldl_wf
    · intro t ctx ht
      rwa [State.mem_loseWithRecord]
    · exact State.wf_looseEvent _ _ h

theorem canonical_mwr (d : BitVec 4) (a b : BitVec 6) : Canonical (execMwr d a b s) := by
  refine (canonical_next _).2 (State.wf_withRegs _ h ?_)
  split
  · simp [h]
  split
  · simp [h]
  split
  · simp [h]
  · rw [State.mem_advance]
    exact foldl_wf (fun t l ht => by simpa using ht) _ (by simpa using h)

theorem canonical_tst (d : BitVec 7) (t sb : BitVec 6) : Canonical (execTst d t sb s) := by
  refine (canonical_next _).2 (State.wf_withRegs _ h ?_)
  dsimp only
  split
  · simp [h]
  split
  · simp [h]
  split
  · simp [h]
  split
  · simp [h]
  split
  · simp [h]
  split
  · simp [h]
  split
  · split
    · exact State.wf_after h (fun _ e => by cases e; exact State.wf_drain _ h) (fun u hu => by simp [hu])
    · simp [h]
  split <;> simp [h]

theorem canonical_xopComplete (core n : Nat) : Canonical (execXopComplete core n s) := by
  refine (canonical_next _).2 (foldl_wf (fun t i ht => ?_) _ h)
  split
  · exact ht
  split
  · split <;> simp [ht]
  · exact ht

theorem canonical_peerArrival (n : Nat) : Canonical (execPeerArrival n s) := by
  refine (canonical_next _).2 ?_
  split
  · split
    · split
      · next e => exact State.wf_performAccess _ (State.wf_forceFor h e)
      · exact h
    · exact h
  · exact h

theorem canonical_tkcnt (d a : BitVec 6) : Canonical (execTkcnt d a s) := by
  refine (canonical_next _).2 ?_
  dsimp only
  split
  · simp [h]
  split
  · next e => exact State.wf_xlateAll h e
  split
  · simp [h]
  split <;> simp [h]

theorem canonical_tknew (d a b : BitVec 6) : Canonical (execTknew d a b s) := by
  refine (canonical_next _).2 ?_
  dsimp only
  split
  · simp [h]
  split
  · simp [h]
  split
  · simp [h]
  split
  · next e => exact State.wf_waveRead_error h e
  next e =>
  have h1 := State.wf_waveRead_ok h e
  split
  · simp [h]
  split
  · simp [h]
  refine State.wf_after h1 (fun _ e => State.wf_beforePush h1 e) fun t ht => ?_
  split
  · next e => simp [State.wf_createRecord ht e]
  · simp [ht]

theorem canonical_srd (d idx : BitVec 6) : Canonical (execSrd d idx s) := by
  refine (canonical_next _).2 (State.wf_ite (fun _ => by simp [h]) fun _ => ?_)
  dsimp only
  split
  · simp [h]
  · simp [h]

theorem canonical_xdrop (x : BitVec 4) : Canonical (execXdrop x s) := by
  refine (canonical_next _).2 ?_
  dsimp only
  split
  · simp [h]
  split
  · simp [h]
  refine State.wf_ite (fun _ => ?_) fun _ => ?_ <;> (repeat' split) <;> simp [h]

theorem canonical_remoteRequestArrival (r : RemoteRequest) : Canonical (execRemoteRequestArrival r s) := by
  have ht := State.wf_serve r h
  refine (canonical_next _).2 ?_
  dsimp only
  split
  · exact h
  split
  · simpa using ht
  · split
    · simp [h]
    · simpa using ht

theorem canonical_copyCommandStart (core n : Nat) : Canonical (execCopyCommandStart core n s) := by
  refine (canonical_next _).2 ?_
  split
  · exact h
  dsimp only
  split
  · exact h
  split <;> simp [h]

theorem canonical_agStep (core churn ag : Nat) : Canonical (execAgStep core churn ag s) := by
  refine (canonical_next _).2 ?_
  split
  · exact h
  split
  · exact h
  dsimp only
  split
  · exact h
  split
  · simp [h]
  (repeat' split) <;> simp [h]

theorem canonical_faultRecordRead (die : Nat) : Canonical (execFaultRecordRead die s) :=
  (canonical_next _).2 (foldl_wf (fun _ _ ht => State.wf_postEvent _ _ ht) _ h)

end Arms

/-! ## The step of the opcode table -/

theorem canonical_copySectorAccess {s : State} (core n : Nat) (h : s.mem.wf) :
    Canonical (execCopySectorAccess core n s) := by
  refine (canonical_next _).2 ?_
  split
  · exact h
  split
  · exact h
  split
  · next e => simpa using State.wf_copyStep h e
  · simp [h]
  · simp [h]
  · next e => simpa using State.wf_copyStep_needs h e
  · exact h

theorem canonical_runCommand {s : State} (q op : Nat) {f : State → HostCmd → CmdEnd}
    (hf : ∀ {t : State}, t.mem.wf → ∀ c, (f t c).Canonical) (h : s.mem.wf) : Canonical (s.runCommand q op f) :=
  (canonical_next _).2 (State.wf_hostCommand q _ (fun _ c ht => hf ht c) h)

theorem canonical_nop {s : State} (q : Nat) (h : s.mem.wf) : Canonical (execNop q s) :=
  (canonical_next _).2 (State.wf_hostCommand q _ (fun _ _ ht => ht) h)

/-- An arm that no lemma above is about is a chain of operations, or a choice between such chains, each of which keeps
memory canonical. -/
theorem canonical_exec {s : State} (i : Instr) (h : s.mem.wf) : Canonical (exec i s) := by
  cases i with
  | sadd | ssub | smul | smulh | smulhu | sdiv | sdivu | srem | sremu | sand | sor | sxor | sshl | sshr | ssra | smin
  | smax | sminu | smaxu | sseq | sslt | ssltu | sclz | spopc | spmov | saddi | sandi | sori | sslti | sshli | ssrai
  | sshri | sli | slui | slxi | pcnt =>
    exact State.canonical_putScalar _ _ h
  | pand | por | pxor | pandn | pnot | pmov | pfirst | pset =>
    exact State.canonical_putPred _ _ h
  | srd d idx => exact canonical_srd h d idx
  | swr a idx => exact canonical_swr h a idx
  | jmpi a tag => exact canonical_jmpi h a tag
  | calli a tag => exact canonical_calli h a tag
  | vjmpi a tag => exact canonical_vjmpi h a tag
  | vextr d a lane => exact canonical_vextr h d a lane
  | vld d b imm => exact canonical_vld h d b imm
  | vst d b imm => exact canonical_vst h d b imm
  | vldx d b x => exact canonical_vldx h d b x
  | vstx d b x => exact canonical_vstx h d b x
  | tld d t sb => exact canonical_tld h d t sb
  | tst d t sb => exact canonical_tst h d t sb
  | unpin d a => exact canonical_unpin h d a
  | twatch a => exact canonical_twatch h a
  | msca d a b => exact canonical_msca h d a b
  | mrd d a b => exact canonical_mrd h d a b
  | mwr d a b => exact canonical_mwr h d a b
  | xload x a => exact canonical_xload h x a
  | xdrop x => exact canonical_xdrop h x
  | xswap x a => exact canonical_xswap h x a
  | xop n d a b imm => exact canonical_xop h n d a b imm
  | tknew d a b => exact canonical_tknew h d a b
  | tkpush d a b => exact canonical_tkpush h d a b
  | tkroute d a b => exact canonical_tkroute h d a b
  | tkcancel d a => exact canonical_tkcancel h d a
  | tkhdr d a b => exact canonical_tkhdr h d a b
  | tkcnt d a => exact canonical_tkcnt h d a
  | pksend d a b => exact canonical_pksend h d a b
  | memoryAccessPerformed n => exact canonical_memoryAccessPerformed h n
  | peerArrival n => exact canonical_peerArrival h n
  | remoteRequestArrival r => exact canonical_remoteRequestArrival h r
  | endOfGroupEntry round => exact canonical_endOfGroupEntry h round
  | copyCommandStart core n => exact canonical_copyCommandStart h core n
  | copySectorAccess core n => exact canonical_copySectorAccess core n h
  | carriedInstructionIssue core n => exact canonical_carriedInstructionIssue h core n
  | agStep core churn ag => exact canonical_agStep h core churn ag
  | streamPark core churn => exact canonical_streamPark h core churn
  | xopComplete core n => exact canonical_xopComplete h core n
  | bringUpComplete test chip b => exact canonical_bringUpComplete h test chip b
  | nop q => exact canonical_nop q h
  | launchStart n => exact canonical_launchStart h n
  | launchComplete n => exact canonical_launchComplete h n
  | flr  => exact canonical_flr h
  | thermalTrip  => exact canonical_thermalTrip h
  | instructionFetchFault  => exact canonical_instructionFetchFault h
  | faultRecordRead die => exact canonical_faultRecordRead h die
  | lockstepRecoveryEnd  => exact canonical_lockstepRecoveryEnd h
  | qcreate q => exact canonical_runCommand q _ State.canonical_qcreate h
  | qdestroy q => exact canonical_runCommand q _ State.canonical_qdestroy h
  | qrestart q => exact canonical_runCommand q _ State.canonical_qrestart h
  | ctxcreate q => exact canonical_runCommand q _ State.canonical_ctxcreate h
  | ctxdestroy q => exact canonical_runCommand q _ State.canonical_ctxdestroy h
  | groupset q => exact canonical_runCommand q _ State.canonical_groupset h
  | install q => exact canonical_runCommand q _ State.canonical_install h
  | remove q => exact canonical_runCommand q _ State.canonical_removeCmd h
  | submit q => exact canonical_runCommand q _ State.canonical_submit h
  | launch q => exact canonical_runCommand q _ State.canonical_launch h
  | preempt q => exact canonical_runCommand q _ State.canonical_preemptCmd h
  | restore q => exact canonical_runCommand q _ State.canonical_restoreCmd h
  | inval q => exact canonical_runCommand q _ State.canonical_invalCmd h
  | replay q => exact canonical_runCommand q _ State.canonical_replayCmd h
  | kill q => exact canonical_runCommand q _ State.canonical_killCmd h
  | setbudget q => exact canonical_runCommand q _ State.canonical_setbudget h
  | qbudget q => exact canonical_runCommand q _ State.canonical_qbudget h
  | release q => exact canonical_runCommand q _ State.canonical_releaseCmd h
  | resume q => exact canonical_runCommand q _ State.canonical_resumeCmd h
  | keyalloc q => exact canonical_runCommand q _ State.canonical_keyalloc h
  | routeset q => exact canonical_runCommand q _ State.canonical_routeset h
  | turnover q test => exact canonical_runCommand q _ (fun ht c => State.canonical_turnover ht c test) h
  | runlist q => exact canonical_runCommand q _ State.canonical_runlistCmd h
  | clearerr q => exact canonical_runCommand q _ State.canonical_clearerrCmd h
  | roundshare q => exact canonical_runCommand q _ State.canonical_roundshare h
  | exit | vcvt | tbeg | orelse | tend | mldb | mqry | tlrd | xmark | pailFiring | taskStart | yieldEnd
  | wakeBackoffExpiry | remoteResponse | pageWalkComplete | uncorrectableError | mldbFillComplete | groupStart
  | passOver | blockDelivery | copyCommandComplete | churnElementFire | quiescenceRound | spillRefill
  | packetArrival | allowanceWaitExpiry | skimmerHandover | routeTimeout | quantumEnd | faultPeriodExpiry
  | pldmRequest | spdmRequest =>
    exact (canonical_next _).2 (by (repeat' split) <;> simp [h])
  | _ => exact (canonical_next _).2 (by simp [h])

end Sys2Proof.Machine
end

section
/-! The passing of time, the issue of an instruction and a step keep memory canonical (R34, R92, R93). -/

namespace Sys2Proof.Machine

/-! ## The passing of time -/

/-- What keeps a fragment's next move from being made is found in a state whose memory is canonical (R34). -/
theorem State.wf_held {s v : State} (h : s.mem.wf) (e : s.held = some v) : v.mem.wf := by
  have hstall : ∀ {t : State}, t.mem.wf → t.ifStalled = some v → v.mem.wf := by
    intro t ht e
    unfold State.ifStalled at e
    split at e
    · cases e
      exact ht
    · cases e
  unfold State.held at e
  split at e
  · dsimp only at e
    split at e
    · cases e
      simp [h]
    · cases e
  split at e
  · cases e
  split at e
  · cases e
  · exact hstall (State.wf_awaitFetch _ h) e
  split at e
  · cases e
  split at e
  · cases e
    exact h
  dsimp only at e
  split at e
  · cases e
  split at e
  · next t e' =>
    exact hstall (canonical_exec _ (by simp [State.noteWord, h]) t e') e
  · cases e
  · cases e

theorem State.wf_noteHeld {s : State} (f : FragId) (h : s.mem.wf) : (s.noteHeld f).mem.wf := by
  unfold State.noteHeld
  split
  · exact h
  split
  · exact h
  · next e =>
    rw [State.heldAt] at e
    simpa using State.wf_held (s := s.choose f false) h e

theorem State.wf_tickCycle {s : State} (h : s.mem.wf) : s.tickCycle.mem.wf := by
  simp +contextual [State.tickCycle, State.countReady, State.wf_noteHeld, foldl_wf, h]

theorem State.wf_runCycles {s : State} (n : Nat) (h : s.mem.wf) : (s.runCycles n).mem.wf := by
  induction n generalizing s with
  | zero => exact h
  | succ n ih =>
    unfold State.runCycles
    split
    · exact h
    · exact ih (State.wf_tickCycle h)

theorem State.wf_pass {s : State} (cycles ns : Nat) (h : s.mem.wf) : (s.pass cycles ns).mem.wf := by
  have helapse : ∀ n m, (s.elapse n m).mem.wf := fun n m => by simp [State.elapse, State.wf_runCycles n h]
  unfold State.pass
  split
  · exact helapse _ _
  · simp [helapse]

/-! ## The issue of an instruction -/

/-- Memory is canonical in the state that a plan starts from. -/
def Plan.Canonical (p : Plan) : Prop :=
  match p with
  | .done t => t.mem.wf
  | .word t _ _ => t.mem.wf
  | .event t _ => t.mem.wf

theorem State.canonical_issueWord {s : State} (w : BitVec 32) (i : Instr) (h : s.mem.wf) :
    (s.issueWord w i).Canonical := by
  unfold State.issueWord
  split
  · simpa [Plan.Canonical] using h
  · dsimp only
    split <;> simp [Plan.Canonical, h]

theorem State.canonical_issuePlan {s : State} (h : s.mem.wf) : s.issuePlan.Canonical := by
  unfold State.issuePlan
  split
  · simp [Plan.Canonical, h]
  split
  · simp [Plan.Canonical, h]
  split
  · exact h
  · simp [Plan.Canonical, h]
  split
  · exact State.canonical_issueWord _ _ h
  · exact h

theorem State.canonical_planMove {s : State} (h : s.mem.wf) : s.planMove.Canonical := by
  unfold State.planMove
  split
  · dsimp only
    split
    · exact State.canonical_issuePlan h
    · exact State.wf_pass 1 1 h
  · next rest _ =>
    have h1 : ({ s with inputs := rest } : State).mem.wf := h
    dsimp only
    split
    · split
      · exact State.canonical_issuePlan h1
      · exact h1
    · split <;> exact h1
    · exact State.wf_hostWrite _ _ h1
    · exact State.wf_pass _ _ h1
    · exact h1
    · simp [Plan.Canonical, h]
    · simp [Plan.Canonical, h]
    · simp [Plan.Canonical, State.forget, h]
    · simp [Plan.Canonical, h]
    · exact h1

/-- The issue of an instruction noted leaves memory. -/
theorem State.mem_closeIssue (before s : State) : (before.closeIssue s).mem = s.mem := by
  simp only [State.closeIssue, State.mem_ite, State.mem_passFrag, State.setFr_mem, State.mem_noteIssued,
    State.mem_dropFetched, ite_self]

/-- What follows an instruction leaves memory canonical. -/
theorem State.canonical_finishIssue (before : State) {r : Result} (h : Canonical r) :
    Canonical (before.finishIssue r) := by
  cases r with
  | next u =>
    refine (canonical_next _).2 ?_
    rw [State.mem_afterIssue, State.mem_closeIssue]
    exact h u rfl
  | fault e => exact h
  | refused e => exact h

/-- Every step keeps the canonical form of memory (R92, R93). -/
theorem canonical_step {s : State} (h : s.mem.wf) : Canonical (step s) := by
  have hp : s.plan.Canonical := State.canonical_planMove (by simpa using h)
  unfold step
  split
  · next t e =>
    rw [e] at hp
    exact (canonical_next t).2 hp
  · next t i e =>
    rw [e] at hp
    exact canonical_exec i hp
  · next t w i e =>
    rw [e] at hp
    refine State.canonical_finishIssue t (canonical_exec i ?_)
    rw [State.noteWord, State.setFr_mem]
    exact hp

/-- Settles O58: by what each step can be, an instruction or an event of the table, or a move of the tape. -/
theorem everyStepKeepsMemoryCanonical : Obligations.EveryStepKeepsMemoryCanonical := by
  unfold Obligations.EveryStepKeepsMemoryCanonical
  exact fun s t h e => canonical_step h t e

end Sys2Proof.Machine
end

section
/-! The fragments of a wave: their rows and the free ids (R127). -/

namespace Sys2Proof.Machine

/-! ## The fragments of a wave -/

/-- The live fragments of a wave are those of its ids that have a row (R127). -/
theorem State.mem_fragsOf {s : State} {core wave k : Nat} : k ∈ s.fragsOf core wave
    ↔ k < 8 ∧ (findAt s.frags ((core * 64 + wave) * 8 + k)).isSome = true := by
  rw [State.fragsOf, List.mem_filter, List.mem_range]

/-- A fragment of the executing wave by the id of the executing one. -/
@[simp] theorem State.mate_cur (s : State) : s.mate s.cur.frag = s.cur := rfl

/-- Fragments of one wave with ids of their own have rows of their own. -/
theorem State.key_mate_ne {s : State} {k j : Nat} (h : k ≠ j) : (s.mate k).key ≠ (s.mate j).key :=
  fun e => h (Nat.add_left_cancel e)

/-- The executing fragment is one of its wave's (R127). -/
theorem State.Alive.mem_fragsOf {s : State} (h : s.Alive) : s.cur.frag ∈ s.fragsOf s.cur.core s.cur.wave :=
  State.mem_fragsOf.2 ⟨h.2, h.1⟩

/-- Replacing another fragment leaves the executing one. -/
theorem State.fr_setFrOf_ne {s : State} {i : FragId} (h : i.key ≠ s.cur.key) (f : Frag) : (s.setFrOf i f).fr = s.fr :=
  getAt_putAt_ne _ _ _ h.symm

/-! ## The free ids -/

/-- The first free number is one that the list does not hold. -/
theorem notMem_of_firstFree {n k : Nat} {used : List Nat} (h : firstFree n used = some k) : k ∉ used := by
  simpa using List.find?_some h

/-- A list shorter than the numbers leaves one of them free. -/
theorem exists_firstFree {n : Nat} {used : List Nat} (h : used.length < n) : ∃ k, firstFree n used = some k := by
  rw [← Option.isSome_iff_exists, firstFree, List.find?_isSome]
  by_contra hall
  have hsub : List.range n ⊆ used := fun k hk => by
    by_contra hn
    exact hall ⟨k, hk, by simpa using hn⟩
  have hlen := (List.nodup_range.subperm hsub).length_le
  rw [List.length_range] at hlen
  omega

/-- Where there is room for a fragment, an id is free (R127). -/
theorem State.exists_freeId {s : State} (h : s.fragmentRoom ≠ 0) :
    ∃ k, firstFree 8 (s.fragsOf s.cur.core s.cur.wave) = some k := by
  refine exists_firstFree ?_
  unfold State.fragmentRoom at h
  split at h <;> omega

end Sys2Proof.Machine
end

section
/-! `ret` (R69, R122). -/

namespace Sys2Proof.Machine

/-- The word of `ret` with another field set is no instruction (R73, R122). -/
theorem decodeWord_ret_reserved {d a b : BitVec 6} (h : d ≠ 0 ∨ a ≠ 0 ∨ b ≠ 0) :
    decodeWord (encS3 0x10 d a b 0) = .error .reserved := by
  obtain ⟨hop, hd, ha, hb, hfn⟩ := (encS3_eq_iff _ 0x10 d a b 0).1 rfl
  rw [decodeWord_ctl hop.symm, decodeCtl, ← hfn, ← hd, ← ha, ← hb]
  refine if_neg fun ⟨hd, ha, hb⟩ => ?_
  simp [hd, ha, hb] at h

/-- Settles O4: the alignment of `lr` decides between the return and the trap, and the decoder is run on the word. -/
theorem returnResults : Obligations.ReturnResults := by
  unfold Obligations.ReturnResults
  refine fun s => ⟨fun h => ?_, fun h hf => ?_, by decide, fun d a b => decodeWord_ret_reserved⟩
  · exact congrArg Host.Outcome.next (if_neg (not_not.2 ((extractLsb'_low_eq_zero_iff (s.getS 62)).2 h)))
  · exact ⟨_, congrArg Host.Outcome.next (if_pos fun hz => h ((extractLsb'_low_eq_zero_iff (s.getS 62)).1 hz)),
      s.trap_trapped causeLANDING _ 0 0 hf⟩

end Sys2Proof.Machine
end

section
/-! Divergence: `vbr` and `vjmpi` (R126 to R129, R132). -/

namespace Sys2Proof.Machine

theorem exec_vbr (p : BitVec 3) (neg : BitVec 1) (off : BitVec 21) (s : State) :
    exec (.vbr p neg off) s = execVbr p neg off s := rfl

theorem exec_vjmpi (a : BitVec 7) (tag : BitVec 13) (s : State) : exec (.vjmpi a tag) s = execVjmpi a tag s := rfl

/-! ## A new fragment -/

/-- The executing fragment on the line of program order that it goes on with after a split (R103, R126). -/
def State.parted (s : State) : Frag := { s.fr with thread := s.nextThread, before := s.fr.thread :: s.fr.before }

/-- The fragment that a split makes: lanes and a program counter of its own, and copies of the rest (R126). -/
def State.offspring (s : State) (lanes : Lane) (pc : Word) : Frag :=
  { Frag.reset with
    pc := pc, lmask := lanes, mr := s.fr.mr, depth := s.fr.depth, s := s.fr.s, p := s.fr.p,
    thread := s.nextThread + 1, before := s.fr.thread :: s.fr.before, word := s.fr.word }

section NewFragment

variable {s : State} {k : Nat} (hk : firstFree 8 (s.fragsOf s.cur.core s.cur.wave) = some k) (lanes : Lane) (pc : Word)

include hk

/-- A new fragment takes the lowest free id (R126). -/
theorem State.newFragment_of_free :
    s.newFragment lanes pc = (s.setFr s.parted).setFrOf (s.mate k) (s.offspring lanes pc) := by
  rw [State.newFragment, hk]
  rfl

/-- A free id is not that of the executing fragment. -/
theorem State.Alive.ne_of_free (h : s.Alive) : k ≠ s.cur.frag :=
  fun e => notMem_of_firstFree hk (e ▸ h.mem_fragsOf)

/-- The executing fragment after it has made a new one. -/
theorem State.Alive.fr_newFragment (h : s.Alive) : (s.newFragment lanes pc).fr = s.parted := by
  have hne : (s.mate k).key ≠ s.cur.key := State.key_mate_ne (h.ne_of_free hk)
  rw [State.newFragment_of_free hk, State.fr_setFrOf_ne (s := s.setFr _) hne, State.fr_setFr]

end NewFragment

/-! ## `vbr` -/

/-- The lanes of a minority go where there is room for a fragment to a new one (R129). -/
theorem State.splitOff_of_room {s : State} (h : s.fragmentRoom ≠ 0) (out stay : Lane) (outPc stayPc : Word) :
    s.splitOff out outPc stay stayPc
      = (s.newFragment out outPc).setFr { (s.newFragment out outPc).fr with lmask := stay, pc := stayPc } := by
  rw [State.splitOff, if_pos h]

/-- Without room they go onto the divergence stack (R129). -/
theorem State.splitOff_of_stack {s : State} (h : s.fragmentRoom = 0) (hs : s.wv.stack.length < 32) (out stay : Lane)
    (outPc stayPc : Word) :
    s.splitOff out outPc stay stayPc = (s.pushPending out outPc).setFr { s.fr with lmask := stay, pc := stayPc } := by
  rw [State.splitOff, if_neg (not_not.2 h), if_pos hs]
  rfl

/-- With the stack full they raise RBLK (R128, R129). -/
theorem State.splitOff_of_full {s : State} (h : s.fragmentRoom = 0) (hs : 32 ≤ s.wv.stack.length) (out stay : Lane)
    (outPc stayPc : Word) : s.splitOff out outPc stay stayPc = s.trap causeRBLK 0 0 4 := by
  rw [State.splitOff, if_neg (not_not.2 h), if_neg hs.not_gt]
  rfl

/-- A `vbr` whose lanes part splits off its minority, on a tie the lanes that take the branch (R129). -/
theorem execVbr_of_split {s : State} {p : BitVec 3} {neg : BitVec 1} {off : BitVec 21} {taken fall out stay : Lane}
    {outPc stayPc : Word} (ht : taken = s.taken p neg) (hf : fall = s.fr.lmask &&& ~~~taken) (h : fall ≠ 0)
    (h' : taken ≠ 0)
    (hs : (out, outPc, stay, stayPc) = if countBits 32 taken.toNat ≤ countBits 32 fall.toNat
      then (taken, s.target off, fall, s.fr.pc + 4) else (fall, s.fr.pc + 4, taken, s.target off)) :
    execVbr p neg off s = .next (s.splitOff out outPc stay stayPc) := by
  subst hf ht
  simp only [execVbr, if_neg h, if_neg h']
  split at hs <;> obtain ⟨rfl, rfl, rfl, rfl⟩ := hs
  · next hc => rw [if_pos hc]
  · next hc => rw [if_neg hc]

/-- A minority with room for a fragment is one, on the lowest free id, and the others stay (R126, R129). -/
theorem State.Alive.splitOff_newFragment {s : State} (h : s.Alive) (hr : s.fragmentRoom ≠ 0) (out stay : Lane)
    (outPc stayPc : Word) :
    ∃ t k, firstFree 8 (s.fragsOf s.cur.core s.cur.wave) = some k ∧ s.splitOff out outPc stay stayPc = t
      ∧ t = { s with frags := t.frags }
      ∧ (∀ j, j ≠ s.cur.key → j ≠ (s.mate k).key → findAt t.frags j = findAt s.frags j)
      ∧ t.fr = { s.parted with lmask := stay, pc := stayPc } ∧ t.frOf (s.mate k) = s.offspring out outPc := by
  obtain ⟨k, hk⟩ := State.exists_freeId hr
  have hne : (s.mate k).key ≠ s.cur.key := State.key_mate_ne (h.ne_of_free hk)
  rw [State.splitOff_of_room hr, h.fr_newFragment hk, State.newFragment_of_free hk]
  refine ⟨_, k, hk, rfl, rfl, fun j hj hj' => ?_, State.fr_setFr .., ?_⟩
  · show findAt (putAt (putAt (putAt s.frags s.cur.key _) (s.mate k).key _) s.cur.key _) j = _
    rw [findAt_putAt_ne _ _ hj, findAt_putAt_ne _ _ hj', findAt_putAt_ne _ _ hj]
  · show getAt _ (putAt (putAt (putAt s.frags s.cur.key _) (s.mate k).key _) s.cur.key _) _ = _
    rw [getAt_putAt_ne _ _ _ hne, getAt_putAt_same]

/-! ## `vjmpi` -/

/-- What placing sets of lanes leaves: nothing but fragments and waves differs, and the executing fragment, which still has
its row, differs in its line of program order alone (R132). -/
structure State.PlacesSets (s t : State) : Prop where
  frame : t = { s with frags := t.frags, waves := t.waves }
  fr : t.fr = { s.fr with thread := t.fr.thread, before := t.fr.before }
  alive : t.Alive

theorem State.Alive.placesSets {s : State} (h : s.Alive) : s.PlacesSets s := ⟨rfl, rfl, h⟩

theorem State.PlacesSets.trans {s t u : State} (h : s.PlacesSets t) (k : t.PlacesSets u) : s.PlacesSets u := by
  obtain ⟨hf, hfr, -⟩ := h
  obtain ⟨kf, kfr, ka⟩ := k
  refine ⟨?_, ?_, ka⟩
  · rw [kf, hf]
  · rw [kfr, hfr]

/-- A new fragment, if an id is free. -/
theorem State.Alive.newFragment_placesSets {s : State} (h : s.Alive) (lanes : Lane) (pc : Word) :
    s.PlacesSets (s.newFragment lanes pc) := by
  cases hk : firstFree 8 (s.fragsOf s.cur.core s.cur.wave) with
  | none =>
    rw [State.newFragment, hk]
    exact h.placesSets
  | some k =>
    have hne : s.cur.key ≠ (s.mate k).key := State.key_mate_ne (h.ne_of_free hk).symm
    refine ⟨by rw [State.newFragment_of_free hk]; rfl, by rw [h.fr_newFragment hk]; rfl, ?_, ?_⟩
    · rw [State.newFragment_of_free hk]
      show (findAt (putAt (putAt s.frags _ _) _ _) s.cur.key).isSome = true
      rw [findAt_putAt_ne _ _ hne, findAt_putAt_same]
      rfl
    · rw [State.newFragment_of_free hk]
      exact h.2

/-- New fragments of some sets. -/
theorem State.Alive.spread_placesSets {s : State} (h : s.Alive) (dest : Nat → Word) (m : Lane) (ts : List Word) :
    s.PlacesSets (s.spread dest m ts) := by
  induction ts generalizing s with
  | nil => exact h.placesSets
  | cons t r ih =>
    have hnew := h.newFragment_placesSets (lanesTo dest m t) t
    exact hnew.trans (ih hnew.alive)

/-- Pending entries of some sets. -/
theorem State.Alive.pushAll_placesSets {s : State} (h : s.Alive) (dest : Nat → Word) (m : Lane) (ts : List Word) :
    s.PlacesSets (s.pushAll dest m ts) := by
  induction ts generalizing s with
  | nil => exact h.placesSets
  | cons t r ih =>
    have hpush : s.PlacesSets (s.pushPending (lanesTo dest m t) t) := ⟨rfl, rfl, h⟩
    exact hpush.trans (ih hpush.alive)

/-- A lane is among those that go to a place where it is one of the mask's and that is its destination. -/
theorem getLsbD_lanesTo (dest : Nat → Word) (m : Lane) (t : Word) {l : Nat} (h : l < 32) :
    (lanesTo dest m t).getLsbD l = (m.getLsbD l && dest l == t) := by
  rw [lanesTo, getLsbD_maskOf _ _ h, Bool.eq_iff_iff]
  simp [lanesOf, h, and_comm]

/-- The lanes of a mask that is not empty begin with its lowest. -/
theorem exists_lanesOf_cons {m : Lane} (h : m ≠ 0) : ∃ r, lanesOf m = lowestLane m :: r := by
  cases hl : lanesOf m with
  | nil =>
    refine absurd (BitVec.eq_of_getLsbD_eq fun i hi => ?_) h
    have hnot : i ∉ lanesOf m := by simp [hl]
    simpa [lanesOf, hi] using hnot
  | cons l r => exact ⟨r, by rw [lowestLane, hl]; rfl⟩

/-- The sets of `vjmpi` with room for all of them: those of the lowest lane stay, and go to its destination (R132). -/
theorem State.Alive.jumpSets_of_room {s : State} (h : s.Alive) (dest : Nat → Word) (hm : s.fr.lmask ≠ 0)
    (hroom : s.wv.stack.length + ((firstLanes dest (lanesOf s.fr.lmask)).length - 1 - s.fragmentRoom) ≤ 32) :
    ∃ u, s.PlacesSets u ∧ s.jumpSets dest = u.setFr { u.fr with
      lmask := lanesTo dest s.fr.lmask (dest (lowestLane s.fr.lmask)), pc := dest (lowestLane s.fr.lmask) } := by
  obtain ⟨r, hr⟩ := exists_lanesOf_cons hm
  rw [State.jumpSets, hr]
  rw [hr] at hroom
  simp only [firstLanes, List.map_cons, List.length_cons] at hroom ⊢
  rw [if_neg (by simp only [List.length_drop, List.length_map]; omega)]
  have hspread := h.spread_placesSets dest s.fr.lmask
  exact ⟨_, (hspread _).trans ((hspread _).alive.pushAll_placesSets dest _ _), rfl⟩

/-- The bits that PC gives the target of a lane of `vjmpi`, and those that the lane does (R132). -/
theorem State.laneTarget_eq (s : State) (a : BitVec 7) (l : Nat) : s.laneTarget a l
    = BitVec.ofNat 64 (s.fr.pc.toNat / 2 ^ 32 % 2 ^ 17 * 2 ^ 32 + (laneOf (s.getV a) l).toNat) := by
  generalize hx : laneOf (s.getV a) l = x
  refine BitVec.eq_of_getLsbD_eq fun i hi => ?_
  have hmask : (0x1FFFF * 2 ^ 32 : Nat) = (2 ^ 17 - 1) * 2 ^ 32 := by norm_num
  rw [State.laneTarget, hx, BitVec.getLsbD_or, BitVec.getLsbD_and, BitVec.getLsbD_ofNat, BitVec.getLsbD_setWidth,
    BitVec.getLsbD_ofNat, Nat.mul_comm (_ % _), Nat.testBit_two_pow_mul_add _ x.isLt, hmask, Nat.testBit_mul_two_pow,
    Nat.testBit_two_pow_sub_one, Nat.testBit_mod_two_pow, Nat.testBit_div_two_pow]
  by_cases h : i < 32
  · simp [h, hi, h.not_ge, BitVec.getLsbD]
  · have hhigh : x.getLsbD i = false := BitVec.getLsbD_of_ge _ _ (Nat.le_of_not_lt h)
    have hsum : i - 32 + 32 = i := Nat.sub_add_cancel (Nat.le_of_not_lt h)
    rw [hhigh, if_neg h, hsum]
    simp [hi, Nat.le_of_not_lt h, Bool.and_comm, BitVec.getLsbD]

/-- Settles O5: `vbr` by where its minority finds room, `vjmpi` by what placing its sets leaves. -/
theorem divergentTransferResults : Obligations.DivergentTransferResults := by
  unfold Obligations.DivergentTransferResults
  refine ⟨fun s p neg off taken fall mlanes klanes tgt mpc kpc ht hf htgt hsplit => ?_,
    fun s a tag dest hr hm ha hdest hc hroom => ?_⟩
  · have htaken : taken = s.taken p neg := by
      rw [ht, State.taken]
      rcases (by bv_omega : neg = 0 ∨ neg = 1) with rfl | rfl <;> rfl
    rw [← s.target_eq] at htgt
    subst htgt
    rw [exec_vbr]
    have hout : fall ≠ 0 → taken ≠ 0 → execVbr p neg off s = .next (s.splitOff mlanes mpc klanes kpc) :=
      fun h h' => execVbr_of_split htaken hf h h' hsplit
    refine ⟨fun h => ?_, fun h h' => ?_, fun h h' ha hr => ?_, fun h h' hr hl => ?_, fun h h' hr hl hfree => ?_⟩
    · simp only [execVbr, ← htaken, ← hf, if_pos h]
      rfl
    · simp only [execVbr, ← htaken, ← hf, if_neg h, if_pos h']
      rfl
    · obtain ⟨t, k, hk, he, hframe, hother, hfr, hchild⟩ := ha.splitOff_newFragment hr mlanes klanes mpc kpc
      refine ⟨t, k, hk, by rw [hout h h', he], hframe, hother, by rw [hfr]; rfl, ?_⟩
      rw [hchild]
      exact ⟨rfl, rfl, rfl, rfl, rfl, rfl, rfl⟩
    · rw [hout h h', State.splitOff_of_stack hr hl]
      rfl
    · exact ⟨_, hout h h', by rw [State.splitOff_of_full hr hl]; exact s.trap_trapped causeRBLK 0 0 4 hfree⟩
  · have hd : (fun l => if s.guarded.contains l then s.laneTarget a l else s.fr.pc + 4) = dest := by
      funext l
      simp [hdest, s.laneTarget_eq]
    obtain ⟨u, hu, he⟩ := ha.jumpSets_of_room dest hm hroom
    have hexec : exec (.vjmpi a tag) s = .next (s.jumpSets dest) := by
      rw [exec_vjmpi, execVjmpi, if_neg (hr a List.mem_cons_self).not_ge]
      simp only [hc, hd]
    refine ⟨_, hexec.trans (congrArg _ he), ?_⟩
    rw [State.fr_setFr, hu.fr]
    refine ⟨?_, rfl, fun l hl => getLsbD_lanesTo dest _ _ hl, rfl, rfl, rfl, rfl⟩
    rw [hu.frame]
    rfl

end Sys2Proof.Machine
end

section
/-! `exit`, `yield` and the end of a `yield` (R131, R136). -/

namespace Sys2Proof.Machine

/-- The fragments of the executing wave once the row of the executing one has been dropped. -/
theorem State.mem_fragsOf_dropCur (s : State) (k : Nat) :
    k ∈ ({ s with frags := dropAt s.frags s.cur.key } : State).fragsOf s.cur.core s.cur.wave
      ↔ k ∈ s.fragsOf s.cur.core s.cur.wave ∧ k ≠ s.cur.frag := by
  rw [State.mem_fragsOf, State.mem_fragsOf]
  show k < 8 ∧ (findAt (dropAt s.frags s.cur.key) (s.mate k).key).isSome = true ↔ _
  by_cases hk : k = s.cur.frag
  · subst hk
    simp
  · have hne : (s.mate k).key ≠ s.cur.key := State.key_mate_ne hk
    rw [findAt_dropAt_ne _ hne]
    exact (and_iff_left hk).symm

/-- Without the executing fragment a wave is over where it has no other (R131). -/
theorem State.waveOver_dropCur (s : State) :
    ({ s with frags := dropAt s.frags s.cur.key } : State).waveOver s.cur.core s.cur.wave = true
      ↔ ∀ k ∈ s.fragsOf s.cur.core s.cur.wave, k = s.cur.frag := by
  rw [State.waveOver, List.isEmpty_iff, List.eq_nil_iff_forall_not_mem]
  simp only [s.mem_fragsOf_dropCur, not_and, ne_eq, not_not]

/-- Settles O7: `exit` by its stack entries and the other fragments of its wave. -/
theorem exitAndYieldResults : Obligations.ExitAndYieldResults := by
  unfold Obligations.ExitAndYieldResults
  refine fun s f core wave c hf => ⟨fun e r ht he => ?_, fun ht he ho => ?_, fun ht he ho => ?_, rfl, fun hc hle => ?_⟩
  · show execExit s = _
    rw [execExit, if_neg (by simp [ht]), he]
    rfl
  · show execExit s = _
    rw [execExit, if_neg (by simp [ht]), he]
    refine congrArg _ (if_neg fun hover => ?_)
    obtain ⟨k, hk, hne⟩ := ho
    exact hne (s.waveOver_dropCur.1 hover k hk)
  · show execExit s = _
    rw [execExit, if_neg (by simp [ht]), he]
    exact congrArg _ (if_pos (s.waveOver_dropCur.2 ho))
  · subst hf
    show execYieldEnd core wave s = _
    simp only [execYieldEnd, hc, if_pos hle]

end Sys2Proof.Machine
end

section
/-! `rtt`, which ends a trap, and `frz` (R145, R147, R148). -/

namespace Sys2Proof.Machine

/-! ## Holds -/

/-- The rows of waves after holds have been placed (R147, R148). -/
theorem State.findAt_waves_placeHold (s : State) (ks : List Nat) (h k : Nat) : findAt (s.placeHold ks h).waves k
    = (findAt s.waves k).map fun w => if ks.contains k then { w with holds := w.holds ++ [h] } else w := by
  rw [State.placeHold, findAt_mapTab]

/-- A wave that is held by a number has it among its holds. -/
theorem State.mem_holds_of_placeHold {s : State} {ks : List Nat} {k : Nat} {w : Wave} (h : Nat) (hk : k ∈ ks)
    (hw : findAt s.waves k = some w) : ∃ w', findAt (s.placeHold ks h).waves k = some w' ∧ h ∈ w'.holds := by
  rw [s.findAt_waves_placeHold, hw, Option.map_some, if_pos (List.contains_iff_mem.2 hk)]
  exact ⟨_, rfl, List.mem_append_right _ (List.mem_singleton.2 rfl)⟩

/-- A wave that is not listed is as it was. -/
theorem State.findAt_waves_placeHold_of_notMem {s : State} {ks : List Nat} {k : Nat} (h : Nat) (hk : k ∉ ks) :
    findAt (s.placeHold ks h).waves k = findAt s.waves k := by
  simp [s.findAt_waves_placeHold, hk]

/-- Placing holds opens and closes no attempt. -/
theorem State.attempts_placeHold (s : State) (ks : List Nat) (h : Nat) : (s.placeHold ks h).attempts = s.attempts := by
  have htx : ∀ x : Nat × Wave, (if ks.contains x.1 then { x.2 with holds := x.2.holds ++ [h] } else x.2).tx = x.2.tx := by
    intro x
    split <;> rfl
  simp only [State.attempts, State.placeHold, mapTab, List.filterMap_map, Function.comp_def, htx]

/-- Releasing holds leaves the executing wave but its holds. -/
theorem State.wv_liftHold (s : State) (ks : List Nat) (h : Nat) :
    (s.liftHold ks h).wv = { s.wv with holds := (s.liftHold ks h).wv.holds } := by
  simp only [State.wv, getAt, State.liftHold, findAt_mapTab]
  cases findAt s.waves s.cur.waveKey with
  | none => rfl
  | some w =>
    simp only [Option.map_some, Option.getD_some]
    split <;> rfl

/-! ## `rtt` -/

/-- The fragment and its wave back from a trap, before its holds are released (R145). -/
def State.returned (s : State) : State :=
  (s.setWv { s.wv with tcause := s.wv.tcause &&& ~~~(BitVec.ofNat 64 (2 ^ 15)), handler := none }).setFr
    { s.fr with pc := s.wv.tpc, mr := s.wv.tcause.extractLsb' 32 25 }

theorem State.trapReturn_eq (s : State) : s.trapReturn = s.returned.liftHold (s.returned.siblings s.cur) s.cur.wave := rfl

/-- The mode register of a trap is the field of TCAUSE that saves it (R81). -/
theorem extractLsb'_eq_ofNat_fieldOf (x : Word) : x.extractLsb' 32 25 = BitVec.ofNat 25 (fieldOf x 56 32) := by
  refine BitVec.eq_of_toNat_eq ?_
  simp [fieldOf, bitsOf]

/-- The end of a trap clears the bit of ACTIVE. -/
theorem State.active_returned (s : State) : s.returned.wv.active = false := by
  rw [State.returned, State.wv_setFr, State.wv_setWv]
  simp [Wave.active]

/-- The end of a trap leaves every other bit of TCAUSE. -/
theorem State.getLsbD_tcause_returned (s : State) {i : Nat} (h : i < 64) (hi : i ≠ 15) :
    s.returned.wv.tcause.getLsbD i = s.wv.tcause.getLsbD i := by
  rw [State.returned, State.wv_setFr, State.wv_setWv, BitVec.getLsbD_and, BitVec.getLsbD_not, BitVec.getLsbD_ofNat,
    Nat.testBit_two_pow_of_ne (Ne.symm hi)]
  simp [h]

/-- In an active trap with an aligned TPC and no open attempt `rtt` returns (R145). -/
theorem exec_rtt_of_active {s : State} (ha : s.wv.active = true) (hp : s.wv.tpc.toNat % 4 = 0) (ht : s.inTx = false) :
    exec .rtt s = .next s.trapReturn := by
  show execRtt s = _
  rw [execRtt, if_neg (by simp [ha]), if_neg (not_not.2 ((extractLsb'_low_eq_zero_iff _).2 hp)), if_neg (by simp [ht])]

/-- What `rtt` leaves after a precise trap of class 0 outside an attempt: the fragment that the trap found (R145). -/
theorem State.Trapped.fr_trapReturn {s t : State} {cause detail : Nat} {taddr tinfo : Word} (hc : cause < 256)
    (hd : detail < 256) (h : s.Trapped t cause 0 detail s.fr.pc taddr tinfo) : t.trapReturn.fr = s.fr := by
  replace h : t = s.entered cause 0 detail s.fr.pc taddr tinfo := h
  obtain ⟨hmr, -⟩ := tcauseOf_fields s.fr.mr hd (show 0 < 4 by decide) hc _ rfl
  have hfr : t.trapReturn.fr = { t.fr with pc := t.wv.tpc, mr := t.wv.tcause.extractLsb' 32 25 } := State.fr_setFr ..
  rw [hfr, extractLsb'_eq_ofNat_fieldOf, h, State.entered, State.fr_setFr, State.wv_setFr, State.wv_setWv]
  dsimp only
  rw [hmr, BitVec.ofNat_toNat, BitVec.setWidth_eq]

/-- After a precise trap of class 0 the trap is active, TPC is the address saved, and the fragment's attempt is as it was. -/
theorem State.Trapped.active_and_tpc {s t : State} {cause detail : Nat} {tpc taddr tinfo : Word} (hc : cause < 256)
    (hd : detail < 256) (h : s.Trapped t cause 0 detail tpc taddr tinfo) :
    t.wv.active = true ∧ t.wv.tpc = tpc ∧ t.inTx = s.inTx := by
  replace h : t = s.entered cause 0 detail tpc taddr tinfo := h
  obtain ⟨-, -, hact, -⟩ := tcauseOf_fields s.fr.mr hd (show 0 < 4 by decide) hc _ rfl
  have hwv : t.wv = { s.wv with
      tcause := tcauseOf s.fr.mr detail 0 cause, tpc := tpc, taddr := taddr, tinfo := tinfo,
      handler := some s.cur.frag } := by
    rw [h, State.entered, State.wv_setFr, State.wv_setWv]
  have hcur : t.cur = s.cur := by rw [h]; rfl
  refine ⟨by rw [hwv]; exact hact, by rw [hwv], ?_⟩
  rw [State.inTx, hwv, hcur]
  rfl

/-! ## `frz` -/

/-- A list without its repeats has the same members. -/
theorem mem_distinct_iff (l : List Nat) (x : Nat) : x ∈ distinct l ↔ x ∈ l := by
  induction l with
  | nil => rfl
  | cons a r ih =>
    rw [distinct, List.mem_cons, List.mem_cons, List.mem_filter, ih, decide_eq_true_iff]
    tauto

/-! What an event of the front end leaves of the fragment that issues: its name. -/

theorem State.cur_setHq (s : State) (q : Nat) (x : HostQueue) : (s.setHq q x).cur = s.cur := rfl

theorem State.cur_endAsk (s : State) (who : AskOwner) : (s.endAsk who).cur = s.cur := rfl

/-- Askers done one after another. -/
theorem State.cur_foldl_endAsk (l : List Launch) (s : State) :
    (l.foldl (fun t x => t.endAsk (.launch x.id)) s).cur = s.cur := by
  induction l generalizing s with
  | nil => rfl
  | cons x xs ih => rw [List.foldl_cons, ih, State.cur_endAsk]

/-- A queue stopped, and the command given up that it had begun (R398). -/
theorem State.cur_stopQueue (s : State) (q st : Nat) : (s.stopQueue q st).cur = s.cur := by
  simp only [State.stopQueue, State.dropBegun, State.cur_setHq, State.cur_endAsk, State.cur_foldl_endAsk]
  split
  · split <;> rfl
  · rfl
  · rfl

section NoAttempt

variable {s : State} (h : s.attempts = []) (q : Nat)

include h

omit q in
/-- A write into the host's memory (R397). -/
theorem State.cur_hostWrite (addr : Nat) (data : List Byte) : (s.hostWrite addr data).cur = s.cur := by
  obtain ⟨ns, hst⟩ := s.storeBytes_of_noAttempt h none
    ((upFrom (hostBase + addr % hostBase) data.length).map (fun k => plainPlace k 0) |>.zip data)
  rw [State.hostWrite, hst]

/-- The status block written (R397). -/
theorem State.cur_writeStatus : (s.writeStatus q).cur = s.cur := by
  unfold State.writeStatus
  dsimp only
  split
  · rw [State.cur_stopQueue]
  · split <;> simp only [State.cur_hostWrite h]

/-- An event written into its ring (R397). -/
theorem State.cur_writeEvent (ws : List Word) : (s.writeEvent q ws).cur = s.cur := by
  unfold State.writeEvent
  dsimp only
  split
  · rw [State.cur_stopQueue, State.cur_setHq]
  · rw [State.cur_setHq, State.cur_hostWrite h]

/-- An event posted, or held (R397). -/
theorem State.cur_postEvent (ws : List Word) : (s.postEvent q ws).cur = s.cur := by
  have hw := (State.writeEvent_eventsOnly h q ws).noAttempt h
  unfold State.postEvent
  dsimp only
  split
  · rw [State.cur_writeStatus hw, State.cur_writeEvent h]
  · rw [State.cur_setHq]

end NoAttempt

/-- The state that `frz` leaves, before its event: the instruction passed and every wave of the task held (R148). -/
def State.frozen (s : State) : State := s.advance.placeHold s.taskWaves freezeHold

/-- Outside an attempt `frz` holds the waves of its task and posts an event, which leaves fragments and waves (R148). -/
theorem exec_frz_of_noAttempt {s : State} (h : s.attempts = []) (ht : s.inTx = false) :
    ∃ t, exec .frz s = .next t ∧ t.frags = s.frozen.frags ∧ t.waves = s.frozen.waves ∧ t.cur = s.cur := by
  have hnone : s.frozen.attempts = [] := (State.attempts_placeHold _ _ _).trans h
  have hexec : ∃ q ws, exec .frz s = .next (s.frozen.postEvent q ws) := by
    show ∃ q ws, execFrz s = _
    rw [execFrz, if_neg (by simp [ht])]
    exact ⟨_, _, rfl⟩
  obtain ⟨q, ws, he⟩ := hexec
  have hevent := State.postEvent_eventsOnly hnone q ws
  exact ⟨_, he, hevent.frags, hevent.waves, State.cur_postEvent hnone q ws⟩

/-- Inside an attempt `frz` abandons it with status unsupported (R148, R213). -/
theorem exec_frz_of_attempt {s : State} (ht : s.inTx = true) : exec .frz s = .next (s.abandon s.cur 6 0 s.fr.pc 0) := by
  show execFrz s = _
  rw [execFrz, if_pos ht]
  rfl

/-- Settles O9: `rtt` by what ends a trap, and `frz` by the holds that it places. -/
theorem returningFromATrap : Obligations.ReturningFromATrap := by
  unfold Obligations.ReturningFromATrap
  refine ⟨fun s => ⟨fun ha hp ht => ?_, fun hf => ?_⟩, fun s t cause detail taddr tinfo hc hd ht hp h => ?_,
    fun s => ⟨fun hno ht hw => ?_, fun a hx ho hr => ?_⟩⟩
  · refine ⟨_, s.returned, exec_rtt_of_active ha hp ht, ?_, s.active_returned,
      fun i h hi => s.getLsbD_tcause_returned h hi, s.trapReturn_eq⟩
    rw [← extractLsb'_eq_ofNat_fieldOf, State.returned, State.wv_setFr, State.wv_setWv]
  · exact ⟨_, congrArg Host.Outcome.next (if_pos (by simp [hf.1])), s.trap_trapped causeILL 0 0 0 hf⟩
  · have hback := h.fr_trapReturn hc hd
    obtain ⟨hact, htpc, htx⟩ := h.active_and_tpc hc hd
    rw [← htpc] at hp
    refine ⟨_, exec_rtt_of_active hact hp (htx.trans ht), hback, ?_, ?_⟩
    · rw [t.trapReturn_eq, State.wv_liftHold]
      exact t.active_returned
    · rw [t.trapReturn_eq, State.wv_liftHold, State.returned, State.wv_setFr, State.wv_setWv]
  · obtain ⟨t, he, hfr, hwv, hcur⟩ := exec_frz_of_noAttempt hno ht
    obtain ⟨w, hw⟩ := Option.isSome_iff_exists.1 hw
    have hown : s.cur.waveKey ∈ s.taskWaves := (mem_distinct_iff _ _).2 List.mem_cons_self
    have hsib : ∀ k ∈ s.siblings s.cur, k ∈ s.taskWaves :=
      fun k hk => (mem_distinct_iff _ _).2 (List.mem_cons_of_mem _ hk)
    refine ⟨t, he, ?_, ?_, fun k hk w hw => ?_, fun k hk hk' => ?_⟩
    · rw [State.fr, hfr, hcur]
      exact s.fr_advance
    · obtain ⟨w', hw', hmem⟩ := State.mem_holds_of_placeHold (s := s.advance) 64 hown hw
      rw [State.wv, hwv, hcur, getAt, State.frozen, freezeHold, hw']
      exact hmem
    · rw [hwv]
      exact State.mem_holds_of_placeHold (s := s.advance) 64 (hsib k hk) hw
    · rw [hwv]
      refine State.findAt_waves_placeHold_of_notMem (s := s.advance) _ fun hmem => ?_
      rcases List.mem_cons.1 ((mem_distinct_iff _ _).1 hmem) with h | h
      · exact hk h
      · exact hk' h
  · have hin : s.inTx = true := by simp [State.inTx, hx, ho]
    obtain ⟨u, hu, -, hm, htx, -, -, hst, -⟩ := State.abandon_of_sameBlocks hx hr 6 0 s.fr.pc 0
    exact ⟨u, (exec_frz_of_attempt hin).trans (congrArg _ hu), htx, hst,
      hu ▸ State.pc_abandon_of_sameBlocks hx hr 6 0 s.fr.pc 0, fun p => by rw [hm]⟩

end Sys2Proof.Machine
end

section
/-! Register blocks: `racq`, `racq.e` and `rrel` (R139 to R141). -/

namespace Sys2Proof.Machine

/-! ## Taking blocks -/

/-- The blocks that a wave may take: the free ones, and with `racq.e` of the oldest task those of the reserve (R140). -/
def State.availableBlocks (s : State) (e : Bool) : Nat :=
  (s.coreOf s.cur.core).freeBlocks + (if e && s.oldestTask then (s.coreOf s.cur.core).reserve else 0)

theorem exec_racq (d : BitVec 6) (n : BitVec 5) (e : Bool) (s : State) :
    exec (if e then .racqE d n else .racq d n) s = .next (s.acquire d n.toNat e) := by
  cases e <;> rfl

/-- The core and the wave once blocks have been taken, which read as zero (R23, R140). -/
def State.takenBlocks (s : State) (n : Nat) : State :=
  (s.setCore s.cur.core ((s.coreOf s.cur.core).take n)).setWv
    { s.wv with rblk := s.wv.rblk + n, v := zeroBlocks s.wv.v s.wv.rblk n }

section Acquire

variable {s : State} (d : BitVec 6) {n : Nat} (e : Bool) (hs : s.splitWave = false)

/-- Several fragments, or stack entries, forbid taking blocks (R140). -/
theorem State.acquire_of_split (h : s.splitWave = true) : s.acquire d n e = s.trap causeRBLK 0 0 3 := by
  rw [State.acquire, if_pos h]

include hs

/-- A wave holds 16 blocks at most (R140). -/
theorem State.acquire_of_excess (h : 16 < s.wv.rblk + n) : s.acquire d n e = s.trap causeRBLK 0 0 1 := by
  rw [State.acquire, if_neg (by simp [hs]), if_pos h]

/-- Blocks that are free are taken, and the new number of blocks is the result (R140). -/
theorem State.acquire_of_available (hr : s.wv.rblk + n ≤ 16) (h : n ≤ s.availableBlocks e) :
    s.acquire d n e = ((s.takenBlocks n).setS d (BitVec.ofNat 64 (s.wv.rblk + n))).advance := by
  rw [State.acquire, if_neg (by simp [hs]), if_neg hr.not_gt]
  exact if_pos h

/-- Too few blocks outside an attempt: nothing is taken, and the result is 0 (R140). -/
theorem State.acquire_of_unavailable (hr : s.wv.rblk + n ≤ 16) (ht : s.inTx = false) (h : s.availableBlocks e < n) :
    s.acquire d n e = (s.setS d 0).advance := by
  have hnone : s.attempt = none := by rw [← Option.not_isSome_iff_eq_none, s.isSome_attempt, ht]; decide
  have hread : s.addRead (.freeBlocks s.cur.core) 0 = (s, true) := by rw [State.addRead, hnone]
  rw [State.acquire, if_neg (by simp [hs]), if_neg hr.not_gt]
  refine (if_neg h.not_ge).trans ?_
  rw [hread]
  rfl

end Acquire

/-- Registers of the blocks taken read as zero, and every other as before. -/
theorem State.getV_takenBlocks (s : State) (n : Nat) (r : BitVec 7) : (s.takenBlocks n).getV r
    = if 8 * s.wv.rblk ≤ r.toNat ∧ r.toNat < 8 * (s.wv.rblk + n) then zeroReg else s.getV r := by
  simp only [State.getV, State.takenBlocks, State.wv_setWv, zeroBlocks, Vector.getElem_ofFn, Fin.getElem_fin]

/-- Blocks are taken from the free ones first, and none is lost (R140). -/
theorem CoreRow.take_blocks (c : CoreRow) {n : Nat} (h : n ≤ c.freeBlocks + c.reserve) :
    (c.take n).freeBlocks = c.freeBlocks - n
      ∧ (c.take n).freeBlocks + (c.take n).reserve + n = c.freeBlocks + c.reserve := by
  simp only [CoreRow.take]
  omega

/-- What is available to a wave are blocks of its core. -/
theorem State.availableBlocks_le (s : State) (e : Bool) :
    s.availableBlocks e ≤ (s.coreOf s.cur.core).freeBlocks + (s.coreOf s.cur.core).reserve := by
  unfold State.availableBlocks
  split <;> omega

/-! ## Giving blocks back -/

/-- Blocks given back to a core that retires none go to its reserve up to 16, and then to the free pool (R141). -/
theorem CoreRow.giveBack_blocks {c : CoreRow} (h : c.owed = 0) (n : Nat) :
    (c.giveBack n).reserve = c.reserve + min n (16 - c.reserve)
      ∧ (c.giveBack n).freeBlocks + (c.giveBack n).reserve = c.freeBlocks + c.reserve + n := by
  simp only [CoreRow.giveBack, h, Nat.zero_min, Nat.sub_zero, true_and]
  omega

/-- No attempt is open on the device where no wave holds one. -/
theorem State.attempts_eq_nil_iff {s : State} : s.attempts = [] ↔ ∀ x ∈ s.waves, x.2.tx = none := by
  simp [State.attempts, List.filterMap_eq_nil_iff]

/-- A row that a table gives is one of its rows. -/
theorem mem_of_findAt {α : Type} {t : Tab α} {k : Nat} {v : α} (h : findAt t k = some v) : (k, v) ∈ t := by
  induction t with
  | nil => cases h
  | cons x r ih =>
    obtain ⟨j, w⟩ := x
    rw [findAt_cons] at h
    split at h
    · next hj =>
      cases h
      exact hj ▸ List.mem_cons_self
    · exact List.mem_cons_of_mem _ (ih h)

/-- Where no attempt is open the executing wave has none. -/
theorem State.tx_of_noAttempt {s : State} (h : s.attempts = []) : s.wv.tx = none := by
  rw [State.wv, getAt]
  cases hw : findAt s.waves s.cur.waveKey with
  | none => rfl
  | some w => exact State.attempts_eq_nil_iff.1 h _ (mem_of_findAt hw)

/-- A change of the executing wave that leaves its attempts opens none. -/
theorem State.attempts_setWv_of_noAttempt {s : State} (h : s.attempts = []) {w : Wave} (hw : w.tx = s.wv.tx) :
    (s.setWv w).attempts = [] := by
  refine State.attempts_eq_nil_iff.2 fun x hx => ?_
  rcases mem_putAt hx with rfl | hx
  · exact hw.trans (State.tx_of_noAttempt h)
  · exact State.attempts_eq_nil_iff.1 h x hx

/-- With no attempt open, blocks returned go to their core, whose watchers are told (R141). -/
theorem State.returnBlocks_of_noAttempt {s : State} (h : s.attempts = []) (core : Nat) {n : Nat} (hn : n ≠ 0) :
    s.returnBlocks core n = (s.setCore core ((s.coreOf core).giveBack n)).notify (.freeBlocks core) := by
  have hcore : (s.setCore core ((s.coreOf core).giveBack n)).attempts = [] := h
  rw [State.returnBlocks, if_neg hn]
  simp only [hcore, List.filter_nil, List.map_nil, List.foldl_nil]

/-- The wave and the core once blocks have been given back (R141). -/
def State.gaveBlocks (s : State) (n : Nat) : State :=
  (s.setWv { s.wv with rblk := s.wv.rblk - n }).setCore s.cur.core ((s.coreOf s.cur.core).giveBack n)

section Release

variable {s : State} (hs : s.splitWave = false) (ht : s.inTx = false) {n : BitVec 5}

include hs ht

/-- A wave keeps a block of its own: giving back as many as it holds, or more, raises RBLK (R141). -/
theorem exec_rrel_of_all (h : s.wv.rblk ≤ n.toNat) : exec (.rrel n) s = .next (s.trap causeRBLK 0 0 2) := by
  show execRrel n s = _
  rw [execRrel, if_neg (by simp [ht]), if_neg (by simp [hs]), if_pos h]

/-- Fewer blocks go back to the core, whose watchers are told (R141). -/
theorem exec_rrel_of_fewer (hno : s.attempts = []) (hn : 0 < n.toNat) (h : n.toNat < s.wv.rblk) :
    exec (.rrel n) s = .next ((s.gaveBlocks n.toNat).notify (.freeBlocks s.cur.core)).advance := by
  have hno' : (s.setWv { s.wv with rblk := s.wv.rblk - n.toNat }).attempts = [] :=
    State.attempts_setWv_of_noAttempt hno rfl
  show execRrel n s = _
  rw [execRrel, if_neg (by simp [ht]), if_neg (by simp [hs]), if_neg h.not_ge,
    State.returnBlocks_of_noAttempt hno' _ hn.ne']
  rfl

end Release

/-! ## The statement -/

/-- Settles O11: `racq` and `racq.e` by the blocks available to them, `rrel` by the blocks that are left. -/
theorem registerBlockResults : Obligations.RegisterBlockResults := by
  unfold Obligations.RegisterBlockResults
  refine ⟨fun s d n e i hi => ?_, fun s n hs => ⟨fun hno ht hn hlt ho => ?_, fun hle hf => ?_⟩⟩
  · rw [hi, exec_racq]
    refine ⟨fun hs hr hav => ?_, fun hs hr ht hav => ?_, fun hs hr hf => ?_, fun hs hf => ?_⟩
    · obtain ⟨hfree, hsum⟩ := (s.coreOf s.cur.core).take_blocks (hav.trans (s.availableBlocks_le e))
      obtain ⟨t, ht, ⟨hframe, -⟩, hscalar, hd, hpc⟩ :=
        (s.takenBlocks n.toNat).putScalar_done d (BitVec.ofNat 64 (s.wv.rblk + n.toNat))
      cases ht
      have hwv : ((s.takenBlocks n.toNat).setS d (BitVec.ofNat 64 (s.wv.rblk + n.toNat))).advance.wv
        = { s.wv with rblk := s.wv.rblk + n.toNat, v := zeroBlocks s.wv.v s.wv.rblk n.toNat } := State.wv_setWv ..
      have hcore : ((s.takenBlocks n.toNat).setS d (BitVec.ofNat 64 (s.wv.rblk + n.toNat))).advance.coreOf s.cur.core
        = (s.coreOf s.cur.core).take n.toNat := State.coreOf_setCore ..
      refine ⟨_, congrArg Host.Outcome.next (State.acquire_of_available d e hs hr hav), hframe, hd, hscalar, hpc,
        by rw [hwv], s.getV_takenBlocks n.toNat, ?_, ?_⟩
      · rw [hcore, hfree]
      · rw [hcore, hsum]
    · rw [State.acquire_of_unavailable d e hs hr ht hav]
      exact s.putScalar_done d 0
    · rw [State.acquire_of_excess d e hs hr]
      exact ⟨_, rfl, s.trap_trapped causeRBLK 0 0 1 hf⟩
    · rw [State.acquire_of_split d e hs]
      exact ⟨_, rfl, s.trap_trapped causeRBLK 0 0 3 hf⟩
  · obtain ⟨hres, hsum⟩ := CoreRow.giveBack_blocks ho n.toNat
    have hcore : ((s.gaveBlocks n.toNat).notify (.freeBlocks s.cur.core)).advance.coreOf s.cur.core
      = (s.coreOf s.cur.core).giveBack n.toNat := State.coreOf_setCore ..
    refine ⟨_, exec_rrel_of_fewer hs ht hno hn hlt, rfl, State.wv_setWv .., State.fr_advance _, ?_, ?_⟩
    · rw [hcore, hres]
    · rw [hcore, hsum]
  · exact ⟨_, exec_rrel_of_all hs hf.2 hle, s.trap_trapped causeRBLK 0 0 2 hf⟩

end Sys2Proof.Machine
end

section
/-! `reconv`: parked and pending entries, waiting, merging and the release rule (R126, R130). -/

namespace Sys2Proof.Machine

/-! ## The entries of a fragment -/

/-- Dropping the newest entry of a fragment leaves its others (R128). -/
theorem filter_dropTop (k : Nat) (l : List StackEntry) :
    (dropTop k l).filter (fun e => e.owner == k) = (l.filter (fun e => e.owner == k)).tail := by
  induction l with
  | nil => rfl
  | cons e r ih => by_cases h : e.owner == k <;> simp [dropTop, h, ih]

/-- The entries of a fragment once its newest has been popped (R128). -/
theorem Wave.entriesOf_pop (w : Wave) (k : Nat) : (w.pop k).entriesOf k = (w.entriesOf k).tail := filter_dropTop k w.stack

/-! ## `reconv` of one fragment -/

section Reconv

variable {s : State} (rid : Nat)

/-- Without an entry nothing is joined (R130). -/
theorem State.reconverge_of_noEntry (h : s.wv.entriesOf s.cur.frag = []) : s.reconverge rid = s.reconvRows rid := by
  rw [State.reconverge, State.joinParked, h]

/-- A fragment that waits with an equal key waits at a `reconv`. -/
theorem State.waiting_of_mem_sameKey {k : Nat} (h : k ∈ s.sameKey rid) : k ∈ s.fragsOf s.cur.core s.cur.wave
    ∧ k ≠ s.cur.frag ∧ (s.frOf (s.mate k)).waiting = true := by
  obtain ⟨hk, hkey⟩ := List.mem_filter.1 h
  simp only [Bool.and_eq_true, decide_eq_true_eq] at hkey
  obtain ⟨⟨⟨hne, hat⟩, -⟩, -⟩ := hkey
  refine ⟨hk, hne, ?_⟩
  unfold Frag.waitsAt at hat
  unfold Frag.waiting
  split at hat
  · rfl
  · cases hat

/-- A fragment without an entry proceeds where no other of its wave waits or can run, or an attempt is open (R130). -/
theorem State.reconvRows_of_alone (h : s.wv.entriesOf s.cur.frag = [])
    (ha : s.inTx = true ∨ ∀ k ∈ s.fragsOf s.cur.core s.cur.wave, k ≠ s.cur.frag →
      s.runnable (s.mate k) = false ∧ (s.frOf (s.mate k)).waiting = false) : s.reconvRows rid = s.advance := by
  rw [State.reconvRows, h]
  dsimp only
  split
  · rfl
  · next ht =>
    replace ha := ha.resolve_left ht
    have hsame : s.sameKey rid = [] := List.eq_nil_iff_forall_not_mem.2 fun k hk => by
      obtain ⟨hk, hne, hw⟩ := State.waiting_of_mem_sameKey rid hk
      simp [(ha k hk hne).2] at hw
    rw [hsame, if_neg (by decide), if_neg, if_neg]
    · simpa using fun k hk hne => (ha k hk hne).2
    · simpa using fun k hk hne => (ha k hk hne).1

/-- Where another fragment can run and none waits with an equal key, a fragment without an entry waits (R130). -/
theorem State.reconvRows_of_runnable (h : s.wv.entriesOf s.cur.frag = []) (ht : s.inTx = false) (hk : s.sameKey rid = [])
    (hr : ∃ k ∈ s.fragsOf s.cur.core s.cur.wave, k ≠ s.cur.frag ∧ s.runnable (s.mate k) = true) :
    s.reconvRows rid = s.setFr { s.fr with status := .atReconv rid } := by
  rw [State.reconvRows, h]
  dsimp only
  rw [if_neg (by simp [ht]), hk, if_neg (by decide), if_pos]
  simpa [and_assoc] using hr

/-- Where others wait with an equal key, a fragment without an entry merges with them (R126, R130). -/
theorem State.reconvRows_of_sameKey (h : s.wv.entriesOf s.cur.frag = []) (ht : s.inTx = false) (hk : s.sameKey rid ≠ []) :
    s.reconvRows rid = s.merge (s.sameKey rid) := by
  rw [State.reconvRows, h]
  dsimp only
  rw [if_neg (by simp [ht]), if_pos (by simpa using hk)]

/-- A pending entry on top is exchanged for one parked at this `reconv` (R130). -/
theorem State.reconverge_of_pending {e : StackEntry} {r : List StackEntry} (h : s.wv.entriesOf s.cur.frag = e :: r)
    (hp : e.parked = none) : s.reconverge rid = (s.setWv { s.wv with
        stack := { num := s.wv.pushes, owner := s.cur.frag, parked := some (rid, s.getS 62), lmask := s.fr.lmask,
                   pc := s.fr.pc, depth := s.fr.depth, mr := s.fr.mr } :: dropTop s.cur.frag s.wv.stack
        pushes := s.wv.pushes + 1 }).setFr { s.fr with pc := e.pc, lmask := e.lmask, depth := e.depth, mr := e.mr } := by
  have hjoin : s.joinParked rid = s := by
    rw [State.joinParked, h]
    exact if_neg (by simp [hp])
  rw [State.reconverge, hjoin, State.reconvRows, h]
  dsimp only
  rw [hp]
  rfl

/-- A parked entry of an equal key on top of another parked one is joined alone, and the fragment proceeds (R130). -/
theorem State.reconverge_of_parked {e e2 : StackEntry} {r : List StackEntry}
    (h : s.wv.entriesOf s.cur.frag = e :: e2 :: r) (hp : e.parked = some (rid, s.getS 62)) (hd : e.depth = s.fr.depth)
    (hp2 : e2.parked.isSome = true) : s.reconverge rid = (s.setWv (s.wv.pop s.cur.frag)).setFr
      { s.fr with lmask := s.fr.lmask ||| e.lmask, pc := s.fr.pc + 4 } := by
  have hjoin : s.joinParked rid
      = (s.setWv (s.wv.pop s.cur.frag)).setFr { s.fr with lmask := s.fr.lmask ||| e.lmask } := by
    rw [State.joinParked, h]
    exact if_pos ⟨hp, hd⟩
  obtain ⟨y, hy⟩ := Option.isSome_iff_exists.1 hp2
  have hrest : (s.joinParked rid).wv.entriesOf (s.joinParked rid).cur.frag = e2 :: r := by
    rw [hjoin, State.wv_setFr, State.wv_setWv]
    exact (s.wv.entriesOf_pop _).trans (by rw [h]; rfl)
  rw [State.reconverge, State.reconvRows, hrest]
  dsimp only
  rw [hy]
  dsimp only
  rw [hjoin, State.advance, State.setFr_setFr, State.fr_setFr]

end Reconv

/-! ## Merging -/

/-- Rows dropped one after another are gone, and every other is as it was. -/
theorem findAt_foldl_dropAt {α : Type} (f : Nat → Nat) (ks : List Nat) (t : Tab α) {k : Nat} (h : k ∈ ks) :
    findAt (ks.foldl (fun t k => dropAt t (f k)) t) (f k) = none := by
  have hnone : ∀ (ks : List Nat) (t : Tab α) (x : Nat), findAt t x = none →
      findAt (ks.foldl (fun t k => dropAt t (f k)) t) x = none := by
    intro ks
    induction ks with
    | nil => exact fun _ _ h => h
    | cons j r ih =>
      refine fun t x hx => ih _ _ ?_
      by_cases hj : x = f j
      · rw [hj, findAt_dropAt_same]
      · rw [findAt_dropAt_ne t hj, hx]
  induction ks generalizing t with
  | nil => cases h
  | cons j r ih =>
    rcases List.mem_cons.1 h with rfl | h
    · exact hnone r _ _ (findAt_dropAt_same ..)
    · exact ih _ h

/-- The trap handler of some fragments of the executing wave handed to the one that survives them (log entry 77). -/
def State.handOver (s : State) (ids : List Nat) (k : Nat) : State :=
  match s.wv.handler with
  | some h => if ids.contains h then s.setWv { s.wv with handler := some k } else s
  | none => s

/-- Handing the handler over changes the executing wave's handler alone. -/
theorem State.handOver_frame (s : State) (ids : List Nat) (k : Nat) :
    s.handOver ids k = { s with waves := (s.handOver ids k).waves }
      ∧ (s.handOver ids k).wv = { s.wv with handler := s.wv.handler.map fun h => if h ∈ ids then k else h }
      ∧ ∀ j, j ≠ s.cur.waveKey → findAt (s.handOver ids k).waves j = findAt s.waves j := by
  by_cases hm : ∃ h ∈ ids, s.wv.handler = some h
  · obtain ⟨h, hm, hh⟩ := hm
    have he : s.handOver ids k = s.setWv { s.wv with handler := some k } := by
      rw [State.handOver, hh]
      exact if_pos (List.contains_iff_mem.2 hm)
    rw [he, State.wv_setWv, hh, Option.map_some, if_pos hm]
    exact ⟨rfl, rfl, fun j hj => findAt_putAt_ne _ _ hj⟩
  · have hne : ∀ h, s.wv.handler = some h → h ∉ ids := fun h hh hi => hm ⟨h, hi, hh⟩
    have he : s.handOver ids k = s := by
      unfold State.handOver
      split
      · next h hh => exact if_neg (by simpa using hne h hh)
      · rfl
    have hmap : s.wv.handler.map (fun h => if h ∈ ids then k else h) = s.wv.handler :=
      (Option.map_congr fun h hh => if_neg (hne h hh)).trans Option.map_id'
    rw [he, hmap]
    exact ⟨rfl, rfl, fun _ _ => rfl⟩

/-- The fragment that survives a merge with some others: the one of the lowest id (R126). -/
def State.survivor (s : State) (ids : List Nat) : FragId := s.mate (ids.foldl min s.cur.frag)

/-- The rows of fragments without those of some others that have merged with the executing one. -/
def State.fragsKept (s : State) (ids : List Nat) : Tab Frag :=
  ((s.cur.frag :: ids).filter (· ≠ (s.survivor ids).frag)).foldl (fun t k => dropAt t (s.mate k).key) s.frags

/-- What a merge makes (R126): a fragment that has all the lanes and goes on after the `reconv` of the survivor, in its row;
the rows of the others are gone. -/
theorem State.merge_eq (s : State) (ids : List Nat) : ∃ f : Frag,
    s.merge ids = { s.handOver (s.cur.frag :: ids) (s.survivor ids).frag with
        frags := putAt (s.fragsKept ids) (s.survivor ids).key f, cur := s.survivor ids }
      ∧ f.lmask = ids.foldl (fun m k => m ||| (s.frOf (s.mate k)).lmask) s.fr.lmask
      ∧ f.status = .ready ∧ f.pc = (s.frOf (s.survivor ids)).pc + 4 ∧ f.depth = (s.frOf (s.survivor ids)).depth := by
  have hmin : (s.cur.frag :: ids).foldl min s.cur.frag = ids.foldl min s.cur.frag := by
    rw [List.foldl_cons, min_self]
  unfold State.merge
  simp only [hmin]
  refine ⟨_, rfl, ?_, rfl, rfl, rfl⟩
  rw [List.foldl_map, List.foldl_cons]
  exact congrArg (List.foldl _ · ids) BitVec.zero_or

/-- The row of a fragment that has merged into another is gone. -/
theorem State.findAt_fragsKept {s : State} {ids : List Nat} {k : Nat} (hk : k ∈ s.cur.frag :: ids)
    (hne : s.mate k ≠ s.survivor ids) (f : Frag) :
    findAt (putAt (s.fragsKept ids) (s.survivor ids).key f) (s.mate k).key = none := by
  have hk' : k ≠ ids.foldl min s.cur.frag := fun e => hne (by rw [e]; rfl)
  have hkey : (s.mate k).key ≠ (s.survivor ids).key := State.key_mate_ne hk'
  rw [findAt_putAt_ne _ _ hkey]
  exact findAt_foldl_dropAt (fun k => (s.mate k).key) _ _ (List.mem_filter.2 ⟨hk, decide_eq_true hk'⟩)

/-! ## The release rule -/

/-- Of two fragments that wait the deeper, and of equal depths the first (R130). -/
def deeperOf (d : Nat → Nat) (b : Option Nat) (k : Nat) : Option Nat :=
  match b with
  | none => some k
  | some j => if d j < d k then some k else b

/-- A fragment that none is deeper than stays chosen. -/
theorem foldl_deeperOf_of_le {d : Nat → Nat} {k : Nat} {ks : List Nat} (h : ∀ j ∈ ks, d j ≤ d k) :
    ks.foldl (deeperOf d) (some k) = some k := by
  induction ks with
  | nil => rfl
  | cons j r ih =>
    obtain ⟨hj, hr⟩ := List.forall_mem_cons.1 h
    rw [List.foldl_cons, deeperOf, if_neg hj.not_gt, ih hr]

/-- Of fragments in the order of their ids the deepest is chosen, and of equal depths the one of the lowest id (R130). -/
theorem foldl_deeperOf {d : Nat → Nat} {k : Nat} {ks : List Nat} (hs : ks.Pairwise (· < ·)) (hk : k ∈ ks)
    (h : ∀ j ∈ ks, d j < d k ∨ d j = d k ∧ k ≤ j) {b : Option Nat} (hb : ∀ j ∈ b, d j < d k) :
    ks.foldl (deeperOf d) b = some k := by
  induction ks generalizing b with
  | nil => cases hk
  | cons a r ih =>
    obtain ⟨ha, hs⟩ := List.pairwise_cons.1 hs
    obtain ⟨hda, hr⟩ := List.forall_mem_cons.1 h
    rw [List.foldl_cons]
    rcases List.mem_cons.1 hk with rfl | hk
    · have hchosen : deeperOf d b k = some k := by
        cases b with
        | none => rfl
        | some j => exact if_pos (hb j rfl)
      rw [hchosen]
      exact foldl_deeperOf_of_le fun j hj => (hr j hj).elim le_of_lt fun h => h.1.le
    · have hlow : d a < d k := hda.resolve_right fun h => (ha k hk).not_ge h.2
      refine ih hs hk hr fun j hj => ?_
      cases b with
      | none => cases hj; exact hlow
      | some i =>
        rw [deeperOf] at hj
        split at hj
        · cases hj; exact hlow
        · exact hb j hj

section Release

variable (s : State) (core wave : Nat)

/-- The fragment of an id in a wave. -/
def waveMate (core wave k : Nat) : FragId := { core := core, wave := wave, frag := k }

/-- Where a fragment can run none is released (R130). -/
theorem State.releaseOne_of_runnable (h : ∃ k ∈ s.fragsOf core wave, s.runnable (waveMate core wave k) = true) :
    s.releaseOne core wave = s := by
  have hnone : s.releaseChoice core wave = none := if_pos (List.any_eq_true.2 h)
  rw [State.releaseOne, hnone]

/-- Where none can run the deepest that waits is, and of equal depths the one of the lowest id (R130). -/
theorem State.releaseOne_of_deepest (h : ∀ k ∈ s.fragsOf core wave, s.runnable (waveMate core wave k) = false) {k : Nat}
    (hk : k ∈ s.fragsOf core wave) (hw : (s.frOf (waveMate core wave k)).waiting = true)
    (hd : ∀ j ∈ s.fragsOf core wave, (s.frOf (waveMate core wave j)).waiting = true →
      (s.frOf (waveMate core wave j)).depth.toNat < (s.frOf (waveMate core wave k)).depth.toNat
        ∨ (s.frOf (waveMate core wave j)).depth = (s.frOf (waveMate core wave k)).depth ∧ k ≤ j) :
    s.releaseOne core wave = s.setFrOf (waveMate core wave k)
      { s.frOf (waveMate core wave k) with status := .ready, pc := (s.frOf (waveMate core wave k)).pc + 4 } := by
  have hchoice : s.releaseChoice core wave = ((s.fragsOf core wave).filter fun k =>
      (s.frOf (waveMate core wave k)).waiting).foldl
        (deeperOf fun k => (s.frOf (waveMate core wave k)).depth.toNat) none :=
    if_neg (by simpa [waveMate] using h)
  have hk : s.releaseChoice core wave = some k := by
    rw [hchoice]
    refine foldl_deeperOf ((s.fragsOf_sorted core wave).pairwise.filter _) (List.mem_filter.2 ⟨hk, hw⟩)
      (fun j hj => ?_) nofun
    obtain ⟨hj, hjw⟩ := List.mem_filter.1 hj
    exact (hd j hj hjw).imp_right fun h => ⟨congrArg _ h.1, h.2⟩
  rw [State.releaseOne, hk]
  rfl

end Release

/-! ## The statement -/

/-- Settles O6: `reconv` by the entries of the fragment and by what the others of its wave do; the release by its choice. -/
theorem reconvergenceAndMergeResults : Obligations.ReconvergenceAndMergeResults := by
  unfold Obligations.ReconvergenceAndMergeResults
  refine ⟨fun s id => ⟨fun h ha => ?_, fun h ht hk hr => ?_, fun e r h hp => ?_, fun e e2 r h hp hd hp2 => ?_⟩,
    fun s id h ht hk _ => ?_, fun s core wave fid hfid => ⟨fun h => ?_, fun h k hk hw hd => ?_⟩⟩
  · exact congrArg Host.Outcome.next ((State.reconverge_of_noEntry _ h).trans (State.reconvRows_of_alone _ h ha))
  · exact congrArg Host.Outcome.next
      ((State.reconverge_of_noEntry _ h).trans (State.reconvRows_of_runnable _ h ht hk hr))
  · exact congrArg Host.Outcome.next (State.reconverge_of_pending _ h hp)
  · exact congrArg Host.Outcome.next (State.reconverge_of_parked _ h hp hd hp2)
  · obtain ⟨f, hf, hl, hst, hpc, hd⟩ := s.merge_eq (s.sameKey id.toNat)
    obtain ⟨hframe, hwv, hother⟩ :=
      s.handOver_frame (s.cur.frag :: s.sameKey id.toNat) (s.survivor (s.sameKey id.toNat)).frag
    have hcur : (s.handOver (s.cur.frag :: s.sameKey id.toNat) (s.survivor (s.sameKey id.toNat)).frag).cur = s.cur := by
      rw [hframe]
    rw [State.wv, hcur] at hwv
    have hexec : exec (.reconv id) s = .next (s.merge (s.sameKey id.toNat)) := congrArg Host.Outcome.next
      ((State.reconverge_of_noEntry _ h).trans (State.reconvRows_of_sameKey _ h ht hk))
    refine ⟨_, hexec.trans (congrArg _ hf), ?_, hwv, hother, rfl, ?_⟩
    · rw [hframe]
    · rw [State.fr, getAt_putAt_same]
      exact ⟨hl, hst, hpc, hd, fun k hk hne => State.findAt_fragsKept hk hne f⟩
  · have hfid : fid = waveMate core wave := funext hfid
    subst hfid
    exact congrArg Host.Outcome.next (s.releaseOne_of_runnable core wave h)
  · have hfid : fid = waveMate core wave := funext hfid
    subst hfid
    exact congrArg Host.Outcome.next (s.releaseOne_of_deepest core wave h hk hw hd)

end Sys2Proof.Machine
end

section
/-! Operations on whole lanes, and `vdot4` (R158, R160, R164). -/

namespace Sys2Proof.Machine

/-- An operation on whole lanes raises no flag and writes the guarded lanes alone (R158). -/
theorem State.lanewise_done (s : State) (d a b : BitVec 7) (f : Lane → Lane → Lane → Lane) :
    s.VectorDone (s.lanewise d a b f) d
      (fun l => (f (laneOf (s.getV a) l) (laneOf (s.getV b) l) (laneOf (s.getV d) l), 0)) :=
  s.putLanes_done d _

/-- A bitwise operation, with registers that the wave holds (R158, R164). -/
theorem State.laneDone_of_bitOp {s : State} {i : Instr} {d a b : BitVec 7} {f : Lane → Lane → Lane → Lane}
    (hi : exec i s = .next (s.bitOp d a b f)) : s.LaneDone i d a b f := by
  intro hr
  rw [State.bitOp, s.withRegs_of_holds _ _ hr] at hi
  exact ⟨_, hi, s.lanewise_done d a b f⟩

/-- A lane has four elements of 8 bits, whose products are summed in their order (R160). -/
theorem dotFour_eq_sum (t : EType) (a b : Lane) : dotFour t a b
    = intOf t (elemOf 8 a 0) * intOf t (elemOf 8 b 0) + intOf t (elemOf 8 a 1) * intOf t (elemOf 8 b 1)
      + intOf t (elemOf 8 a 2) * intOf t (elemOf 8 b 2) + intOf t (elemOf 8 a 3) * intOf t (elemOf 8 b 3) :=
  congrArg (· + _ + _ + _) (Int.zero_add _)

/-- `vdot4` lists i8 and n8, and accumulates in the 32-bit type of their sign (R160). -/
theorem dotType_facts {e w : EType} (h : e = .i8 ∧ w = .i32 ∨ e = .n8 ∧ w = .n32) :
    (e == .i8 || e == .n8) = true ∧ dotType e = w := by
  rcases h with ⟨rfl, rfl⟩ | ⟨rfl, rfl⟩ <;> exact ⟨rfl, rfl⟩

/-- Settles O14: each bitwise operation by its function of lanes, `vdot4` by its accumulator's type and its sum of products. -/
theorem wholeLaneResults : Obligations.WholeLaneResults := by
  unfold Obligations.WholeLaneResults
  refine fun s d a b e w => ⟨State.laneDone_of_bitOp rfl, State.laneDone_of_bitOp rfl, State.laneDone_of_bitOp rfl,
    State.laneDone_of_bitOp rfl, State.laneDone_of_bitOp rfl, State.laneDone_of_bitOp rfl, State.laneDone_of_bitOp rfl,
    fun hr he hw => ⟨_, rfl, ?_⟩⟩
  obtain ⟨hk, hd⟩ := dotType_facts hw
  rw [s.withType_of_ok _ _ _ e hr he hk, hd]
  refine (s.lanewise_done d a b _).congr fun l _ => ?_
  simp only [dotFour_eq_sum, Int.add_assoc]

end Sys2Proof.Machine
end

section
/-! The accesses of an instruction that nothing stands in the way of: they are performed at once, in order, and the instruction
passes (R99, R104, R176, R181). -/

namespace Sys2Proof.Machine

/-! ## One access that is performed where its bytes lie -/

/-- A part of an instruction whose bytes lie in this device where they can be reached, and that reads none that is poisoned. -/
structure State.Within (s : State) (p : Part) : Prop where
  here : p.target = .here
  reach : s.Reachable p.op.places
  clean : p.op.isRead = true → ∀ q ∈ p.op.places, s.mem.poisoned q.key = false

/-- The bytes that an access touches are those of its places. -/
theorem AccessOp.keys_eq_map_places (o : AccessOp) : o.keys = o.places.map (·.key) := by
  cases o <;> simp [AccessOp.keys, AccessOp.places, Function.comp_def]

/-- An access whose places are all kept is kept. -/
theorem AccessOp.mapPlaces_of_fixed {o : AccessOp} {g : Place → Place} (h : ∀ q ∈ o.places, g q = q) :
    o.mapPlaces g = o := by
  have hmap : ∀ ps : List Place, (∀ q ∈ ps, g q = q) → ps.map g = ps := fun ps hp =>
    (List.map_congr_left hp).trans (List.map_id ps)
  cases o with
  | store d =>
    refine congrArg AccessOp.store ((List.map_congr_left fun x hx => ?_).trans (List.map_id d))
    exact Prod.ext (h x.1 (List.mem_map_of_mem hx)) rfl
  | load ps dst => exact congrArg (AccessOp.load · dst) (hmap ps h)
  | atomic op ps x y ret dst => exact congrArg (AccessOp.atomic op · x y ret dst) (hmap ps h)
  | flush ps => exact congrArg AccessOp.flush (hmap ps h)
  | fence k => rfl
  | packet n die => rfl

/-- Bytes that lie in no save image are reached where they are (R116). -/
theorem State.redirect_of_reachable {s : State} {o : AccessOp} (h : s.Reachable o.places) : s.redirect o = o :=
  AccessOp.mapPlaces_of_fixed fun q hq => by rw [State.imagePlace, (h q hq).2.2]

/-- A part whose bytes lie in no save image is made where it was asked for (R116). -/
theorem State.routePart_of_reachable {s : State} {p : Part} (h : s.Reachable p.op.places) : s.routePart p = p := by
  have hchip : s.imageChip p.op = none := by
    unfold State.imageChip
    cases hps : p.op.places with
    | nil => rfl
    | cons q r => simp [(h q (by simp [hps])).2.2]
  rw [State.routePart, hchip]

/-- The access that a part of the executing fragment's instruction is. -/
def State.accessFor (s : State) (p : Part) : Access := { s.newAccess p.target p.op p.kind with lane := p.lane }

/-- A part with no access on its way before it is performed at once (R99). -/
theorem State.issuePart_of_within {s : State} {p : Part} (hacc : s.accesses = []) (hdef : s.deferring = false)
    (h : s.Within p) : State.issuePart false s p = s.applyOp (s.accessFor p) := by
  have hstay : s.staysOut p = false := by simp [State.staysOut, h.here, hdef]
  have hdo : s.performOp (s.accessFor p) = s.applyOp { s.accessFor p with op := s.redirect p.op } := by
    refine State.performOp_of_reached (fun k hk => ?_) ?_
    · rw [AccessOp.keys_eq_map_places] at hk
      obtain ⟨q, hq, rfl⟩ := List.mem_map.1 hk
      exact ⟨(h.reach q hq).1, (h.reach q hq).2.1⟩
    · show s.readsPoison { s.accessFor p with op := s.redirect p.op } = none
      rw [State.redirect_of_reachable h.reach, State.readsPoison]
      split
      · rfl
      · next hr => exact List.find?_eq_none.2 fun q hq => by simp [h.clean (by simp_all) q hq]
  rw [State.redirect_of_reachable h.reach] at hdo
  simp only [State.issuePart, State.routePart_of_reachable h.reach, hacc, List.filter_nil, State.forceAll, hstay]
  exact hdo

/-! ## The accesses of an instruction -/

section Clear

variable {s : State} (h : s.Clear) {parts : List Part} (hp : ∀ p ∈ parts, s.Within p)

include h hp

/-- With nothing before them in the way, accesses that can be performed here are issued (R99, R112, R176). -/
theorem State.issueParts_of_within : s.issueParts parts = s.sendParts parts := by
  obtain ⟨-, -, hdef, hacc, hready, hbr, hacks, -⟩ := h
  have hroute : parts.map s.routePart = parts :=
    (List.map_congr_left fun p hm => State.routePart_of_reachable (hp p hm).reach).trans (List.map_id parts)
  have hnear : ∀ p ∈ parts, p.isRemote = false := fun p hm => by simp [Part.isRemote, (hp p hm).here]
  have haway : ∀ p ∈ parts, p.awayAtomic = [] := fun p hm => by simp [Part.awayAtomic, hnear p hm]
  have hatomics : atomicsAway parts = [] := by
    unfold atomicsAway
    split
    · rfl
    · exact List.flatMap_eq_nil_iff.2 haway
  have hforce : ∀ ps : List Part, s.forceParts ps = some s := fun ps => by
    induction ps with
    | nil => rfl
    | cons p r ih => simpa [State.forceParts, State.forceFor, hacc, neededFor, State.forceAll] using ih
  have hroom : s.remoteRoom parts = true := by
    have hfar : parts.filter Part.isRemote = [] := List.filter_eq_nil_iff.2 fun p hm => by simp [hnear p hm]
    simp [State.remoteRoom, hfar, hacks]
  have hcut : s.pathCut parts = none := by simp [State.pathCut, State.cutDie, State.cutBetween, hbr]
  have hpinned : parts.find? (fun p => p.op.returns && !p.op.keys.all s.linePinned && !p.op.keys.any s.lineLost) = none := by
    refine List.find?_eq_none.2 fun p hm => ?_
    have hall : p.op.keys.all s.linePinned = true := by
      rw [AccessOp.keys_eq_map_places]
      simpa using fun q hq => ((hp p hm).reach q hq).2.1
    simp [hall]
  have hclean : parts.find? (fun p => p.op.isRead && !p.isRemote
      && p.op.places.any (fun x => s.mem.poisoned (s.imagePlace x).key)) = none := by
    refine List.find?_eq_none.2 fun p hm hbad => ?_
    simp only [Bool.and_eq_true, List.any_eq_true] at hbad
    obtain ⟨⟨hread, -⟩, q, hq, hpois⟩ := hbad
    rw [State.imagePlace, ((hp p hm).reach q hq).2.2, (hp p hm).clean hread q hq] at hpois
    cases hpois
  have hbad : s.badPart parts = none := by
    rw [State.badPart, hpinned]
    simp [hclean]
  have hpoison : parts.find? (fun p => p.awayAtomic.any (s.enginePoison s.waveOwner)) = none :=
    List.find?_eq_none.2 fun p hm => by simp [haway p hm]
  simp [State.issueParts, hroute, hatomics, State.allFetched, State.unread, State.fetchOut, hacc, hforce, State.movedOn,
    hroom, hcut, hbad, hpoison]

/-- Accesses of an instruction that can be performed here are performed in their order, and the instruction passes where they
leave the fragment ready (R99, R104). -/
theorem State.access_of_within {t : State} (ht : parts.foldl (State.issuePart false) s = t) (hr : t.fr.status = .ready) :
    s.access parts = t.advance := by
  have hwait : parts.any s.waitsFor = false := by
    refine List.any_eq_false.2 fun p hm => ?_
    simp [State.waitsFor, Part.isRemote, State.staysOut, (hp p hm).here, h.2.2.1]
  rw [State.access, if_neg (by simp [h.2.1]), State.issueParts_of_within h hp]
  simp [State.sendParts, hwait, ht, hr]

end Clear

/-! ## Addresses that translate -/

/-- Addresses that all translate to places of this device that are not the host's and are not refused (R181). -/
theorem State.xlateWith_of_reached {s : State} {refuse : Place × Target → Option (Nat × Nat)} {ls : List Nat}
    {va : Nat → Word} {need : Need} {pl : Nat → Place}
    (h : ∀ l ∈ ls, s.xlate (va l) need = .ok (pl l, .here) ∧ (pl l).isHost = false)
    (hr : ∀ l ∈ ls, refuse (pl l, .here) = none) :
    s.xlateWith refuse (ls.map va) need = .ok (ls.map fun l => (pl l, .here)) := by
  have hor : ∀ l ∈ ls, s.xlateOr refuse (va l) need = .ok (pl l, .here) := fun l hl => by
    simp only [State.xlateOr, (h l hl).1, hr l hl]
  have hrs : (ls.map va).map (fun va => (s.xlateOr refuse va need, va))
      = ls.map (fun l => (Except.ok (pl l, Target.here), va l)) := by
    rw [List.map_map]
    exact List.map_congr_left fun l hl => by simp [hor l hl]
  have hfind : (ls.map fun l => (pl l, Target.here)).find?
      (fun x => x.1.isHost && x.2 == .here && !s.ats.contains (hostPage x.1) && !s.inTx) = none := by
    refine List.find?_eq_none.2 fun x hx => ?_
    obtain ⟨l, hl, rfl⟩ := List.mem_map.1 hx
    simp [(h l hl).2]
  simp only [State.xlateWith, hrs, List.filterMap_map, Function.comp_def, List.filterMap_none, List.filterMap_eq_map',
    List.isEmpty_nil, Bool.not_true, Bool.false_eq_true, if_false, hfind]

/-- Places that an address reaches can be touched by an access that is made of them. -/
theorem State.Reaches.within {s : State} {va : Word} {need : Need} {p : Place} {ps : List Place}
    (h : s.Reaches va need p ps) {o : AccessOp} (ho : o.places = ps) (kind lane : Nat) :
    s.Within { target := .here, op := o, kind := kind, lane := lane } := by
  obtain ⟨-, -, hclean, hreach⟩ := h
  subst ho
  exact ⟨rfl, hreach, fun _ => hclean⟩

/-- One access of a run of bytes, at an aligned address that reaches them, is performed and the instruction passes (R176,
R181). -/
theorem State.oneAccess_of_reaches {s t : State} (hc : s.Clear) {ea : Word} {n : Nat} {need : Need} {p : Place}
    {ps : List Place} {make : Place → AccessOp} (ha : ea.toNat % n = 0) (hr : s.Reaches ea need p ps)
    (hm : (make p).places = ps)
    (ht : s.applyOp (s.accessFor { target := .here, op := make p, kind := p.kind }) = t) (hready : t.fr.status = .ready) :
    s.oneAccess ea n need make = t.advance := by
  have hw := hr.within hm p.kind 0
  have hx : s.xlateAll [ea] need = .ok [(p, .here)] :=
    State.xlateWith_of_reached (ls := [0]) (va := fun _ => ea) (pl := fun _ => p) (fun _ _ => ⟨hr.1, hr.2.1⟩) (fun _ _ => rfl)
  rw [State.oneAccess, if_neg (by simp [aligned, ha]), hx]
  refine State.access_of_within hc (fun q hq => ?_) ?_ hready
  · exact List.mem_singleton.1 hq ▸ hw
  · rw [List.foldl_cons, List.foldl_nil, State.issuePart_of_within hc.2.2.2.1 hc.2.2.1 hw, ht]

/-- The parts of an instruction that makes one access for each guarded lane. -/
def lanePart (make : Nat → Place → AccessOp) (pl : Nat → Place) (l : Nat) : Part :=
  { target := .here, op := make l (pl l), kind := (pl l).kind, lane := l }

/-- One access for each guarded lane, each at an aligned address that reaches its bytes: they are performed in the order of the
lanes, and the instruction passes (R180, R183). -/
theorem State.laneAccesses_of_reaches {s t : State} (hc : s.Clear) {b : BitVec 6} {x : BitVec 7} {need : Need}
    {refuse : Place × Target → Option (Nat × Nat)} {make : Nat → Place → AccessOp} {pl : Nat → Place}
    (hr : ∀ l ∈ s.guarded, (s.laneAddr b x l).toNat % 4 = 0
      ∧ s.Reaches (s.laneAddr b x l) need (pl l) (make l (pl l)).places)
    (hrefuse : ∀ l ∈ s.guarded, refuse (pl l, .here) = none)
    (ht : (s.guarded.map (lanePart make pl)).foldl (State.issuePart false) s = t) (hready : t.fr.status = .ready) :
    s.laneAccesses b x need refuse make = t.advance := by
  have hx := State.xlateWith_of_reached (va := s.laneAddr b x) (need := need)
    (fun l hl => ⟨(hr l hl).2.1, (hr l hl).2.2.1⟩) hrefuse
  have hmis : s.misalignedLane s.guarded b x = none :=
    List.find?_eq_none.2 fun l hl => by simp [aligned, (hr l hl).1]
  have hzip : (s.guarded.zip (s.guarded.map fun l => (pl l, Target.here))).map
      (fun q => ({ target := q.2.2, op := make q.1 q.2.1, kind := q.2.1.kind, lane := q.1 } : Part))
      = s.guarded.map (lanePart make pl) := by
    rw [List.zip_map_right, List.map_map]
    induction s.guarded with
    | nil => rfl
    | cons l r ih => exact congrArg (_ :: ·) ih
  unfold State.laneAccesses
  dsimp only
  split
  · next he =>
    rw [List.isEmpty_iff.1 he] at ht
    rw [← ht]
    rfl
  · rw [hmis, hx]
    dsimp only
    rw [hzip]
    refine State.access_of_within hc (fun p hm => ?_) ht hready
    obtain ⟨l, hl, rfl⟩ := List.mem_map.1 hm
    exact (hr l hl).2.within rfl _ _

end Sys2Proof.Machine
end

section
/-! What accesses that are performed at once bring: the registers that a load writes, the bytes that a store leaves, and what an
instruction of several accesses keeps from one to the next (R99, R178, R180, R183). -/

namespace Sys2Proof.Machine

/-! ## The lanes of a vector register -/

/-- Vector register `d` of the executing wave replaced, nothing else of the wave changing. -/
def State.withV (s : State) (d : BitVec 7) (x : Vector Lane 32) : State :=
  s.setWv { s.wv with v := s.wv.v.set d.toNat x d.isLt }

@[simp] theorem State.getV_withV (s : State) (d : BitVec 7) (x : Vector Lane 32) : (s.withV d x).getV d = x := by
  simp [State.getV, State.withV]

/-- A vector register replaced changes that register of the wave alone, and raises no flag. -/
theorem State.withV_onlyVector (s : State) (d : BitVec 7) (x : Vector Lane 32) : s.wv.OnlyVector (s.withV d x).wv d 0 := by
  rw [State.withV, State.wv_setWv]
  refine ⟨rfl, fun r h => ?_, by simp⟩
  have hn : d.toNat ≠ r.toNat := fun e => h (BitVec.eq_of_toNat_eq e.symm)
  exact Vector.getElem_set_ne d.isLt r.isLt hn

/-- A vector register replaced in its guarded lanes, and the program counter moved on, is a vector result (R155). -/
theorem State.withV_done {s : State} {d : BitVec 7} {x : Vector Lane 32} {f : Nat → Lane}
    (h : ∀ l < 32, laneOf x l = if l ∈ s.guarded then f l else laneOf (s.getV d) l) :
    s.VectorDone (s.withV d x).advance d (fun l => (f l, 0)) := by
  refine ⟨s.setWv_setFr_onlyWave _ _, fun l hl => ?_, ?_, State.fr_advance ..⟩
  · exact (congrArg (laneOf · l) (s.getV_withV d x)).trans (h l hl)
  · rw [foldl_or_zero _ _ fun _ _ => rfl]
    exact s.withV_onlyVector d x

/-- Values brought to lanes of a vector register of the executing wave. -/
theorem State.deliver_lanes (s : State) (d : BitVec 7) (ls : List Nat) (vals : List Nat) :
    s.deliver s.cur (.lanes d.toNat ls) vals = s.withV d (withLanes (s.getV d) ls
      (fun l => BitVec.ofNat 32 (vals.getD ((findIndexOf (· == l) ls).getD 0) 0))) := by
  have hr : s.wv.v.toList.getD d.toNat zeroReg = s.getV d := by
    simp [State.getV, List.getD_eq_getElem?_getD, d.isLt]
  have hset : ∀ x, s.wv.v.setIfInBounds d.toNat x = s.wv.v.set d.toNat x d.isLt := fun x =>
    Vector.ext fun i hi => by simp [Vector.getElem_set, Vector.getElem_setIfInBounds]
  simp only [State.deliver, State.wvOf_cur, hr, hset]
  rfl

/-- The place of a number in a list that holds it. -/
theorem findIndexOf_of_mem {ls : List Nat} {l : Nat} (h : l ∈ ls) :
    ∃ i, findIndexOf (· == l) ls = some i ∧ ls[i]? = some l := by
  obtain ⟨i, hi, rfl⟩ := List.mem_iff_getElem.1 h
  have hsome : (ls.zipIdx.find? (fun x => x.1 == ls[i])).isSome := by
    rw [List.find?_isSome]
    exact ⟨(ls[i], i), List.mem_zipIdx_iff_getElem?.2 (List.getElem?_eq_getElem hi), by simp⟩
  obtain ⟨x, hx⟩ := Option.isSome_iff_exists.1 hsome
  refine ⟨x.2, by rw [findIndexOf, hx]; rfl, ?_⟩
  rw [List.mem_zipIdx_iff_getElem?.1 (List.mem_of_find?_eq_some hx)]
  simpa using List.find?_some hx

/-- Of pieces of one length joined, the piece at a place. -/
theorem take_drop_flatMap {α β : Type} {f : α → List β} {n : Nat} (hf : ∀ a, (f a).length = n) {ls : List α} {i : Nat} {a : α}
    (h : ls[i]? = some a) : ((ls.flatMap f).drop (n * i)).take n = f a := by
  induction ls generalizing i with
  | nil => simp at h
  | cons b r ih =>
    cases i with
    | zero => simp_all [← hf b]
    | succ k =>
      have hd : n * (k + 1) = (f b).length + n * k := by rw [hf]; ring
      rw [List.flatMap_cons, hd, List.drop_length_add_append]
      exact ih (by simpa using h)

@[simp] theorem length_placesFrom (p : Place) (n : Nat) : (placesFrom p n).length = n := by simp [placesFrom]

/-- The value that a load of one word for each lane gives a lane (R178). -/
theorem getD_split_lanes {d : Nat} {ls : List Nat} {l : Nat} (h : l ∈ ls) {ps : Nat → List Place}
    (hps : ∀ l, (ps l).length = 4) (read : Place → Byte) :
    BitVec.ofNat 32 (((Dest.lanes d ls).split ((ls.flatMap ps).map read)).getD ((findIndexOf (· == l) ls).getD 0) 0)
      = BitVec.ofNat 32 (ofBytes ((ps l).map read)) := by
  obtain ⟨i, hi, hl⟩ := findIndexOf_of_mem h
  have hlt : i < ls.length := (List.getElem?_eq_some_iff.1 hl).1
  have hpiece := take_drop_flatMap (f := fun l => (ps l).map read) (fun a => (List.length_map ..).trans (hps a)) hl
  rw [hi, List.map_flatMap, Dest.split, lanesFrom]
  refine BitVec.eq_of_toNat_eq ?_
  simp [List.getD_eq_getElem?_getD, hlt, hpiece]

/-! ## Bytes stored -/

/-- Clearing poison marks changes the marks of memory alone. -/
theorem Memory.clearPoison_eq (m : Memory) (keys : List Nat) : ∃ marks, m.clearPoison keys = { m with poison := marks } := by
  unfold Memory.clearPoison
  split
  · exact ⟨m.poison, rfl⟩
  · exact ⟨_, rfl⟩

/-- Bytes are written whatever the poison marks are. -/
theorem Memory.writeBytes_withPoison (m : Memory) (marks : List Nat) (data : List (Place × Byte)) :
    ({ m with poison := marks } : Memory).writeBytes data = { m.writeBytes data with poison := marks } := by
  induction data generalizing m with
  | nil => rfl
  | cons x r ih => exact ih (m.writeByte x.1 x.2)

/-- Bytes written one list after another. -/
theorem Memory.writeBytes_append (m : Memory) (d e : List (Place × Byte)) :
    m.writeBytes (d ++ e) = (m.writeBytes d).writeBytes e := List.foldl_append ..

/-- A sector that is not marked poisoned is not marked by a write (R202). -/
theorem Memory.not_poisoned_of_store {m : Memory} {data : List (Place × Byte)} {keys : List Nat} {k : Nat}
    (h : m.poisoned k = false) : ((m.writeBytes data).clearPoison keys).poisoned k = false := by
  rw [Memory.poisoned, ← m.poison_writeBytes data] at h
  unfold Memory.clearPoison
  split
  · exact h
  · rw [Memory.poisoned]
    simp_all

/-- A state in which memory has some bytes written, whatever the poison marks, has them stored. -/
theorem State.stored_of_withPoison {s t : State} {data : List (Place × Byte)} {marks : List Nat}
    (h : t.mem = { s.mem.writeBytes data with poison := marks }) : s.Stored t data := by
  refine ⟨by rw [h], by rw [h], by rw [h]; exact Memory.epoch_writeBytes .., fun p hp => ?_⟩
  rw [h]
  exact s.mem.readByte_writeBytes_ne data p fun y hy => hp y.1 (List.mem_map_of_mem hy)

/-! ## From one access of an instruction to the next -/

/-- Accesses of an instruction have been performed and have left what the next one needs: the fragment is as it was, no attempt is
open, no sector has become poisoned, and of the waves the executing one alone may differ. -/
structure State.Performed (s t : State) : Prop where
  frame : t = { s with mem := t.mem, notices := t.notices, waves := t.waves }
  rows : ∀ k, k ≠ s.cur.waveKey → findAt t.waves k = findAt s.waves k
  idle : t.attempts = []
  clean : ∀ k, s.mem.poisoned k = false → t.mem.poisoned k = false

theorem State.Performed.refl {s : State} (h : s.attempts = []) : s.Performed s := ⟨rfl, fun _ _ => rfl, h, fun _ hk => hk⟩

theorem State.Performed.cur_eq {s t : State} (h : s.Performed t) : t.cur = s.cur := by rw [h.frame]

theorem State.Performed.trans {s t u : State} (h : s.Performed t) (k : t.Performed u) : s.Performed u :=
  ⟨by rw [k.frame, h.frame], fun n hn => (k.rows n (h.cur_eq ▸ hn)).trans (h.rows n hn), k.idle,
    fun n hn => k.clean n (h.clean n hn)⟩

/-- Nothing of the executing fragment has changed. -/
theorem State.Performed.fr_eq {s t : State} (h : s.Performed t) : t.fr = s.fr := by rw [h.frame]; rfl

/-- The executing wave is as it was where the table of waves is. -/
theorem State.Performed.wv_eq {s t : State} (h : s.Performed t) (hw : t.waves = s.waves) : t.wv = s.wv := by
  rw [State.wv, State.wv, hw, h.cur_eq]

/-- What could be performed before can be performed still. -/
theorem State.Performed.within {s t : State} (h : s.Performed t) {p : Part} (hp : s.Within p) : t.Within p := by
  refine ⟨hp.here, ?_, fun hr q hq => h.clean _ (hp.clean hr q hq)⟩
  rw [h.frame]
  exact hp.reach

/-- An access that can be performed is performed at once, whatever of its instruction came before it. -/
theorem State.Performed.issuePart {s t : State} (h : s.Performed t) (hc : s.Clear) {p : Part} (hp : s.Within p) :
    State.issuePart false t p = t.applyOp (t.accessFor p) := by
  refine State.issuePart_of_within ?_ ?_ (h.within hp)
  · rw [h.frame]; exact hc.2.2.2.1
  · rw [h.frame]; exact hc.2.2.1

/-- A store leaves what the next access needs (R99). -/
theorem State.performed_storeBytes {s : State} (h : s.attempts = []) (agent : Option FragId) (data : List (Place × Byte)) :
    s.Performed (s.storeBytes agent data) ∧ (s.storeBytes agent data).waves = s.waves
      ∧ ∃ marks, (s.storeBytes agent data).mem = { s.mem.writeBytes data with poison := marks } := by
  obtain ⟨ns, hst⟩ := s.storeBytes_of_noAttempt h agent data
  rw [hst]
  exact ⟨⟨rfl, fun _ _ => rfl, h, fun k hk => Memory.not_poisoned_of_store hk⟩, rfl, Memory.clearPoison_eq _ _⟩

/-- A vector register replaced leaves what the next access needs. -/
theorem State.performed_withV {s : State} (h : s.attempts = []) (d : BitVec 7) (x : Vector Lane 32) :
    s.Performed (s.withV d x) :=
  ⟨rfl, fun _ hk => findAt_putAt_ne _ _ hk, State.attempts_setWv_of_noAttempt h rfl, fun _ hk => hk⟩

/-- A load whose fragment is ready brings its bytes at once (R99). -/
theorem State.applyOp_load_ready {s : State} (hr : s.fr.status = .ready) {ps : List Place} {dst : Dest} (kind lane : Nat) :
    s.applyOp (s.accessFor { target := .here, op := .load ps dst, kind := kind, lane := lane })
      = s.deliver s.cur dst (dst.split (ps.map s.mem.readByte)) := by
  show s.answer _ _ = _
  have hst : (s.frOf s.cur).status = .ready := hr
  simp only [State.answer, State.accessFor, State.newAccess, hst, AccessOp.dest]

/-- Values have been brought to lanes of a vector register, and nothing else of the wave differs. -/
structure State.Brought (s t : State) (d : BitVec 7) (vals : List (Nat × Lane)) : Prop where
  wave : s.wv.OnlyVector t.wv d 0
  lanes : ∀ q ∈ vals, laneOf (t.getV d) q.1 = q.2
  kept : ∀ l < 32, l ∉ vals.map (·.1) → laneOf (t.getV d) l = laneOf (s.getV d) l

theorem State.Brought.nil {s t : State} (d : BitVec 7) (h : t.wv = s.wv) : s.Brought t d [] := by
  refine ⟨h ▸ ⟨rfl, fun _ _ => rfl, by simp⟩, nofun, fun l _ _ => ?_⟩
  rw [State.getV, State.getV, h]

/-- A value brought to one lane. -/
theorem State.brought_withV (s : State) (d : BitVec 7) {l : Nat} (hl : l < 32) (x : Lane) :
    s.Brought (s.withV d (withLanes (s.getV d) [l] fun _ => x)) d [(l, x)] := by
  refine ⟨s.withV_onlyVector d _, fun q hq => ?_, fun k hk hn => ?_⟩
  · rw [List.mem_singleton.1 hq, State.getV_withV, laneOf_withLanes _ _ _ _ hl, if_pos (List.mem_singleton_self l)]
  · rw [State.getV_withV, laneOf_withLanes _ _ _ _ hk, if_neg (by simpa using hn)]

/-- Values brought one after another, each to another lane. -/
theorem State.Brought.cons {s t u : State} {d : BitVec 7} {l : Nat} {x : Lane} {vals : List (Nat × Lane)}
    (h : s.Brought t d [(l, x)]) (k : t.Brought u d vals) (hl : l < 32) (hn : l ∉ vals.map (·.1)) :
    s.Brought u d ((l, x) :: vals) := by
  obtain ⟨hw, hv, hf⟩ := h.wave
  obtain ⟨kw, kv, kf⟩ := k.wave
  refine ⟨⟨by rw [kw, hw], fun r hr => (kv r hr).trans (hv r hr), by rw [kf, hf]; simp⟩, fun q hq => ?_, fun j hj hne => ?_⟩
  · rcases List.mem_cons.1 hq with rfl | hq
    · rw [k.kept l hl hn, h.lanes (l, x) (List.mem_singleton_self _)]
    · exact k.lanes q hq
  · simp only [List.map_cons, List.mem_cons, not_or] at hne
    rw [k.kept j hj hne.2, h.kept j hj (by simpa using hne.1)]

/-- What has been brought is told from the wave alone. -/
theorem State.Brought.of_wave {s t u : State} {d : BitVec 7} {vals : List (Nat × Lane)} (h : t.wv = s.wv)
    (k : t.Brought u d vals) : s.Brought u d vals := by
  have hv : t.getV d = s.getV d := by rw [State.getV, State.getV, h]
  exact ⟨h ▸ k.wave, k.lanes, hv ▸ k.kept⟩

/-- Guarded lanes are named once. -/
theorem State.nodup_guarded (s : State) : s.guarded.Nodup := List.nodup_range.filter _

end Sys2Proof.Machine
end

section
/-! Loads of scalars, sectors, words for each lane and tile segments (R178 to R180, R195). -/

namespace Sys2Proof.Machine

/-! ## Scalars -/

/-- A value brought to a scalar of the executing fragment. -/
theorem State.deliver_scalar (s : State) (d : BitVec 6) (vals : List Nat) :
    s.deliver s.cur (.scalar d.toNat) vals = s.setS d (BitVec.ofNat 64 (vals.headD 0)) := by
  simp [State.deliver, State.setS]

/-- A scalar written leaves what the fragment is doing. -/
theorem State.status_setS (s : State) (d : BitVec 6) (x : Word) : (s.setS d x).fr.status = s.fr.status := by
  rw [State.fr_setS, Frag.setS_frame]

/-- A scalar written, and the program counter moved on, is a scalar result. -/
theorem State.setS_done (s : State) (d : BitVec 6) (x : Word) : s.ScalarDone (s.setS d x).advance d x := by
  obtain ⟨t, ht, hd⟩ := s.putScalar_done d x
  cases ht
  exact hd

/-- A scalar load of an aligned address that reaches its bytes gives them as one number (R179). -/
theorem State.loadScalar_done {s : State} (hc : s.Clear) {d b : BitVec 6} {imm : BitVec 12} {n : Nat} {p : Place}
    (ha : (s.baseAddr b imm n).toNat % n = 0) (hr : s.Reaches (s.baseAddr b imm n) .read p (placesFrom p n)) :
    s.ScalarDone (s.loadScalar d b imm n) d (BitVec.ofNat 64 (ofBytes ((placesFrom p n).map s.mem.readByte))) := by
  have hready : s.fr.status = .ready := hc.2.2.2.2.1
  rw [State.loadScalar, State.oneAccess_of_reaches (make := fun p => .load (placesFrom p n) (.scalar d.toNat)) hc ha hr rfl
    ((State.applyOp_load_ready hready _ _).trans (s.deliver_scalar d _)) ((s.status_setS d _).trans hready)]
  exact s.setS_done d _

/-! ## Lanes at offsets from one place -/

/-- With no lane guarded an instruction that passes has the vector result that it should. -/
theorem State.advance_done {s : State} (hg : s.guarded = []) (d : BitVec 7) (f : Nat → Lane × Flags) :
    s.VectorDone s.advance d f := by
  refine ⟨⟨rfl, fun _ h => findAt_putAt_ne _ _ h, fun _ _ => rfl⟩, fun l _ => ?_, ?_, State.fr_advance s⟩
  · rw [hg, if_neg List.not_mem_nil]
    rfl
  · rw [hg]
    exact ⟨rfl, fun _ _ => rfl, by simp⟩

/-- A load of the guarded lanes of a sector gives each lane the word at its offset (R178, R195). -/
theorem State.loadLanes_done {s : State} (hc : s.Clear) {ea : Word} {p : Place} {off : Nat → Nat} (d : BitVec 7)
    (ha : ea.toNat % 128 = 0) (hr : s.Reaches ea .read p (lanePlaces p s.guarded off)) :
    s.VectorDone (s.oneAccess ea 128 .read fun p => .load (lanePlaces p s.guarded off) (.lanes d.toNat s.guarded)) d
      (fun l => (BitVec.ofNat 32 (ofBytes ((placesFrom (p.plus (off l)) 4).map s.mem.readByte)), 0)) := by
  have hready : s.fr.status = .ready := hc.2.2.2.2.1
  rw [State.oneAccess_of_reaches (make := fun p => .load (lanePlaces p s.guarded off) (.lanes d.toNat s.guarded)) hc ha hr rfl
    ((State.applyOp_load_ready hready _ _).trans (s.deliver_lanes d _ _)) hready]
  refine State.withV_done fun l hl => ?_
  rw [laneOf_withLanes _ _ _ _ hl]
  split
  · next hg => exact getD_split_lanes hg (fun _ => length_placesFrom ..) _
  · rfl

/-! ## One word for each lane -/

/-- The load of a lane's word (R180). -/
def wordLoad (d : BitVec 7) (l : Nat) (p : Place) : AccessOp := .load (placesFrom p 4) (.lanes d.toNat [l])

/-- Lanes replaced by values that agree are the same. -/
theorem withLanes_congr {v : Vector Lane 32} {ls : List Nat} {f g : Nat → Lane} (h : ∀ l ∈ ls, f l = g l) :
    withLanes v ls f = withLanes v ls g := by
  refine Vector.ext fun i hi => ?_
  simp only [withLanes, Vector.getElem_ofFn]
  split
  · next hm => exact h i (by simpa using hm)
  · rfl

/-- Loads of one word for each of some lanes bring each lane its word, and change nothing but the register (R180). -/
theorem State.foldl_wordLoads {s : State} (hc : s.Clear) (d : BitVec 7) (pl : Nat → Place) {ls : List Nat} (hn : ls.Nodup)
    (hw : ∀ l ∈ ls, l < 32 ∧ s.Within (lanePart (wordLoad d) pl l)) {u : State} (hu : s.Performed u) (hm : u.mem = s.mem) :
    ∃ t, (ls.map (lanePart (wordLoad d) pl)).foldl (State.issuePart false) u = t ∧ s.Performed t ∧ t.mem = s.mem
      ∧ t.notices = u.notices
      ∧ u.Brought t d (ls.map fun l => (l, BitVec.ofNat 32 (ofBytes ((placesFrom (pl l) 4).map s.mem.readByte)))) := by
  induction ls generalizing u with
  | nil => exact ⟨u, rfl, hu, hm, rfl, .nil d rfl⟩
  | cons l r ih =>
    obtain ⟨hl, hwl⟩ := hw l List.mem_cons_self
    obtain ⟨hlr, hnr⟩ := List.nodup_cons.1 hn
    have hval := getD_split_lanes (d := d.toNat) (List.mem_singleton_self l) (ps := fun _ => placesFrom (pl l) 4)
      (fun _ => length_placesFrom ..) s.mem.readByte
    have hstep : State.issuePart false u (lanePart (wordLoad d) pl l)
        = u.withV d (withLanes (u.getV d) [l]
            fun _ => BitVec.ofNat 32 (ofBytes ((placesFrom (pl l) 4).map s.mem.readByte))) := by
      rw [hu.issuePart hc hwl]
      refine ((State.applyOp_load_ready (hu.fr_eq ▸ hc.2.2.2.2.1) _ _).trans (u.deliver_lanes d _ _)).trans ?_
      refine congrArg (u.withV d) (withLanes_congr fun k hk => ?_)
      rw [hm]
      simpa [List.mem_singleton.1 hk] using hval
    obtain ⟨t, ht, hp, hmt, hnt, hb⟩ := ih hnr (fun k hk => hw k (List.mem_cons_of_mem _ hk))
      (hu.trans (State.performed_withV hu.idle d _)) hm
    refine ⟨t, by rw [List.map_cons, List.foldl_cons, hstep, ht], hp, hmt, hnt, (u.brought_withV d hl _).cons hb hl ?_⟩
    simpa using hlr

/-- A load of one word for each guarded lane, each at an aligned address that reaches its bytes, gives each lane its word
(R180). -/
theorem State.loadWords_done {s : State} (hc : s.Clear) (d : BitVec 7) {b : BitVec 6} {x : BitVec 7} {pl : Nat → Place}
    (hr : ∀ l ∈ s.guarded, (s.laneAddr b x l).toNat % 4 = 0
      ∧ s.Reaches (s.laneAddr b x l) .read (pl l) (placesFrom (pl l) 4)) :
    s.VectorDone (s.laneAccesses b x .read (fun _ => none) (wordLoad d)) d
      (fun l => (BitVec.ofNat 32 (ofBytes ((placesFrom (pl l) 4).map s.mem.readByte)), 0)) := by
  obtain ⟨t, ht, hp, hm, hns, hb⟩ := State.foldl_wordLoads hc d pl s.nodup_guarded
    (fun l hl => ⟨State.lt_of_mem_guarded hl, (hr l hl).2.within rfl _ _⟩) (.refl hc.1) rfl
  rw [State.laneAccesses_of_reaches (make := wordLoad d) hc hr (fun _ _ => rfl) ht (hp.fr_eq ▸ hc.2.2.2.2.1)]
  have hframe : t = { s with waves := t.waves } := by rw [hp.frame, hm, hns]
  refine ⟨⟨?_, fun k hk => ?_, hp.rows⟩, fun l hl => ?_, ?_, ?_⟩
  · rw [State.advance, hframe]; rfl
  · rw [State.advance, hframe]; exact findAt_putAt_ne _ _ hk
  · show laneOf (t.getV d) l = _
    split
    · next hg => exact hb.lanes (l, _) (List.mem_map_of_mem hg)
    · next hg => exact hb.kept l hl (by simpa using hg)
  · rw [foldl_or_zero _ _ fun _ _ => rfl]
    exact hb.wave
  · rw [State.fr_advance, hp.fr_eq]

/-! ## The statement -/

/-- A sector's address is a multiple of 128. -/
theorem sector_toNat_mod (x : Word) : (x &&& ~~~(127 : Word)).toNat % 128 = 0 := by
  rw [BitVec.toNat_and, show 128 = 2 ^ 7 from rfl, Nat.and_mod_two_pow, show (~~~(127 : Word)).toNat % 2 ^ 7 = 0 from rfl,
    Nat.and_zero]

/-- The sector of a tile segment is aligned (R195). -/
theorem TileEntry.segment_aligned (e : TileEntry) (r g : Nat) : (e.segment r g).1.toNat % 128 = 0 := sector_toNat_mod _

/-- Settles O19: a scalar or a sector in one access, a word for each lane lane by lane, a tile segment as the sector it lies in. -/
theorem loadResults : Obligations.LoadResults := by
  unfold Obligations.LoadResults
  intro s d b t' sb v x imm p hc
  refine ⟨fun ha hr => ⟨_, rfl, s.loadScalar_done hc ha hr⟩, fun ha hr => ⟨_, rfl, s.loadScalar_done hc ha hr⟩,
    fun hv ha hr => ⟨_, rfl, ?_⟩, fun pl hv hr => ⟨_, rfl, ?_⟩, fun e q he hq hv hh hs hst hstamp hr => ⟨_, rfl, ?_⟩⟩
  · rw [s.withRegs_of_holds _ _ hv]
    split
    · next hg => exact s.advance_done (List.isEmpty_iff.1 hg) v _
    · exact s.loadLanes_done hc v ha hr
  · rw [s.withRegs_of_holds _ _ hv]
    exact s.loadWords_done hc v hr
  · subst he hq
    rw [s.withRegs_of_holds _ _ hv, if_neg (by simp [State.handleOk, hh]), if_neg (by simp [hs]), if_neg (by omega),
      if_neg (by omega), if_neg (by grind)]
    split
    · next hg => exact s.advance_done (List.isEmpty_iff.1 hg) v _
    · exact s.loadLanes_done hc v (TileEntry.segment_aligned ..) hr

end Sys2Proof.Machine
end

section
/-! Stores of scalars, sectors, words for each lane and tile segments (R178 to R180, R193, R195). -/

namespace Sys2Proof.Machine

/-! ## Bytes stored by one access -/

/-- Stores that have left the waves alone, and the program counter moved on, are a store of all their bytes (R99). -/
theorem State.Performed.storeDone {s t : State} (h : s.Performed t) (hw : t.waves = s.waves) {data : List (Place × Byte)}
    {marks : List Nat} (hm : t.mem = { s.mem.writeBytes data with poison := marks }) : s.StoreDone t.advance data := by
  have hframe : t = { s with mem := t.mem, notices := t.notices } := by rw [h.frame, hw]
  refine ⟨?_, State.stored_of_withPoison hm, fun k hk => ?_, ?_⟩
  · rw [State.advance, hframe]; rfl
  · rw [State.advance, hframe]; exact findAt_putAt_ne _ _ hk
  · rw [State.fr_advance, h.fr_eq]

/-- An instruction that passes has stored no byte. -/
theorem State.advance_storeDone {s : State} (h : s.attempts = []) : s.StoreDone s.advance [] :=
  (State.Performed.refl h).storeDone (marks := s.mem.poison) rfl rfl

/-- A store at an aligned address that reaches its bytes puts them there (R178, R179). -/
theorem State.oneStore_done {s : State} (hc : s.Clear) {ea : Word} {n : Nat} {p : Place} {ps : List Place}
    {data : Place → List (Place × Byte)} (ha : ea.toNat % n = 0) (hr : s.Reaches ea .write p ps)
    (hd : (data p).map (·.1) = ps) : s.StoreDone (s.oneAccess ea n .write fun p => .store (data p)) (data p) := by
  obtain ⟨hp, hw, marks, hm⟩ := State.performed_storeBytes hc.1 (some s.cur) (data p)
  rw [State.oneAccess_of_reaches (make := fun p => .store (data p)) hc ha hr hd (State.applyOp_store rfl)
    (hp.fr_eq ▸ hc.2.2.2.2.1)]
  exact hp.storeDone hw hm

@[simp] theorem length_toBytes (n x : Nat) : (toBytes n x).length = n := by
  induction n generalizing x with
  | zero => rfl
  | succ n ih => exact congrArg (· + 1) (ih _)

/-- The places of the bytes of a number are all the places that there are for it. -/
theorem map_fst_zip_toBytes (p : Place) (n x : Nat) : ((placesFrom p n).zip (toBytes n x)).map (·.1) = placesFrom p n :=
  List.map_fst_zip (by simp)

/-- The places of the bytes that some lanes store are the places of their words. -/
theorem map_fst_laneData (p : Place) (ls : List Nat) (off : Nat → Nat) (v : Vector Lane 32) :
    (laneData p ls off v).map (·.1) = lanePlaces p ls off := by
  simp only [laneData, lanePlaces, List.map_flatMap, map_fst_zip_toBytes]

/-- A scalar store at an aligned address that reaches its bytes puts the low bytes of the scalar there (R179). -/
theorem State.storeScalar_done {s : State} (hc : s.Clear) {d b : BitVec 6} {imm : BitVec 12} {n : Nat} {p : Place}
    (ha : (s.baseAddr b imm n).toNat % n = 0) (hr : s.Reaches (s.baseAddr b imm n) .write p (placesFrom p n)) :
    s.StoreDone (s.storeScalar d b imm n) ((placesFrom p n).zip (toBytes n (s.getS d).toNat)) :=
  State.oneStore_done (data := fun p => (placesFrom p n).zip (toBytes n (s.getS d).toNat)) hc ha hr
    (map_fst_zip_toBytes ..)

/-- A store of the guarded lanes of a sector puts each lane's word at its offset (R178, R195). -/
theorem State.storeLanes_done {s : State} (hc : s.Clear) {ea : Word} {p : Place} {off : Nat → Nat} (v : Vector Lane 32)
    (ha : ea.toNat % 128 = 0) (hr : s.Reaches ea .write p (lanePlaces p s.guarded off)) :
    s.StoreDone (s.oneAccess ea 128 .write fun p => .store (laneData p s.guarded off v)) (laneData p s.guarded off v) :=
  State.oneStore_done (data := fun p => laneData p s.guarded off v) hc ha hr (map_fst_laneData ..)

/-- With no lane guarded nothing is stored. -/
theorem State.laneData_storeDone {s : State} (h : s.attempts = []) (hg : s.guarded = []) (p : Place) (off : Nat → Nat)
    (v : Vector Lane 32) : s.StoreDone s.advance (laneData p s.guarded off v) := by
  rw [hg]
  exact State.advance_storeDone h

/-! ## One word for each lane -/

/-- The bytes that the store of a lane's word puts at a place. -/
def wordData (v : Vector Lane 32) (pl : Nat → Place) (l : Nat) : List (Place × Byte) :=
  (placesFrom (pl l) 4).zip (toBytes 4 (laneOf v l).toNat)

/-- The store of a lane's word (R180). -/
def wordStore (v : Vector Lane 32) (l : Nat) (p : Place) : AccessOp := .store (wordData v (fun _ => p) l)

/-- Stores of one word for each of some lanes put the words at their places one after another, and change nothing else (R180). -/
theorem State.foldl_wordStores {s : State} (hc : s.Clear) (v : Vector Lane 32) (pl : Nat → Place) {ls : List Nat}
    (hw : ∀ l ∈ ls, s.Within (lanePart (wordStore v) pl l)) {u : State} (hu : s.Performed u) :
    ∃ t marks, (ls.map (lanePart (wordStore v) pl)).foldl (State.issuePart false) u = t ∧ s.Performed t
      ∧ t.waves = u.waves ∧ t.mem = { u.mem.writeBytes (ls.flatMap (wordData v pl)) with poison := marks } := by
  induction ls generalizing u with
  | nil => exact ⟨u, u.mem.poison, rfl, hu, rfl, rfl⟩
  | cons l r ih =>
    have hstep : State.issuePart false u (lanePart (wordStore v) pl l) = u.storeBytes (some u.cur) (wordData v pl l) := by
      rw [hu.issuePart hc (hw l List.mem_cons_self)]
      exact State.applyOp_store rfl
    obtain ⟨hp, hwaves, marks, hm⟩ := State.performed_storeBytes hu.idle (some u.cur) (wordData v pl l)
    obtain ⟨t, marks', ht, hpt, hwt, hmt⟩ := ih (fun k hk => hw k (List.mem_cons_of_mem _ hk)) (hu.trans hp)
    refine ⟨t, marks', by rw [List.map_cons, List.foldl_cons, hstep, ht], hpt, hwt.trans hwaves, ?_⟩
    rw [hmt, hm, Memory.writeBytes_withPoison, List.flatMap_cons, Memory.writeBytes_append]

/-- A store of one word for each guarded lane, each at an aligned address that reaches its bytes, puts the words there in the order
of the lanes (R180). -/
theorem State.storeWords_done {s : State} (hc : s.Clear) (v : Vector Lane 32) {b : BitVec 6} {x : BitVec 7}
    {pl : Nat → Place} (hr : ∀ l ∈ s.guarded, (s.laneAddr b x l).toNat % 4 = 0
      ∧ s.Reaches (s.laneAddr b x l) .write (pl l) (placesFrom (pl l) 4)) :
    s.StoreDone (s.laneAccesses b x .write (fun _ => none) (wordStore v)) (s.guarded.flatMap (wordData v pl)) := by
  have hplaces : ∀ l, (wordStore v l (pl l)).places = placesFrom (pl l) 4 := fun l => map_fst_zip_toBytes ..
  have hr' : ∀ l ∈ s.guarded, (s.laneAddr b x l).toNat % 4 = 0
      ∧ s.Reaches (s.laneAddr b x l) .write (pl l) (wordStore v l (pl l)).places := fun l hl => by
    rw [hplaces]
    exact hr l hl
  obtain ⟨t, marks, ht, hp, hw, hm⟩ := State.foldl_wordStores hc v pl
    (fun l hl => (hr' l hl).2.within rfl _ _) (.refl hc.1)
  rw [State.laneAccesses_of_reaches hc hr' (fun _ _ => rfl) ht (hp.fr_eq ▸ hc.2.2.2.2.1)]
  exact hp.storeDone hw hm

/-! ## A store that makes its tile ready -/

/-- The entry that a `tst` with FINAL has made ready (R193, R195). -/
def TileEntry.finished (e : TileEntry) : TileEntry := { e with stamp := e.span, stampV := true, state := 2 }

/-- With no attempt open, a filling entry that no change to empty waits for is made ready, and its watchers are told (R193, R195). -/
theorem State.finalTile_of_filling {s : State} (h : s.attempts = []) {core entry : Nat}
    (hst : (s.tileOf core entry).state = 1) (hp : (s.tileOf core entry).pendingEmpty = false)
    (hf : (s.tileOf core entry).finalDue = false) :
    ∃ ns, s.finalTile core entry = { s.setTile core entry (s.tileOf core entry).finished with notices := ns } := by
  obtain ⟨ns, hns⟩ := (s.setTile core entry (s.tileOf core entry).finished).writeWord_of_noAttempt h (.tile core entry)
  refine ⟨ns, ?_⟩
  rw [← hns]
  simp only [State.finalTile, hst, hp, if_true, Bool.false_eq_true, if_false, State.setTileState, State.tileOf_setTile,
    State.setTile_setTile, TileEntry.finished, hf]

/-- The tile of a store made ready, besides the store. -/
theorem State.StoreDone.finished {s u : State} {data : List (Place × Byte)} (h : s.StoreDone u data) (k : Nat)
    (ns : List Notice) :
    s.StoreDone { u.setTile s.cur.core (s.entryOf k) (s.tileAt k).finished with notices := ns, tiles := s.tiles } data
      ∧ ({ u.setTile s.cur.core (s.entryOf k) (s.tileAt k).finished with notices := ns } : State).tileAt k
        = (s.tileAt k).finished := by
  obtain ⟨hframe, hstored, hrows, hfr⟩ := h
  refine ⟨⟨by rw [hframe]; rfl, hstored, hrows, hfr⟩, ?_⟩
  rw [hframe]
  exact State.tileOf_setTile ..

/-- With nothing before it in the way, a store that makes its tile ready is performed and makes it ready (R195). -/
theorem State.storeFinal_of_clear {s u : State} (hc : s.Clear) {entry : Nat} {sector : Word} {make : Place → AccessOp}
    {data : List (Place × Byte)} (ho : s.oneAccess sector 128 .write make = u) (hu : s.StoreDone u data) :
    s.storeFinal entry sector make = u.finalTile s.cur.core entry := by
  obtain ⟨hatt, htx, hdef, hacc, hready, -, -, hst⟩ := hc
  have hsame : ({ s with deferring := false } : State) = s := by rw [← hdef]
  have hdrain : s.drain s.cur = s := by simp [State.drain, hacc]
  have hmoved : s.movedOn s = false := by simp [State.movedOn]
  obtain ⟨hframe, -, -, hfr⟩ := hu
  have hstalled : u.stalled = false := by rw [hframe]; exact hst
  have haccu : u.accesses = [] := by rw [hframe]; exact hacc
  have hwv : u.wv.active = s.wv.active := by rw [hframe]; rfl
  have hstatus : u.fr.status = .ready := by rw [hfr]; exact hready
  simp [State.storeFinal, hsame, hdrain, hmoved, ho, hstalled, haccu, hwv, hstatus]

/-! ## The statement -/

section TileStore

variable {s : State} (hc : s.Clear) {v : BitVec 7} {t' sb : BitVec 6} {p : Place} {e : TileEntry} {q : Word × (Nat → Nat)}
  (he : e = s.tileAt t'.toNat) (hq : q = e.segment (fieldOf (s.getS sb) 11 0) (fieldOf (s.getS sb) 26 12))
  (hv : s.HoldsRegs [v]) (hh : t'.toNat < s.seat.partSize) (hs : e.segmentOk (s.getS sb) 62 = true) (hst : e.state = 1)
  (hr : s.Reaches q.1 .write p (lanePlaces p s.guarded q.2))

include hc he hq hv hh hs hst hr

/-- `tst` without FINAL stores the guarded lanes of its segment (R195). -/
theorem exec_tst_segment (hx : (s.getS sb).getLsbD 63 = false) : ∃ t, exec (.tst v t' sb) s = .next t
    ∧ s.StoreDone t (laneData p s.guarded q.2 (s.getV v)) := by
  subst he hq
  have hfinal : (s.getS sb)[63] = false := hx
  refine ⟨_, rfl, ?_⟩
  rw [s.withRegs_of_holds _ _ hv, if_neg (by simp [hfinal]), if_neg (by simp [State.handleOk, hh]), if_neg (by simp [hfinal]),
    if_neg (by simp [hs]), if_neg (by omega), if_neg (by simp [hfinal]), if_neg (by simp [hfinal])]
  split
  · next hg => exact State.laneData_storeDone hc.1 (List.isEmpty_iff.1 hg) ..
  · exact State.storeLanes_done hc _ (TileEntry.segment_aligned ..) hr

/-- `tst` with FINAL stores the guarded lanes of its segment and makes the tile ready (R193, R195). -/
theorem exec_tst_final (hx : (s.getS sb).getLsbD 63 = true) (hp : e.pendingEmpty = false)
    (hf : e.finalDue = false) : ∃ t, exec (.tst v t' sb) s = .next t
    ∧ s.StoreDone { t with tiles := s.tiles } (laneData p s.guarded q.2 (s.getV v))
    ∧ t.tileAt t'.toNat = e.finished := by
  subst he hq
  have hout : s.storesOut = false := by simp [State.storesOut, hc.2.2.2.1]
  refine ⟨_, rfl, ?_⟩
  rw [s.withRegs_of_holds _ _ hv, if_neg (by simp [hc.2.1]), if_neg (by simp [State.handleOk, hh]), if_neg (by simp [hp]),
    if_neg (by simp [hs]), if_neg (by omega), if_neg (by simp [hf, hout]), if_pos hx]
  split
  · next hg =>
    obtain ⟨ns, hns⟩ := State.finalTile_of_filling (core := s.cur.core) (entry := s.entryOf t'.toNat) hc.1 hst hp hf
    have hdrain : s.drain s.cur = s := by simp [State.drain, hc.2.2.2.1]
    rw [hdrain, State.after, if_neg (by simp [State.movedOn]), hns]
    exact (State.laneData_storeDone hc.1 (List.isEmpty_iff.1 hg) _ _ _).finished t'.toNat ns
  · have hu := State.storeLanes_done hc (s.getV v) (TileEntry.segment_aligned ..) hr
    rw [State.storeFinal_of_clear hc rfl hu]
    generalize s.oneAccess _ _ _ _ = u at hu ⊢
    have htile : u.tileOf s.cur.core (s.entryOf t'.toNat) = s.tileAt t'.toNat := by rw [hu.1]; rfl
    obtain ⟨ns, hns⟩ := State.finalTile_of_filling (s := u) (core := s.cur.core) (entry := s.entryOf t'.toNat)
      (by rw [hu.1]; exact hc.1) (htile ▸ hst) (htile ▸ hp) (htile ▸ hf)
    rw [hns, htile]
    exact hu.finished t'.toNat ns

end TileStore

/-- Settles O20: a scalar or a sector in one access, a word for each lane lane by lane, a tile segment as the sector it lies in,
and FINAL by what it makes of the entry. -/
theorem storeResults : Obligations.StoreResults := by
  unfold Obligations.StoreResults
  intro s d b t' sb v x imm p hc
  refine ⟨fun ha hr => ⟨_, rfl, State.storeScalar_done hc ha hr⟩, fun ha hr => ⟨_, rfl, State.storeScalar_done hc ha hr⟩,
    fun hv ha hr => ⟨_, rfl, ?_⟩, fun pl hv hr => ⟨_, rfl, ?_⟩, fun e q he hq hv hh hs hst hr => ?_⟩
  · rw [s.withRegs_of_holds _ _ hv]
    split
    · next hg => exact State.laneData_storeDone hc.1 (List.isEmpty_iff.1 hg) ..
    · exact State.storeLanes_done hc _ ha hr
  · rw [s.withRegs_of_holds _ _ hv]
    exact State.storeWords_done hc _ hr
  · exact ⟨exec_tst_segment hc he hq hv hh hs hst hr, exec_tst_final hc he hq hv hh hs hst hr⟩

end Sys2Proof.Machine
end

section
/-! What each atomic operation stores (R184). -/

namespace Sys2Proof.Machine

/-! ## Numbers of a width, and their bytes -/

/-- A number below the power of its width is what its integer in two's complement has for low bits. -/
theorem wrapTo_signedOf {w x : Nat} (h : x < 2 ^ w) : wrapTo w (signedOf w x) = x := by
  have hx : x % 2 ^ w = x := Nat.mod_eq_of_lt h
  unfold signedOf
  split
  · rw [wrapTo_natCast, hx]
  · rw [wrapTo, Int.sub_emod_right, ← wrapTo, wrapTo_natCast, hx]

/-- The difference of two numbers of a width, reduced to it. -/
theorem wrapTo_sub {w m x : Nat} (hx : x < 2 ^ w) : wrapTo w ((m : Int) - x) = (m + 2 ^ w - x) % 2 ^ w := by
  have h : ((m + 2 ^ w - x : Nat) : Int) = (m : Int) - x + 2 ^ w := by
    push_cast [Nat.le_of_lt (Nat.lt_add_left m hx)]
    ring
  rw [← wrapTo_natCast, h, wrapTo, wrapTo, Int.add_emod_right]

/-- Reading the bytes of a number gives its low bits (R3). -/
theorem ofBytes_toBytes (n x : Nat) : ofBytes (toBytes n x) = x % 2 ^ (8 * n) := by
  induction n generalizing x with
  | zero => simp [toBytes, ofBytes, Nat.mod_one]
  | succ n ih =>
    rw [toBytes, ofBytes, ih, Nat.mul_succ, Nat.add_comm (8 * n), Nat.pow_add, Nat.mod_mul, BitVec.toNat_ofNat]

/-! ## The statement -/

/-- The lesser and the greater of two memory values, as signed numbers (R184). -/
theorem atomicValue_minMax {w m x : Nat} (hm : m < 2 ^ w) (hx : x < 2 ^ w) (y : Nat) :
    atomicValue .min w m x y = some (wrapTo w (min (signedOf w m) (signedOf w x)))
      ∧ atomicValue .max w m x y = some (wrapTo w (max (signedOf w m) (signedOf w x))) := by
  unfold atomicValue
  rcases le_total (signedOf w m) (signedOf w x) with h | h
  · rw [min_eq_left h, max_eq_right h, wrapTo_signedOf hm, wrapTo_signedOf hx]
    exact ⟨congrArg some (if_pos h), congrArg some (if_pos h)⟩
  · rw [min_eq_right h, max_eq_left h, wrapTo_signedOf hm, wrapTo_signedOf hx]
    rcases h.lt_or_eq with hlt | heq
    · exact ⟨congrArg some (if_neg (not_le.2 hlt)), congrArg some (if_neg (not_le.2 hlt))⟩
    · have hmx : m = x := by rw [← wrapTo_signedOf hm, ← heq, wrapTo_signedOf hx]
      simp [hmx]

/-- The bytes that an atomic stores are those of the value that it makes of the old one, and none where it makes none (R184). -/
theorem Memory.atomic_eq (m : Memory) (op : AtomicOp) (ps : List Place) (x y : Word) :
    m.atomic op ps x y = (match atomicValue op (8 * ps.length) (ofBytes (ps.map m.readByte)) (x.toNat % 2 ^ (8 * ps.length))
        (y.toNat % 2 ^ (8 * ps.length)) with
      | some v => ps.zip (toBytes ps.length v)
      | none => [], ofBytes (ps.map m.readByte)) := by
  simp only [Memory.atomic, cutWord]
  split <;> simp_all

/-- Settles O22: each operation by its equation, sums and differences modulo the width, and the bytes by what is read back. -/
theorem atomicOperationResults : Obligations.AtomicOperationResults := by
  unfold Obligations.AtomicOperationResults
  refine ⟨fun w m x y _ hm hx _ => ?_, fun m op ps x y => ?_⟩
  · obtain ⟨hmin, hmax⟩ := atomicValue_minMax hm hx y
    exact ⟨rfl, congrArg some (wrapTo_sub hx), hmin, hmax, rfl, rfl, rfl, rfl, rfl, rfl, rfl, rfl, rfl, rfl⟩
  · rw [Memory.atomic_eq]
    refine ⟨rfl, fun v hv => ⟨?_, ofBytes_toBytes ..⟩, fun hv => ?_⟩
    · rw [hv]
    · rw [hv]

end Sys2Proof.Machine
end

section
/-! Vector and scalar atomics with nothing in their way (R183 to R185). -/

namespace Sys2Proof.Machine

/-! ## Atomics on memory, one after another -/

/-- An atomic stores no byte outside its places (R184). -/
theorem Memory.readByte_atomic_ne (m : Memory) (op : AtomicOp) (ps : List Place) (x y : Word) {q : Place}
    (h : ∀ p ∈ ps, p.key ≠ q.key) : (m.writeBytes (m.atomic op ps x y).1).readByte q = m.readByte q := by
  refine m.readByte_writeBytes_ne _ q fun z hz => ?_
  rw [Memory.atomic_eq] at hz
  dsimp only at hz
  split at hz
  · exact h _ (List.of_mem_zip hz).1
  · cases hz

/-- Atomics one after another store no byte outside their places (R183). -/
theorem readByte_runAtomics_ne (op : AtomicOp) (m : Memory) (ls : List (Nat × List Place × Word × Word)) {q : Place}
    (h : ∀ x ∈ ls, ∀ p ∈ x.2.1, p.key ≠ q.key) : (runAtomics op m ls).1.readByte q = m.readByte q := by
  induction ls generalizing m with
  | nil => rfl
  | cons x r ih =>
    refine (ih _ fun z hz => h z (List.mem_cons_of_mem _ hz)).trans ?_
    exact m.readByte_atomic_ne op _ _ _ (h x List.mem_cons_self)

/-- Atomics are made whatever the poison marks are. -/
theorem runAtomics_withPoison (op : AtomicOp) (m : Memory) (marks : List Nat)
    (ls : List (Nat × List Place × Word × Word)) : runAtomics op { m with poison := marks } ls
      = ({ (runAtomics op m ls).1 with poison := marks }, (runAtomics op m ls).2) := by
  induction ls generalizing m with
  | nil => rfl
  | cons x r ih =>
    obtain ⟨l, ps, x, y⟩ := x
    have hsame : ({ m with poison := marks } : Memory).atomic op ps x y = m.atomic op ps x y := rfl
    rw [runAtomics, runAtomics, hsame, Memory.writeBytes_withPoison, ih]

/-- Atomics one after another give an old value for each lane. -/
theorem map_fst_runAtomics (op : AtomicOp) (m : Memory) (ls : List (Nat × List Place × Word × Word)) :
    (runAtomics op m ls).2.map (·.1) = ls.map (·.1) := by
  induction ls generalizing m with
  | nil => rfl
  | cons x r ih => exact congrArg (x.1 :: ·) (ih _)

/-! ## An atomic that is performed at once -/

/-- An atomic with no attempt open stores what its operation makes, and gives the old value (R103, R184). -/
theorem State.performed_runAtomic {s : State} (h : s.attempts = []) (agent : Option FragId) (op : AtomicOp) (ps : List Place)
    (x y : Word) : ∃ t marks, s.runAtomic agent op ps x y = (t, (s.mem.atomic op ps x y).2) ∧ s.Performed t
      ∧ t.waves = s.waves ∧ t.mem = { s.mem.writeBytes (s.mem.atomic op ps x y).1 with poison := marks } := by
  cases hd : (s.mem.atomic op ps x y).1 with
  | nil => exact ⟨s, s.mem.poison, by simp [State.runAtomic, hd], .refl h, rfl, rfl⟩
  | cons z r =>
    obtain ⟨hp, hw, marks, hm⟩ := State.performed_storeBytes h agent (z :: r)
    exact ⟨_, marks, by simp [State.runAtomic, hd], hp, hw, hm⟩

/-- An atomic whose fragment is ready is performed at once, and a returning one brings the old value (R99, R184). -/
theorem State.applyOp_atomic_ready {s : State} (h : s.attempts = []) (hr : s.fr.status = .ready) {op : AtomicOp}
    {ps : List Place} {x y : Word} {r : List (Place × Byte) × Nat} (hres : r = s.mem.atomic op ps x y) (ret : Bool)
    (dst : Dest) (kind lane : Nat) : ∃ t marks,
      s.applyOp (s.accessFor { target := .here, op := .atomic op ps x y ret dst, kind := kind, lane := lane })
        = (if ret then t.deliver t.cur dst [r.2] else t)
      ∧ s.Performed t ∧ t.waves = s.waves ∧ t.mem = { s.mem.writeBytes r.1 with poison := marks } := by
  subst hres
  obtain ⟨t, marks, ht, hp, hw, hm⟩ := State.performed_runAtomic h (some s.cur) op ps x y
  refine ⟨t, marks, ?_, hp, hw, hm⟩
  have hst : (t.frOf s.cur).status = .ready := by rw [← hp.cur_eq, State.frOf_cur, hp.fr_eq, hr]
  simp only [State.applyOp, State.accessFor, State.newAccess, ht, State.answer, hst, AccessOp.dest, hp.cur_eq]

/-! ## Scalar atomics -/

/-- What a scalar atomic does at a place (R185). -/
def State.scalarWork (s : State) (op : AtomicOp) (ret : Bool) (d : BitVec 6) (n : Nat) (p : Place) : AccessOp :=
  .atomic op (placesFrom p n) (s.getS d) (s.getS (d + 1)) ret (if ret then .scalar d.toNat else .none)

section Scalar

variable {s : State} (hc : s.Clear) {op : AtomicOp} {d a : BitVec 6} {n : Nat} {p : Place}
  (ha : (s.getS a).toNat % n = 0) (hr : s.Reaches (s.getS a) .atomic p (placesFrom p n)) {r : List (Place × Byte) × Nat}
  (hres : r = s.mem.atomic op (placesFrom p n) (s.getS d) (s.getS (d + 1)))

include hc ha hr

/-- A scalar atomic at an aligned address that reaches its bytes is performed, and the instruction passes (R185). -/
theorem State.scalarAtomic_of_reaches {ret : Bool} {t : State}
    (ht : s.applyOp (s.accessFor { target := .here, op := s.scalarWork op ret d n p, kind := p.kind }) = t)
    (hready : t.fr.status = .ready) : s.scalarAtomic op ret d a n = t.advance := by
  have hw := hr.within (o := s.scalarWork op ret d n p) rfl p.kind 0
  have hx : s.xlateWith (s.hostRefuses op) [s.getS a] .atomic = .ok [(p, .here)] :=
    State.xlateWith_of_reached (ls := [0]) (va := fun _ => s.getS a) (pl := fun _ => p) (fun _ _ => ⟨hr.1, hr.2.1⟩)
      (fun _ _ => by simp [State.hostRefuses, hr.2.1])
  rw [State.scalarAtomic, if_neg (by simp [aligned, ha]), hx]
  refine State.access_of_within hc (fun q hq => List.mem_singleton.1 hq ▸ hw) ?_ hready
  rw [← ht, ← State.issuePart_of_within hc.2.2.2.1 hc.2.2.1 hw]
  rfl

include hres

/-- A scalar atomic that returns nothing stores what its operation makes of the memory value, and changes nothing else (R184,
R185). -/
theorem State.scalarAtomic_storeDone : s.StoreDone (s.scalarAtomic op false d a n) r.1 := by
  have hready : s.fr.status = .ready := hc.2.2.2.2.1
  obtain ⟨t, marks, ht, hp, hw, hm⟩ := State.applyOp_atomic_ready hc.1 hready hres false .none p.kind 0
  rw [State.scalarAtomic_of_reaches hc ha hr ht (hp.fr_eq ▸ hready)]
  exact hp.storeDone hw hm

/-- A returning scalar atomic stores what its operation makes of the memory value and leaves the old value in its scalar, and
changes nothing else (R184, R185). -/
theorem State.scalarAtomic_returns : ∃ t u, s.scalarAtomic op true d a n = t
    ∧ u = { s with mem := t.mem, notices := t.notices } ∧ s.Stored t r.1 ∧ u.ScalarDone t d (BitVec.ofNat 64 r.2) := by
  have hready : s.fr.status = .ready := hc.2.2.2.2.1
  obtain ⟨u, marks, hu, hp, hw, hm⟩ := State.applyOp_atomic_ready hc.1 hready hres true (.scalar d.toNat) p.kind 0
  have hbring : u.deliver u.cur (.scalar d.toNat) [r.2] = u.setS d (BitVec.ofNat 64 r.2) := u.deliver_scalar d [r.2]
  refine ⟨(u.setS d (BitVec.ofNat 64 r.2)).advance, u, State.scalarAtomic_of_reaches hc ha hr (hu.trans hbring)
    ((u.status_setS d _).trans (hp.fr_eq ▸ hready)), ?_, State.stored_of_withPoison hm, u.setS_done d _⟩
  rw [hp.frame, hw]
  rfl

end Scalar

/-! ## Vector atomics -/

/-- The atomic of a lane (R183). -/
def laneAtomic (op : AtomicOp) (ret : Bool) (d : BitVec 7) (x y : Nat → Word) (l : Nat) (p : Place) : AccessOp :=
  .atomic op (placesFrom p 4) (x l) (y l) ret (if ret then .lanes d.toNat [l] else .none)

/-- What the atomic of a lane works on: the lane, its bytes and its operands. -/
def laneWork (pl : Nat → Place) (x y : Nat → Word) (l : Nat) : Nat × List Place × Word × Word :=
  (l, placesFrom (pl l) 4, x l, y l)

/-- The atomics of some lanes give an old value for each of them, and for no other. -/
theorem mem_lanes_runAtomics (op : AtomicOp) (m : Memory) (pl : Nat → Place) (x y : Nat → Word) (ls : List Nat) (l : Nat) :
    l ∈ ((runAtomics op m (ls.map (laneWork pl x y))).2.map fun q => (q.1, BitVec.ofNat 32 q.2)).map (·.1) ↔ l ∈ ls := by
  have h : (runAtomics op m (ls.map (laneWork pl x y))).2.map (·.1) = ls := by
    rw [map_fst_runAtomics, List.map_map]
    exact List.map_id ls
  rw [List.map_map]
  exact iff_of_eq (congrArg (l ∈ ·) h)

section Lanes

variable {s : State} (hc : s.Clear) (op : AtomicOp) (ret : Bool) (d : BitVec 7) (x y : Nat → Word) (pl : Nat → Place)

include hc

/-- The atomic of a lane performed: memory is what it makes of it, a returning one brings the lane the old value, and nothing else
differs (R183, R184). -/
theorem State.Performed.laneAtomic {u : State} (hu : s.Performed u) {l : Nat} (hl : l < 32)
    (hw : s.Within (lanePart (laneAtomic op ret d x y) pl l)) {r : List (Place × Byte) × Nat}
    (hres : r = u.mem.atomic op (placesFrom (pl l) 4) (x l) (y l)) :
    ∃ t marks, State.issuePart false u (lanePart (Machine.laneAtomic op ret d x y) pl l) = t ∧ u.Performed t
      ∧ t.mem = { u.mem.writeBytes r.1 with poison := marks }
      ∧ (ret = true → u.Brought t d [(l, BitVec.ofNat 32 r.2)]) ∧ (ret = false → t.waves = u.waves) := by
  obtain ⟨t, marks, hop, hp, hwaves, hm⟩ := State.applyOp_atomic_ready hu.idle (hu.fr_eq ▸ hc.2.2.2.2.1) hres ret
    (if ret then .lanes d.toNat [l] else .none) (pl l).kind l
  have hstep := (hu.issuePart hc hw).trans hop
  cases ret with
  | false => exact ⟨t, marks, hstep, hp, hm, nofun, fun _ => hwaves⟩
  | true =>
    have hbring : t.deliver t.cur (.lanes d.toNat [l]) [r.2]
        = t.withV d (withLanes (t.getV d) [l] fun _ => BitVec.ofNat 32 r.2) := by
      refine (t.deliver_lanes d _ _).trans (congrArg (t.withV d) (withLanes_congr fun k hk => ?_))
      simp [List.mem_singleton.1 hk, findIndexOf]
    exact ⟨_, marks, hstep.trans hbring, hp.trans (State.performed_withV hp.idle d _), hm,
      fun _ => (t.brought_withV d hl _).of_wave (hp.wv_eq hwaves), nofun⟩

/-- The atomics of some lanes performed: memory is what they make of it one after another, returning ones bring each lane the old
value, and nothing else differs (R183, R184). -/
theorem State.foldl_laneAtomics {ls : List Nat} (hn : ls.Nodup)
    (hw : ∀ l ∈ ls, l < 32 ∧ s.Within (lanePart (laneAtomic op ret d x y) pl l)) {u : State} (hu : s.Performed u)
    {run : Memory × List (Nat × Nat)} (hrun : run = runAtomics op u.mem (ls.map (laneWork pl x y))) :
    ∃ t marks, (ls.map (lanePart (laneAtomic op ret d x y) pl)).foldl (State.issuePart false) u = t ∧ s.Performed t
      ∧ t.mem = { run.1 with poison := marks }
      ∧ (ret = true → u.Brought t d (run.2.map fun q => (q.1, BitVec.ofNat 32 q.2)))
      ∧ (ret = false → t.waves = u.waves) := by
  subst hrun
  induction ls generalizing u with
  | nil => exact ⟨u, u.mem.poison, rfl, hu, rfl, fun _ => .nil d rfl, fun _ => rfl⟩
  | cons l r ih =>
    obtain ⟨hl, hwl⟩ := hw l List.mem_cons_self
    obtain ⟨hlr, hnr⟩ := List.nodup_cons.1 hn
    obtain ⟨t, marks, ht, hp, hm, hb, hf⟩ := hu.laneAtomic hc op ret d x y pl hl hwl rfl
    obtain ⟨v, marks', hv, hpv, hmv, hbv, hfv⟩ := ih hnr (fun k hk => hw k (List.mem_cons_of_mem _ hk)) (hu.trans hp)
    have hlanes := mem_lanes_runAtomics op t.mem pl x y r l
    rw [hm, runAtomics_withPoison] at hmv hbv hlanes
    exact ⟨v, marks', by rw [List.map_cons, List.foldl_cons, ht, hv], hpv, hmv,
      fun h => (hb h).cons (hbv h) hl (mt hlanes.1 hlr), fun h => (hfv h).trans (hf h)⟩

end Lanes

/-- A vector atomic, each guarded lane at an aligned address that reaches its bytes, is made of an atomic for each guarded lane in
ascending order (R183, R184). -/
theorem State.vectorAtomic_done {s : State} (hc : s.Clear) {op : AtomicOp} {ret : Bool} {d x : BitVec 7} {b : BitVec 6}
    {pl : Nat → Place} (hv : s.HoldsRegs (if op = .cas then [d, d + 1, x] else [d, x]))
    (hr : ∀ l ∈ s.guarded, (s.laneAddr b x l).toNat % 4 = 0
      ∧ s.Reaches (s.laneAddr b x l) .atomic (pl l) (placesFrom (pl l) 4)) {run : Memory × List (Nat × Nat)}
    (hrun : run = runAtomics op s.mem (s.guarded.map (laneWork pl (fun l => (laneOf (s.getV d) l).setWidth 64)
      fun l => (laneOf (s.getV (d + 1)) l).setWidth 64))) :
    ∃ t marks, s.vectorAtomic op ret d b x = t.advance ∧ s.Performed t ∧ t.mem = { run.1 with poison := marks }
      ∧ (ret = true → s.Brought t d (run.2.map fun q => (q.1, BitVec.ofNat 32 q.2)))
      ∧ (ret = false → t.waves = s.waves) := by
  obtain ⟨t, marks, ht, hp, hrest⟩ := State.foldl_laneAtomics hc op ret d (fun l => (laneOf (s.getV d) l).setWidth 64)
    (fun l => (laneOf (s.getV (d + 1)) l).setWidth 64) pl s.nodup_guarded
    (fun l hl => ⟨State.lt_of_mem_guarded hl, (hr l hl).2.within rfl _ _⟩) (.refl hc.1) hrun
  refine ⟨t, marks, ?_, hp, hrest⟩
  have hregs : s.HoldsRegs (if op == .cas then [d, d + 1, x] else [d, x]) := by simpa using hv
  rw [State.vectorAtomic, s.withRegs_of_holds _ _ hregs]
  refine State.laneAccesses_of_reaches (make := laneAtomic op ret d _ _) hc hr (fun l hl => ?_) ht
    (hp.fr_eq ▸ hc.2.2.2.2.1)
  simp [State.hostRefuses, (hr l hl).2.2.1]

/-! ## The statement -/

/-- Settles O23: a vector atomic by the induction over its guarded lanes, a scalar one as one access. -/
theorem atomicInstructionResults : Obligations.AtomicInstructionResults := by
  unfold Obligations.AtomicInstructionResults
  refine ⟨fun s d x b pl i op ret run hc hi hv hr hrun => ?_, fun s d a w p i op ret n r hc hi ha hr hres => ?_⟩
  · have hexec : exec i s = .next (s.vectorAtomic op ret d b x) := by
      simp only [List.mem_cons, Prod.mk.injEq, List.not_mem_nil, or_false] at hi
      casesm* _ ∨ _ <;> (obtain ⟨rfl, rfl, rfl⟩ := ‹_ ∧ _›; rfl)
    simp only [BitVec.ofNat_toNat] at hrun
    obtain ⟨t, marks, ht, hp, hm, hb, hf⟩ := State.vectorAtomic_done (ret := ret) hc hv hr hrun
    refine ⟨t.advance, by rw [hexec, ht], by rw [State.advance, hp.frame]; rfl, by rw [State.mem_advance, hm],
      by rw [State.mem_advance, hm], fun q hq => ?_, by rw [State.fr_advance, hp.fr_eq], fun h => ⟨(hb h).wave, fun q hq => ?_,
      fun l hl hn => ?_⟩, fun h => hp.wv_eq (hf h)⟩
    · rw [State.mem_advance, hm, hrun]
      refine readByte_runAtomics_ne op s.mem _ fun z hz z' hz' => ?_
      obtain ⟨l, hl, rfl⟩ := List.mem_map.1 hz
      exact hq z' (List.mem_flatMap.2 ⟨l, hl, hz'⟩)
    · exact (hb h).lanes (q.1, BitVec.ofNat 32 q.2) (List.mem_map_of_mem hq)
    · refine (hb h).kept l hl ?_
      rw [hrun]
      exact mt (mem_lanes_runAtomics op s.mem pl _ _ _ l).1 hn
  · have hexec : exec i s = .next (s.scalarAtomic op ret d a n) := by
      simp only [List.mem_cons, Prod.mk.injEq, List.not_mem_nil, or_false] at hi
      casesm* _ ∨ _ <;> (obtain ⟨rfl, rfl, rfl, rfl⟩ := ‹_ ∧ _›; rfl)
    cases ret with
    | false =>
      obtain ⟨hframe, hst, hrows, hfr⟩ := State.scalarAtomic_storeDone hc ha hr hres
      refine ⟨_, hexec, hframe, hst, ⟨?_, hrows⟩, nofun, fun _ => hfr⟩
      rw [hframe]
    | true =>
      obtain ⟨t, u, ht, hu, hst, ⟨hframe, hrows⟩, hdone⟩ := State.scalarAtomic_returns hc ha hr hres
      subst hu
      exact ⟨t, by rw [hexec, ht], hframe, hst, ⟨by rw [hframe], hrows⟩, fun _ => hdone, nofun⟩

end Sys2Proof.Machine
end

section
/-! Instructions on an entry of the tile table (R191, R193, R194). -/

namespace Sys2Proof.Machine

/-- The entry that a handle names is changed, its watchers are told, and the instruction passes. -/
def State.TileDone (s t : State) (k : Nat) (x : TileEntry) : Prop :=
  t = { s with tiles := t.tiles, notices := t.notices, frags := t.frags } ∧ t.fr = { s.fr with pc := s.fr.pc + 4 }
    ∧ t.tileAt k = x

/-- With no attempt open, an entry that is set and whose state word is written is changed and nothing else is. -/
theorem State.setTile_writeWord_done {s : State} (h : s.attempts = []) (k : Nat) (x : TileEntry) :
    s.TileDone ((s.setTile s.cur.core (s.entryOf k) x).writeWord (s.tileWord k)).advance k x := by
  obtain ⟨ns, hns⟩ := (s.setTile s.cur.core (s.entryOf k) x).writeWord_of_noAttempt h (s.tileWord k)
  rw [hns]
  exact ⟨rfl, State.fr_advance _, State.tileOf_setTile s s.cur.core (s.entryOf k) x⟩

/-- A change to another state than empty (R193). -/
theorem State.setTo_done {s : State} (h : s.attempts = []) (k : Nat) {x : Nat} (hx : x ≠ 0) :
    s.TileDone (s.setTo s.cur.core (s.entryOf k) x).advance k { s.tileAt k with state := x } := by
  rw [State.setTo, if_neg hx]
  exact State.setTile_writeWord_done h k _

/-- A change to empty takes effect at once where no command names the entry (R25, R193). -/
theorem State.setTo_zero_of_idle {s : State} (h : s.attempts = []) {k : Nat} (hp : (s.tileAt k).pendingEmpty = false)
    (hf : (s.tileAt k).finalDue = false) (hi : (s.tileAt k).inFlight = 0) :
    s.TileDone (s.setTo s.cur.core (s.entryOf k) 0).advance k { s.tileAt k with state := 0, failedFills := [] } := by
  have hempty : s.emptyTile s.cur.core (s.entryOf k)
      = (s.setTile s.cur.core (s.entryOf k) { s.tileAt k with state := 0, failedFills := [] }).writeWord (s.tileWord k) := by
    unfold State.tileAt at hp hf hi
    simp only [State.emptyTile, State.tileAt, hi, hf, and_self, if_true, State.setTileState, State.tileOf_setTile,
      State.setTile_setTile, State.tileWord, ← hp]
  have hnot : ((s.emptyTile s.cur.core (s.entryOf k)).tileOf s.cur.core (s.entryOf k)).pendingEmpty = false := by
    obtain ⟨ns, hns⟩ := (s.setTile s.cur.core (s.entryOf k) { s.tileAt k with state := 0, failedFills := [] })
      |>.writeWord_of_noAttempt h (s.tileWord k)
    rw [hempty, hns]
    exact (congrArg TileEntry.pendingEmpty (State.tileOf_setTile ..)).trans hp
  rw [State.setTo, if_pos rfl]
  dsimp only
  rw [if_neg (by simp [hnot]), hempty]
  exact State.setTile_writeWord_done h k _

/-- A change to empty waits where commands name the entry (R25, R193). -/
theorem State.setTo_zero_of_inFlight {s : State} (h : s.attempts = []) {k : Nat} (hi : (s.tileAt k).inFlight ≠ 0) :
    s.TileDone (s.setTo s.cur.core (s.entryOf k) 0).advance k { s.tileAt k with pendingEmpty := true } := by
  have hempty : s.emptyTile s.cur.core (s.entryOf k)
      = s.setTile s.cur.core (s.entryOf k) { s.tileAt k with pendingEmpty := true } := by
    rw [State.emptyTile, if_neg fun hc => hi hc.1, State.tileAt]
  simp only [State.setTo, if_true, hempty, State.tileOf_setTile]
  exact State.setTile_writeWord_done h k _

section InPartition

variable {s : State} {h : BitVec 6} (hh : h.toNat < s.seat.partSize) (htx : s.inTx = false)

include hh htx

/-- `tdef` of an empty entry with a base and a shape that it accepts makes it filling (R191, R194). -/
theorem exec_tdef_of_empty {a b : BitVec 6} (hatt : s.attempts = []) (hp : (s.tileAt h.toNat).pendingEmpty = false)
    (hst : (s.tileAt h.toNat).state = 0) (htask : (s.tileAt h.toNat).task = false) (hbase : baseOk (s.getS a) = true)
    (hshape : shapeOk (s.getS b) = true) :
    ∃ t, exec (.tdef h a b) s = .next t
      ∧ s.TileDone t h.toNat ((s.tileAt h.toNat).define (s.getS a) (s.getS b) false) := by
  refine ⟨_, rfl, ?_⟩
  rw [if_neg (by simp [htx]), if_neg (by simp [State.handleOk, hh]), if_neg (by simp [hp]), if_neg (by simp [hst, htask]),
    if_neg (by simp [hbase, hshape])]
  exact State.setTile_writeWord_done hatt _ _

/-- `tset` to a state that the entry may take makes the change (R193, R194). -/
theorem exec_tset_of_allowed {a : BitVec 6} (hp : (s.tileAt h.toNat).pendingEmpty = false) (hx : (s.getS a).toNat < 4)
    (hok : tsetAllows (s.tileAt h.toNat).state (s.getS a).toNat = true) (hf : (s.tileAt h.toNat).finalDue = false) :
    exec (.tset h a) s = .next (s.setTo s.cur.core (s.entryOf h.toNat) (s.getS a).toNat).advance := by
  refine congrArg Host.Outcome.next ?_
  rw [if_neg (by simp [htx]), if_neg (by simp [State.handleOk, hh]), if_neg (by simp [hp]), if_neg (by omega),
    if_neg (by simp [hok]), if_neg (by simp [hf])]

/-- `tqry` gives a half of the entry (R191, R194). -/
theorem exec_tqry_of_noAttempt (d : BitVec 6) (sel : BitVec 1) : ∃ t, exec (.tqry d h sel) s = .next t
    ∧ s.ScalarDone t d (if sel = 0 then (s.tileAt h.toNat).word0 else (s.tileAt h.toNat).base) := by
  have hread : s.addRead (s.tileWord h.toNat) 0 = (s, true) := by simp [State.addRead, State.attempt, htx]
  refine ⟨_, rfl, ?_⟩
  rw [if_neg (by simp [State.handleOk, hh]), hread]
  exact s.setS_done d _

end InPartition

/-- A handle outside the slot's partition raises TILE_STATE with detail 1 (R191). -/
theorem exec_tile_of_outside {s : State} {h : BitVec 6} (hh : s.seat.partSize ≤ h.toNat) (hf : s.TrapFree)
    (a b d : BitVec 6) (sel : BitVec 1) : ∀ i ∈ [Instr.tdef h a b, .tset h a, .tqry d h sel],
      exec i s = .next (s.trapTile 1) := by
  have hout : (!s.handleOk h.toNat) = true := by simpa [State.handleOk] using hh
  simp only [List.mem_cons, List.not_mem_nil, or_false]
  rintro i (rfl | rfl | rfl) <;> refine congrArg Host.Outcome.next ?_
  · rw [if_neg (by simp [hf.2]), if_pos hout]
  · rw [if_neg (by simp [hf.2]), if_pos hout]
  · rw [if_pos hout]

/-- Settles O26: `tdef` and `tset` by what one change of the entry and one write of its state word leave, `tqry` as a scalar
result. -/
theorem tileTableResults : Obligations.TileTableResults := by
  unfold Obligations.TileTableResults
  intro s h a b d sel e he
  subst he
  refine ⟨fun hh htx => ⟨fun hatt hp hst htask ha hb hres hety hrow hspan => ?_, fun hatt hp hx hf => ?_,
    fun hatt hp hf hx => ?_, exec_tqry_of_noAttempt hh htx d sel⟩, fun hh hf i hi => ?_⟩
  · exact exec_tdef_of_empty hh htx hatt hp hst htask (decide_eq_true ⟨ha, hb⟩)
      (decide_eq_true ⟨hres, hety, hrow, hspan⟩)
  · refine ⟨_, exec_tset_of_allowed hh htx hp (by omega) ?_ hf, State.setTo_done hatt _ (by omega)⟩
    rcases hx with hx | ⟨hx, hst⟩ | ⟨hx, hst⟩ <;> simp [tsetAllows, *]
  · refine ⟨_, exec_tset_of_allowed hh htx hp (by omega) (by rw [hx]; rfl) hf, ?_⟩
    rw [hx]
    by_cases hi : (s.tileAt h.toNat).inFlight = 0
    · obtain ⟨hframe, hfr, htile⟩ := State.setTo_zero_of_idle hatt hp hf hi
      exact ⟨hframe, hfr, fun _ => htile, fun hn => absurd hi hn⟩
    · obtain ⟨hframe, hfr, htile⟩ := State.setTo_zero_of_inFlight hatt hi
      exact ⟨hframe, hfr, fun hz => absurd hz hi, fun _ => htile⟩
  · exact ⟨_, exec_tile_of_outside hh hf a b d sel i hi, s.trap_trapped _ _ _ _ hf⟩

end Sys2Proof.Machine
end

section
/-! The scratchpad lines that an operator holds on a core, gained by `pin` and released by `unpin` (R189, R190). -/

namespace Sys2Proof.Machine

/-! ## Bytes dropped from memory -/

/-- A table cut to the keys of a test keeps the rows of those keys alone. -/
theorem findAt_filter {α : Type} (p : Nat → Bool) (t : Tab α) (k : Nat) :
    findAt (t.filter fun x => p x.1) k = if p k then findAt t k else none := by
  induction t with
  | nil => simp [findAt]
  | cons x r ih =>
    obtain ⟨j, v⟩ := x
    by_cases hj : p j = true
    · by_cases hk : j = k
      · simp [findAt_cons, ← hk, hj]
      · simp [findAt_cons, hk, hj, ih]
    · by_cases hk : j = k
      · subst hk
        simp [hj, ih]
      · simp [findAt_cons, hk, hj, ih]

/-- The bytes from one number up to another are no longer listed; no other byte and no key id has changed. -/
structure Memory.Dropped (m m' : Memory) (lo hi : Nat) : Prop where
  keys : m'.keys = m.keys
  epoch : m'.epoch = m.epoch
  gone : ∀ k, lo ≤ k → k < hi → findAt m'.bytes k = none
  kept : ∀ k, k < lo ∨ hi ≤ k → findAt m'.bytes k = findAt m.bytes k

theorem Memory.Dropped.refl (m : Memory) (lo : Nat) : m.Dropped m lo lo :=
  ⟨rfl, rfl, fun _ _ _ => by omega, fun _ _ => rfl⟩

theorem Memory.Dropped.trans {m m' m'' : Memory} {lo mid hi : Nat} (h : m.Dropped m' lo mid) (g : m'.Dropped m'' mid hi)
    (hlo : lo ≤ mid) (hhi : mid ≤ hi) : m.Dropped m'' lo hi := by
  refine ⟨g.keys.trans h.keys, g.epoch.trans h.epoch, fun k hk hk' => ?_, fun k hk => ?_⟩
  · by_cases hm : mid ≤ k
    · exact g.gone k hm hk'
    · exact (g.kept k (by omega)).trans (h.gone k hk (by omega))
  · exact (g.kept k (by omega)).trans (h.kept k (by omega))

/-- Lines dropped take with them the bytes from the first line up to the one after the last. -/
theorem Memory.dropLines_dropped (m : Memory) (oper core first n : Nat) :
    m.Dropped (m.dropLines oper core first n) (scratchKey oper core (512 * first))
      (scratchKey oper core (512 * (first + n))) := by
  have hhi : scratchKey oper core (512 * (first + n)) = scratchKey oper core (512 * first) + 512 * n := by
    simp only [scratchKey]
    omega
  rw [hhi]
  generalize hlo : scratchKey oper core (512 * first) = lo
  have hfind : ∀ k, findAt (m.dropLines oper core first n).bytes k
      = if (!(decide (lo ≤ k) && decide (k < lo + 512 * n))) = true then findAt m.bytes k else none := fun k => by
    rw [← hlo]
    exact findAt_filter (fun j => !(decide (_ ≤ j) && decide (j < _))) m.bytes k
  refine ⟨rfl, rfl, fun k hk hk' => ?_, fun k hk => ?_⟩
  · rw [hfind, if_neg (by simp [hk, hk'])]
  · rw [hfind, if_pos (by simp; omega)]

/-- A byte outside those dropped reads as it did. -/
theorem Memory.Dropped.readByte_kept {m m' : Memory} {lo hi : Nat} (h : m.Dropped m' lo hi) {p : Place}
    (hp : p.key < lo ∨ hi ≤ p.key) : m'.readByte p = m.readByte p := by
  rw [Memory.readByte, Memory.readByte, h.kept _ hp, h.keys, h.epoch]

/-- A scratchpad byte that was dropped reads as zero (R188). -/
theorem Memory.Dropped.readByte_scratch {m m' : Memory} {lo hi : Nat} (h : m.Dropped m' lo hi) {oper core off k : Nat}
    (hlo : lo ≤ scratchKey oper core off) (hhi : scratchKey oper core off < hi) :
    m'.readByte (plainPlace (scratchKey oper core off) k) = 0 := by
  have hlist : unlisted (scratchKey oper core off) = some 0 := if_pos (by rw [scratchKey]; omega)
  simp only [Memory.readByte, plainPlace, h.gone _ hlo hhi, hlist, Option.getD_some]

/-! ## The lines of a core -/

/-- The lines that an operator holds on a core are now `n`, those from `lo` up to `hi` hold nothing, and nothing else differs. -/
structure State.LinesSet (s t : State) (oper core lo hi n : Nat) : Prop where
  frame : t = { s with seats := t.seats, mem := t.mem }
  seat : t.seatOf oper core = { s.seatOf oper core with lines := n }
  mem : s.mem.Dropped t.mem (scratchKey oper core (512 * lo)) (scratchKey oper core (512 * hi))

/-- The count of lines set and some lines dropped. -/
theorem State.linesSet_dropLines (s : State) (oper core first k n : Nat) :
    s.LinesSet { s.setSeatOf oper core { s.seatOf oper core with lines := n } with
      mem := (s.setSeatOf oper core { s.seatOf oper core with lines := n }).mem.dropLines oper core first k }
      oper core first (first + k) n :=
  ⟨rfl, State.seatOf_setSeatOf s oper core _, s.mem.dropLines_dropped oper core first k⟩

/-- Lines set one after another, each span where the one before it ended. -/
theorem State.LinesSet.trans {s t u : State} {oper core lo mid hi n n' : Nat} (h : s.LinesSet t oper core lo mid n)
    (g : t.LinesSet u oper core mid hi n') (hlo : lo ≤ mid) (hhi : mid ≤ hi) : s.LinesSet u oper core lo hi n' := by
  refine ⟨g.frame.trans (h.frame ▸ rfl), by rw [g.seat, h.seat], h.mem.trans g.mem ?_ ?_⟩ <;> simp only [scratchKey] <;> omega

/-- The sets of the next line of an operator on a core have no room for a pinned line (R189). -/
def State.PinFull (s : State) (oper core : Nat) : Prop :=
  12 ≤ s.pinnedWays core (((s.seatOf oper core).lines + 32 * (s.seatOf oper core).slot) % 256)
    ∨ s.l1Ways core ≤ s.pinnedWays core (((s.seatOf oper core).lines + 32 * (s.seatOf oper core).slot) % 256)
      + s.specWays core (((s.seatOf oper core).lines + 32 * (s.seatOf oper core).slot) % 256) []

/-- What the loop of `pin` comes to: so many lines gained after those held, and either all that it may gain or no room for
another (R189). -/
theorem State.pinLoop_linesSet (s : State) (oper core fuel got : Nat) :
    ∃ n ≤ fuel, (s.pinLoop oper core fuel got).2 = got + n
      ∧ s.LinesSet (s.pinLoop oper core fuel got).1 oper core (s.seatOf oper core).lines ((s.seatOf oper core).lines + n)
          ((s.seatOf oper core).lines + n)
      ∧ (n = fuel ∨ (s.pinLoop oper core fuel got).1.PinFull oper core) := by
  have hnone : s.LinesSet s oper core (s.seatOf oper core).lines ((s.seatOf oper core).lines + 0)
      ((s.seatOf oper core).lines + 0) := ⟨rfl, rfl, .refl _ _⟩
  induction fuel generalizing s got with
  | zero => exact ⟨0, le_rfl, rfl, hnone, .inl rfl⟩
  | succ fuel ih =>
    rw [State.pinLoop]
    dsimp only
    split
    · next hfull => exact ⟨0, Nat.zero_le _, rfl, hnone, .inr hfull⟩
    · have hstep := s.linesSet_dropLines oper core (s.seatOf oper core).lines 1 ((s.seatOf oper core).lines + 1)
      generalize ({ s.setSeatOf oper core { s.seatOf oper core with lines := (s.seatOf oper core).lines + 1 } with
        mem := _ } : State) = t at hstep ⊢
      obtain ⟨n, hn, hgot, hset, hend⟩ := ih t (got + 1) ⟨rfl, rfl, .refl _ _⟩
      have hlines : (t.seatOf oper core).lines = (s.seatOf oper core).lines + 1 := by rw [hstep.seat]
      rw [hlines, Nat.add_assoc, Nat.add_comm 1 n] at hset
      refine ⟨n + 1, by omega, by omega, hstep.trans hset (by omega) (by omega), hend.imp_left (by omega)⟩

/-- The count of lines given after they were set. -/
theorem State.LinesSet.setS_done {s t : State} {lo hi n : Nat} (h : s.LinesSet t s.tk.oper s.cur.core lo hi n) (d : BitVec 6)
    (x : Word) : ∃ u, u = (t.setS d x).advance ∧ u = { s with seats := u.seats, mem := u.mem, frags := u.frags }
      ∧ s.fr.OnlyScalar u.fr d ∧ u.getS d = (if d = 0 then 0 else x) ∧ u.fr.pc = s.fr.pc + 4
      ∧ u.seat = { s.seat with lines := n } ∧ u.mem = t.mem := by
  obtain ⟨hframe, hseat, -⟩ := h
  have hfr : t.fr = s.fr := by rw [hframe]; rfl
  obtain ⟨⟨hu, -⟩, hd, hval, hpc⟩ := t.setS_done d x
  rw [hfr] at hd hpc
  refine ⟨_, rfl, hu.trans (by rw [hframe]; rfl), hd, hval, hpc, ?_, by rw [hu]⟩
  have hs : (t.setS d x).advance.seat = t.seatOf s.tk.oper s.cur.core := by rw [hu, hframe]; rfl
  exact hs.trans hseat

/-- What `pin` gives in s[d] leaves the room for another line as it was. -/
theorem State.pinFull_setS_advance (t : State) (oper core : Nat) (d : BitVec 6) (x : Word) :
    (t.setS d x).advance.PinFull oper core ↔ t.PinFull oper core := Iff.rfl

/-- The lines that a slot's `unpin` releases: those asked for, down to the floor (R190). -/
def State.unpinned (s : State) (a : BitVec 6) : Nat := min (s.getS a).toNat (s.seat.lines - s.seat.floor)

/-- `pin` outside an attempt gains what its loop comes to, and gives the count (R189). -/
theorem exec_pin_of_noAttempt {s : State} (h : s.inTx = false) (d a : BitVec 6) : exec (.pin d a) s
    = .next ((s.pinLoop s.tk.oper s.cur.core (min (s.getS a).toNat 4096) 0).1.setS d
        (BitVec.ofNat 64 (s.pinLoop s.tk.oper s.cur.core (min (s.getS a).toNat 4096) 0).2)).advance :=
  congrArg Host.Outcome.next (if_neg (by simp [h]))

/-- `unpin` outside an attempt, with no access on its way, drops one span of lines and gives the count (R190). -/
theorem exec_unpin_of_idle {s : State} (h : s.inTx = false) (hacc : s.accesses = []) (d a : BitVec 6) :
    ∃ t, exec (.unpin d a) s = .next (t.setS d (BitVec.ofNat 64 (s.unpinned a))).advance
      ∧ s.LinesSet t s.tk.oper s.cur.core (s.seat.lines - s.unpinned a) s.seat.lines (s.seat.lines - s.unpinned a) := by
  have hspan : s.seat.lines - s.unpinned a + s.unpinned a = s.seat.lines := by
    unfold State.unpinned
    omega
  have hset := s.linesSet_dropLines s.tk.oper s.cur.core (s.seat.lines - s.unpinned a) (s.unpinned a)
    (s.seat.lines - s.unpinned a)
  rw [hspan] at hset
  refine ⟨_, congrArg Host.Outcome.next ?_, hset⟩
  have hland : s.landGroups s.tk.oper s.cur.core (s.seat.lines - s.unpinned a) = s := by
    simp [State.landGroups, State.settle, hacc]
  unfold State.unpinned at hland ⊢
  rw [if_neg (by simp [h]), hland]
  rfl

/-- Settles O25: `pin` by what its loop comes to, `unpin` as one span of lines dropped. -/
theorem scratchpadLineResults : Obligations.ScratchpadLineResults := by
  unfold Obligations.ScratchpadLineResults
  intro s d a htx
  constructor
  · obtain ⟨n, hn, hgot, hset, hend⟩ := s.pinLoop_linesSet s.tk.oper s.cur.core (min (s.getS a).toNat 4096) 0
    obtain ⟨u, hu, hframe, hd, hval, hpc, hseat, hmem⟩ := hset.setS_done d (BitVec.ofNat 64 n)
    rw [Nat.zero_add] at hgot
    refine ⟨u, n, by rw [exec_pin_of_noAttempt htx, hgot, hu], by omega, by omega, hframe, hd, hval, hpc, hseat, ?_,
      fun off k hlo hhi => ?_, fun p hp => ?_⟩
    · have hfull := State.pinFull_setS_advance (s.pinLoop s.tk.oper s.cur.core (min (s.getS a).toNat 4096) 0).1 s.tk.oper
        s.cur.core d (BitVec.ofNat 64 n)
      rw [← hu] at hfull
      have hs : u.seat = u.seatOf s.tk.oper s.cur.core := by rw [hframe]; rfl
      have hways : u.l1Ways s.cur.core = s.l1Ways s.cur.core := by rw [hframe]; rfl
      rw [← hfull, State.PinFull, ← hs, hways] at hend
      exact hend
    · rw [hmem]
      refine hset.mem.readByte_scratch ?_ ?_ <;> simp only [scratchKey] <;> unfold State.seat at * <;> omega
    · rw [hmem]
      exact hset.mem.readByte_kept hp
  · intro hacc
    obtain ⟨t, ht, hset⟩ := exec_unpin_of_idle htx hacc d a
    obtain ⟨u, hu, hframe, hd, hval, hpc, hseat, hmem⟩ := hset.setS_done d (BitVec.ofNat 64 (s.unpinned a))
    refine ⟨u, s.unpinned a, by rw [ht, hu], rfl, hframe, hd, hval, hpc, hseat, fun p hp => ?_⟩
    rw [hmem]
    exact hset.mem.readByte_kept hp

end Sys2Proof.Machine
end

section
/-! Addresses of loads, stores and atomics that are not aligned to their size, and those whose translation fails (R176, R181,
R201). -/

namespace Sys2Proof.Machine

/-! ## Alignment -/

/-- The instruction raises MISALIGN at an address of a lane. -/
def State.Misaligns (s : State) (i : Instr) (a : Word) (l : Nat) : Prop :=
  ∃ t, exec i s = .next t ∧ s.Trapped t 0x22 0 0 s.fr.pc a (s.tinfoWord l)

/-- Outside a trap and an attempt MISALIGN is entered at once (R143). -/
theorem State.misaligns_of_trap {s : State} (h : s.TrapFree) {i : Instr} {a : Word} {l : Nat}
    (he : exec i s = .next (s.trapMisaligned a l)) : s.Misaligns i a l := ⟨_, he, s.trap_trapped _ _ _ _ h⟩

/-- One access at an address that is not aligned (R176). -/
theorem State.oneAccess_of_misaligned (s : State) {ea : Word} {n : Nat} (need : Need) (make : Place → AccessOp)
    (h : ea.toNat % n ≠ 0) : s.oneAccess ea n need make = s.trapMisaligned ea 0 := if_pos (by simp [aligned, h])

/-- A scalar atomic at an address that is not aligned (R185). -/
theorem State.scalarAtomic_of_misaligned (s : State) (op : AtomicOp) (ret : Bool) (d : BitVec 6) {a : BitVec 6} {n : Nat}
    (h : (s.getS a).toNat % n ≠ 0) : s.scalarAtomic op ret d a n = s.trapMisaligned (s.getS a) 0 :=
  if_pos (by simp [aligned, h])

/-- Guarded lanes are listed in ascending order. -/
theorem State.pairwise_guarded (s : State) : s.guarded.Pairwise (· < ·) := List.pairwise_lt_range.filter _

section MisalignedLane

variable {s : State} {b : BitVec 6} {x : BitVec 7} {l : Nat} (hl : l ∈ s.guarded) (ha : (s.laneAddr b x l).toNat % 4 ≠ 0)
  (hlow : ∀ k ∈ s.guarded, k < l → (s.laneAddr b x k).toNat % 4 = 0)

include hl ha hlow

/-- The lane that MISALIGN names is the lowest guarded one whose address is not aligned (R176). -/
theorem State.misalignedLane_eq_some : s.misalignedLane s.guarded b x = some l := by
  obtain ⟨before, after, hsplit⟩ := List.append_of_mem hl
  refine List.find?_eq_some_iff_append.2 ⟨by simp [aligned, ha], before, after, hsplit, fun k hk => ?_⟩
  have hlt : k < l :=
    (List.pairwise_append.1 (hsplit ▸ s.pairwise_guarded)).2.2 k hk l List.mem_cons_self
  have hmem : k ∈ s.guarded := hsplit ▸ List.mem_append_left _ hk
  simp [aligned, hlow k hmem hlt]

/-- Accesses lane by lane with a guarded lane whose address is not aligned (R180, R183). -/
theorem State.laneAccesses_of_misaligned (need : Need) (refuse : Place × Target → Option (Nat × Nat))
    (make : Nat → Place → AccessOp) :
    s.laneAccesses b x need refuse make = s.trapMisaligned (s.laneAddr b x l) l := by
  have hsome : s.guarded.isEmpty = false := List.isEmpty_eq_false_iff.2 (List.ne_nil_of_mem hl)
  simp only [State.laneAccesses, hsome, Bool.false_eq_true, if_false, State.misalignedLane_eq_some hl ha hlow]

end MisalignedLane

/-! ## Translation -/

/-- The record of an address of the executing fragment whose translation fails (R201). -/
def State.addressRecord (s : State) (cause detail : Nat) (need : Need) (va : Word) : FaultRecord :=
  { s.waveRecord s.cur cause detail need.code va with page := s.pageOf s.cur.core s.ctxId va }

/-- A fragment suspended on a record leaves every other fragment as it was. -/
theorem State.findAt_frags_suspendOn (s : State) (f : FragId) (r : FaultRecord) {k : Nat} (h : k ≠ f.key) :
    findAt (s.suspendOn f r).frags k = findAt s.frags k := by
  have hpost : ∀ r : FaultRecord, (s.postRecord r).1.frags = s.frags := fun r => by
    unfold State.postRecord
    split <;> rfl
  exact (findAt_putAt_ne _ _ h).trans (congrArg (findAt · k) (hpost _))

/-- The executing fragment waits at the instruction on a record of the context, access kind and page of an address that failed,
with its cause and detail unless it joins one that is there; no register and no byte of memory has changed. -/
def State.WaitsOnFault (s t : State) (cause detail : Nat) (need : Need) (va : Word) : Prop :=
  ∃ r, r ∈ t.records ∧ s.cur ∈ r.suspended ∧ r.ctx = s.ctxId ∧ r.access = need.code
    ∧ r.page = s.pageOf s.cur.core s.ctxId va
    ∧ ((∀ x ∈ s.records, x.merges { s.addressRecord cause detail need va with suspended := [s.cur] } = false) →
      r.cause = cause ∧ r.detail = detail ∧ r.va = va)
    ∧ t = { s with records := t.records, frags := t.frags } ∧ t.fr = { s.fr with status := .suspended r.id }
    ∧ ∀ k, k ≠ s.cur.key → findAt t.frags k = findAt s.frags k

section Fails

variable {s : State} {va : Word} {need : Need} {cause detail : Nat} (hx : s.xlate va need = .error (cause, detail))

include hx

/-- A fragment suspended on the record of its failing address: the record is one of its own, or one of the same context, access
kind and page (R201). -/
theorem State.suspendOn_waits :
    s.WaitsOnFault (s.suspendOn s.cur (s.addressRecord cause detail need va)) cause detail need va := by
  have hrows := fun k => s.findAt_frags_suspendOn s.cur (s.addressRecord cause detail need va) (k := k)
  obtain ⟨t, r, ht, hr, hframe, hfr, hwhich⟩ := s.suspendOn_cur (s.addressRecord cause detail need va)
  rw [ht] at hrows ⊢
  obtain ⟨x, hxs, hmerges, rfl⟩ | ⟨m, posted, rfl⟩ := hwhich
  · obtain ⟨hctx, hacc, hpage⟩ := FaultRecord.same_of_merges hmerges (State.xlate_error hx) rfl
    obtain ⟨jctx, jacc, jpage, jsus⟩ := x.join_same { s.addressRecord cause detail need va with suspended := [s.cur] }
    refine ⟨_, hr, by simp [jsus], jctx.trans hctx, jacc.trans hacc, jpage.trans hpage, fun hno => ?_, hframe, hfr, hrows⟩
    exact absurd hmerges (ne_true_of_eq_false (hno x hxs))
  · exact ⟨_, hr, List.mem_singleton_self _, rfl, rfl, rfl, fun _ => ⟨rfl, rfl, rfl⟩, hframe, hfr, hrows⟩

variable (hin : s.inTx = false)

include hin

/-- Outside an attempt one address that fails suspends the executing fragment on its record (R181). -/
theorem State.xlateWith_of_error (refuse : Place × Target → Option (Nat × Nat)) :
    s.xlateWith refuse [va] need = .error (s.suspendOn s.cur (s.addressRecord cause detail need va)) := by
  have hor : s.xlateOr refuse va need = .error (cause, detail) := by rw [State.xlateOr, hx]
  simp [State.xlateWith, hor, State.suspendAll, hin, onePerPage, State.addressRecord]

/-- One access at an aligned address that fails (R181). -/
theorem State.oneAccess_waits {n : Nat} (make : Place → AccessOp) (ha : va.toNat % n = 0) :
    s.WaitsOnFault (s.oneAccess va n need make) cause detail need va := by
  rw [State.oneAccess, if_neg (by simp [aligned, ha]), State.xlateAll, State.xlateWith_of_error hx hin]
  exact State.suspendOn_waits hx

end Fails

/-- A scalar atomic at an aligned address that fails (R181, R185). -/
theorem State.scalarAtomic_waits {s : State} {a : BitVec 6} {cause detail n : Nat}
    (hx : s.xlate (s.getS a) .atomic = .error (cause, detail)) (hin : s.inTx = false) (op : AtomicOp) (ret : Bool)
    (d : BitVec 6) (ha : (s.getS a).toNat % n = 0) :
    s.WaitsOnFault (s.scalarAtomic op ret d a n) cause detail .atomic (s.getS a) := by
  rw [State.scalarAtomic, if_neg (by simp [aligned, ha]), State.xlateWith_of_error hx hin]
  exact State.suspendOn_waits hx

/-! ## The statement -/

section Misaligned

variable {s : State} (hf : s.TrapFree) {b : BitVec 6}

include hf

/-- Scalar loads and stores (R179). -/
theorem misaligns_scalar {imm : BitVec 12} (d : BitVec 6) :
    ((s.baseAddr b imm 8).toNat % 8 ≠ 0 → ∀ i ∈ [Instr.sld d b imm, .sst d b imm], s.Misaligns i (s.baseAddr b imm 8) 0)
    ∧ ((s.baseAddr b imm 4).toNat % 4 ≠ 0 →
      ∀ i ∈ [Instr.sldw d b imm, .sstw d b imm], s.Misaligns i (s.baseAddr b imm 4) 0) := by
  simp only [List.mem_cons, List.not_mem_nil, or_false]
  constructor <;> rintro ha i (rfl | rfl) <;>
    exact State.misaligns_of_trap hf (congrArg Host.Outcome.next (s.oneAccess_of_misaligned _ _ ha))

/-- Loads and stores of a sector, where a lane is guarded (R178). -/
theorem misaligns_sector {imm : BitVec 12} {v : BitVec 7} (hv : s.HoldsRegs [v]) (hg : s.guarded ≠ [])
    (ha : (s.baseAddr b imm 128).toNat % 128 ≠ 0) :
    ∀ i ∈ [Instr.vld v b imm, .vst v b imm], s.Misaligns i (s.baseAddr b imm 128) 0 := by
  have hsome : ¬ s.guarded.isEmpty = true := by simpa using hg
  simp only [List.mem_cons, List.not_mem_nil, or_false]
  rintro i (rfl | rfl) <;> refine State.misaligns_of_trap hf (congrArg Host.Outcome.next ?_) <;>
    rw [s.withRegs_of_holds _ _ hv, if_neg hsome, s.oneAccess_of_misaligned _ _ ha]

/-- Accesses lane by lane (R180, R183). -/
theorem misaligns_lanes {v x : BitVec 7} {l : Nat} (hv : s.HoldsRegs [v, x]) (hl : l ∈ s.guarded)
    (ha : (s.laneAddr b x l).toNat % 4 ≠ 0) (hlow : ∀ k ∈ s.guarded, k < l → (s.laneAddr b x k).toNat % 4 = 0) :
    ∀ i ∈ [Instr.vldx v b x, .vstx v b x, .aadd v b x, .axchg v b x, .afadd v b x, .aaddN v b x],
      s.Misaligns i (s.laneAddr b x l) l := by
  have hlanes := fun need refuse make => (s.withRegs_of_holds [v, x] _ hv).trans
    (State.laneAccesses_of_misaligned hl ha hlow need refuse make)
  simp only [List.mem_cons, List.not_mem_nil, or_false]
  rintro i (rfl | rfl | rfl | rfl | rfl | rfl) <;>
    exact State.misaligns_of_trap hf (congrArg Host.Outcome.next (hlanes _ _ _))

/-- Scalar atomics (R185). -/
theorem misaligns_scalarAtomic {w : BitVec 1} (d : BitVec 6) (ha : (s.getS b).toNat % (if w = 0 then 8 else 4) ≠ 0) :
    ∀ i ∈ [Instr.aaddScalar d b w, .acasScalar d b w, .axchgNScalar d b w], s.Misaligns i (s.getS b) 0 := by
  simp only [List.mem_cons, List.not_mem_nil, or_false]
  rintro i (rfl | rfl | rfl) <;>
    exact State.misaligns_of_trap hf (congrArg Host.Outcome.next (s.scalarAtomic_of_misaligned _ _ d ha))

end Misaligned

/-- Settles O21: MISALIGN by the check that each kind of access begins with, the suspension by what one address that fails
leaves. -/
theorem addressChecks : Obligations.AddressChecks := by
  unfold Obligations.AddressChecks
  refine ⟨fun s d b v x imm w l hf => ⟨(misaligns_scalar hf d).1, (misaligns_scalar hf d).2, misaligns_sector hf,
    misaligns_lanes hf, misaligns_scalarAtomic hf d⟩, fun s d b imm ea i need cause detail hi hin ha hx => ?_⟩
  have hwait : ∃ t, exec i s = .next t ∧ s.WaitsOnFault t cause detail need ea := by
    simp only [List.mem_cons, Prod.mk.injEq, List.not_mem_nil, or_false] at hi
    rcases hi with ⟨rfl, rfl, rfl⟩ | ⟨rfl, rfl, rfl⟩ | ⟨rfl, rfl, rfl⟩ | ⟨rfl, rfl, rfl⟩
    · exact ⟨_, rfl, State.oneAccess_waits hx hin _ ha⟩
    · exact ⟨_, rfl, State.oneAccess_waits hx hin _ ha⟩
    · exact ⟨_, rfl, State.scalarAtomic_waits hx hin .add true d ha⟩
    · exact ⟨_, rfl, State.scalarAtomic_waits hx hin .add false d ha⟩
  obtain ⟨t, ht, r, hr⟩ := hwait
  exact ⟨t, r, ht, hr⟩

end Sys2Proof.Machine
end

section
/-! Opening an attempt and its alternatives, and the commit of what it wrote (R205 to R212, R228). -/

namespace Sys2Proof.Machine

/-! ## The attempt of the executing fragment -/

section Own

variable {s : State} {a : Attempt} (hx : s.wv.tx = some a) (ho : a.owner = s.cur.frag)

include hx ho

/-- The fragment that owns its wave's attempt is inside one. -/
theorem State.inTx_of_own : s.inTx = true := by simp [State.inTx, hx, ho]

/-- The attempt of the fragment that owns its wave's. -/
theorem State.attempt_of_own : s.attempt = some a := by rw [State.attempt, if_pos (s.inTx_of_own hx ho), hx]

end Own

/-- Outside an attempt the fragment has none. -/
theorem State.attempt_of_outside {s : State} (h : s.inTx = false) : s.attempt = none := by
  rw [State.attempt, if_neg (by simp [h])]

/-! ## Opening and nesting -/

/-- The executing fragment with an age stamp, taken now where it holds none (R207). -/
def State.stampedFrag (s : State) : Frag :=
  if s.fr.ageValid then s.fr else { s.fr with
    ageTick := BitVec.ofNat 64 (s.coreTick s.cur.core), ageMember := s.ageMember, ageValid := true, attempts := 0 }

/-- A fragment that holds an age stamp keeps it (R207). -/
theorem State.stampAge_of_held {s : State} (h : s.fr.ageValid = true) : s.stampAge = s := if_pos h

/-- A fragment without an age stamp takes one (R207). -/
theorem State.stampAge_of_none {s : State} (h : ¬ s.fr.ageValid = true) : s.stampAge = s.setFr s.stampedFrag := by
  rw [State.stampedFrag, if_neg h]
  exact if_neg h

/-- `tbeg` in a wave without an attempt opens one, whose checkpoint is the fragment as it stands (R206, R209). -/
theorem exec_tbeg_of_none {s : State} (h : s.wv.tx = none) (off : BitVec 25) : exec (.tbeg off) s
    = .next ((s.setWv { s.wv with tx := some (s.openAttempt (s.target off)) }).setFr
        { s.stampedFrag with pc := s.fr.pc + 4 }) := by
  show execTbeg off s = _
  by_cases hv : s.fr.ageValid = true
  · simp only [execTbeg, h, State.stampAge_of_held hv, State.stampedFrag, if_pos hv]
    rfl
  · simp only [execTbeg, h, State.stampAge_of_none hv, State.openAttempt, State.checkpointNow, State.fr_setFr, State.wv_setFr,
      State.setFr_setWv, State.advance, State.setFr_setFr, State.stampedFrag, if_neg hv]
    rfl

/-- `tbeg` inside the fragment's own attempt goes one level deeper (R205). -/
theorem exec_tbeg_of_own {s : State} {a : Attempt} (hx : s.wv.tx = some a) (ho : a.owner = s.cur.frag) (hd : a.depth < 4)
    (off : BitVec 25) : exec (.tbeg off) s
    = .next ((s.setWv { s.wv with tx := some { a with depth := a.depth + 1 } }).setFr { s.fr with pc := s.fr.pc + 4 }) := by
  show execTbeg off s = _
  simp only [execTbeg, hx, ho, ne_eq, not_true_eq_false, if_false, if_neg (Nat.not_le.2 hd)]
  rfl

/-- The alternative that an `orelse` opens: its target, with what the attempt has done so far (R206, R210). -/
def State.alternativeAt (s : State) (a : Attempt) (target : Word) : Alternative :=
  { target := target, checkpoint := s.checkpointNow, depth := a.depth, writes := a.writes.length, cmds := a.cmds.length,
    tokenOps := a.tokenOps.length, vlog := a.vlog.length, alog := a.alog.length }

/-- `orelse` with fewer than four alternatives open adds one (R210). -/
theorem exec_orelse_of_own {s : State} {a : Attempt} (hx : s.wv.tx = some a) (ho : a.owner = s.cur.frag)
    (hl : a.alts.length < 4) (off : BitVec 25) : exec (.orelse off) s
    = .next ((s.setWv { s.wv with tx := some { a with alts := s.alternativeAt a (s.target off) :: a.alts } }).setFr
        { s.fr with pc := s.fr.pc + 4 }) := by
  show execOrelse off s = _
  simp only [execOrelse, s.attempt_of_own hx ho, if_neg (Nat.not_le.2 hl)]
  rfl

/-- Outside an attempt the instructions that need one raise NEST (R208). -/
theorem exec_of_noAttempt {s : State} (h : s.inTx = false) (off : BitVec 25) (code a : BitVec 6) :
    ∀ i ∈ [Instr.orelse off, .tend, .tabrt code, .retry, .twatch a], exec i s = .next (s.trap causeNEST 0 0 0) := by
  have hnone := State.attempt_of_outside h
  simp only [List.mem_cons, List.not_mem_nil, or_false]
  rintro i (rfl | rfl | rfl | rfl | rfl)
  · show execOrelse off s = _
    rw [execOrelse, hnone]
  · show execTend s = _
    rw [execTend, hnone]
  · show execTabrt code s = _
    rw [execTabrt, if_neg (by simp [h])]
  · show execRetry s = _
    rw [execRetry, if_neg (by simp [h])]
  · show execTwatch a s = _
    simp only [execTwatch, h, Bool.not_false, if_true]

/-- Settles O27: `tbeg` by whether the wave has an attempt, `orelse` by the alternative it opens, and the rest by the trap. -/
theorem openingAnAttempt : Obligations.OpeningAnAttempt := by
  unfold Obligations.OpeningAnAttempt
  refine ⟨fun s off a => ⟨fun h => ?_, fun hx ho hd => exec_tbeg_of_own hx ho hd off, fun hx ho hl => ?_⟩,
    fun s off code a hf i hi => ?_⟩
  · refine ⟨_, s.openAttempt (s.target off), exec_tbeg_of_none h off, s.setWv_setFr_onlyWave _ _, State.wv_setWv .., rfl, rfl,
      s.target_eq off, rfl, rfl, rfl, rfl, rfl, rfl, rfl, rfl, rfl, rfl, rfl, ?_⟩
    rw [State.fr_setFr, State.stampedFrag]
    split <;> rfl
  · exact ⟨_, s.alternativeAt a (s.target off), exec_orelse_of_own hx ho hl off, rfl, s.target_eq off, rfl, rfl, rfl, rfl,
      rfl⟩
  · exact ⟨_, exec_of_noAttempt hf.2 off code a i hi, s.trap_trapped causeNEST 0 0 0 hf⟩

/-! ## The commit -/

/-- With no other attempt open nothing rivals an access of the executing fragment (R216). -/
theorem State.rivals_of_alone {s : State} (h : ∀ x ∈ s.attempts, x.1 = s.cur) (secs : List (Watch × Word)) (write : Bool) :
    s.rivals secs write = [] :=
  List.filterMap_eq_nil_iff.2 fun x hm => if_pos (h x hm)

/-- With no other attempt open a transactional access conflicts with nothing (R216). -/
theorem State.txConflict_of_alone {s : State} (h : ∀ x ∈ s.attempts, x.1 = s.cur) (secs : List (Watch × Word))
    (write : Bool) : s.txConflict secs write = (s, s.inTx) := by
  have hfind : secs.find? (fun _ => false) = none := List.find?_eq_none.2 fun _ _ => Bool.false_ne_true
  simp [State.txConflict, State.rivals_of_alone h, hfind]

/-- With no access on its way there is none to perform first. -/
theorem State.drain_of_idle {s : State} (h : s.accesses = []) (f : FragId) : s.drain f = s := by simp [State.drain, h]

section Commit

variable {s : State} {a : Attempt} (hx : s.wv.tx = some a) (ho : a.owner = s.cur.frag)

include hx ho

/-- `tend` of a nested attempt closes its level, with the alternatives opened there (R205, R210). -/
theorem exec_tend_of_nested (hd : 1 < a.depth) : exec .tend s = .next ((s.setWv { s.wv with tx := some { a with
      depth := a.depth - 1, alts := a.alts.filter (fun x => decide (x.depth ≠ a.depth)) } }).setFr
        { s.fr with pc := s.fr.pc + 4 }) := by
  show execTend s = _
  simp only [execTend, s.attempt_of_own hx ho, if_pos hd]
  rfl

/-- `tend` of the outermost attempt commits it, unless stack entries, packets or pushes stand in the way (R212). -/
theorem exec_tend_of_outermost (hd : a.depth = 1) (hs : ∀ e ∈ s.wv.entriesOf s.cur.frag, e.num < a.checkpoint.stackMark)
    (hacc : s.accesses = []) (hops : a.tokenOps = []) : exec .tend s = .next s.commit := by
  have hpushed : s.pushedInTx a = false := by
    simpa [State.pushedInTx] using hs
  have hpacket : s.packetOut = false := by simp [State.packetOut, hacc]
  show execTend s = _
  simp [execTend, s.attempt_of_own hx ho, hd, hpushed, hpacket, hops, State.tokenStop]

/-- A commit without commands and token operations that nothing rivals publishes what the attempt wrote (R212). -/
theorem State.commit_of_alone (hacc : s.accesses = []) (hcmds : a.cmds = []) (hops : a.tokenOps = [])
    (halone : ∀ x ∈ s.attempts, x.1 = s.cur) {u : State} (hu : (s.setWv { s.wv with tx := none }).publish a = u) :
    s.commit = u.setFr (u.fr.committed []) := by
  have hmoved : s.movedOn s = false := by simp [State.movedOn]
  simp only [State.commit, State.drain_of_idle hacc, hmoved, Bool.false_eq_true, if_false, s.attempt_of_own hx ho,
    State.txConflict_of_alone halone, s.inTx_of_own hx ho, if_true, hu, hops, hcmds, List.foldl_nil, List.length_nil,
    State.issueDue, State.fr_setFr]
  rfl

end Commit

/-- Bytes whose lines are all pinned are published as one store (R212). -/
theorem State.publish_of_pinned {s : State} {a : Attempt} (h : ∀ w ∈ a.writes, s.linePinned w.place.key = true) :
    s.publish a = s.storeBytes (some s.cur) (a.writes.filterMap (fun w => w.byte.map (fun b => (w.place, b)))) := by
  have hall : ∀ d ∈ a.writes.filterMap (fun w => w.byte.map (fun b => (w.place, b))), s.linePinned d.1.key = true := by
    intro d hd
    obtain ⟨w, hw, hb⟩ := List.mem_filterMap.1 hd
    obtain ⟨b, -, rfl⟩ := Option.map_eq_some_iff.1 hb
    exact h w hw
  rw [State.publish, if_pos (List.all_eq_true.2 hall), List.filter_eq_self.2 hall]

/-- Settles O28: a nested `tend` as a change of the attempt, the outermost by what its commit publishes. -/
theorem commitResults : Obligations.CommitResults := by
  unfold Obligations.CommitResults
  intro s a hx ho
  refine ⟨exec_tend_of_nested hx ho, fun hd hs hacc hcmds hops halone hnone hpin => ?_⟩
  have hpub := State.publish_of_pinned (s := s.setWv { s.wv with tx := none }) hpin
  obtain ⟨ns, hst⟩ := State.storeBytes_of_noAttempt _ hnone (some s.cur)
    (a.writes.filterMap (fun w => w.byte.map (fun b => (w.place, b))))
  refine ⟨_, exec_tend_of_outermost hx ho hd hs hacc hops, ?_⟩
  rw [State.commit_of_alone hx ho hacc hcmds hops halone (hpub.trans hst)]
  refine ⟨rfl, State.stored_of_mem _ _ _ rfl, State.wv_setWv s _, ?_⟩
  rw [State.fr_setFr]
  rfl

end Sys2Proof.Machine
end

section
/-! Abandoning an attempt, rolling it back to its newest alternative, and the wait that follows a `retry` (R206, R211, R213,
R221 to R225). -/

namespace Sys2Proof.Machine

/-! ## What an abandonment leaves -/

/-- A register that no entry of a log names is not touched by the roll-back of the log (R206). -/
theorem abandonVectors_of_notMem {fresh : Nat} {log : List (Nat × Vector Lane 32 × Vector Lane 32)}
    {v : Vector (Vector Lane 32) 128} {r : BitVec 7} (h : r.toNat ∉ log.map (·.1)) :
    (abandonVectors fresh log v)[r.toNat]'r.isLt = v[r.toNat]'r.isLt := by
  have hd : r.toNat ∉ distinct (log.map (·.1)) := fun hm => h ((mem_distinct_iff _ _).1 hm)
  rw [abandonVectors]
  generalize distinct (log.map (·.1)) = ds at hd
  induction ds generalizing v with
  | nil => rfl
  | cons d ds ih =>
    rw [List.mem_cons, not_or] at hd
    exact (ih hd.2).trans (Vector.getElem_setIfInBounds_ne r.isLt (Ne.symm hd.1))

/-- A wave whose attempt has been dropped: what the attempt wrote of its registers undone, its stack and its blocks as the
checkpoint has them (R206, R222). -/
def Wave.abandoned (w : Wave) (fresh : Nat) (a : Attempt) : Wave :=
  { w.unstack a.owner a.checkpoint with
    tx := none, rblk := a.checkpoint.rblk, v := abandonVectors fresh a.vlog w.v }

/-- A fragment whose attempt has been dropped, at the handler with a status, a code and two addresses (R222). -/
def Frag.abandoned (f : Frag) (a : Attempt) (status code : Nat) (addr1 addr2 : Word) : Frag :=
  { f.restore a.checkpoint a.handler with
    txStatus := status, txCode := if status = 4 then code else f.txCode, txAddr1 := addr1, txAddr2 := addr2,
    attempts := min 255 (f.attempts + 1), ageValid := f.ageValid && keepsAge status, stepDue := true }

/-- Of an attempt that has acquired no register blocks, an abandonment changes the wave, the fragment and the accumulators
alone (R206, R222). -/
theorem State.abandonHere_of_sameBlocks {s : State} {a : Attempt} (hx : s.wv.tx = some a)
    (hr : s.wv.rblk = a.checkpoint.rblk) (status code : Nat) (addr2 : Word) : s.abandonHere status code addr2
    = ({ s with accs := abandonAccs s.fresh a.alog s.accs, fresh := s.fresh + 1 }.setWv (s.wv.abandoned s.fresh a)).setFr
        (s.fr.abandoned a status code s.fr.pc addr2) := by
  have hb : s.wv.rblk - a.checkpoint.rblk = 0 := by rw [hr, Nat.sub_self]
  simp only [State.abandonHere, State.abandon, State.dropAttempt, State.wvOf_cur, hx, hb, State.returnBlocks, if_pos]
  rfl

/-- `tabrt` abandons the attempt with status 4 and its code (R213). -/
theorem exec_tabrt_of_own {s : State} {a : Attempt} (hx : s.wv.tx = some a) (ho : a.owner = s.cur.frag) (code : BitVec 6) :
    exec (.tabrt code) s = .next (s.abandonHere 4 code.toNat 0) := by
  show execTabrt code s = _
  rw [execTabrt, if_pos (s.inTx_of_own hx ho)]

/-! ## Rolling back to an alternative -/

/-- The attempt as it goes on in its newest alternative: what was done since that opened is cut off (R206, R211). -/
def Attempt.rolledBack (a : Attempt) (alt : Alternative) (rest : List Alternative) : Attempt :=
  { a with
    alts := rest, depth := alt.depth, writes := a.writes.take alt.writes, cmds := a.cmds.take alt.cmds,
    tokenOps := a.tokenOps.take alt.tokenOps }

/-- A roll-back over which no register blocks were acquired leaves memory and gives back nothing (R206, R211). -/
theorem State.rollBack_of_sameBlocks {s : State} {a : Attempt} {alt : Alternative} (hr : s.wv.rblk = alt.checkpoint.rblk)
    (rest : List Alternative) : ∃ t, s.rollBack a alt rest = t ∧ t.wv.tx = some (a.rolledBack alt rest)
      ∧ t.fr = s.fr.restore alt.checkpoint alt.target ∧ t.mem = s.mem := by
  have hb : s.wv.rblk - alt.checkpoint.rblk = 0 := by rw [hr, Nat.sub_self]
  refine ⟨_, rfl, ?_⟩
  simp only [State.rollBack, hb, State.returnBlocks, if_pos, State.wv_setFr, State.wv_setWv, State.fr_setFr]
  exact ⟨rfl, trivial, rfl⟩

section Retry

variable {s : State} {a : Attempt} (hx : s.wv.tx = some a) (ho : a.owner = s.cur.frag)

include hx ho

/-- `retry` inside an attempt (R211). -/
theorem exec_retry_of_own : exec .retry s = .next s.actRetry := by
  show execRetry s = _
  rw [execRetry, if_pos (s.inTx_of_own hx ho)]

/-- With an alternative open `retry` rolls back to it (R211). -/
theorem State.actRetry_of_alternative {alt : Alternative} {rest : List Alternative} (h : a.alts = alt :: rest) :
    s.actRetry = s.rollBack a alt rest := by
  simp only [State.actRetry, s.attempt_of_own hx ho, h]

/-- With no alternative and nothing read the attempt ends in the back-off (R211, R223). -/
theorem State.actRetry_of_noReads (h : a.alts = []) (hn : a.reads = []) : s.actRetry = (s.abandonHere 0 0 0).backOff true := by
  simp only [State.actRetry, s.attempt_of_own hx ho, h, hn, List.isEmpty_nil, if_true]

/-- With no alternative the attempt ends and its fragment is registered on what it read (R211, R223). -/
theorem State.actRetry_of_reads (h : a.alts = []) (hn : a.reads ≠ []) (hr : s.wv.rblk = a.checkpoint.rblk) :
    s.actRetry = (s.abandonHere 0 0 0).registerOn (a.reads.map (·.1)) true := by
  have he : ¬ a.reads.isEmpty = true := by simpa using hn
  simp only [State.actRetry, s.attempt_of_own hx ho, h, if_neg he, if_pos hr]

end Retry

/-! ## Room in the wake table -/

/-- The words that a fragment sleeps on. -/
def Frag.sleepWords (f : Frag) : List Watch :=
  match f.status with
  | .asleep ws _ _ => ws
  | _ => []

theorem Frag.sleepWords_of_asleep {f : Frag} {ws : List Watch} {handler : Bool} {since : Nat}
    (h : f.status = .asleep ws handler since) : f.sleepWords = ws := by rw [Frag.sleepWords, h]

/-- A fragment that watches no word sleeps on none. -/
theorem Frag.sleepWords_of_unwatching {f : Frag} (h : ∀ w, f.watches w = false) : f.sleepWords = [] := by
  unfold Frag.watches at h
  unfold Frag.sleepWords
  split
  · next ws _ _ heq => exact List.eq_nil_iff_forall_not_mem.2 fun w hw => by simpa [heq, hw] using h w
  · rfl

/-- A list that grows at each step of a fold by at most so much. -/
theorem length_foldl_le {α β : Type} {f : List β → α → List β} {g : α → Nat}
    (h : ∀ acc x, (f acc x).length ≤ acc.length + g x) (l : List α) (acc : List β) :
    (l.foldl f acc).length ≤ acc.length + (l.map g).sum := by
  induction l generalizing acc with
  | nil => exact Nat.le_refl _
  | cons x r ih =>
    have hstep := h acc x
    have hrest := ih (f acc x)
    rw [List.foldl_cons, List.map_cons, List.sum_cons]
    omega

/-- The entries of a core's wake table are no more than the words that the fragments sleep on (R224). -/
theorem State.length_watchedOn_le (s : State) (core : Nat) (keep : FragId → Bool) :
    (s.watchedOn core keep).length ≤ (s.frags.map (fun x => x.2.sleepWords.length)).sum := by
  refine (length_foldl_le (g := fun x => x.2.sleepWords.length) (fun acc x => ?_) _ []).trans ?_
  · split
    · next ws _ _ heq =>
      rw [Frag.sleepWords_of_asleep heq, List.length_append]
      exact Nat.add_le_add_left (List.length_filter_le _ _) _
    · exact Nat.le_add_right _ _
  · rw [List.length_nil, Nat.zero_add]
    exact List.Sublist.sum_le_sum (List.filter_sublist.map _) fun _ _ => Nat.zero_le _

/-- Where nobody else sleeps on a word and the executing fragment would on at most 1,024, its core's wake table has room
(R224). -/
theorem State.overflowOn_setFr {s : State} {f : Frag} (core : Nat) (hl : s.frags.length = 1)
    (hw : ∀ k x, findAt s.frags k = some x → k ≠ s.cur.key → ∀ w, x.watches w = false)
    (hf : f.sleepWords.length ≤ 1024) : (s.setFr f).overflowOn core = 0 := by
  have hsum : ((s.setFr f).frags.map (fun x => x.2.sleepWords.length)).sum = f.sleepWords.length := by
    obtain ⟨⟨k, x⟩, hone⟩ := List.length_eq_one_iff.1 hl
    rw [State.setFr, hone]
    by_cases hk : k = s.cur.key
    · simp [putAt, hk]
    · have hx : x.sleepWords = [] := Frag.sleepWords_of_unwatching (hw k x (by rw [hone, findAt_cons, if_pos rfl]) hk)
      by_cases hlt : s.cur.key < k <;> simp [putAt, hlt, hk, hx]
  have hle := (s.setFr f).length_watchedOn_le core (fun _ => true)
  exact Nat.sub_eq_zero_of_le (hle.trans (hsum ▸ hf))

/-- A registration that takes no further room of the wake table need not spill (R225). -/
theorem State.spillFails_of_le {s t : State} {f : FragId} (h : t.overflowOn f.core ≤ s.overflowOn f.core) :
    s.spillFails f t = none := by
  simp only [State.spillFails, h, if_true]

/-- A registration for which the wake table has room puts the fragment to sleep (R223, R224). -/
theorem State.registerOn_of_room {s : State} {words : List Watch} {handler : Bool}
    (h : (s.sleepOn words handler).overflowOn s.cur.core = 0) : s.registerOn words handler = s.sleepOn words handler := by
  have hfails : s.spillFails s.cur (s.sleepOn words handler) = none :=
    State.spillFails_of_le (h.trans_le (Nat.zero_le _))
  unfold State.registerOn
  dsimp only
  rw [hfails]

/-- Settles O29: `tabrt` by what an abandonment leaves, `retry` by its alternatives and by what the attempt has read. -/
theorem abandonmentAndRetryResults : Obligations.AbandonmentAndRetryResults := by
  unfold Obligations.AbandonmentAndRetryResults
  refine ⟨fun s code a hx ho hr => ?_, fun s a hx ho => ⟨fun alt rest hal hr => ?_, fun hal hr hn => ?_,
    fun hal hr hn hw hl hlen => ?_⟩⟩
  · refine ⟨_, exec_tabrt_of_own hx ho code, fun p => by rw [State.mem_abandonHere], ?_⟩
    rw [State.abandonHere_of_sameBlocks hx hr]
    simp only [State.wv_setFr, State.wv_setWv, State.fr_setFr, State.getV]
    refine ⟨rfl, rfl, rfl, rfl, rfl, rfl, rfl, rfl, rfl, rfl, ?_, rfl, fun r h => abandonVectors_of_notMem h, rfl⟩
    exact Bool.and_false _
  · obtain ⟨t, ht, htx, hfr, hmem⟩ := State.rollBack_of_sameBlocks (a := a) hr rest
    refine ⟨t, _, ?_, htx, rfl, rfl, rfl, rfl, rfl, rfl, rfl, rfl, ?_⟩
    · rw [exec_retry_of_own hx ho, State.actRetry_of_alternative hx ho hal, ht]
    · rw [hfr]
      exact ⟨rfl, rfl, rfl, rfl, rfl, rfl, fun p => by rw [hmem]⟩
  · refine ⟨_, exec_retry_of_own hx ho, ?_⟩
    rw [State.actRetry_of_noReads hx ho hal hn, State.abandonHere_of_sameBlocks hx hr, State.backOff]
    simp only [State.wv_setFr, State.wv_setWv, State.fr_setFr]
    exact ⟨rfl, rfl, rfl, rfl, fun _ => rfl⟩
  · refine ⟨_, exec_retry_of_own hx ho, ?_⟩
    rw [State.actRetry_of_reads hx ho hal hn hr, State.abandonHere_of_sameBlocks hx hr, State.registerOn_of_room,
      State.sleepOn]
    · simp only [State.wv_setFr, State.wv_setWv, State.fr_setFr]
      exact ⟨rfl, rfl, rfl, rfl, fun _ => rfl⟩
    · rw [State.sleepOn, State.setFr_setFr]
      refine State.overflowOn_setFr _ hl hw ?_
      show (a.reads.map (·.1)).length ≤ 1024
      rw [List.length_map]
      omega

end Sys2Proof.Machine
end

section
/-! What an attempt tells of itself, `twatch`, and the ends of sleep and back-off (R213, R223 to R225, R228, R369). -/

namespace Sys2Proof.Machine

/-! ## tstat and tdepth -/

/-- `tstat` by its selector (R213, R228). -/
theorem exec_tstat (s : State) (d : BitVec 6) : exec (.tstat d 0) s = s.putScalar d s.txstat
    ∧ exec (.tstat d 1) s = s.putScalar d s.fr.txAddr1 ∧ exec (.tstat d 2) s = s.putScalar d s.fr.txAddr2
    ∧ exec (.tstat d 3) s = s.putScalar d (if s.fr.ageValid then s.fr.ageTick else 0) := ⟨rfl, rfl, rfl, rfl⟩

/-- Outside an attempt `tdepth` reads 0 (R213). -/
theorem exec_tdepth_of_outside {s : State} (h : s.inTx = false) (d : BitVec 6) : exec (.tdepth d) s = s.putScalar d 0 := by
  show execTdepth d s = _
  rw [execTdepth, State.attempt_of_outside h]
  rfl

section Own

variable {s : State} {a : Attempt} (hx : s.wv.tx = some a) (ho : a.owner = s.cur.frag)

include hx ho

/-- Inside an attempt `tdepth` reads its depth and the number of its open alternatives (R213). -/
theorem exec_tdepth_of_own (d : BitVec 6) :
    exec (.tdepth d) s = s.putScalar d (BitVec.ofNat 64 (a.depth + 256 * a.alts.length)) := by
  show execTdepth d s = _
  rw [execTdepth, s.attempt_of_own hx ho]
  rfl

/-! ## twatch -/

/-- A word that the attempt has read is in its read set (R214). -/
theorem State.addRead_of_held {w : Watch} (va : Word) (h : ∃ y ∈ a.reads, y.1 = w) : s.addRead w va = (s, true) := by
  have hany : a.reads.any (fun r => r.1 == w) = true := by simpa [List.any_eq_true] using h
  simp only [State.addRead, s.attempt_of_own hx ho, hany, if_true]

/-- A word that the attempt has not read joins its read set where there is room (R214, R215). -/
theorem State.addRead_of_room {w : Watch} (va : Word) (h : ∀ y ∈ a.reads, y.1 ≠ w) (hr : a.reads.length < 64) :
    s.addRead w va = (s.setWv { s.wv with tx := some { a with reads := a.reads ++ [(w, va)] } }, true) := by
  have hany : ¬ a.reads.any (fun r => r.1 == w) = true := fun hc => by
    obtain ⟨y, hy, he⟩ := List.any_eq_true.1 hc
    exact h y hy (beq_iff_eq.1 he)
  simp only [State.addRead, s.attempt_of_own hx ho, if_neg hany, if_neg (Nat.not_le.2 hr)]
  rfl

/-- `twatch` of an address that may be watched, with no rival attempt, adds its sector to the read set (R213). -/
theorem exec_twatch_of_alone {r : BitVec 6} {p : Place} (hp : s.xlateAll [s.getS r] .read = .ok [(p, .here)])
    (hh : p.isHost = false) (hk : p.kind ≠ 1) (halone : ∀ y ∈ s.attempts, y.1 = s.cur) {t : State}
    (ht : s.addRead (.sector (sectorOf p.key)) (p.va &&& ~~~127) = (t, true)) : exec (.twatch r) s = .next t.advance := by
  have hin : s.inTx = true := s.inTx_of_own hx ho
  have hok : [(p, Target.here)].find? txForbidden = none := by simp [txForbidden, hh, hk]
  have hsec : sectorsOf [p] = [(.sector (sectorOf p.key), p.va &&& ~~~127)] := rfl
  show execTwatch r s = _
  simp only [execTwatch, hp, hok, List.map_cons, List.map_nil, hsec, State.txConflict_of_alone halone, hin, State.addReads, ht,
    Bool.not_true, Bool.false_eq_true, if_false, if_true]

end Own

/-! ## The end of a sleep or a back-off -/

/-- A fragment that waits for no allowance has no such wait to end (R369). -/
theorem State.endAllowWait_of_none {s : State} {f : FragId} (h : (s.frOf f).allowWait = none) : s.endAllowWait f = s := by
  simp only [State.endAllowWait, h]

/-- A fragment whose wait for an allowance ends, if it has one, differs in that wait alone (R369). -/
theorem State.frOf_endAllowWait (s : State) (f : FragId) :
    (s.endAllowWait f).frOf f = { s.frOf f with allowWait := none } := by
  unfold State.endAllowWait
  split
  · next h => rw [← h]
  · rw [State.frOf_setFrOf]

/-- The end of a fragment's wait for an allowance leaves every other fragment, and the notices. -/
theorem State.endAllowWait_frame (s : State) (f : FragId) : (s.endAllowWait f).notices = s.notices
    ∧ ∀ g : FragId, g.key ≠ f.key → (s.endAllowWait f).frOf g = s.frOf g := by
  unfold State.endAllowWait
  split
  · exact ⟨rfl, fun _ _ => rfl⟩
  · exact ⟨rfl, fun _ hg => getAt_putAt_ne _ _ _ hg⟩

/-- A fragment asleep is made ready (R223). -/
theorem State.frOf_wakeFrag_of_asleep {s : State} {f : FragId} {ws : List Watch} {handler : Bool} {since : Nat}
    (h : (s.frOf f).status = .asleep ws handler since) (why : Nat) : (s.wakeFrag f why).frOf f
      = { s.frOf f with status := .ready, wake := if handler then why else (s.frOf f).wake, allowWait := none } := by
  simp only [State.wakeFrag, h, State.frOf_setFrOf, State.frOf_endAllowWait]

/-- A fragment that is ready is not woken again. -/
theorem State.wakeFrag_of_ready {s : State} {f : FragId} (h : (s.frOf f).status = .ready) (why : Nat) :
    s.wakeFrag f why = s := by
  simp only [State.wakeFrag, h]

/-- Waking a fragment leaves every other fragment, and the notices. -/
theorem State.wakeFrag_frame (s : State) (f : FragId) (why : Nat) : (s.wakeFrag f why).notices = s.notices
    ∧ ∀ g : FragId, g.key ≠ f.key → (s.wakeFrag f why).frOf g = s.frOf g := by
  unfold State.wakeFrag
  dsimp only
  split
  · obtain ⟨hn, hg⟩ := s.endAllowWait_frame f
    exact ⟨hn, fun g h => (getAt_putAt_ne _ _ _ h).trans (hg g h)⟩
  · exact ⟨rfl, fun _ _ => rfl⟩

/-! ## Notices -/

/-- The fragment of a row is named by the row's number (R127). -/
theorem key_fragIdOf (k : Nat) : (fragIdOf k).key = k := by
  simp only [fragIdOf, FragId.key, FragId.waveKey]
  omega

/-- A fragment on a slot and an id of its core is the one that its row names. -/
theorem fragIdOf_key {f : FragId} (hw : f.wave < 64) (hf : f.frag < 8) : fragIdOf f.key = f := by
  obtain ⟨core, wave, frag⟩ := f
  simp only [fragIdOf, FragId.key, FragId.waveKey, FragId.mk.injEq] at *
  omega

/-- The fragments of a core that are registered on a word. -/
def State.sleepersOn (s : State) (core : Nat) (word : Watch) : List FragId :=
  (s.frags.filter (fun x => (fragIdOf x.1).core == core && x.2.watches word)).map (fun x => fragIdOf x.1)

/-- The fragments registered on a word are woken one after another (R223). -/
theorem State.wakeOn_eq (s : State) (core : Nat) (word : Watch) (early : List Nat) : s.wakeOn core word early
    = (s.sleepersOn core word).foldl (fun t g => t.wakeFrag g (if early.contains g.key then 2 else 1)) s := rfl

/-- Waking several fragments leaves the notices. -/
theorem State.notices_wakeOn (s : State) (core : Nat) (word : Watch) (early : List Nat) :
    (s.wakeOn core word early).notices = s.notices := by
  rw [State.wakeOn_eq]
  exact List.foldlRecOn (motive := fun t : State => t.notices = s.notices) _ _ rfl fun t ht _ _ =>
    (t.wakeFrag_frame _ _).1.trans ht

/-- Of several fragments that are woken one after another, each of its own row, one that sleeps is made ready (R223). -/
theorem State.frOf_foldl_wakeFrag {f : FragId} {ws : List Watch} {handler : Bool} {since : Nat} (why : FragId → Nat)
    {l : List FragId} (hl : ∀ g ∈ l, g.key = f.key → g = f) (hf : f ∈ l) {s : State}
    (h : (s.frOf f).status = .asleep ws handler since) : (l.foldl (fun t g => t.wakeFrag g (why g)) s).frOf f
      = { s.frOf f with status := .ready, wake := if handler then why f else (s.frOf f).wake, allowWait := none } := by
  have hready : ∀ (l : List FragId) (t : State), (∀ g ∈ l, g.key = f.key → g = f) → (t.frOf f).status = .ready →
      (l.foldl (fun t g => t.wakeFrag g (why g)) t).frOf f = t.frOf f := by
    intro l
    induction l with
    | nil => intro t _ _; rfl
    | cons g r ih =>
      intro t hl ht
      have hg : (t.wakeFrag g (why g)).frOf f = t.frOf f := by
        by_cases hk : g.key = f.key
        · rw [hl g List.mem_cons_self hk, State.wakeFrag_of_ready ht]
        · exact (t.wakeFrag_frame g _).2 f (Ne.symm hk)
      rw [List.foldl_cons, ih _ (fun x hx => hl x (List.mem_cons_of_mem _ hx)) (by rw [hg]; exact ht), hg]
  induction l generalizing s with
  | nil => cases hf
  | cons g r ih =>
    have hr : ∀ x ∈ r, x.key = f.key → x = f := fun x hx => hl x (List.mem_cons_of_mem _ hx)
    rw [List.foldl_cons]
    by_cases hk : g.key = f.key
    · obtain rfl : g = f := hl g List.mem_cons_self hk
      have hw := State.frOf_wakeFrag_of_asleep h (why g)
      rw [hready r _ hr (by rw [hw]), hw]
    · have hg := (s.wakeFrag_frame g (why g)).2 f (Ne.symm hk)
      have hmem : f ∈ r := (List.mem_cons.1 hf).resolve_left fun e => hk (e ▸ rfl)
      rw [ih hr hmem (by rw [hg]; exact h), hg]

/-- A fragment that sleeps on a word of its core is woken, for the reason that goes with its registration (R223). -/
theorem State.frOf_wakeOn {s : State} {core : Nat} {word : Watch} {f : FragId} {x : Frag} {ws : List Watch} {handler : Bool}
    {since : Nat} (hx : findAt s.frags f.key = some x) (hc : f.core = core) (hw : f.wave < 64) (hf : f.frag < 8)
    (hst : x.status = .asleep ws handler since) (hmem : word ∈ ws) (early : List Nat) :
    (s.wakeOn core word early).frOf f = { x with
      status := .ready, wake := if handler then (if early.contains f.key then 2 else 1) else x.wake, allowWait := none } := by
  have hfr : s.frOf f = x := by rw [State.frOf, getAt, hx]; rfl
  have hwatch : x.watches word = true := by simp [Frag.watches, hst, hmem]
  have hin : f ∈ s.sleepersOn core word := List.mem_map.2 ⟨(f.key, x), List.mem_filter.2 ⟨mem_of_findAt hx, by
    simp [fragIdOf_key hw hf, hc, hwatch]⟩, fragIdOf_key hw hf⟩
  have hnamed : ∀ g ∈ s.sleepersOn core word, g.key = f.key → g = f := by
    intro g hg hk
    obtain ⟨y, -, rfl⟩ := List.mem_map.1 hg
    rw [← fragIdOf_key hw hf, ← hk, key_fragIdOf]
  rw [State.wakeOn_eq, State.frOf_foldl_wakeFrag _ hnamed hin (hfr ▸ hst), hfr]

/-- The fragments that the notices of a word name as registered too late, of those due to a core. -/
def State.earlyOn (s : State) (core : Nat) (word : Watch) : List Nat :=
  (s.notices.filter (fun n => n.core == core && n.word == word)).flatMap (·.early)

/-- A fragment is named as registered too late exactly where a notice of the word names it. -/
theorem State.contains_earlyOn (s : State) (core : Nat) (word : Watch) (k : Nat) : (s.earlyOn core word).contains k
    = s.notices.any (fun n => n.core == core && n.word == word && n.early.contains k) := by
  rw [Bool.eq_iff_iff]
  simp [State.earlyOn, and_assoc]

/-- The state with the notices of a word taken by the core to which they are due. -/
def State.takeNotices (s : State) (core : Nat) (word : Watch) : State :=
  { s with notices := s.notices.filter (fun n => !(n.core == core && n.word == word)) }

/-- A spurious wake takes no notice (R223). -/
theorem exec_wakeNotice_spurious (core : Nat) (word : Watch) (s : State) :
    exec (.wakeNotice core word true) s = .next (s.wakeOn core word []) := rfl

/-- The notices of a word that are due to a core wake its sleepers (R223, R224). -/
theorem exec_wakeNotice_of_due {s : State} {core : Nat} {word : Watch}
    (h : s.notices.any (fun n => n.core == core && n.word == word) = true) : exec (.wakeNotice core word false) s
      = .next ((s.takeNotices core word).wakeOn core word (s.earlyOn core word)) := by
  show execWakeNotice core word false s = _
  simp only [execWakeNotice, h, Bool.false_eq_true, if_false, if_true]
  rfl

/-- Without a notice nobody is woken (R223). -/
theorem exec_wakeNotice_of_none {s : State} {core : Nat} {word : Watch}
    (h : s.notices.any (fun n => n.core == core && n.word == word) = false) :
    exec (.wakeNotice core word false) s = .next s := by
  show execWakeNotice core word false s = _
  simp only [execWakeNotice, h, Bool.false_eq_true, if_false]

/-- A back-off that is over makes its fragment ready (R223, R225). -/
theorem exec_wakeBackoffExpiry_of_over {s : State} {f : FragId} {c : Nat} {handler : Bool}
    (h : (s.frOf f).status = .backoff c handler) (hc : c ≤ s.cycle) : exec (.wakeBackoffExpiry f) s
      = .next ((s.endAllowWait f).setFrOf f { s.frOf f with
          status := .ready, wake := if handler then 3 else (s.frOf f).wake, allowWait := none }) := by
  show execWakeBackoffExpiry f s = _
  simp only [execWakeBackoffExpiry, h, if_pos hc, State.frOf_endAllowWait]

/-- Settles O30: `tstat` and `tdepth` as scalar results, `twatch` by whether its sector is in the read set, a wake by the fold
over the sleepers of its word, and the end of a back-off. -/
theorem statusAndWakeResults : Obligations.StatusAndWakeResults := by
  unfold Obligations.StatusAndWakeResults
  refine ⟨fun s d r => ?_, fun s core c word early handler spurious f x ws since hearly =>
    ⟨fun hx hcore hw hf hst hmem hdue => ?_, exec_wakeNotice_of_none, fun hst hc =>
      ⟨fun hn => ?_, fun k since' hk => ?_⟩⟩⟩
  · obtain ⟨h0, h1, h2, h3⟩ := exec_tstat s d
    obtain ⟨t, ht, hd⟩ := s.putScalar_done d s.txstat
    refine ⟨⟨t, s.txstat, h0.trans ht, hd, s.txstat_holds⟩, State.scalarDone_of h1 rfl, State.scalarDone_of h2 rfl,
      State.scalarDone_of h3 rfl, fun h => State.scalarDone_of (exec_tdepth_of_outside h d) rfl, fun a hx ho =>
      ⟨State.scalarDone_of (exec_tdepth_of_own hx ho d) rfl, fun p hp hh hk halone =>
        ⟨fun hnew hroom => ?_, fun hheld => ?_⟩⟩⟩
    · exact exec_twatch_of_alone hx ho hp hh hk halone (State.addRead_of_room hx ho _ hnew hroom)
    · exact exec_twatch_of_alone hx ho hp hh hk halone (State.addRead_of_held hx ho _ hheld)
  · cases spurious with
    | true =>
      refine ⟨_, exec_wakeNotice_spurious core word s, fun p => by rw [State.mem_wakeOn], ?_, fun n hn => ⟨?_, .inl rfl⟩⟩
      · rw [State.frOf_wakeOn hx hcore hw hf hst hmem, hearly]
        rfl
      · rwa [State.notices_wakeOn] at hn
    | false =>
      have hany := hdue.resolve_left Bool.false_ne_true
      refine ⟨_, exec_wakeNotice_of_due hany, fun p => by rw [State.mem_wakeOn]; rfl, ?_, fun n hn => ?_⟩
      · rw [State.frOf_wakeOn (s := s.takeNotices core word) hx hcore hw hf hst hmem, State.contains_earlyOn, hearly]
        rfl
      · rw [State.notices_wakeOn] at hn
        obtain ⟨hmem, hkept⟩ := List.mem_filter.1 hn
        exact ⟨hmem, .inr (by simpa [Classical.or_iff_not_imp_left] using hkept)⟩
  · rw [exec_wakeBackoffExpiry_of_over hst hc, State.endAllowWait_of_none hn, ← hn]
  · refine ⟨_, exec_wakeBackoffExpiry_of_over hst hc, ?_, ?_, State.frOf_setFrOf ..⟩
    · simp only [State.endAllowWait, hk]
      rfl
    · simp only [State.endAllowWait, hk, State.wvOf_setFrOf, State.wvOf_setWvOf]

end Sys2Proof.Machine
end

section
/-! The matrix engine: instructions that join its queue (R236, R241, R245). -/

namespace Sys2Proof.Machine

/-! ## Bank sets and the queue with no attempt open -/

/-- With no matrix instruction queued on a core the interlock of accumulator tiles completes nothing (R236). -/
theorem State.settleAccs_of_idle {s : State} {core : Nat} (h : (s.bank core).queue = []) (oper first n : Nat) :
    s.settleAccs oper core first n = s := s.completeThrough_of_idle core _ h

/-- A core's matrix engine, once replaced, reads as replaced. -/
theorem State.bank_of_putAt {s u : State} {core : Nat} {b : Bank} (h : u.banks = putAt s.banks core b) :
    u.bank core = b := by rw [State.bank, h, getAt_putAt_same]

/-- A change of the bank-state word with no attempt open changes the engine of its core and the notices alone (R226). -/
theorem State.changeBank_of_noAttempt {s : State} (h : s.attempts = []) (core : Nat) (b : Bank) :
    ∃ ns, s.changeBank core b = { s with banks := putAt s.banks core b, notices := ns } :=
  (s.setBank core b).writeWord_of_noAttempt h _

/-- The pending instructions replaced with no attempt open: the queue and the notices are all that changes (R233). -/
theorem State.setPending_of_noAttempt {s : State} (h : s.attempts = []) (core : Nat) (q : List MatOp) :
    ∃ ns, s.setPending core q
      = { s with banks := putAt s.banks core { s.bank core with queue := q }, notices := ns } := by
  unfold State.setPending
  dsimp only
  split
  · exact ⟨s.notices, rfl⟩
  · exact State.changeBank_of_noAttempt h core _

/-- A matrix instruction put on an empty queue is the whole of it (R241). -/
theorem State.queueMat_of_idle {s : State} {core : Nat} (h : s.attempts = []) (hq : (s.bank core).queue = []) (o : MatOp) :
    ∃ ns, s.queueMat core o
      = { s with banks := putAt s.banks core { s.bank core with queue := [o] }, notices := ns } := by
  have hpend : ¬ (s.bank core).pend ≥ 31 := by simp [Bank.pend, hq]
  rw [State.queueMat]
  simp only [hpend, and_false, if_false, hq, List.nil_append]
  exact State.setPending_of_noAttempt h core [o]

/-- Where no access is on its way, none must come before the parts of an instruction (R112, R113). -/
theorem State.forceParts_of_idle {s : State} (h : s.accesses = []) (parts : List Part) : s.forceParts parts = some s := by
  induction parts with
  | nil => rfl
  | cons p rest ih => simpa [State.forceParts, State.forceFor, h, neededFor, State.forceAll] using ih

/-- A state has not moved on from itself. -/
theorem State.movedOn_self (s : State) : s.movedOn s = false := by simp [State.movedOn]

/-! ## Products and `msca` -/

section Issue

variable {s : State} {k : MatKind} {parts : List Part} (hq : (s.bank s.cur.core).queue = [])

include hq

/-- What the executing wave's instruction on an empty queue does: it joins the queue and the fragment goes on (R241). -/
theorem State.queueWave_done (hatt : s.attempts = []) :
    ∃ t, (s.takeFresh.queueMat s.cur.core (s.waveMat k)).advance = t
      ∧ t = { s with banks := t.banks, notices := t.notices, frags := t.frags, fresh := s.fresh + 1 }
      ∧ t.bank s.cur.core = { s.bank s.cur.core with queue := [s.waveMat k] }
      ∧ t.fr = { s.fr with pc := s.fr.pc + 4 } := by
  obtain ⟨ns, h⟩ := State.queueMat_of_idle (s := s.takeFresh) hatt hq (s.waveMat k)
  rw [h]
  exact ⟨_, rfl, rfl, State.bank_of_putAt (s := s) rfl, State.fr_advance _⟩

/-- A product whose checks pass outside an attempt is queued, with what it has read (R241). -/
theorem State.product_of_ok {form : ProductForm} {d : BitVec 4} {h b : BitVec 6} {e : EType} (hin : s.inTx = false)
    (hacc : s.accesses = []) (he : etypeOf s.etypeCode = some e)
    (hp : s.productPlan s.waveOwner s.matUser s.readByte form d.toNat h.toNat (s.getS b) e s.sat = .ok (k, parts)) :
    s.product form d h b = (s.takeFresh.queueMat s.cur.core (s.waveMat k)).advance := by
  simp only [State.product, he, hin, hp, State.forceParts_of_idle hacc, State.movedOn_self, State.settleAccs_of_idle hq,
    Bool.false_eq_true, if_false]

/-- `msca` whose checks pass outside an attempt is queued, with its scales and its source tile (R245). -/
theorem exec_msca_of_ok {d a : BitVec 4} {b : BitVec 6} (hin : s.inTx = false) (hacc : s.accesses = [])
    (hp : s.scalePlan s.waveOwner s.matUser s.readByte d.toNat a.toNat (s.getS b) = .ok (k, parts)) :
    exec (.msca d a b) s = .next (s.takeFresh.queueMat s.cur.core (s.waveMat k)).advance := by
  show execMsca d a b s = _
  simp only [execMsca, hin, hp, State.forceParts_of_idle hacc, State.movedOn_self, State.settleAccs_of_idle hq,
    Bool.false_eq_true, if_false]

end Issue

/-- Settles O31: each product, and `msca`, joins the empty queue as it was read. -/
theorem matrixIssueResults : Obligations.MatrixIssueResults := by
  unfold Obligations.MatrixIssueResults
  intro s d a h b form i k parts e hatt hin hacc hq
  obtain ⟨t, ht, hdone⟩ := State.queueWave_done (k := k) hq hatt
  refine ⟨fun hi he hp => ⟨t, ?_, hdone⟩, fun hp => ⟨t, ?_, hdone⟩⟩
  · have hproduct := (State.product_of_ok hq hin hacc he hp).trans ht
    simp only [List.mem_cons, Prod.mk.injEq, List.not_mem_nil, or_false] at hi
    obtain ⟨rfl, rfl⟩ | ⟨rfl, rfl⟩ | ⟨rfl, rfl⟩ := hi
    · exact congrArg _ hproduct
    · exact congrArg _ hproduct
    · exact congrArg _ hproduct
  · rw [exec_msca_of_ok hq hin hacc hp, ht]

end Sys2Proof.Machine
end

section
/-! Accumulator elements written one after another, and what the completion of a matrix instruction makes of them
(R235, R236, R241). -/

namespace Sys2Proof.Machine

/-! ## Accumulator elements written -/

/-- An accumulator element, once written, reads as written. -/
@[simp] theorem State.acc_setAcc_same (s : State) (k : Nat) (x : Lane) : (s.setAcc k x).acc k = x := by
  show getAt 0 (putAcc s.accs k x) k = x
  unfold putAcc
  split
  · next hx => rw [getAt, findAt_dropAt_same, hx]; rfl
  · exact getAt_putAt_same ..

/-- An accumulator element written leaves every other as it was. -/
theorem State.acc_setAcc_ne (s : State) {k j : Nat} (x : Lane) (h : j ≠ k) : (s.setAcc k x).acc j = s.acc j := by
  show getAt 0 (putAcc s.accs k x) j = getAt 0 s.accs j
  unfold putAcc getAt
  split
  · rw [findAt_dropAt_ne _ h]
  · rw [findAt_putAt_ne _ _ h]

/-- Nothing but accumulator elements differs. -/
def State.OnlyAccs (s t : State) : Prop := t = { s with accs := t.accs }

theorem State.OnlyAccs.refl (s : State) : s.OnlyAccs s := rfl

theorem State.OnlyAccs.trans {s t u : State} (h : s.OnlyAccs t) (k : t.OnlyAccs u) : s.OnlyAccs u := by
  unfold State.OnlyAccs at *
  rw [k, h]

theorem State.onlyAccs_setAcc (s : State) (k : Nat) (x : Lane) : s.OnlyAccs (s.setAcc k x) := rfl

/-- Steps that each leave all but accumulator elements as it was do so together. -/
theorem State.OnlyAccs.foldl {α β : Type} {get : β → State} {f : β → α → β} (hf : ∀ q a, (get q).OnlyAccs (get (f q a)))
    (l : List α) (q : β) : (get q).OnlyAccs (get (l.foldl f q)) := by
  induction l generalizing q with
  | nil => rfl
  | cons a r ih => exact (hf q a).trans (ih (f q a))

section Written

variable {α : Type} (key : α → Nat) (val : α → Lane)

/-- Elements written in turn leave those that none of the writes names. -/
theorem State.acc_foldl_setAcc_of_notMem {l : List α} {k : Nat} (h : ∀ a ∈ l, k ≠ key a) (s : State) :
    (l.foldl (fun t a => t.setAcc (key a) (val a)) s).acc k = s.acc k := by
  induction l generalizing s with
  | nil => rfl
  | cons a r ih =>
    rw [List.foldl_cons, ih fun b hb => h b (List.mem_cons_of_mem _ hb), State.acc_setAcc_ne _ _ (h a List.mem_cons_self)]

/-- Of elements written in turn, where writes of one element agree, each reads as written. -/
theorem State.acc_foldl_setAcc_of_mem {l : List α} {a : α} (ha : a ∈ l) (h : ∀ b ∈ l, key b = key a → val b = val a)
    (s : State) : (l.foldl (fun t b => t.setAcc (key b) (val b)) s).acc (key a) = val a := by
  induction l using List.reverseRecOn generalizing s with
  | nil => exact absurd ha List.not_mem_nil
  | append_singleton r b ih =>
    rw [List.foldl_append, List.foldl_cons, List.foldl_nil]
    by_cases hk : key b = key a
    · rw [hk, State.acc_setAcc_same, h b (by simp) hk]
    · rw [State.acc_setAcc_ne _ _ (Ne.symm hk)]
      have har : a ∈ r := by
        rcases List.mem_append.1 ha with har | hab
        · exact har
        · exact absurd (List.mem_singleton.1 hab ▸ rfl) hk
      exact ih har (fun c hc => h c (List.mem_append_left _ hc)) s

end Written

/-! ## Accumulator elements replaced by what a function makes of them -/

/-- An accumulator element replaced by what a function makes of it, which also raises flags. -/
def State.accStep {α : Type} (key : α → Nat) (f : α → Nat → Nat × Flags) (q : State × Flags) (a : α) : State × Flags :=
  let x := f a (q.1.acc (key a)).toNat
  (q.1.setAcc (key a) (BitVec.ofNat 32 x.1), q.2 ||| x.2)

section Replaced

variable {α : Type} (key : α → Nat) (f : α → Nat → Nat × Flags)

/-- Elements replaced in turn leave all else as it was. -/
theorem State.onlyAccs_foldl_accStep (l : List α) (q : State × Flags) :
    q.1.OnlyAccs (l.foldl (State.accStep key f) q).1 :=
  State.OnlyAccs.foldl (get := Prod.fst) (fun q a => q.1.onlyAccs_setAcc (key a) _) l q

/-- Elements replaced in turn leave those that none of the steps names. -/
theorem State.acc_foldl_accStep_of_notMem {l : List α} {k : Nat} (h : ∀ a ∈ l, k ≠ key a) (q : State × Flags) :
    (l.foldl (State.accStep key f) q).1.acc k = q.1.acc k := by
  induction l generalizing q with
  | nil => rfl
  | cons a r ih =>
    rw [List.foldl_cons, ih fun b hb => h b (List.mem_cons_of_mem _ hb)]
    exact State.acc_setAcc_ne _ _ (h a List.mem_cons_self)

/-- Of different elements replaced in turn, each is what the function makes of its value at the start. -/
theorem State.acc_foldl_accStep_of_mem {l : List α} (hn : (l.map key).Nodup) {a : α} (ha : a ∈ l) (q : State × Flags) :
    (l.foldl (State.accStep key f) q).1.acc (key a) = BitVec.ofNat 32 (f a (q.1.acc (key a)).toNat).1 := by
  induction l generalizing q with
  | nil => exact absurd ha List.not_mem_nil
  | cons b r ih =>
    rw [List.map_cons, List.nodup_cons] at hn
    have hkey : ∀ c ∈ r, key c ≠ key b := fun c hc e => hn.1 (e ▸ List.mem_map_of_mem hc)
    rw [List.foldl_cons]
    rcases List.mem_cons.1 ha with rfl | har
    · rw [State.acc_foldl_accStep_of_notMem key f fun c hc => (hkey c hc).symm]
      exact State.acc_setAcc_same ..
    · rw [ih hn.2 har, show (State.accStep key f q b).1.acc (key a) = q.1.acc (key a) from
        State.acc_setAcc_ne _ _ (hkey a har)]

end Replaced

/-- A fold within a fold is one over the pairs. -/
theorem foldl_foldl_eq_foldl_product {α β γ : Type} (f : γ → α × β → γ) (l : List α) (m : List β) (z : γ) :
    l.foldl (fun r a => m.foldl (fun q b => f q (a, b)) r) z = (l ×ˢ m).foldl f z := by
  induction l generalizing z with
  | nil => rfl
  | cons a r ih => rw [List.foldl_cons, ih, List.product_cons, List.foldl_append, List.foldl_map]

/-! ## What a matrix instruction makes of the accumulators -/

/-- An element of a product's rows and columns has a number of its own (R235, R239). -/
theorem productKey_inj {oper core d i j i' j' : Nat} (hi : i < 8) (hi' : i' < 8)
    (h : productKey oper core d i j = productKey oper core d i' j') : i = i' ∧ j = j' := by
  unfold productKey accKey at h
  omega

section Product

variable {s : State} {core : Nat} {o : MatOp} {d m n path etype : Nat} {zero sat : Bool}
  {rows : List (Nat × List (List Nat))} {ws : Tab WeightGroup} {e : EType}

/-- The elements that a product starts from: under `mmaz` those of its rows and columns are 0 (R241). -/
def State.productStart (s : State) (core : Nat) (o : MatOp) (d m n : Nat) (zero : Bool) : State :=
  if zero then (List.range m ×ˢ List.range n).foldl (fun t p => t.setAcc (productKey o.oper core d p.1 p.2) 0) s else s

theorem State.onlyAccs_productStart : s.OnlyAccs (s.productStart core o d m n zero) := by
  unfold State.productStart
  split
  · exact State.OnlyAccs.foldl (get := id) (fun t p => t.onlyAccs_setAcc _ _) _ s
  · exact State.OnlyAccs.refl s

theorem State.acc_productStart_of_mem {i j : Nat} (hi : i < m) (hj : j < n) :
    (s.productStart core o d m n zero).acc (productKey o.oper core d i j)
      = if zero then 0 else s.acc (productKey o.oper core d i j) := by
  unfold State.productStart
  split
  · exact State.acc_foldl_setAcc_of_mem (fun p : Nat × Nat => productKey o.oper core d p.1 p.2) (fun _ => 0) (a := (i, j))
      (by simp [hi, hj]) (fun _ _ _ => rfl) s
  · rfl

theorem State.acc_productStart_of_notMem {k : Nat} (h : ∀ i < m, ∀ j < n, k ≠ productKey o.oper core d i j) :
    (s.productStart core o d m n zero).acc k = s.acc k := by
  unfold State.productStart
  split
  · refine State.acc_foldl_setAcc_of_notMem (fun p : Nat × Nat => productKey o.oper core d p.1 p.2) _ (fun p hp => ?_) s
    obtain ⟨hi, hj⟩ := List.mem_product.1 hp
    exact h _ (List.mem_range.1 hi) _ (List.mem_range.1 hj)
  · rfl

/-- A product's effect: each element of its live rows and its columns in turn is what its groups make of it (R241). -/
theorem State.applyMat_product (hk : o.kind = .product d m n zero path etype sat rows ws) :
    s.applyMat core o = (rows ×ˢ List.range n).foldl (State.accStep (fun p => productKey o.oper core d p.1.1 p.2)
      (fun p x => accumulate path ((etypeOf etype).getD .i8) sat ws p.2 p.1.2 x)) (s.productStart core o d m n zero, 0) := by
  rw [← foldl_foldl_eq_foldl_product, State.productStart, ← foldl_foldl_eq_foldl_product]
  simp only [State.applyMat, hk]
  rfl

/-- The effect of `msca`: each element of the tile in turn takes the scaled element of the source in (R245). -/
theorem State.applyMat_scale {src rs cs : List Nat} (hk : o.kind = .scale d src rs cs) :
    s.applyMat core o = (List.range 8 ×ˢ List.range 128).foldl (State.accStep (fun p => accKey o.oper core d p.1 p.2)
      (fun p x => scaleAccumulate x (src.getD (128 * p.1 + p.2) 0) (rs.getD p.1 0) (cs.getD p.2 0))) (s, 0) := by
  rw [← foldl_foldl_eq_foldl_product]
  simp only [State.applyMat, hk]
  rfl

/-- A pending instruction's effect is on accumulator elements alone (R236). -/
theorem State.onlyAccs_applyMat (s : State) (core : Nat) (o : MatOp) : s.OnlyAccs (s.applyMat core o).1 := by
  cases hk : o.kind with
  | product d m n zero path etype sat rows ws =>
    rw [State.applyMat_product hk]
    exact State.onlyAccs_productStart.trans (State.onlyAccs_foldl_accStep _ _ _ _)
  | scale d src rs cs =>
    rw [State.applyMat_scale hk]
    exact State.onlyAccs_foldl_accStep _ _ _ (s, 0)

variable (hr : ∀ r ∈ rows, r.1 < m)

include hr

/-- The elements of a product's live rows and its columns are all different (R239). -/
theorem nodup_productKeys (oper core d n : Nat) (hm : m ≤ 8) (hn : (rows.map (·.1)).Nodup) :
    ((rows ×ˢ List.range n).map (fun p => productKey oper core d p.1.1 p.2)).Nodup := by
  refine List.Nodup.map_on ?_ ((List.Nodup.of_map _ hn).product List.nodup_range)
  rintro ⟨r, j⟩ hp ⟨r', j'⟩ hq h
  obtain ⟨hrow, -⟩ := List.mem_product.1 hp
  obtain ⟨hrow', -⟩ := List.mem_product.1 hq
  obtain ⟨hi, hj⟩ := productKey_inj ((hr _ hrow).trans_le hm) ((hr _ hrow').trans_le hm) h
  exact Prod.ext (List.inj_on_of_nodup_map hn hrow hrow' hi) hj

variable (hk : o.kind = .product d m n zero path etype sat rows ws)

include hk

/-- A product leaves every element outside its rows and columns as it was (R241). -/
theorem State.acc_applyMat_of_outside {k : Nat} (h : ∀ i < m, ∀ j < n, k ≠ productKey o.oper core d i j) :
    (s.applyMat core o).1.acc k = s.acc k := by
  rw [State.applyMat_product hk, State.acc_foldl_accStep_of_notMem, State.acc_productStart_of_notMem h]
  intro p hp
  obtain ⟨hrow, hj⟩ := List.mem_product.1 hp
  exact h _ (hr _ hrow) _ (List.mem_range.1 hj)

/-- Each element of a live row and a column is what the groups of the row make of it, from its value before or from 0
under `mmaz` (R241). -/
theorem State.acc_applyMat_of_mem (he : etypeOf etype = some e) (hm : m ≤ 8) (hn : (rows.map (·.1)).Nodup)
    {r : Nat × List (List Nat)} (hrow : r ∈ rows) {j : Nat} (hj : j < n) :
    (s.applyMat core o).1.acc (productKey o.oper core d r.1 j)
      = BitVec.ofNat 32 (accumulate path e sat ws j r.2
          (if zero then 0 else (s.acc (productKey o.oper core d r.1 j)).toNat)).1 := by
  rw [State.applyMat_product hk, he, State.acc_foldl_accStep_of_mem (fun p : (Nat × List (List Nat)) × Nat =>
    productKey o.oper core d p.1.1 p.2) _ (nodup_productKeys hr _ _ _ _ hm hn) (a := (r, j)) (by simp [hrow, hj]),
    State.acc_productStart_of_mem (hr r hrow) hj]
  cases zero <;> rfl

end Product

end Sys2Proof.Machine
end

section
/-! The completion of matrix instructions and fills, and `mswap` (R236, R241, R248, R249, R251). -/

namespace Sys2Proof.Machine

/-! ## MATRIX_INSTRUCTION_COMPLETE -/

/-- A change of a wave that leaves its attempt opens none. -/
theorem State.attempts_setWvOf_of_noAttempt {s : State} (h : s.attempts = []) {f : FragId} {w : Wave}
    (hw : w.tx = (s.wvOf f).tx) : (s.setWvOf f w).attempts = [] :=
  State.attempts_setWv_of_noAttempt (s := { s with cur := f }) h hw

/-- The flags of a matrix instruction given to the wave that issued it, while its task is there (R236). -/
def State.giveFlags (s : State) (o : MatOp) (f : Flags) : State :=
  if (findAt s.waves o.agent.waveKey).isSome ∧ (s.wvOf o.agent).task = o.task then
    s.setWvOf o.agent { s.wvOf o.agent with fstat := (s.wvOf o.agent).fstat ||| f }
  else s

theorem State.giveFlags_frame (s : State) (o : MatOp) (f : Flags) :
    s.giveFlags o f = { s with waves := (s.giveFlags o f).waves }
      ∧ ∀ k, k ≠ o.agent.waveKey → findAt (s.giveFlags o f).waves k = findAt s.waves k := by
  unfold State.giveFlags
  split
  · exact ⟨rfl, fun k hk => findAt_putAt_ne _ _ hk⟩
  · exact ⟨rfl, fun _ _ => rfl⟩

theorem State.attempts_giveFlags {s : State} (h : s.attempts = []) (o : MatOp) (f : Flags) :
    (s.giveFlags o f).attempts = [] := by
  unfold State.giveFlags
  split
  · exact State.attempts_setWvOf_of_noAttempt h rfl
  · exact h

theorem State.wvOf_giveFlags {s : State} {o : MatOp} (hw : (findAt s.waves o.agent.waveKey).isSome)
    (ht : (s.wvOf o.agent).task = o.task) (f : Flags) :
    (s.giveFlags o f).wvOf o.agent = { s.wvOf o.agent with fstat := (s.wvOf o.agent).fstat ||| f } := by
  rw [State.giveFlags, if_pos ⟨hw, ht⟩, State.wvOf_setWvOf]

/-- The completion of an instruction that no command carries: its effect, its flags, and one fewer pending (R236, R251). -/
theorem State.completeMat_of_uncarried {s : State} {core : Nat} {o : MatOp} {rest : List MatOp}
    (hq : (s.bank core).queue = o :: rest) (hc : o.carried = none) :
    s.completeMat core = ((s.applyMat core o).1.giveFlags o (s.applyMat core o).2).setPending core rest := by
  simp only [State.completeMat, hq, hc, State.noteCarried]
  rfl

/-- What MATRIX_INSTRUCTION_COMPLETE does with the oldest pending instruction (R236, R241). -/
theorem exec_matrixInstructionComplete_of_uncarried {s : State} {core : Nat} {o : MatOp} {rest : List MatOp}
    (hatt : s.attempts = []) (hq : (s.bank core).queue = o :: rest) (hc : o.carried = none) :
    ∃ t, exec (.matrixInstructionComplete core) s = .next t
      ∧ t = { s with accs := (s.applyMat core o).1.accs, waves := t.waves, banks := t.banks, notices := t.notices }
      ∧ t.bank core = { s.bank core with queue := rest }
      ∧ ((findAt s.waves o.agent.waveKey).isSome → (s.wvOf o.agent).task = o.task →
          t.wvOf o.agent = { s.wvOf o.agent with fstat := (s.wvOf o.agent).fstat ||| (s.applyMat core o).2 })
      ∧ ∀ k, k ≠ o.agent.waveKey → findAt t.waves k = findAt s.waves k := by
  have hexec : exec (.matrixInstructionComplete core) s = .next (s.completeMat core) := rfl
  rw [hexec, State.completeMat_of_uncarried hq hc]
  have hacc : (s.applyMat core o).1 = { s with accs := (s.applyMat core o).1.accs } := s.onlyAccs_applyMat core o
  generalize (s.applyMat core o).1 = u at hacc ⊢
  generalize (s.applyMat core o).2 = f
  have hu : u.attempts = [] := by rw [hacc]; exact hatt
  obtain ⟨hframe, hrows⟩ := u.giveFlags_frame o f
  obtain ⟨ns, hpend⟩ := State.setPending_of_noAttempt (State.attempts_giveFlags hu o f) core rest
  have hwaves : u.waves = s.waves := by rw [hacc]
  have hwv : u.wvOf o.agent = s.wvOf o.agent := by rw [hacc]; rfl
  have hbank : (u.giveFlags o f).bank core = s.bank core := by rw [hframe, hacc]; rfl
  refine ⟨_, rfl, ?_, ?_, fun hw ht => ?_, fun k hk => ?_⟩
  · rw [hpend, hframe, hacc]
  · rw [hpend, ← hbank]
    exact State.bank_of_putAt (s := u.giveFlags o f) rfl
  · rw [hpend]
    exact (State.wvOf_giveFlags (hwaves ▸ hw) (hwv ▸ ht) f).trans (by rw [hwv])
  · rw [hpend, ← hwaves]
    exact hrows k hk

/-! ## MLDB_FILL_COMPLETE and `mswap` -/

/-- At the end of the oldest fill the inactive set takes its tag, its arrangement and its context, and is full with the last
fill (R248). -/
theorem exec_mldbFillComplete_of_queued {s : State} {core : Nat} {f : Fill} {rest : List Fill} (hatt : s.attempts = [])
    (hf : (s.bank core).fills = f :: rest) :
    ∃ t, exec (.mldbFillComplete core) s = .next t
      ∧ t = { s with banks := t.banks, notices := t.notices, fresh := s.fresh + 1 }
      ∧ (t.bank core).fills = rest ∧ (t.bank core).inactive.st = (if rest = [] then 2 else 1)
      ∧ (t.bank core).inactive.tag = f.tag ∧ (t.bank core).inactive.arr = f.arr
      ∧ (t.bank core).inactive.user = .context f.ctx ∧ (t.bank core).active = (s.bank core).active := by
  show ∃ t, execMldbFillComplete core s = .next t ∧ _
  simp only [execMldbFillComplete, hf]
  generalize hb : ({ s.bank core with fills := rest, inactive := _ } : Bank) = b
  obtain ⟨ns, hns⟩ := State.changeBank_of_noAttempt (s := s.takeFresh) hatt core b
  have hbank : (s.takeFresh.changeBank core b).bank core = b := by
    rw [hns]; exact State.bank_of_putAt (s := s) rfl
  refine ⟨_, rfl, ?_, ?_⟩
  · rw [hns]; rfl
  · rw [hbank, ← hb]
    simp

/-- `mswap` with a full inactive set that the context may use and nothing pending makes it active (R249). -/
theorem exec_mswap_of_full {s : State} (hatt : s.attempts = []) (hin : s.inTx = false)
    (hown : s.ownsBank s.cur.core s.ctxId = false) (htaken : s.setsTaken s.matUser = false)
    (hst : (s.bank s.cur.core).inactive.st = 2) (hq : (s.bank s.cur.core).queue = []) :
    ∃ t, exec .mswap s = .next t ∧ t = { s with banks := t.banks, notices := t.notices, frags := t.frags }
      ∧ (t.bank s.cur.core).active = (s.bank s.cur.core).inactive ∧ (t.bank s.cur.core).inactive = BankSet.reset
      ∧ (t.bank s.cur.core).swaps = (s.bank s.cur.core).swaps + 1 ∧ t.fr = { s.fr with pc := s.fr.pc + 4 } := by
  have hexec : exec .mswap s = .next (s.swapBanks s.cur.core).advance := by
    show execMswap s = _
    simp [execMswap, hown, htaken, hst, hin]
  rw [hexec, State.swapBanks, s.completeThrough_of_idle _ _ hq]
  dsimp only
  generalize hb : ({ s.bank s.cur.core with active := _, inactive := _, swaps := _, swapsBy := _ } : Bank) = b
  obtain ⟨ns, hns⟩ := State.changeBank_of_noAttempt hatt s.cur.core b
  rw [hns]
  have hbank : ∀ u : State, u.banks = putAt s.banks s.cur.core b → u.bank s.cur.core = b := fun u h => State.bank_of_putAt h
  refine ⟨_, rfl, rfl, ?_⟩
  rw [hbank _ rfl, ← hb]
  exact ⟨rfl, rfl, rfl, State.fr_advance _⟩

/-- Settles O32: a product element by element, then the two completions and `mswap`. -/
theorem matrixProductResults : Obligations.MatrixProductResults := by
  unfold Obligations.MatrixProductResults
  refine ⟨fun s core o d m n path etype zero sat rows ws e hk he hm hr hn => ⟨fun r hrow j hj => ?_, fun k hout => ?_, ?_⟩,
    fun s core hatt => ⟨fun o rest hq hc => ?_, fun f rest hf => ?_, fun hcore hin hown htaken hst hq => ?_⟩⟩
  · exact State.acc_applyMat_of_mem hr hk he hm hn hrow hj
  · exact State.acc_applyMat_of_outside hr hk hout
  · exact s.onlyAccs_applyMat core o
  · exact exec_matrixInstructionComplete_of_uncarried hatt hq hc
  · exact exec_mldbFillComplete_of_queued hatt hf
  · subst hcore
    exact exec_mswap_of_full hatt hin hown htaken hst hq

end Sys2Proof.Machine
end

section
/-! Accumulator rows and tiles moved, a fill queued, and the bank-state word (R233, R246 to R248, R250). -/

namespace Sys2Proof.Machine

/-! ## `mrd` and `mwr` -/

/-- The lanes of an accumulator row have numbers of their own (R235, R246). -/
theorem State.accLane_inj {s : State} {tile l l' : Nat} {x : Word} (h : s.accLane tile x l = s.accLane tile x l') : l = l' := by
  unfold State.accLane accKey at h
  omega

/-- With no attempt open on the device none is after a vector result. -/
theorem State.attempt_putRaw_of_noAttempt {s : State} (h : s.attempts = []) (d : BitVec 7) (f : Nat → Lane) :
    (s.putRaw d f).attempt = none := by
  refine State.attempt_of_outside ?_
  have htx : (s.putRaw d f).wv.tx = none := by
    simp [State.putRaw, State.putLanes, State.raiseFlags, State.setV, Wave.noteV, State.tx_of_noAttempt h]
  rw [State.inTx, htx]

/-- Where accumulator elements alone have changed, the instruction that passes changes its fragment besides. -/
theorem State.OnlyAccs.advance {s t : State} (h : s.OnlyAccs t) :
    t.advance = { s with accs := t.advance.accs, frags := t.advance.frags } := by
  unfold State.OnlyAccs at h
  rw [h]
  rfl

section Moves

variable {s : State} {d4 : BitVec 4} {b : BitVec 6} {x : Word} (hx : x = s.getS b)
  (hq : (s.bank s.cur.core).queue = []) (hsize : d4.toNat < s.seat.accSize)

include hx hq hsize

/-- `mrd` whose checks pass with nothing pending: the lanes of the row, which bit 5 then zeroes (R246). -/
theorem exec_mrd_of_idle {d : BitVec 6} (hatt : s.attempts = []) (hr : s.HoldsRegs [d.setWidth 7]) (h6 : fieldOf x 63 6 = 0) :
    exec (.mrd d d4 b) s = .next (
      if x.getLsbD 5 then s.guarded.foldl (fun t l => t.setAcc (s.accLane d4.toNat x l) 0)
        (s.putRaw (d.setWidth 7) (fun l => s.acc (s.accLane d4.toNat x l)))
      else s.putRaw (d.setWidth 7) (fun l => s.acc (s.accLane d4.toNat x l))) := by
  show execMrd d d4 b s = _
  simp only [execMrd, ← hx, s.withRegs_of_holds _ _ hr, State.settleAccs_of_idle hq, h6, Nat.not_le.2 hsize,
    ne_eq, not_true_eq_false, if_false, State.attempt_putRaw_of_noAttempt hatt, List.foldl_map]

/-- `mrd` gives the guarded lanes of the row, and writes 0 there where bit 5 is set (R246). -/
theorem exec_mrd_done {d : BitVec 6} (hatt : s.attempts = []) (hr : s.HoldsRegs [d.setWidth 7]) (h6 : fieldOf x 63 6 = 0) :
    ∃ t, exec (.mrd d d4 b) s = .next t
      ∧ s.VectorDone { t with accs := s.accs } (d.setWidth 7) (fun l => (s.acc (s.accLane d4.toNat x l), 0))
      ∧ (x.getLsbD 5 = false → t.accs = s.accs)
      ∧ (x.getLsbD 5 = true → (∀ l ∈ s.guarded, t.acc (s.accLane d4.toNat x l) = 0)
          ∧ ∀ k, (∀ l ∈ s.guarded, k ≠ s.accLane d4.toNat x l) → t.acc k = s.acc k) := by
  rw [exec_mrd_of_idle hx hq hsize hatt hr h6]
  have hread := s.putLanes_done (d.setWidth 7) (fun l => (s.acc (s.accLane d4.toNat x l), 0))
  cases hbit : x.getLsbD 5 with
  | false => exact ⟨_, rfl, hread, fun _ => rfl, nofun⟩
  | true =>
    rw [if_pos rfl]
    have honly := State.OnlyAccs.foldl (get := id)
      (f := fun (t : State) l => t.setAcc (s.accLane d4.toNat x l) 0) (fun q l => q.onlyAccs_setAcc _ _) s.guarded
      (s.putRaw (d.setWidth 7) (fun l => s.acc (s.accLane d4.toNat x l)))
    refine ⟨_, rfl, ?_, nofun, fun _ => ⟨fun l hl => ?_, fun k hk => ?_⟩⟩
    · unfold State.OnlyAccs id at honly
      rw [honly]
      exact hread
    · exact State.acc_foldl_setAcc_of_mem (s.accLane d4.toNat x) (fun _ => 0) hl (fun _ _ _ => rfl) _
    · exact State.acc_foldl_setAcc_of_notMem (s.accLane d4.toNat x) (fun _ => 0) hk _

/-- `mwr` writes the guarded lanes of a register into the row, and no other element (R246). -/
theorem exec_mwr_done {a : BitVec 6} (hin : s.inTx = false) (hr : s.HoldsRegs [a.setWidth 7]) (h5 : fieldOf x 63 5 = 0) :
    ∃ t, exec (.mwr d4 a b) s = .next t ∧ t = { s with accs := t.accs, frags := t.frags }
      ∧ t.fr = { s.fr with pc := s.fr.pc + 4 }
      ∧ (∀ l ∈ s.guarded, t.acc (s.accLane d4.toNat x l) = laneOf (s.getV (a.setWidth 7)) l)
      ∧ ∀ k, (∀ l ∈ s.guarded, k ≠ s.accLane d4.toNat x l) → t.acc k = s.acc k := by
  let row := s.guarded.foldl (fun t l => t.setAcc (s.accLane d4.toNat x l) (laneOf (s.getV (a.setWidth 7)) l)) s
  have hexec : exec (.mwr d4 a b) s = .next row.advance := by
    show execMwr d4 a b s = _
    simp only [execMwr, ← hx, s.withRegs_of_holds _ _ hr, State.settleAccs_of_idle hq, hin, h5, Nat.not_le.2 hsize,
      ne_eq, not_true_eq_false, Bool.false_eq_true, if_false]
    rfl
  have honly : s.OnlyAccs row := State.OnlyAccs.foldl (get := id) (fun q l => q.onlyAccs_setAcc _ _) s.guarded s
  have hfr : row.fr = s.fr := by rw [honly]; rfl
  refine ⟨_, hexec, honly.advance, by rw [State.fr_advance, hfr], fun l hl => ?_, fun k hk => ?_⟩
  · exact State.acc_foldl_setAcc_of_mem (s.accLane d4.toNat x) (laneOf (s.getV (a.setWidth 7))) hl
      (fun _ _ h => by rw [State.accLane_inj h]) s
  · exact State.acc_foldl_setAcc_of_notMem (s.accLane d4.toNat x) (laneOf (s.getV (a.setWidth 7))) hk s

end Moves

/-! ## `mzero` and `mldb` -/

section Run

variable (s : State) (oper core first n : Nat)

/-- An element of the run of accumulator tiles that has been zeroed reads 0 (R247). -/
theorem State.acc_zeroAccs_of_mem {k : Nat} (hk : k < 1024 * n) :
    (s.zeroAccs oper core first n).acc (accKey oper core first 0 0 + k) = 0 := by
  have hgone := findAt_filter (fun j => !(decide (accKey oper core first 0 0 ≤ j)
    && decide (j < accKey oper core first 0 0 + 1024 * n))) s.accs (accKey oper core first 0 0 + k)
  rw [if_neg (by simp [hk])] at hgone
  rw [State.acc, getAt, State.zeroAccs, hgone]
  rfl

/-- An element outside the run is as it was (R247). -/
theorem State.acc_zeroAccs_of_outside {k : Nat}
    (hk : k < accKey oper core first 0 0 ∨ accKey oper core first 0 0 + 1024 * n ≤ k) :
    (s.zeroAccs oper core first n).acc k = s.acc k := by
  have hkept := findAt_filter (fun j => !(decide (accKey oper core first 0 0 ≤ j)
    && decide (j < accKey oper core first 0 0 + 1024 * n))) s.accs k
  rw [if_pos (by simp; omega)] at hkept
  rw [State.acc, getAt, State.zeroAccs, hkept]
  rfl

end Run

section Idle

variable {s : State} (hin : s.inTx = false)

include hin

/-- `mzero` of tiles within the range, with nothing pending, drops the elements of the run (R247). -/
theorem exec_mzero_of_idle {d : BitVec 4} {n : BitVec 5} (hq : (s.bank s.cur.core).queue = [])
    (hsize : d.toNat + n.toNat ≤ s.seat.accSize) :
    exec (.mzero d n) s = .next (s.zeroAccs s.tk.oper s.cur.core d.toNat n.toNat).advance := by
  show execMzero d n s = _
  simp only [execMzero, hin, Nat.not_lt.2 hsize, Bool.false_eq_true, if_false, State.settleAccs_of_idle hq]

/-- `mldb` whose checks pass queues its fill and empties the inactive set for it (R248). -/
theorem exec_mldb_of_ok {a b : BitVec 6} {f : Fill} (hatt : s.attempts = [])
    (hf : s.fillPlan s.matUser a.toNat (s.getS b) = .ok f) :
    ∃ t, exec (.mldb a b) s = .next t
      ∧ t = { s with banks := t.banks, notices := t.notices, frags := t.frags, fresh := s.fresh + 1 }
      ∧ (t.bank s.cur.core).fills = (s.bank s.cur.core).fills ++ [f] ∧ (t.bank s.cur.core).inactive.st = 1
      ∧ (t.bank s.cur.core).inactive.user = .context s.ctxId
      ∧ (t.bank s.cur.core).active = (s.bank s.cur.core).active ∧ t.fr = { s.fr with pc := s.fr.pc + 4 } := by
  show ∃ t, execMldb a b s = .next t ∧ _
  simp only [execMldb, hin, hf, Bool.false_eq_true, if_false]
  generalize hb : ({ s.bank s.cur.core with fills := _, inactive := _ } : Bank) = c
  obtain ⟨ns, hns⟩ := State.changeBank_of_noAttempt (s := s.takeFresh) hatt s.cur.core c
  rw [hns]
  have hbank : ∀ u : State, u.banks = putAt s.banks s.cur.core c → u.bank s.cur.core = c := fun u h => State.bank_of_putAt h
  refine ⟨_, rfl, rfl, ?_⟩
  rw [hbank _ rfl, ← hb]
  exact ⟨rfl, rfl, rfl, rfl, State.fr_advance _⟩

end Idle

/-! ## The bank-state word and `mqry` -/

/-- The fields of the bank-state word, of the active set, the inactive set and the core (R233). -/
structure BankFields where
  tagA : Nat
  tagI : Nat
  useA : Bool
  useI : Bool
  own : Bool
  arrA : Nat
  arrI : Nat
  fmtA : Nat
  fmtI : Nat
  poisA : Bool
  poisI : Bool
  fullA : Bool
  stI : Nat
  pend : Nat
  swaps : Nat

/-- The number that the fields make, each at its place in the word (R233). -/
def BankFields.number (f : BankFields) : Nat :=
  f.tagA * 2 ^ 48 + f.tagI * 2 ^ 32 + f.useA.toNat * 2 ^ 30 + f.useI.toNat * 2 ^ 29 + f.own.toNat * 2 ^ 28 + f.arrA * 2 ^ 26
    + f.arrI * 2 ^ 24 + f.fmtA * 2 ^ 21 + f.fmtI * 2 ^ 18 + f.poisA.toNat * 2 ^ 17 + f.poisI.toNat * 2 ^ 16
    + f.fullA.toNat * 2 ^ 15 + f.stI * 2 ^ 13 + f.pend * 2 ^ 8 + f.swaps

/-- Every field lies within its bits. -/
structure BankFields.Fits (f : BankFields) : Prop where
  tagA : f.tagA < 2 ^ 16
  tagI : f.tagI < 2 ^ 16
  arrA : f.arrA < 4
  arrI : f.arrI < 4
  fmtA : f.fmtA < 8
  fmtI : f.fmtI < 8
  stI : f.stI < 4
  pend : f.pend < 32
  swaps : f.swaps < 256

/-- Fields that lie within their bits are read back from the word (R233). -/
theorem BankFields.Fits.read {f : BankFields} (h : f.Fits) {x : Word} (hx : x = BitVec.ofNat 64 f.number) :
    (fieldOf x 63 48 = f.tagA ∧ fieldOf x 47 32 = f.tagI ∧ fieldOf x 27 26 = f.arrA ∧ fieldOf x 25 24 = f.arrI
        ∧ fieldOf x 23 21 = f.fmtA ∧ fieldOf x 20 18 = f.fmtI ∧ fieldOf x 14 13 = f.stI ∧ fieldOf x 12 8 = f.pend
        ∧ fieldOf x 7 0 = f.swaps)
      ∧ x.getLsbD 31 = false ∧ x.getLsbD 30 = f.useA ∧ x.getLsbD 29 = f.useI ∧ x.getLsbD 28 = f.own
      ∧ x.getLsbD 17 = f.poisA ∧ x.getLsbD 16 = f.poisI ∧ x.getLsbD 15 = f.fullA := by
  obtain ⟨hta, hti, hra, hri, hfa, hfi, hsi, hpd, hsw⟩ := h
  have hua := Bool.toNat_lt f.useA
  have hui := Bool.toNat_lt f.useI
  have ho := Bool.toNat_lt f.own
  have hpa := Bool.toNat_lt f.poisA
  have hpi := Bool.toNat_lt f.poisI
  have hsa := Bool.toNat_lt f.fullA
  have hn : f.number < 2 ^ 64 := by unfold BankFields.number; omega
  subst hx
  simp only [fieldOf_ofNat _ _ _ hn]
  refine ⟨?_, getLsbD_ofNat_of_bit _ 31 false (by decide) ?_, getLsbD_ofNat_of_bit _ 30 _ (by decide) ?_,
    getLsbD_ofNat_of_bit _ 29 _ (by decide) ?_, getLsbD_ofNat_of_bit _ 28 _ (by decide) ?_,
    getLsbD_ofNat_of_bit _ 17 _ (by decide) ?_, getLsbD_ofNat_of_bit _ 16 _ (by decide) ?_,
    getLsbD_ofNat_of_bit _ 15 _ (by decide) ?_⟩
  case refine_2 => rw [Bool.toNat_false]; unfold BankFields.number; omega
  all_goals unfold BankFields.number; omega

/-- The swaps that a user sees, added up one after another, are the sum of those it may see (R233). -/
theorem foldl_swaps (m : MatUser) (l : List (SetUser × Nat)) (z : Nat) :
    l.foldl (fun n x => if x.1.allows m then n + x.2 else n) z = z + ((l.filter (fun y => y.1.allows m)).map (·.2)).sum := by
  induction l generalizing z with
  | nil => rfl
  | cons x r ih =>
    rw [List.foldl_cons, ih]
    by_cases h : x.1.allows m <;> simp [h, Nat.add_assoc]

/-- The fields of the bank-state word as a user's context sees it (R233). -/
def State.bankFields (s : State) (m : MatUser) : BankFields :=
  let b := s.bank m.core
  let ua := b.active.user.allows m
  let ui := b.inactive.user.allows m
  { tagA := if ua then b.active.tag else 0, tagI := if ui then b.inactive.tag else 0, useA := ua, useI := ui,
    own := b.own && s.ownsBank m.core m.ctx, arrA := if ua then b.active.arr else 0, arrI := if ui then b.inactive.arr else 0,
    fmtA := if ua then b.active.fmt else 0, fmtI := if ui then b.inactive.fmt else 0, poisA := ua && b.active.pois != 0,
    poisI := ui && b.inactive.pois != 0, fullA := ua && b.active.st == 2, stI := if ui then b.inactive.st else 0,
    pend := b.queue.countP (fun o => o.ctx == m.ctx && o.isProduct) % 32,
    swaps := ((b.swapsBy.filter (fun y => y.1.allows m)).map (·.2)).sum % 256 }

/-- The bank-state word puts its fields together (R233). -/
theorem State.bankWord_eq (s : State) (m : MatUser) : s.bankWord m = BitVec.ofNat 64 (s.bankFields m).number := by
  have hbit : ∀ (b : Bool) (k : Nat), (if b then k else 0) = b.toNat * k := fun b k => by cases b <;> simp
  have hpois : ∀ n k : Nat, (if n = 0 then 0 else k) = (n != 0).toNat * k := fun n k => by cases n <;> simp
  have hfull : ∀ n k : Nat, (if n = 2 then k else 0) = (n == 2).toNat * k := fun n k => by by_cases h : n = 2 <;> simp [h]
  refine congrArg (BitVec.ofNat 64) ?_
  simp only [foldl_swaps, Nat.zero_add, BankFields.number, State.bankFields, hpois, hfull, hbit _ (2 ^ 28)]
  show _ + _ + _ + (s.bank m.core).queue.countP (fun o => o.ctx == m.ctx && o.isProduct) % 32 * 2 ^ 8 + _ = _
  cases (s.bank m.core).active.user.allows m <;> cases (s.bank m.core).inactive.user.allows m <;>
    simp only [Bool.true_and, Bool.false_and, Bool.false_eq_true, if_true, if_false, Bool.toNat_true, Bool.toNat_false] <;> ring

/-- The bank-state word has the fields of R233. -/
theorem State.bankWord_holds (s : State) (m : MatUser) : s.BankWordHolds m (s.bankWord m) := by
  intro b ua ui hb hua hui htagA htagI harrA harrI hfmtA hfmtI hst
  subst hb hua hui
  have hfits : (s.bankFields m).Fits := by
    constructor
    case pend => exact Nat.mod_lt _ (by decide)
    case swaps => exact Nat.mod_lt _ (by decide)
    all_goals
      simp only [State.bankFields]
      split <;> omega
  obtain ⟨⟨h1, h2, h3, h4, h5, h6, h7, h8, h9⟩, h31, h30, h29, h28, h17, h16, h15⟩ := hfits.read (s.bankWord_eq m)
  exact ⟨h1, h2, h31, h30, h29, h28, h3, h4, h5, h6, h17, h16, h15, h7, h8, h9⟩

/-- `mqry` outside an attempt is a scalar result: the bank-state word (R250). -/
theorem exec_mqry_of_outside {s : State} (hin : s.inTx = false) (d : BitVec 6) :
    exec (.mqry d) s = s.putScalar d (s.bankWord s.matUser) := by
  show execMqry d s = _
  simp only [execMqry, State.addRead, State.attempt_of_outside hin, if_true, State.putScalar]

/-- Settles O33: the moves of accumulator rows and tiles, the fill that `mldb` queues, and the word that `mqry` reads. -/
theorem accumulatorMoveResults : Obligations.AccumulatorMoveResults := by
  unfold Obligations.AccumulatorMoveResults
  intro s d4 d a b n x hx hatt hin hq
  refine ⟨fun hr hsize h6 => ?_, fun hr hsize h5 => ?_, fun hsize => ?_, fun f hf => ?_, ?_⟩
  · exact exec_mrd_done hx hq hsize hatt hr h6
  · exact exec_mwr_done hx hq hsize hin hr h5
  · exact ⟨_, exec_mzero_of_idle hin hq hsize, rfl, State.fr_advance _, fun k hk => s.acc_zeroAccs_of_mem _ _ _ _ hk,
      fun k hk => s.acc_zeroAccs_of_outside _ _ _ _ hk⟩
  · exact exec_mldb_of_ok hin hatt (hx ▸ hf)
  · obtain ⟨t, ht, hdone⟩ := s.putScalar_done d (s.bankWord s.matUser)
    exact ⟨t, _, (exec_mqry_of_outside hin d).trans ht, hdone, s.bankWord_holds s.matUser⟩

end Sys2Proof.Machine
end

section
/-! Copy commands: their issue, their start, their failure, and the issue of a carried product (R251, R253 to R256, R261, R264,
R267). -/

namespace Sys2Proof.Machine

/-! ## Entries of the tile table with no attempt open -/

/-- Nothing but tile-table entries and notices differs. -/
def State.OnlyTiles (s t : State) : Prop := t = { s with tiles := t.tiles, notices := t.notices }

theorem State.OnlyTiles.refl (s : State) : s.OnlyTiles s := rfl

theorem State.OnlyTiles.trans {s t u : State} (h : s.OnlyTiles t) (k : t.OnlyTiles u) : s.OnlyTiles u := by
  unfold State.OnlyTiles at *
  rw [k, h]

theorem State.OnlyTiles.noAttempt {s t : State} (h : s.OnlyTiles t) (ha : s.attempts = []) : t.attempts = [] := by
  rw [h]
  exact ha

theorem State.onlyTiles_setTile (s : State) (core entry : Nat) (x : TileEntry) : s.OnlyTiles (s.setTile core entry x) := rfl

theorem State.onlyTiles_countTile (s : State) (core : Nat) (add : Bool) (e : Nat) : s.OnlyTiles (s.countTile core add e) := rfl

section NoAttempt

variable {s : State} (h : s.attempts = [])

include h

theorem State.onlyTiles_setTileState (core entry st : Nat) : s.OnlyTiles (s.setTileState core entry st) := by
  obtain ⟨ns, hns⟩ := State.writeWord_of_noAttempt (s.setTile core entry { s.tileOf core entry with state := st }) h
    (.tile core entry)
  rw [State.setTileState, hns]
  rfl

theorem State.onlyTiles_emptyTile (core entry : Nat) : s.OnlyTiles (s.emptyTile core entry) := by
  unfold State.emptyTile
  dsimp only
  split
  · exact (s.onlyTiles_setTile core entry _).trans (State.onlyTiles_setTileState (s := s.setTile core entry _) h core entry 0)
  · exact s.onlyTiles_setTile core entry _

/-- Steps that each leave all but tile-table entries as it was do so together. -/
theorem State.OnlyTiles.foldl {f : State → Nat → State} (hf : ∀ u : State, u.attempts = [] → ∀ e, u.OnlyTiles (f u e))
    (l : List Nat) : s.OnlyTiles (l.foldl f s) := by
  induction l generalizing s with
  | nil => rfl
  | cons e r ih => exact (hf s h e).trans (ih ((hf s h e).noAttempt h))

/-- A counter replaced: what an operator holds on the core, and the notices, are all that differs (R264). -/
theorem State.onlySlots_setCounter (oper core : Nat) {k : Nat} (hk : k < 16) (t : Timeline) :
    s.OnlySlots (s.setCounter oper core k t) ∧ (s.setCounter oper core k t).counter oper core k = t := by
  obtain ⟨ns, hns⟩ := State.setCounter_of_noAttempt h oper core k t
  rw [hns]
  exact ⟨rfl, State.counter_of_withCounter hk rfl⟩

end NoAttempt

/-- A change of slots after one of tile-table entries is one of slots. -/
theorem State.OnlyTiles.onlySlots {s t u : State} (h : s.OnlyTiles t) (k : t.OnlySlots u) : s.OnlySlots u := by
  unfold State.OnlySlots State.OnlyTiles at *
  rw [k, h]

/-- A change of tile-table entries after one of slots is one of slots, and leaves the counters. -/
theorem State.OnlySlots.onlyTiles {s t u : State} (h : s.OnlySlots t) (k : t.OnlyTiles u) :
    s.OnlySlots u ∧ ∀ oper core n, u.counter oper core n = t.counter oper core n := by
  unfold State.OnlySlots State.OnlyTiles at *
  exact ⟨by rw [k, h], fun oper core n => by rw [k]; rfl⟩

/-- Where slots and tile-table entries alone have changed, a copy engine replaced and an instruction that passes change their
own rows besides. -/
theorem State.OnlySlots.setCopies_advance {s u : State} (h : s.OnlySlots u) (core : Nat) (r : CopyRow) :
    ∃ t, (u.setCopies core r).advance = t
      ∧ t = { s with copies := t.copies, seats := t.seats, tiles := t.tiles, notices := t.notices, frags := t.frags }
      ∧ t.fr = { s.fr with pc := s.fr.pc + 4 } := by
  unfold State.OnlySlots at h
  refine ⟨_, rfl, ?_, ?_⟩
  · rw [h]
    rfl
  · rw [State.fr_advance, h]
    rfl

/-! ## The commands of a core -/

/-- A copy engine, once replaced, reads as replaced. -/
@[simp] theorem State.copyRow_setCopies (s : State) (core : Nat) (r : CopyRow) : (s.setCopies core r).copyRow core = r :=
  getAt_putAt_same ..

/-- A command replaced in its core's list. -/
theorem State.cmds_putCopy (s : State) (core : Nat) (c : CopyCmd) : ((s.putCopy core c).copyRow core).cmds
    = (s.copyRow core).cmds.map (fun x => if x.id = c.id then c else x) := by
  rw [State.putCopy, State.copyRow_setCopies]

/-! ## The issue of a command -/

/-- The command that a copy instruction makes of the words of its block. -/
def State.copyCommand (s : State) (fn tl : Nat) (ws : List Word) : Command :=
  { kind := .copy fn, dst := 0, tl := tl, regs := ws, mr := s.fr.mr, pc := s.fr.pc, data := [], places := [] }

/-- A copy instruction whose checks pass outside an attempt, with an entry free, issues its command (R253, R254, R256). -/
theorem State.copy_of_room {s : State} {fn : Nat} {b : BitVec 6} {tl : BitVec 4} {ws : List Word} (hin : s.inTx = false)
    (hws : ws = (List.range (copyLength fn)).map (fun k => s.getS (BitVec.ofNat 6 (b.toNat + k))))
    (hcarried : fn = 5 → carriedOk (BitVec.ofNat 32 (ws.getD 7 0).toNat) = true) (hcheck : s.copyCheck fn ws = none)
    (hroom : s.copyRoom s.tk.oper s.cur.core = true) :
    s.copy fn b tl = (s.copyIssue fn (s.copyCommand fn tl.toNat ws) (s.order ≥ 2) s.scope).advance := by
  have hblock : (upFrom b.toNat (copyLength fn)).map (fun i => s.getS (BitVec.ofNat 6 i)) = ws := by
    rw [hws, upFrom, List.map_map]
    rfl
  have hword : ¬ (fn = 5 ∧ (!carriedOk ((ws.getD 7 0).setWidth 32)) = true) := by
    rintro ⟨hfn, hbad⟩
    rw [← BitVec.ofNat_toNat, hcarried hfn] at hbad
    cases hbad
  simp only [State.copy, hblock, hword, hcheck, hin, hroom, Bool.not_true, Bool.false_eq_true, if_false]
  rfl

/-- The source tile of a command that issues set to draining where it is ready (R264). -/
def State.drainSource (s : State) (core : Nat) (src : Option Nat) : State :=
  match src with
  | some e => if (s.tileOf core e).state = 2 then s.setTileState core e 3 else s
  | none => s

theorem State.onlyTiles_drainSource {s : State} (h : s.attempts = []) (core : Nat) (src : Option Nat) :
    s.OnlyTiles (s.drainSource core src) := by
  unfold State.drainSource
  split
  · split
    · exact State.onlyTiles_setTileState h core _ 3
    · exact State.OnlyTiles.refl s
  · exact State.OnlyTiles.refl s

/-- A command that issues with a number left draws it and takes the next entry of its core's queue; besides, slots and
tile-table entries alone differ (R254, R264). -/
theorem State.copyIssue_of_number {s : State} (hatt : s.attempts = []) {fn : Nat} {c : Command} {n : Nat} (htl : c.tl < 16)
    (hn : n = (s.counter s.tk.oper s.cur.core c.tl).issued + 1)
    (hmax : (s.counter s.tk.oper s.cur.core c.tl).issued < maxNumber) (release : Bool) (scope : Nat) :
    ∃ u, s.OnlySlots u
      ∧ u.counter s.tk.oper s.cur.core c.tl = { s.counter s.tk.oper s.cur.core c.tl with issued := n }
      ∧ s.copyIssue fn c release scope = u.setCopies s.cur.core { s.copyRow s.cur.core with
          cmds := (s.copyRow s.cur.core).cmds ++ [s.newCopy fn c n release scope]
          next := (s.copyRow s.cur.core).next + 1 } := by
  subst hn
  let x := s.newCopy fn c ((s.counter s.tk.oper s.cur.core c.tl).issued + 1) release scope
  have hdrain := State.onlyTiles_drainSource hatt s.cur.core x.srcTile
  obtain ⟨hset, hcounter⟩ := State.onlySlots_setCounter (hdrain.noAttempt hatt) s.tk.oper s.cur.core htl
    { s.counter s.tk.oper s.cur.core c.tl with issued := (s.counter s.tk.oper s.cur.core c.tl).issued + 1 }
  have hslots := hdrain.onlySlots hset
  generalize hv : (s.drainSource s.cur.core x.srcTile).setCounter .. = v at hslots hcounter
  have hvatt : v.attempts = [] := by rw [hslots]; exact hatt
  obtain ⟨hall, hkept⟩ := hslots.onlyTiles (State.OnlyTiles.foldl hvatt
    (fun u _ e => u.onlyTiles_countTile s.cur.core true e) (distinct (x.srcTile.toList ++ x.dstTile.toList)))
  refine ⟨_, hall, (hkept _ _ _).trans hcounter, ?_⟩
  have hrow : ∀ u : State, s.OnlySlots u → u.copyRow s.cur.core = s.copyRow s.cur.core := fun u h => by rw [h]; rfl
  rw [State.copyIssue]
  simp only [ge_iff_le, Nat.not_le.2 hmax, if_false]
  rw [← hrow _ hall, ← hv]
  rfl

/-! ## The start of a command, and its failure -/

/-- A record whose cause is none of those that merge, and that no round makes, merges with none (R201). -/
theorem FaultRecord.merges_eq_false_of_agent {a b : FaultRecord} (hc : b.cause ∉ mergingCauses) (hg : b.agent ≠ 3) :
    a.merges b = false := by
  have h20 : b.cause ≠ 0x20 := fun h => hc (by rw [h]; decide)
  have h21 : b.cause ≠ 0x21 := fun h => hc (by rw [h]; decide)
  by_cases ha : a.cause ∈ mergingCauses
  · have hne : a.cause ≠ b.cause := fun h => hc (h ▸ ha)
    by_cases h3 : a.agent = 3
    · simp [FaultRecord.merges, hg, h3, Ne.symm hg]
    · simp [FaultRecord.merges, hg, h3, h20, h21, hne]
  · simp [FaultRecord.merges, ha]

/-- The record of a failed command is posted as one of its own (R267). -/
theorem State.copyRecord_posted (s : State) (core : Nat) (c : CopyCmd) (detail access second : Nat) (va : Word) :
    ∃ r, s.copyRecord core c detail access second va = { s with records := s.records ++ [r] }
      ∧ r.cause = 0x50 ∧ r.detail = detail ∧ r.word7 = c.n := by
  rw [State.copyRecord, State.report, s.postRecord_of_unmerged fun _ =>
    FaultRecord.merges_eq_false_of_agent (by simp [causeCOPY, mergingCauses]) (by simp)]
  exact ⟨_, rfl, rfl, rfl, rfl⟩

/-- A command taken off its core's list: besides the list, tile-table entries and notices alone differ (R254). -/
theorem State.dropCopy_of_noAttempt {s : State} (h : s.attempts = []) (core : Nat) (c : CopyCmd) :
    (s.setCopies core { s.copyRow core with cmds := (s.copyRow core).cmds.filter (fun x => x.id != c.id) }).OnlyTiles
      (s.dropCopy core c) := by
  unfold State.dropCopy
  refine State.OnlyTiles.foldl (s := s.setCopies core _) h (fun u hu e => ?_) _
  dsimp only
  split
  · exact (u.onlyTiles_countTile core false e).trans
      (State.onlyTiles_emptyTile ((u.onlyTiles_countTile core false e).noAttempt hu) core e)
  · exact u.onlyTiles_countTile core false e

/-- The failure of a fill noted on its destination tile (R262). -/
def State.noteFailedFill (s : State) (core : Nat) (c : CopyCmd) : State :=
  match c.dstTile with
  | some e => s.setTile core e { s.tileOf core e with failedFills := (s.tileOf core e).failedFills ++ [(c.id, c.tl, c.n)] }
  | none => s

theorem State.onlyTiles_noteFailedFill (s : State) (core : Nat) (c : CopyCmd) : s.OnlyTiles (s.noteFailedFill core c) := by
  unfold State.noteFailedFill
  split
  · exact s.onlyTiles_setTile core _ _
  · exact State.OnlyTiles.refl s

theorem State.failCopy_eq (s : State) (core : Nat) (c : CopyCmd) (detail access second : Nat) (va : Word) :
    s.failCopy core c detail access second va = (((s.noteFailedFill core c).setCounter c.oper core c.tl
      (((s.noteFailedFill core c).counter c.oper core c.tl).fail c.n)).copyRecord core c detail access second va).dropCopy
        core c := rfl

/-- A command that fails: its counter takes the error state, its record is posted, and its entry is free (R267). -/
theorem State.failCopy_of_noAttempt {s : State} (h : s.attempts = []) (core : Nat) {c : CopyCmd} (htl : c.tl < 16)
    (detail access second : Nat) (va : Word) :
    ∃ r ∈ (s.failCopy core c detail access second va).records, r.cause = 0x50 ∧ r.detail = detail ∧ r.word7 = c.n
      ∧ ((s.failCopy core c detail access second va).counter c.oper core c.tl).error = true
      ∧ ∀ x ∈ ((s.failCopy core c detail access second va).copyRow core).cmds, x.id ≠ c.id := by
  rw [State.failCopy_eq]
  have hnote := (s.onlyTiles_noteFailedFill core c).noAttempt h
  generalize s.noteFailedFill core c = u at hnote ⊢
  obtain ⟨hslots, hcounter⟩ := State.onlySlots_setCounter hnote c.oper core htl ((u.counter c.oper core c.tl).fail c.n)
  generalize u.setCounter c.oper core c.tl _ = v at hslots hcounter ⊢
  have hvatt : v.attempts = [] := by rw [hslots]; exact hnote
  obtain ⟨r, hrec, hcause, hdetail, hword⟩ := v.copyRecord_posted core c detail access second va
  have hdrop := State.dropCopy_of_noAttempt (s := { v with records := v.records ++ [r] }) hvatt core c
  rw [hrec]
  generalize State.dropCopy _ core c = w at hdrop ⊢
  unfold State.OnlyTiles at hdrop
  refine ⟨r, ?_, hcause, hdetail, hword, ?_, fun x hx => ?_⟩
  · rw [hdrop]
    exact List.mem_append_right _ List.mem_cons_self
  · have hkept : w.counter c.oper core c.tl = v.counter c.oper core c.tl := by rw [hdrop]; rfl
    rw [hkept, hcounter]
    rfl
  · have hrow : w.copyRow core = { v.copyRow core with
        cmds := (v.copyRow core).cmds.filter (fun x => x.id != c.id) } := by
      rw [hdrop]
      exact State.copyRow_setCopies ..
    rw [hrow] at hx
    simpa using (List.mem_filter.1 hx).2

/-- The rotation of a core's slots at the slot of a command (R254). -/
def State.turnTo (s : State) (core : Nat) (c : CopyCmd) : State :=
  s.setCopies core { s.copyRow core with lastSlot := s.copySlot core c }

/-- Whose turn it is has no part in the checks of a command. -/
theorem State.copyRefused_turnTo (s : State) (core : Nat) (c : CopyCmd) :
    (s.turnTo core c).copyRefused core c = s.copyRefused core c := rfl

section Start

variable {s : State} {core : Nat} {c : CopyCmd} (hnext : s.nextCopy core = some c)
  (hroom : (s.copyRow core).cmds.countP (fun x => x.status == .active) < 4)

include hnext hroom

/-- With fewer than four active, the command that is next becomes active where its checks pass (R254). -/
theorem exec_copyCommandStart_eq_putCopy (hpass : s.copyRefused core c = none) : exec (.copyCommandStart core c.id) s
    = .next ((s.turnTo core c).putCopy core { c with status := .active }) := by
  rw [← s.copyRefused_turnTo, State.turnTo] at hpass
  show execCopyCommandStart core c.id s = _
  simp only [execCopyCommandStart, hnext, ne_eq, not_true_eq_false, ge_iff_le, Nat.not_le.2 hroom, or_self, if_false, hpass,
    State.turnTo]

/-- With fewer than four active, the command that is next fails where its checks refuse it (R254, R267). -/
theorem exec_copyCommandStart_eq_failCopy {detail : Nat} {va : Word} (hrefused : s.copyRefused core c = some (detail, va)) :
    exec (.copyCommandStart core c.id) s = .next ((s.turnTo core c).failCopy core c detail 0 0 va) := by
  rw [← s.copyRefused_turnTo, State.turnTo] at hrefused
  show execCopyCommandStart core c.id s = _
  simp only [execCopyCommandStart, hnext, ne_eq, not_true_eq_false, ge_iff_le, Nat.not_le.2 hroom, or_self, if_false, hrefused,
    State.turnTo]

/-- A command whose checks pass becomes active (R254). -/
theorem exec_copyCommandStart_of_passed (hpass : s.copyRefused core c = none) :
    ∃ t, exec (.copyCommandStart core c.id) s = .next t ∧ t = { s with copies := t.copies }
      ∧ (t.copyRow core).cmds
          = (s.copyRow core).cmds.map (fun x => if x.id = c.id then { c with status := .active } else x) := by
  refine ⟨_, exec_copyCommandStart_eq_putCopy hnext hroom hpass, rfl, ?_⟩
  rw [State.cmds_putCopy, State.turnTo, State.copyRow_setCopies]

/-- A command that its checks refuse fails (R254, R267). -/
theorem exec_copyCommandStart_of_refused (hatt : s.attempts = []) {detail : Nat} {va : Word}
    (hrefused : s.copyRefused core c = some (detail, va)) (htl : c.tl < 16) :
    ∃ t r, exec (.copyCommandStart core c.id) s = .next t ∧ r ∈ t.records ∧ r.cause = 0x50 ∧ r.detail = detail
      ∧ r.word7 = c.n ∧ (t.counter c.oper core c.tl).error = true
      ∧ (∀ x ∈ (t.copyRow core).cmds, x.id ≠ c.id) ∧ s.MemSame t := by
  obtain ⟨r, hr, hcause, hdetail, hword, herr, hgone⟩ := State.failCopy_of_noAttempt (s := s.turnTo core c) hatt core htl
    detail 0 0 va
  exact ⟨_, r, exec_copyCommandStart_eq_failCopy hnext hroom hrefused, hr, hcause, hdetail, hword, herr, hgone, fun p => by
    rw [State.mem_failCopy, State.turnTo, State.mem_setCopies]⟩

end Start

/-! ## A carried product -/

/-- The bytes kept for an owner dropped: no other bytes kept are (R112). -/
theorem State.dropFetched_eq (s : State) (o : Owner) :
    s.dropFetched o = { s with fetched := s.fetched.filter (fun x => !x.of o) } := by
  unfold State.dropFetched
  split
  · next h => rw [List.isEmpty_iff.1 h, List.filter_nil, ← List.isEmpty_iff.1 h]
  · rfl

/-- With no access on its way a command waits for none (R110). -/
theorem State.forcePast_of_idle {s : State} (h : s.accesses = []) (core : Nat) (c : CopyCmd) (keys : List Nat) :
    s.forcePast core c keys = some s := by simp [State.forcePast, h]

/-- The matrix instruction that a command carries, as the copy engine issues it (R251). -/
def CopyCmd.matOp (c : CopyCmd) (k : MatKind) : MatOp :=
  { oper := c.oper, ctx := c.ctx, agent := c.agent, task := c.task, carried := some c.id, kind := k }

/-- With an empty queue a carried instruction has nothing to wait for (R236, R251). -/
theorem State.queueCarried_of_idle {s : State} {core : Nat} (hq : (s.bank core).queue = []) (c : CopyCmd) (k : MatKind) :
    s.queueCarried core c k
      = ((({ s with fetched := s.fetched.filter (fun x => !x.of (c.owner core)) } : State).putCopy core
          { c with carrying := true }).takeFresh).queueMat core (c.matOp k) := by
  have hsettled : k.tiles.foldl (fun t d => t.settleAccs c.oper core d 1) s = s := by
    induction k.tiles with
    | nil => rfl
    | cons d r ih => rw [List.foldl_cons, State.settleAccs_of_idle hq, ih]
  rw [State.queueCarried, hsettled, s.dropFetched_eq]
  rfl

/-- A carried instruction on an empty queue joins it as the copy engine's (R251, R261). -/
theorem State.queueCarried_done {s : State} {core : Nat} (hatt : s.attempts = []) (hq : (s.bank core).queue = [])
    (c : CopyCmd) (k : MatKind) :
    ∃ t, s.queueCarried core c k = t
      ∧ t = { s with
          copies := t.copies, banks := t.banks, notices := t.notices, fresh := s.fresh + 1,
          fetched := s.fetched.filter (fun x => !x.of (c.owner core)) }
      ∧ t.bank core = { s.bank core with queue := [c.matOp k] }
      ∧ (t.copyRow core).cmds
          = (s.copyRow core).cmds.map (fun x => if x.id = c.id then { c with carrying := true } else x) := by
  rw [State.queueCarried_of_idle hq]
  have hcmds := State.cmds_putCopy { s with fetched := s.fetched.filter (fun x => !x.of (c.owner core)) } core
    { c with carrying := true }
  generalize hv : State.putCopy _ core _ = v at hcmds ⊢
  have hframe : v = { s with copies := v.copies, fetched := s.fetched.filter (fun x => !x.of (c.owner core)) } := by
    rw [← hv]
    rfl
  have hbank : v.bank core = s.bank core := by rw [hframe]; rfl
  obtain ⟨ns, hns⟩ := State.queueMat_of_idle (s := v.takeFresh) (by rw [hframe]; exact hatt) (hbank ▸ hq) (c.matOp k)
  refine ⟨_, hns, ?_, ?_, hcmds⟩
  · rw [hframe]
    rfl
  · rw [← hbank]
    exact State.bank_of_putAt (s := v) rfl

/-- The element type that MR held at the issue of a command, as a field of MR (R77). -/
theorem etype_of_mr (mr : BitVec 25) : (mr.extractLsb' 4 4).toNat = fieldOf (BitVec.ofNat 64 mr.toNat) 7 4 := by
  rw [fieldOf_ofNat _ _ _ (mr.isLt.trans (by decide)), BitVec.extractLsb'_toNat, Nat.shiftRight_eq_div_pow]

section Carried

variable {s : State} {core : Nat} {c : CopyCmd} {form : ProductForm} {e : EType} {k : MatKind} {parts : List Part}

/-- A carried product whose checks pass joins the queue (R251, R261). -/
theorem State.issueCarried_of_ok (hform : (fieldOf (c.w 7) 6 0, form) ∈ [(0, ProductForm.mma), (1, .mmaz), (2, .mmab)])
    (he : etypeOf (fieldOf (BitVec.ofNat 64 c.mr.toNat) 7 4) = some e)
    (hp : s.productPlan (c.owner core) (s.copyUser core c) s.mem.readByte form (fieldOf (c.w 7) 22 19)
      (fieldOf (c.w 7) 18 13) (c.w 8) e (c.mr.getLsbD 10) = .ok (k, parts)) :
    s.issueCarried core c = s.queueCarried core c k := by
  rw [← etype_of_mr] at he
  simp only [List.mem_cons, Prod.mk.injEq, List.not_mem_nil, or_false] at hform
  obtain ⟨hw, rfl⟩ | ⟨hw, rfl⟩ | ⟨hw, rfl⟩ := hform
  · simp only [State.issueCarried, hw, he, hp]
  · simp only [State.issueCarried, hw, he, hp]
  · simp only [State.issueCarried, hw, he, hp]

/-- CARRIED_INSTRUCTION_ISSUE of a command whose copy part has been performed, with no access on its way (R251, R261). -/
theorem exec_carriedInstructionIssue_of_done (hacc : s.accesses = [])
    (hfind : (s.copyRow core).cmds.find? (fun x => x.id == c.id) = some c) (hfn : c.fn = 5)
    (hseat : (s.seatOf c.oper core).state ≠ .saved) (hst : c.status = .active) (hcar : c.carrying = false)
    (hpois : c.poison = none) (hdone : s.copyDone core c = true) :
    exec (.carriedInstructionIssue core c.id) s = .next (s.issueCarried core c) := by
  have hout : s.writesOut (c.owner core) = false := by simp [State.writesOut, hacc]
  show execCarriedInstructionIssue core c.id s = _
  simp [execCarriedInstructionIssue, hfind, hfn, hseat, hst, hcar, hpois, hdone, hout, State.forcePast_of_idle hacc]

end Carried

/-- Settles O34: the issue of a command, its start or its failure, and the issue of a carried product. -/
theorem copyIssueAndStartResults : Obligations.CopyIssueAndStartResults := by
  unfold Obligations.CopyIssueAndStartResults
  refine ⟨fun s b tl i fn ws hatt hin hi hws hcarried hcheck hroom hmax => ?_,
    fun s core c hnext hatt hroom => ⟨exec_copyCommandStart_of_passed hnext hroom, fun detail va hrefused htl =>
      exec_copyCommandStart_of_refused hnext hroom hatt hrefused htl⟩,
    fun s core c form e k parts hatt hacc hq hfind hfn hseat hst hcar hpois hdone hform he hp => ?_⟩
  · have hexec : exec i s = .next (s.copy fn b tl)
        ∧ copyLength fn = if fn = 0 ∨ fn = 4 then 4 else if fn = 5 then 9 else 7 := by
      simp only [List.mem_cons, Prod.mk.injEq, List.not_mem_nil, or_false] at hi
      obtain ⟨rfl, rfl⟩ | ⟨rfl, rfl⟩ | ⟨rfl, rfl⟩ | ⟨rfl, rfl⟩ | ⟨rfl, rfl⟩ | ⟨rfl, rfl⟩ := hi <;> exact ⟨rfl, rfl⟩
    obtain ⟨hexec, hlen⟩ := hexec
    rw [← hlen] at hws
    obtain ⟨u, hslots, hcounter, hissue⟩ := State.copyIssue_of_number hatt (fn := fn) (c := s.copyCommand fn tl.toNat ws)
      tl.isLt rfl hmax (s.order ≥ 2) s.scope
    obtain ⟨t, ht, hframe, hfr⟩ := hslots.setCopies_advance s.cur.core { s.copyRow s.cur.core with
      cmds := (s.copyRow s.cur.core).cmds ++ [s.newCopy fn (s.copyCommand fn tl.toNat ws) _ (s.order ≥ 2) s.scope]
      next := (s.copyRow s.cur.core).next + 1 }
    rw [hexec, State.copy_of_room hin hws hcarried hcheck hroom, hissue]
    refine ⟨t, s.newCopy fn (s.copyCommand fn tl.toNat ws) _ (s.order ≥ 2) s.scope, congrArg _ ht, hframe, hfr, ?_, rfl, rfl,
      rfl, rfl, rfl, rfl, rfl, ?_⟩
    · rw [← ht]
      exact congrArg CopyRow.cmds (State.copyRow_setCopies u s.cur.core _)
    · rw [← ht]
      exact hcounter
  · rw [exec_carriedInstructionIssue_of_done hacc hfind hfn hseat hst hcar hpois hdone, State.issueCarried_of_ok hform he hp]
    obtain ⟨t, ht, hresult⟩ := State.queueCarried_done hatt hq c k
    exact ⟨t, congrArg _ ht, hresult⟩

end Sys2Proof.Machine
end

section
/-! One access of a copy command from sector to sector, and the completion of a command (R257, R262 to R264, R266). -/

namespace Sys2Proof.Machine

/-! ## Addresses of one sector -/

theorem toNat_sectorVa (a : Word) : (sectorVa a).toNat = 128 * (a.toNat / 128) := by
  have hmod : (sectorVa a).toNat % 128 = 0 := sector_toNat_mod a
  have hdiv : (sectorVa a).toNat / 2 ^ 7 = a.toNat / 128 := by
    rw [sectorVa, BitVec.toNat_and, Nat.and_div_two_pow, show (~~~(127 : Word)).toNat / 2 ^ 7 = 2 ^ 57 - 1 from rfl,
      Nat.and_two_pow_sub_one_eq_mod]
    exact Nat.mod_eq_of_lt (by omega)
  omega

theorem toNat_sectorVa_add (a : Word) {n : Nat} (h : n < 128) :
    (sectorVa a + BitVec.ofNat 64 n).toNat = 128 * (a.toNat / 128) + n := by
  rw [BitVec.toNat_add, BitVec.toNat_ofNat, toNat_sectorVa]
  omega

/-- A byte of a sector lies in that sector (R4). -/
theorem sectorVa_add (a : Word) {n : Nat} (h : n < 128) : sectorVa (sectorVa a + BitVec.ofNat 64 n) = sectorVa a := by
  refine BitVec.eq_of_toNat_eq ?_
  rw [toNat_sectorVa, toNat_sectorVa, toNat_sectorVa_add a h]
  omega

/-- An address some bytes on from another, counted from the sector of that. -/
theorem add_eq_sectorVa_add (a : Word) (b : Nat) :
    a + BitVec.ofNat 64 b = sectorVa a + BitVec.ofNat 64 (a.toNat % 128 + b) := by
  have ha : a = sectorVa a + BitVec.ofNat 64 (a.toNat % 128) := by
    refine BitVec.eq_of_toNat_eq ?_
    rw [toNat_sectorVa_add a (Nat.mod_lt _ (by omega))]
    omega
  rw [BitVec.ofNat_add, ← BitVec.add_assoc, ← ha]

/-- The offsets of a run of bytes that fits in a sector lie in it. -/
theorem lt_of_mem_offsets {first n : Nat} (h : first + n ≤ 128) : ∀ k ∈ (List.range n).map (first + ·), k < 128 := by
  simp only [List.mem_map, List.mem_range, forall_exists_index, and_imp, forall_apply_eq_imp_iff₂]
  omega

/-- Addresses in one sector that is translated are at their offsets from its place. -/
theorem placesIn_sector (a : Word) (x : Place × Target) {ns : List Nat} (h : ∀ n ∈ ns, n < 128) :
    placesIn [(sectorVa a, x)] (ns.map fun n => sectorVa a + BitVec.ofNat 64 n) = ns.map fun n => (x.1.plus n, x.2) := by
  rw [placesIn, List.map_map]
  refine List.map_congr_left fun n hn => ?_
  have hoff : (sectorVa a + BitVec.ofNat 64 n - sectorVa a).toNat = n := by
    rw [add_sub_cancel_left, BitVec.toNat_ofNat]
    exact Nat.mod_eq_of_lt (by have := h n hn; omega)
  simp only [Function.comp_apply, sectorVa_add a (h n hn), beq_self_eq_true, List.find?_cons_of_pos, hoff]

/-- Words that are all one word are, without repeats, that word. -/
theorem distinctWords_of_const {l : List Word} {a : Word} (hl : l ≠ []) (h : ∀ b ∈ l, b = a) :
    distinctWords l = [a] := by
  have hkeep : ∀ r : List Word, (∀ b ∈ r, b = a) →
      r.foldl (fun acc b => if acc.contains b then acc else acc ++ [b]) [a] = [a] := fun r hr => by
    induction r with
    | nil => rfl
    | cons b r ih =>
      rw [List.foldl_cons, hr b List.mem_cons_self, if_pos (by simp)]
      exact ih fun x hx => hr x (List.mem_cons_of_mem _ hx)
  cases l with
  | nil => exact absurd rfl hl
  | cons b r =>
    obtain rfl := h b List.mem_cons_self
    exact hkeep r fun x hx => h x (List.mem_cons_of_mem _ hx)

/-- Addresses in one sector name that sector alone. -/
theorem sectorsNamed_sector (a : Word) {ns : List Nat} (hne : ns ≠ []) (h : ∀ n ∈ ns, n < 128) :
    ∃ name, sectorsNamed (ns.map fun n => sectorVa a + BitVec.ofNat 64 n) = [(sectorVa a, name)] := by
  have hd : distinctWords ((ns.map fun n => sectorVa a + BitVec.ofNat 64 n).map sectorVa) = [sectorVa a] := by
    refine distinctWords_of_const (by simpa using hne) fun b hb => ?_
    rw [List.map_map] at hb
    obtain ⟨n, hn, rfl⟩ := List.mem_map.1 hb
    exact sectorVa_add a (h n hn)
  rw [sectorsNamed, hd]
  exact ⟨_, rfl⟩

/-! ## Bytes stored at places of their own -/

/-- Of bytes stored at places with keys of their own, each is read where it was stored. -/
theorem Memory.readByte_writeBytes_of_mem {m : Memory} {data : List (Place × Byte)} (hnd : (data.map (·.1.key)).Nodup)
    {x : Place × Byte} (hx : x ∈ data) : (m.writeBytes data).readByte x.1 = x.2 := by
  induction data generalizing m with
  | nil => cases hx
  | cons y r ih =>
    rw [List.map_cons, List.nodup_cons] at hnd
    rcases List.mem_cons.1 hx with rfl | hx
    · refine (Memory.readByte_writeBytes_ne _ r x.1 fun z hz hk => hnd.1 ?_).trans (m.readByte_writeByte_same x.1 x.2)
      exact List.mem_map.2 ⟨z, hz, hk⟩
    · exact ih hnd.2 hx

/-! ## The bytes that an access moves -/

/-- The narrowest span leaves row 0 in its order (R192). -/
theorem swz_zero_zero (b : Nat) : swz 0 0 b = b := by
  simp only [swz, Nat.pow_zero, Nat.mul_one, Nat.zero_mod, Nat.xor_zero]
  omega

/-- The bytes of a row that lies within the first of its sectors, in their order. -/
theorem RowPlace.bytesIn_first {q : RowPlace} (hr : q.r = 0) (h : q.start.toNat % 128 + q.len ≤ 128) :
    q.bytesIn 0 0 = (List.range q.len).map fun j => (q.start.toNat % 128 + j, j) := by
  obtain ⟨r, start, len⟩ := q
  obtain rfl : r = 0 := hr
  dsimp only at h ⊢
  generalize hm : start.toNat % 128 = m at h
  have hsplit : List.range 128 = List.range m ++ ((List.range len).map (m + ·)
      ++ (List.range (128 - m - len)).map (m + len + ·)) := by
    rw [← List.append_assoc, ← List.range_add, ← List.range_add]
    congr 1
    omega
  have hbefore : (List.range m).filterMap (fun t => if t < m then none
      else if t - m < len then some (t, t - m) else none) = [] :=
    List.filterMap_eq_nil_iff.2 fun t ht => if_pos (List.mem_range.1 ht)
  have hin : (List.range len).filterMap (fun j => if m + j < m then none
      else if m + j - m < len then some (m + j, m + j - m) else none) = (List.range len).map fun j => (m + j, j) := by
    rw [← List.filterMap_eq_map]
    refine List.filterMap_congr fun j hj => ?_
    rw [if_neg (by omega), Nat.add_sub_cancel_left, if_pos (List.mem_range.1 hj)]
    rfl
  have hafter : (List.range (128 - m - len)).filterMap (fun j => if m + len + j < m then none
      else if m + len + j - m < len then some (m + len + j, m + len + j - m) else none) = [] :=
    List.filterMap_eq_nil_iff.2 fun j _ => by rw [if_neg (by omega), if_neg (by omega)]
  simp only [RowPlace.bytesIn, hm, Nat.mul_zero, Nat.zero_add, swz_zero_zero, hsplit, List.filterMap_append,
    List.filterMap_map, Function.comp_def, hbefore, hin, hafter, List.nil_append, List.append_nil]

/-- A `cpy` from memory to memory that has moved nothing yet, of some bytes that lie in one sector on each side (R257). -/
structure CopyCmd.InSectors (c : CopyCmd) : Prop where
  fn : c.fn = 0
  src : c.srcTile = none
  dst : c.dstTile = none
  row : c.row = 0
  sec : c.sec = 0
  flags : c.w 3 = 0
  pos : 0 < c.size
  srcFits : (c.w 0).toNat % 128 + c.size ≤ 128
  dstFits : (c.w 1).toNat % 128 + c.size ≤ 128

section InSectors

variable {c : CopyCmd} (h : c.InSectors)

include h

/-- The bytes of its destination, by their offsets in the sector. -/
theorem CopyCmd.InSectors.bytesIn : (c.destRow none 0 0).bytesIn 0 0
    = (List.range c.size).map fun j => ((c.w 1).toNat % 128 + j, j) := by
  have hq : c.destRow none 0 0 = { r := 0, start := c.w 1, len := c.size } := by simp [CopyCmd.destRow, h.fn]
  rw [hq]
  exact RowPlace.bytesIn_first rfl h.dstFits

/-- The sector of its destination. -/
theorem CopyCmd.InSectors.sectorAddr : (c.destRow none 0 0).sectorAddr 0 = sectorVa (c.w 1) := by
  simp [CopyCmd.destRow, RowPlace.sectorAddr, h.fn]

/-- The address of a byte of its source, from the sector of that. -/
theorem CopyCmd.InSectors.sourceAddr (b : Nat) :
    c.sourceAddr none none 0 0 b = sectorVa (c.w 0) + BitVec.ofNat 64 ((c.w 0).toNat % 128 + b) := by
  rw [← add_eq_sectorVa_add]
  simp [CopyCmd.sourceAddr, CopyCmd.linear, h.fn]

end InSectors

/-! ## An access whose sectors can be reached -/

/-- An address that translates to a place of this device that is not the host's, with no bridge down (R267, R381). -/
theorem State.copyXlate_of_here {s : State} {core : Nat} {c : CopyCmd} {va : Word} {n : Need} {p : Place}
    (hbr : s.bridgesDown = []) (hx : s.translate c.oper core c.ctx va n = .ok (p, .here)) (hp : p.isHost = false) :
    s.copyXlate core c va n = .ok (p, .here) := by
  have hcut : s.cutDie core (p, .here) = none := by simp [State.cutDie, State.cutBetween, hbr]
  simp only [State.copyXlate, hx, hcut, hp, Bool.false_and, Bool.false_eq_true, if_false]

/-- A sector that is reached, as the one sector of an access. -/
theorem State.copyXlates_one {s : State} {core : Nat} {c : CopyCmd} {n : Need} {sec : Word} {x : Place × Target}
    (h : s.copyXlate core c sec n = .ok x) (name : Word) : s.copyXlates core c n [(sec, name)] = .ok [(sec, x)] := by
  simp only [State.copyXlates, h]

/-- Places of this device are all there to be read where no access is on its way (R112). -/
theorem State.allFetched_of_here {s : State} (hacc : s.accesses = []) (o : Owner) {xs : List (Place × Target)}
    (h : ∀ x ∈ xs, x.2 = .here) : s.allFetched o xs = true := by
  have hunread : s.unread o xs = [] := List.filterMap_eq_nil_iff.2 fun x hx => by simp only [h x hx]
  simp [State.allFetched, State.fetchOut, hunread, hacc]

/-- Bytes that an engine writes at places of this device that are in no lost slot and no save image are stored there (R99,
R116, R117). -/
theorem State.engineStore_of_here {s : State} (o : Owner) {data : List (Place × Byte)} (hne : data ≠ [])
    (h : ∀ d ∈ data, s.lineLost d.1.key = false ∧ s.imageOf d.1 = none) (poisoned : Bool) :
    s.engineStore o .here data poisoned = s.storeBytes none data := by
  have hkept : data.filter (fun d => !s.lineLost d.1.key) = data := List.filter_eq_self.2 fun d hd => by simp [(h d hd).1]
  have hchip : s.imageChip (.store data) = none := by
    cases data with
    | nil => exact absurd rfl hne
    | cons d r => simp [State.imageChip, AccessOp.places, (h d List.mem_cons_self).2]
  have hplace : data.map (fun d => (s.imagePlace d.1, d.2)) = data :=
    (List.map_congr_left fun d hd => by rw [State.imagePlace, (h d hd).2]; rfl).trans (List.map_id data)
  have hempty : data.isEmpty = false := by simpa using hne
  simp only [State.engineStore, hempty, Bool.false_eq_true, if_false, hkept, hchip, hplace]

/-- A sector of a row whose source bytes are all of this device and not poisoned, and whose destination is reached in this
device: with no access on its way its bytes are stored (R263). -/
theorem State.copyPiece_of_here {s : State} {core : Nat} {c : CopyCmd} {listed da : Word} {q : Place}
    {tb : List (Nat × Nat)} {sas : List Word} {sx : List (Word × (Place × Target))} {sp : List (Place × Target)}
    (hacc : s.accesses = []) (hpois : s.mem.poison = []) (hfn : c.fn ≠ 4)
    (htb : (c.destRow (s.sideTile core c.dstTile) listed c.row).bytesIn (dspanOf (c.w 3)) c.sec = tb) (hne : tb ≠ [])
    (hda : (c.destRow (s.sideTile core c.dstTile) listed c.row).sectorAddr c.sec = da)
    (hsas : tb.map (fun x => c.sourceAddr (s.sideTile core c.srcTile) (s.sideTile core c.dstTile) listed c.row x.2) = sas)
    (hsx : s.copyXlates core c .read (sectorsNamed sas) = .ok sx)
    (hdx : s.copyXlate core c da .write = .ok (q, .here))
    (hsp : placesIn sx sas = sp) (hhere : ∀ x ∈ sp, x.2 = .here) :
    ∃ c1, s.copyPiece core c listed = .ok ((s.dropFetched (c.owner core)).takeFresh.engineStore (c.owner core) .here
      (((placesIn [(da, (q, .here))] (tb.map fun x => da + BitVec.ofNat 64 x.1)).map (·.1)).zip
        (sp.map fun x => s.mem.readByte x.1)), c1) := by
  have hempty : tb.isEmpty = false := by simpa using hne
  have hfetched := State.allFetched_of_here hacc (c.owner core) hhere
  have hbad : (sp.zip sas).find? (fun x => s.enginePoison (c.owner core) x.1) = none :=
    List.find?_eq_none.2 fun x hx => by
      simp [State.enginePoison, hhere x.1 (List.of_mem_zip hx).1, Memory.poisoned, hpois]
  have hbytes : sp.map (s.copyByte (c.owner core)) = sp.map fun x => s.mem.readByte x.1 :=
    List.map_congr_left fun x hx => by simp only [State.copyByte, State.engineByte, hhere x hx]
  simp only [State.copyPiece, htb, hempty, Bool.false_eq_true, if_false, hda, hfn, hsas, hsx,
    State.copyXlates_one hdx, hsp, State.forcePast_of_idle hacc, hfetched, Bool.not_true, State.windowRoom, List.map_cons,
    List.headD_cons, hbad, hbytes, Option.isSome_none]
  exact ⟨_, rfl⟩

/-- The bytes of a `cpy` within sectors, each with its place in the destination. -/
def State.sectorData (s : State) (c : CopyCmd) (p q : Place) : List (Place × Byte) :=
  (List.range c.size).map fun j =>
    (q.plus ((c.w 1).toNat % 128 + j), s.mem.readByte (p.plus ((c.w 0).toNat % 128 + j)))

theorem State.mem_sectorData (s : State) {c : CopyCmd} (p q : Place) {j : Nat} (h : j < c.size) :
    (q.plus ((c.w 1).toNat % 128 + j), s.mem.readByte (p.plus ((c.w 0).toNat % 128 + j))) ∈ s.sectorData c p q :=
  List.mem_map.2 ⟨j, List.mem_range.2 h, rfl⟩

/-- The bytes of a `cpy` within sectors go to places with keys of their own. -/
theorem State.nodup_sectorData (s : State) (c : CopyCmd) (p q : Place) : ((s.sectorData c p q).map (·.1.key)).Nodup := by
  rw [State.sectorData, List.map_map]
  exact List.nodup_range.map fun i j h => by simpa [Place.plus] using h

section Access

variable {s : State} {core : Nat} {c : CopyCmd} {p q : Place} (hacc : s.accesses = []) (hpois : s.mem.poison = [])
  (hbr : s.bridgesDown = []) (hc : c.InSectors)
  (hsrc : s.translate c.oper core c.ctx (sectorVa (c.w 0)) .read = .ok (p, .here)) (hp : p.isHost = false)
  (hdst : s.translate c.oper core c.ctx (sectorVa (c.w 1)) .write = .ok (q, .here)) (hq : q.isHost = false)

include hacc hpois hbr hc hsrc hp hdst hq

/-- The one access of the command is made, of its bytes (R257, R263). -/
theorem State.copyStep_of_inSectors : ∃ c1, s.copyStep core c
    = .ok ((s.dropFetched (c.owner core)).takeFresh.engineStore (c.owner core) .here (s.sectorData c p q), c1) := by
  have hne : List.range c.size ≠ [] := by simpa using hc.pos.ne'
  have hsrcLt := lt_of_mem_offsets hc.srcFits
  obtain ⟨name, hname⟩ := sectorsNamed_sector (c.w 0) (by simpa using hne) hsrcLt
  obtain ⟨c1, h⟩ := State.copyPiece_of_here (core := core) (c := c) (listed := 0) hacc hpois (by simp [hc.fn])
    (tb := (List.range c.size).map fun j => ((c.w 1).toNat % 128 + j, j))
    (sas := ((List.range c.size).map ((c.w 0).toNat % 128 + ·)).map fun n => sectorVa (c.w 0) + BitVec.ofNat 64 n)
    (sx := [(sectorVa (c.w 0), (p, .here))])
    (by simp only [State.sideTile, hc.dst, hc.row, hc.sec, hc.flags]; exact hc.bytesIn)
    (by simpa using hne)
    (by simp only [State.sideTile, hc.dst, hc.row, hc.sec]; exact hc.sectorAddr)
    (by simp only [State.sideTile, hc.src, hc.dst, hc.row, Option.map_none, hc.sourceAddr, List.map_map,
      Function.comp_def])
    (hname ▸ State.copyXlates_one (State.copyXlate_of_here hbr hsrc hp) name)
    (State.copyXlate_of_here hbr hdst hq) (placesIn_sector _ _ hsrcLt) (by simp)
  have hplaces := placesIn_sector (c.w 1) (q, Target.here) (lt_of_mem_offsets hc.dstFits)
  simp only [List.map_map, Function.comp_def] at h hplaces
  have hindexed : c.indexed = false := by simp [CopyCmd.indexed, hc.fn]
  rw [hplaces, List.map_map, List.zip_map'] at h
  refine ⟨c1, ?_⟩
  rw [State.copyStep, hindexed]
  exact h

/-- COPY_SECTOR_ACCESS of the command stores its bytes where its destination's sector can be reached (R257, R263). -/
theorem exec_copySectorAccess_of_inSectors (hatt : s.attempts = [])
    (hfind : (s.copyRow core).cmds.find? (s.copyCan core) = some c)
    (hreach : ∀ j < 128, s.lineLost (q.key + j) = false ∧ s.imageOf (q.plus j) = none) :
    ∃ t, exec (.copySectorAccess core c.id) s = .next t
      ∧ t = { s with
          copies := t.copies, mem := t.mem, notices := t.notices, fresh := s.fresh + 1,
          fetched := s.fetched.filter (fun x => !x.of (c.owner core)) }
      ∧ ∃ keys, t.mem = (s.mem.writeBytes (s.sectorData c p q)).clearPoison keys := by
  obtain ⟨c1, hstep⟩ := State.copyStep_of_inSectors hacc hpois hbr hc hsrc hp hdst hq
  let u : State := { s with fetched := s.fetched.filter (fun x => !x.of (c.owner core)), fresh := s.fresh + 1 }
  have hu : (s.dropFetched (c.owner core)).takeFresh = u := by rw [State.dropFetched_eq]; rfl
  have hdata : ∀ d ∈ s.sectorData c p q, u.lineLost d.1.key = false ∧ u.imageOf d.1 = none := fun d hd => by
    obtain ⟨j, hj, rfl⟩ := List.mem_map.1 hd
    exact hreach _ (lt_of_mem_offsets hc.dstFits _ (List.mem_map_of_mem hj))
  have hne : s.sectorData c p q ≠ [] := by simpa [State.sectorData] using hc.pos.ne'
  obtain ⟨ns, hstore⟩ := u.storeBytes_of_noAttempt hatt none (s.sectorData c p q)
  rw [hu, State.engineStore_of_here _ hne hdata, hstore] at hstep
  have hexec : exec (.copySectorAccess core c.id) s = .next (({ u with
      mem := (u.mem.writeBytes (s.sectorData c p q)).clearPoison ((s.sectorData c p q).map (·.1.key))
      notices := ns } : State).servedCopy core c1) := by
    show execCopySectorAccess core c.id s = _
    simp only [execCopySectorAccess, hfind, ne_eq, not_true_eq_false, if_false, hstep]
  exact ⟨_, hexec, rfl, _, rfl⟩

end Access

/-! ## The completion of a command -/

theorem State.copyRow_setTile (s : State) (core entry : Nat) (x : TileEntry) (k : Nat) :
    (s.setTile core entry x).copyRow k = s.copyRow k := rfl

/-- A command that names no tile is taken off its core's list, and that is all (R254). -/
theorem State.dropCopy_of_noTile (s : State) (core : Nat) {c : CopyCmd} (hsrc : c.srcTile = none) (hdst : c.dstTile = none) :
    s.dropCopy core c = s.setCopies core { s.copyRow core with
      cmds := (s.copyRow core).cmds.filter (fun x => x.id != c.id) } := by
  simp only [State.dropCopy, hsrc, hdst]
  rfl

/-- A command that fills a tile which no change to empty waits for is taken off its core's list and counted out of the tile
(R193, R254). -/
theorem State.dropCopy_of_fill {s : State} {core e : Nat} {c : CopyCmd} (hsrc : c.srcTile = none) (hdst : c.dstTile = some e)
    (hpend : (s.tileOf core e).pendingEmpty = false) :
    s.dropCopy core c = (s.setCopies core { s.copyRow core with
      cmds := (s.copyRow core).cmds.filter (fun x => x.id != c.id) }).countTile core false e := by
  have hkept : ∀ u : State, u.tileOf core e = s.tileOf core e →
      ((u.countTile core false e).tileOf core e).pendingEmpty = false := fun u hu => by
    rw [State.countTile, State.tileOf_setTile, hu]
    exact hpend
  simp only [State.dropCopy, hsrc, hdst, Option.toList_none, Option.toList_some, List.nil_append, distinct, List.filter_nil,
    List.foldl_cons, List.foldl_nil, hkept (s.setCopies core _) rfl, Bool.false_and, Bool.false_eq_true, if_false]

section EndCopy

variable {s : State} {core : Nat} {c : CopyCmd} (hatt : s.attempts = []) (htl : c.tl < 16) (hsrc : c.srcTile = none)

include hatt htl hsrc

/-- A command that names no tile and ends completes its number and frees its entry (R254, R264). -/
theorem State.endCopy_of_noTile (hdst : c.dstTile = none) :
    s.endCopy core c = { s with
        copies := (s.endCopy core c).copies, seats := (s.endCopy core c).seats, notices := (s.endCopy core c).notices }
      ∧ ((s.endCopy core c).copyRow core).cmds = (s.copyRow core).cmds.filter (fun x => x.id != c.id)
      ∧ (s.endCopy core c).counter c.oper core c.tl = (s.counter c.oper core c.tl).complete c.n := by
  obtain ⟨ns, hset⟩ := State.setCounter_of_noAttempt hatt c.oper core c.tl ((s.counter c.oper core c.tl).complete c.n)
  rw [State.endCopy, hset, State.dropCopy_of_noTile _ core hsrc hdst]
  refine ⟨rfl, ?_, State.counter_of_withCounter htl rfl⟩
  rw [State.copyRow_setCopies]
  rfl

/-- A command that ends with no change to empty waiting for the tile it fills completes its number, frees its entry, and is
counted out of the tile (R193, R254, R264). -/
theorem State.endCopy_of_fill {e : Nat} (hdst : c.dstTile = some e) (hpend : (s.tileOf core e).pendingEmpty = false) :
    (s.endCopy core c).tileOf core e = { s.tileOf core e with inFlight := (s.tileOf core e).inFlight - 1 }
      ∧ (∀ x ∈ ((s.endCopy core c).copyRow core).cmds, x.id ≠ c.id)
      ∧ (s.endCopy core c).counter c.oper core c.tl = (s.counter c.oper core c.tl).complete c.n := by
  obtain ⟨ns, hset⟩ := State.setCounter_of_noAttempt hatt c.oper core c.tl ((s.counter c.oper core c.tl).complete c.n)
  rw [State.endCopy]
  generalize s.setCounter .. = u at hset
  have htile : u.tileOf core e = s.tileOf core e := by rw [hset]; rfl
  rw [State.dropCopy_of_fill hsrc hdst (htile ▸ hpend), State.countTile]
  refine ⟨(State.tileOf_setTile ..).trans (congrArg (fun y : TileEntry => { y with inFlight := y.inFlight - 1 }) htile),
    fun x hx => ?_, State.counter_of_withCounter htl (by rw [hset]; rfl)⟩
  rw [State.copyRow_setTile, State.copyRow_setCopies] at hx
  simpa using (List.mem_filter.1 hx).2

end EndCopy

/-- A tile stamped has a stamp, and the new span where it had none or another (R262). -/
theorem TileEntry.stampWith_stamp (e : TileEntry) (span : Nat) : (e.stampWith span).stampV = true
    ∧ (e.stampV = false ∨ span ≠ e.span → (e.stampWith span).stamp = span) := by
  unfold TileEntry.stampWith
  split
  · exact ⟨rfl, fun _ => rfl⟩
  · next h =>
    simp only [Bool.not_eq_true', not_or, Bool.not_eq_false, not_not] at h
    exact ⟨h.1, fun hs => absurd hs (by simp [h.1, h.2])⟩

theorem TileEntry.stampWith_eq (e : TileEntry) (span : Nat) :
    e.stampWith span = { e with stamp := (e.stampWith span).stamp, stampV := (e.stampWith span).stampV } := by
  unfold TileEntry.stampWith
  split <;> rfl

/-- The entry that a command with FIN leaves ready: stamped with the span of its destination side (R262). -/
def TileEntry.filledWith (e : TileEntry) (span : Nat) : TileEntry := { e.stampWith span with state := 2 }

/-- The destination tile of a command stamped, and the command marked for it (R262). -/
def State.stampTile (s : State) (core : Nat) (c : CopyCmd) (e : Nat) : State :=
  (s.setTile core e ((s.tileOf core e).stampWith (dspanOf (c.w 3)))).putCopy core { c with stamped := true }

theorem State.tileOf_stampTile (s : State) (core : Nat) (c : CopyCmd) (e : Nat) :
    (s.stampTile core c e).tileOf core e = (s.tileOf core e).stampWith (dspanOf (c.w 3)) := State.tileOf_setTile ..

/-- A command with FIN that finds no earlier fill of its filling tile outstanding or failed makes the tile ready and ends
(R262). -/
theorem State.finishCopy_of_fin {s : State} {core e : Nat} {c : CopyCmd} (hdst : c.dstTile = some e)
    (hfin : finOf (c.w 3) = true) (hprior : c.prior = []) (hstamped : c.stamped = false)
    (hfails : (s.tileOf core e).failedFills = []) (hst : (s.tileOf core e).state = 1) :
    s.finishCopy core c = ((s.stampTile core c e).setTileState core e 2).endCopy core c := by
  have htile := s.tileOf_stampTile core c e
  rw [TileEntry.stampWith_eq] at htile
  have hfails' : ((s.stampTile core c e).tileOf core e).failedFills = [] := by rw [htile]; exact hfails
  have hst' : ((s.stampTile core c e).tileOf core e).state = 1 := by rw [htile]; exact hst
  rw [State.finishCopy]
  split
  · next hnone => rw [hdst] at hnone; cases hnone
  · next e' he =>
    obtain rfl : e = e' := Option.some.inj (hdst.symm.trans he)
    have hs1 : (if c.stamped = true then s
        else (s.setTile core e ((s.tileOf core e).stampWith (dspanOf (c.w 3)))).putCopy core { c with stamped := true })
        = s.stampTile core c e := if_neg (by simp [hstamped])
    dsimp only
    rw [hs1, if_neg (by simp [hfin]), if_neg (by simp [hprior]), if_neg (by simp [hfails']), if_pos hst']

/-- The end of a command that makes its tile ready (R262). -/
theorem State.finishCopy_ready {s : State} {core e : Nat} {c : CopyCmd} (hatt : s.attempts = []) (htl : c.tl < 16)
    (hsrc : c.srcTile = none) (hdst : c.dstTile = some e)
    (hfin : finOf (c.w 3) = true) (hprior : c.prior = []) (hstamped : c.stamped = false)
    (hfails : (s.tileOf core e).failedFills = []) (hst : (s.tileOf core e).state = 1)
    (hpend : (s.tileOf core e).pendingEmpty = false) :
    (s.finishCopy core c).tileOf core e = { (s.tileOf core e).filledWith (dspanOf (c.w 3)) with
        inFlight := ((s.tileOf core e).filledWith (dspanOf (c.w 3))).inFlight - 1 }
      ∧ (∀ x ∈ ((s.finishCopy core c).copyRow core).cmds, x.id ≠ c.id)
      ∧ (s.finishCopy core c).counter c.oper core c.tl = (s.counter c.oper core c.tl).complete c.n := by
  have hkept := (s.tileOf core e).stampWith_eq (dspanOf (c.w 3))
  obtain ⟨ns, hns⟩ := State.writeWord_of_noAttempt
    (s := (s.stampTile core c e).setTile core e ((s.tileOf core e).filledWith (dspanOf (c.w 3)))) hatt (.tile core e)
  rw [State.finishCopy_of_fin hdst hfin hprior hstamped hfails hst, State.setTileState, State.tileOf_stampTile,
    ← TileEntry.filledWith]
  generalize State.writeWord _ _ = u at hns
  have htile : u.tileOf core e = (s.tileOf core e).filledWith (dspanOf (c.w 3)) := by
    rw [hns]
    exact State.tileOf_setTile ..
  have hcounter : u.counter c.oper core c.tl = s.counter c.oper core c.tl := by rw [hns]; rfl
  have huatt : u.attempts = [] := by rw [hns]; exact hatt
  have hupend : (u.tileOf core e).pendingEmpty = false := by
    rw [htile]
    exact (congrArg TileEntry.pendingEmpty hkept).trans hpend
  have hend := State.endCopy_of_fill huatt htl hsrc hdst hupend
  rwa [htile, hcounter] at hend

/-- COPY_COMMAND_COMPLETE of a command that has moved bytes, has none left, none unacknowledged, no poison and nothing
carried does its tile steps and ends (R262). -/
theorem exec_copyCommandComplete_of_done {s : State} {core : Nat} {c : CopyCmd}
    (hfind : (s.copyRow core).cmds.find? (fun x => x.id == c.id) = some c) (hst : c.status = .active)
    (hdone : s.copyDone core c = true) (hpois : c.poison = none) (hfn : c.fn ≠ 5) (hmoved : c.moved = true)
    (hout : s.writesOut (c.owner core) = false) :
    exec (.copyCommandComplete core c.id) s = .next (s.finishCopy core c) := by
  have hactive : (CopyStatus.active == CopyStatus.waiting) = false := rfl
  show execCopyCommandComplete core c.id s = _
  simp only [execCopyCommandComplete, hfind, hst, hactive, hdone, hout, Bool.not_true, Bool.or_self, Bool.false_eq_true,
    if_false, hpois, hfn, false_and, hmoved, Bool.false_and]

/-- Settles O35: the one access of a `cpy` by the bytes it stores, and the completion of a command by the tile it names. -/
theorem copyTransferResults : Obligations.CopyTransferResults := by
  unfold Obligations.CopyTransferResults
  refine ⟨fun s core c p q hatt hacc hpois hbr hfind hfn hsrcTile hdstTile hrow hsec hflags hpos hsrcFits hdstFits hsrc hp
      hdst hq hreach => ?_,
    fun s core c hatt hfind hst hdone hpois hfn hmoved htl hsrc hout => ?_⟩
  · have hc : c.InSectors := ⟨hfn, hsrcTile, hdstTile, hrow, hsec, hflags, hpos, hsrcFits, hdstFits⟩
    obtain ⟨t, hexec, hframe, keys, hmem⟩ := exec_copySectorAccess_of_inSectors hacc hpois hbr hc hsrc hp hdst hq hatt
      hfind hreach
    refine ⟨t, hexec, hframe, fun j hj => ?_, fun x hx => ?_⟩
    · rw [hmem, Memory.readByte_clearPoison]
      exact Memory.readByte_writeBytes_of_mem (s.nodup_sectorData c p q) (s.mem_sectorData p q hj)
    · rw [hmem, Memory.readByte_clearPoison]
      refine Memory.readByte_writeBytes_ne _ _ _ fun d hd => ?_
      obtain ⟨j, hj, rfl⟩ := List.mem_map.1 hd
      exact hx _ (List.mem_map_of_mem hj)
  · rw [exec_copyCommandComplete_of_done hfind hst hdone hpois hfn hmoved hout]
    refine ⟨fun hdst => ?_, fun e hdst hfin hprior hstamped hfails hstate hpend => ?_⟩
    · have hend : s.finishCopy core c = s.endCopy core c := by rw [State.finishCopy, hdst]
      rw [hend]
      exact ⟨_, rfl, State.endCopy_of_noTile hatt htl hsrc hdst⟩
    · obtain ⟨htile, hgone, hcounter⟩ := State.finishCopy_ready hatt htl hsrc hdst hfin hprior hstamped hfails hstate
        hpend
      obtain ⟨hstampV, hstamp⟩ := (s.tileOf core e).stampWith_stamp (dspanOf (c.w 3))
      exact ⟨_, rfl, congrArg TileEntry.state htile, (congrArg TileEntry.stampV htile).trans hstampV,
        fun h => (congrArg TileEntry.stamp htile).trans (hstamp h), hgone, hcounter⟩

end Sys2Proof.Machine
end

section
/-! The churns of a core and what they hold: one churn replaced, every churn of a core remade, and what the steps of a network
leave as it was (R272, R283, R287, R304). -/

namespace Sys2Proof.Machine

/-! ## Tables with several rows changed -/

/-- Rows that are no key of the changes are as they were. -/
theorem getAt_foldl_putAt_of_notMem {α β : Type} {d : β} {key : α → Nat} {h : α → β → β} {l : List α} {k : Nat}
    (hk : ∀ a ∈ l, k ≠ key a) (t : Tab β) :
    getAt d (l.foldl (fun t a => putAt t (key a) (h a (getAt d t (key a)))) t) k = getAt d t k := by
  induction l generalizing t with
  | nil => rfl
  | cons a r ih =>
    rw [List.foldl_cons, ih fun b hb => hk b (List.mem_cons_of_mem _ hb), getAt_putAt_ne _ _ _ (hk a List.mem_cons_self)]

/-- Of changes under keys of their own each is made to the row as it was. -/
theorem getAt_foldl_putAt_of_mem {α β : Type} {d : β} {key : α → Nat} {h : α → β → β} {l : List α}
    (hn : (l.map key).Nodup) {a : α} (ha : a ∈ l) (t : Tab β) :
    getAt d (l.foldl (fun t b => putAt t (key b) (h b (getAt d t (key b)))) t) (key a) = h a (getAt d t (key a)) := by
  induction l generalizing t with
  | nil => cases ha
  | cons b r ih =>
    rw [List.map_cons, List.nodup_cons] at hn
    rw [List.foldl_cons]
    rcases List.mem_cons.1 ha with rfl | har
    · rw [getAt_foldl_putAt_of_notMem fun c hc e => hn.1 (List.mem_map.2 ⟨c, hc, e.symm⟩), getAt_putAt_same]
    · rw [ih hn.2 har, getAt_putAt_ne _ _ _ fun e => hn.1 (List.mem_map.2 ⟨a, har, e⟩)]

/-- An entry of a vector that has been set is read back, and every other is as it was. -/
theorem getD_toList_setIfInBounds {α : Type} {n : Nat} (v : Vector α n) (i : Nat) (x d : α) {j : Nat} (hj : j < n) :
    (v.setIfInBounds i x).toList.getD j d = if j = i then x else v.toList.getD j d := by
  simp only [List.getD_eq_getElem?_getD, Vector.getElem?_toList, Vector.getElem?_setIfInBounds, eq_comm (a := i)]
  split
  · next h => rw [if_pos (h ▸ hj), Option.getD_some]
  · rfl

/-! ## One churn -/

/-- Nothing but churns differs. -/
def State.OnlyChurns (s t : State) : Prop := t = { s with churns := t.churns }

theorem State.OnlyChurns.trans {s t u : State} (h : s.OnlyChurns t) (k : t.OnlyChurns u) : s.OnlyChurns u := by
  unfold State.OnlyChurns at *
  rw [k, h]

@[simp] theorem State.churnRow_setChurnRow (s : State) (core : Nat) (r : ChurnRow) : (s.setChurnRow core r).churnRow core = r :=
  getAt_putAt_same _ _ _ _

theorem State.onlyChurns_setChurnRow (s : State) (core : Nat) (r : ChurnRow) : s.OnlyChurns (s.setChurnRow core r) := rfl

theorem State.churnRow_setChurn (s : State) (core i : Nat) (c : Churn) : (s.setChurn core i c).churnRow core
    = { s.churnRow core with churns := (s.churnRow core).churns.setIfInBounds i c } := State.churnRow_setChurnRow _ _ _

@[simp] theorem State.parked_setChurn (s : State) (core i : Nat) (c : Churn) :
    ((s.setChurn core i c).churnRow core).parked = (s.churnRow core).parked := by rw [State.churnRow_setChurn]

@[simp] theorem State.nextXop_setChurn (s : State) (core i : Nat) (c : Churn) :
    ((s.setChurn core i c).churnRow core).nextXop = (s.churnRow core).nextXop := by rw [State.churnRow_setChurn]

/-- A row that keeps its churns keeps each of them. -/
theorem State.churn_setChurnRow (s : State) (core i : Nat) {r : ChurnRow} (h : r.churns = (s.churnRow core).churns) :
    (s.setChurnRow core r).churn core i = s.churn core i := by rw [State.churn, State.churnRow_setChurnRow, h, State.churn]

/-- A churn that has been replaced is read back, and every other is as it was. -/
theorem State.churn_setChurn (s : State) (core i : Nat) (c : Churn) {j : Nat} (hj : j < 4) :
    (s.setChurn core i c).churn core j = if j = i then c else s.churn core j := by
  rw [State.churn, State.churnRow_setChurn]
  exact getD_toList_setIfInBounds _ i c _ hj

theorem State.churn_setChurn_same (s : State) (core : Nat) {i : Nat} (hi : i < 4) (c : Churn) :
    (s.setChurn core i c).churn core i = c := by rw [s.churn_setChurn core i c hi, if_pos rfl]

/-! ## Every churn of a core remade -/

/-- One churn of a core has become `c`, or was `c` already; nothing else differs. -/
structure State.ChurnNow (s t : State) (core i : Nat) (c : Churn) : Prop where
  frame : s.OnlyChurns t
  parked : (t.churnRow core).parked = (s.churnRow core).parked
  churn : ∀ j < 4, t.churn core j = if j = i then c else s.churn core j

theorem State.churnNow_setChurn (s : State) (core i : Nat) (c : Churn) : s.ChurnNow (s.setChurn core i c) core i c :=
  ⟨rfl, s.parked_setChurn core i c, fun _ hj => s.churn_setChurn core i c hj⟩

theorem State.churnNow_self (s : State) (core i : Nat) : s.ChurnNow s core i (s.churn core i) :=
  ⟨rfl, rfl, fun j _ => by split <;> simp_all⟩

/-- Every churn of a core has become what `F` makes of it; nothing else differs. -/
structure State.ChurnsMapped (s t : State) (core : Nat) (F : Churn → Churn) : Prop where
  frame : s.OnlyChurns t
  parked : (t.churnRow core).parked = (s.churnRow core).parked
  churn : ∀ j < 4, t.churn core j = F (s.churn core j)

/-- The churns of a core gone through one after another. -/
theorem State.churnsMapped_foldl {s : State} {core : Nat} {F : Churn → Churn} {f : State → Nat → State}
    (hf : ∀ t i, s.OnlyChurns t → t.ChurnNow (f t i) core i (F (t.churn core i))) :
    s.ChurnsMapped ((List.range 4).foldl f s) core F := by
  have key : ∀ (l : List Nat) (t : State), l.Nodup → s.OnlyChurns t → t.OnlyChurns (l.foldl f t)
      ∧ ((l.foldl f t).churnRow core).parked = (t.churnRow core).parked
      ∧ ∀ j < 4, (l.foldl f t).churn core j = if j ∈ l then F (t.churn core j) else t.churn core j := by
    intro l
    induction l with
    | nil => exact fun t _ _ => ⟨rfl, rfl, fun _ _ => rfl⟩
    | cons i r ih =>
      intro t hn ht
      obtain ⟨hir, hr⟩ := List.nodup_cons.1 hn
      obtain ⟨hframe, hparked, hchurn⟩ := hf t i ht
      obtain ⟨hframe', hparked', hchurn'⟩ := ih (f t i) hr (ht.trans hframe)
      refine ⟨hframe.trans hframe', hparked'.trans hparked, fun j hj => ?_⟩
      rw [List.foldl_cons, hchurn' j hj, hchurn j hj]
      by_cases hji : j = i
      · simp [hji, hir]
      · simp [hji]
  obtain ⟨hframe, hparked, hchurn⟩ := key (List.range 4) s List.nodup_range rfl
  exact ⟨hframe, hparked, fun j hj => by rw [hchurn j hj, if_pos (List.mem_range.2 hj)]⟩

/-- The churns that hold a slot give it up, and no other churn differs (R299, R301). -/
theorem State.clearSlot_spec (s : State) (core ctx slot : Nat) : s.OnlyChurns (s.clearSlot core ctx slot)
    ∧ ∀ i < 4, (s.clearSlot core ctx slot).churn core i
        = if (s.churn core i).has ctx slot then Churn.reset else s.churn core i := by
  have hmapped := State.churnsMapped_foldl (s := s) (core := core)
    (F := fun c => if c.has ctx slot then Churn.reset else c)
    (f := fun t i => if (t.churn core i).has ctx slot then t.setChurn core i Churn.reset else t) fun t i _ => by
      split
      · exact t.churnNow_setChurn core i _
      · exact t.churnNow_self core i
  unfold State.clearSlot
  generalize (List.range 4).foldl _ s = u at hmapped ⊢
  dsimp only
  split
  · exact ⟨hmapped.frame, hmapped.churn⟩
  · refine ⟨hmapped.frame.trans (u.onlyChurns_setChurnRow core _), fun i hi => ?_⟩
    refine Eq.trans (u.churn_setChurnRow core i ?_) (hmapped.churn i hi)
    rfl

/-! ## Flags reported to waves -/

/-- Nothing but waves differs. -/
def State.OnlyWaves (s t : State) : Prop := t = { s with waves := t.waves }

theorem State.OnlyWaves.trans {s t u : State} (h : s.OnlyWaves t) (k : t.OnlyWaves u) : s.OnlyWaves u := by
  unfold State.OnlyWaves at *
  rw [k, h]

theorem State.OnlyWaves.foldl {α : Type} {f : State → α → State} (hf : ∀ (t : State) a, t.OnlyWaves (f t a)) (l : List α) (s : State) :
    s.OnlyWaves (l.foldl f s) := by
  induction l generalizing s with
  | nil => rfl
  | cons a r ih => exact (hf s a).trans (ih _)

theorem State.OnlyWaves.churn {s t : State} (h : s.OnlyWaves t) (core i : Nat) : t.churn core i = s.churn core i := by
  rw [h]
  rfl

theorem State.onlyWaves_xopFlags (s : State) (x : XopRec) (f : Flags) : s.OnlyWaves (s.xopFlags x f) := by
  unfold State.xopFlags
  split <;> rfl

theorem State.onlyWaves_lateFlags (s : State) (n : Net) (e : Option (Nat × Nat × Nat × Flags)) :
    s.OnlyWaves (s.lateFlags n e) := by
  simp only [State.lateFlags]
  repeat' split
  case isTrue => exact s.onlyWaves_xopFlags _ _
  all_goals rfl

theorem State.onlyWaves_endFlags (s : State) (n : Net) : s.OnlyWaves (s.endFlags n) := by
  unfold State.endFlags
  repeat' split
  case isTrue =>
    refine State.OnlyWaves.foldl (fun t e => ?_) _ _
    split
    · exact t.onlyWaves_xopFlags _ _
    · rfl
  all_goals rfl

/-! ## What a step of a network leaves as it was -/

theorem Net.pops_eq (n : Net) (c : Nat) (l : List (ChurnLink × Nat)) : l.foldl (fun u x => u.pop c x.2) n
    = { n with queues := (l.foldl (fun u x => u.pop c x.2) n).queues } := by
  induction l generalizing n with
  | nil => rfl
  | cons x r ih => exact ih _

/-- What an item sent brings to a link: itself, and behind a marker the resting token of an INIT link (R276, R290). -/
def ChurnImage.sentOn (g : ChurnImage) (i : LinkItem) (x : ChurnLink × Nat) : List LinkItem :=
  i :: (if x.1.init && !i.isToken then [g.restToken x.1] else [])

/-- An item sent is appended to the links that leave the position, and nothing but links differs (R283). -/
theorem Net.send_eq (n : Net) (g : ChurnImage) (c p : Nat) (i : LinkItem) : n.send g c p i = { n with
    queues := (g.outOf p).foldl (fun t x => putAt t (x.2 * 16 + c) (getAt [] t (x.2 * 16 + c) ++ g.sentOn i x)) n.queues } := by
  unfold Net.send
  induction g.outOf p generalizing n with
  | nil => rfl
  | cons x r ih => exact ih _

/-- The links that leave a position have keys of their own in a lane copy. -/
theorem ChurnImage.nodup_outOf_keys (g : ChurnImage) (p c : Nat) : ((g.outOf p).map (fun x => x.2 * 16 + c)).Nodup := by
  have hsnd : ((g.outOf p).map Prod.snd).Nodup := g.links.nodup_zipIdx_map_snd.sublist (List.filter_sublist.map _)
  have hkeys : ((g.outOf p).map (fun x => x.2 * 16 + c)) = ((g.outOf p).map Prod.snd).map (fun k => k * 16 + c) := by
    rw [List.map_map]
    rfl
  exact hkeys ▸ hsnd.map fun a b h => by simpa using h

/-- A token sent stands at the end of every link that leaves the position (R283). -/
theorem Net.q_send_of_token (n : Net) (g : ChurnImage) (c p : Nat) {i : LinkItem} (hi : i.isToken = true)
    {x : ChurnLink × Nat} (hx : x ∈ g.outOf p) : (n.send g c p i).q x.2 c = n.q x.2 c ++ [i] := by
  rw [Net.send_eq]
  refine (getAt_foldl_putAt_of_mem (h := fun y q => q ++ g.sentOn i y) (g.nodup_outOf_keys p c) hx n.queues).trans ?_
  rw [ChurnImage.sentOn, hi, Bool.not_true, Bool.and_false]
  rfl

/-- Flags kept change the invocations alone; none change nothing. -/
theorem Net.keepFlags_eq (n : Net) (num k c : Nat) (f : Flags) :
    n.keepFlags num k c f = { n with invs := (n.keepFlags num k c f).invs } := by
  unfold Net.keepFlags
  split <;> rfl

@[simp] theorem Net.keepFlags_zero (n : Net) (num k c : Nat) : n.keepFlags num k c 0 = n := rfl

end Sys2Proof.Machine
end

section
/-! `xload`, `xswap`, `xdrop`, `xmark` and `xqry` on a graph slot (R298 to R302). -/

namespace Sys2Proof.Machine

/-! ## Markers injected -/

/-- The networks of a core, parked ones too. -/
def State.coreNets (s : State) (core : Nat) : List Net :=
  ((List.range 4).filterMap (fun i => (s.churn core i).net)) ++ (s.churnRow core).parked

/-- What `markStreams` makes of a network: a marker injected where the network satisfies the test and its slot is loaded. -/
def State.markIn (s : State) (core : Nat) (p : Net → Bool) (n : Net) : Net :=
  match s.image core n.ctx n.slot with
  | some g => if p n then n.mark g else n
  | none => n

/-- What `markStreams` makes of a churn. -/
def State.markChurn (s : State) (core : Nat) (p : Net → Bool) (c : Churn) : Churn :=
  match c.net with
  | some n => if p n && n.openInv.isSome then { c with net := some (s.markIn core p n), rounds := 0 } else c
  | none => c

theorem State.markIn_congr {s t : State} (h : t.images = s.images) (core : Nat) (p : Net → Bool) :
    t.markIn core p = s.markIn core p := by
  funext n
  rw [State.markIn, State.image, h]
  rfl

/-- `markStreams` changes flags of waves and the churns of the core, each churn by itself (R282, R287). -/
theorem State.markStreams_spec (s : State) (core : Nat) (p : Net → Bool) :
    s.markStreams core p = { s with waves := (s.markStreams core p).waves, churns := (s.markStreams core p).churns }
      ∧ ∀ i < 4, (s.markStreams core p).churn core i = s.markChurn core p (s.churn core i) := by
  unfold State.markStreams
  extract_lets markOne all s1 s2 r
  have hwaves : s.OnlyWaves s1 := State.OnlyWaves.foldl (fun t n => t.onlyWaves_endFlags n) _ _
  have hmapped : s1.ChurnsMapped s2 core (s.markChurn core p) := by
    refine State.churnsMapped_foldl fun t i ht => ?_
    have hmark : t.markIn core p = s.markIn core p := State.markIn_congr (by rw [ht, hwaves]) core p
    unfold State.markChurn
    cases hnet : (t.churn core i).net with
    | none => exact t.churnNow_self core i
    | some n =>
      dsimp only
      split
      · rw [← hmark]
        exact t.churnNow_setChurn core i _
      · exact t.churnNow_self core i
  have hchurn : ∀ i < 4, s2.churn core i = s.markChurn core p (s.churn core i) := fun i hi => by
    rw [hmapped.churn i hi, hwaves.churn]
  have hframe : s2 = { s with waves := s2.waves, churns := s2.churns } := by
    rw [hmapped.frame, hwaves]
  clear_value s2
  split
  · exact ⟨hframe, hchurn⟩
  · refine ⟨?_, fun i hi => Eq.trans (s2.churn_setChurnRow core i ?_) (hchurn i hi)⟩
    · rw [State.setChurnRow, hframe]
    · rfl

/-- A network without an open invocation takes no flags at its end. -/
theorem State.endFlags_of_closed (s : State) {n : Net} (h : n.openInv = none) : s.endFlags n = s := by
  rw [State.endFlags, h]

/-- Steps that each leave a state as it is leave it so together. -/
theorem foldl_eq_self {α β : Type} {f : β → α → β} {l : List α} {z : β} (h : ∀ a ∈ l, f z a = z) : l.foldl f z = z := by
  induction l with
  | nil => rfl
  | cons a r ih => rw [List.foldl_cons, h a List.mem_cons_self, ih fun b hb => h b (List.mem_cons_of_mem _ hb)]

/-- With no open invocation among the networks concerned and none parked, no marker is injected (R287). -/
theorem State.markStreams_of_closed {s : State} {core : Nat} {p : Net → Bool} (hparked : (s.churnRow core).parked = [])
    (h : ∀ n ∈ (s.coreNets core).filter p, n.openInv = none) : s.markStreams core p = s := by
  unfold State.markStreams
  extract_lets markOne all s1 s2 r
  have hends : s1 = s := foldl_eq_self fun n hn => s.endFlags_of_closed (h n hn)
  have hchurns : s2 = s1 := by
    refine foldl_eq_self fun i hi => ?_
    rw [hends]
    split
    · next n hn =>
      have hmem : n ∈ s.coreNets core := List.mem_append_left _ (List.mem_filterMap.2 ⟨i, hi, hn⟩)
      refine if_neg fun hp => ?_
      obtain ⟨hp, hopen⟩ := Bool.and_eq_true_iff.1 hp
      rw [h n (List.mem_filter.2 ⟨hmem, hp⟩)] at hopen
      exact absurd hopen (by decide)
    · rfl
  have hnone : r.parked = [] := by rw [← hparked, ← hends, ← hchurns]
  rw [hnone, List.isEmpty_nil, if_pos rfl, hchurns, hends]

/-- What the sources hold alone grows by what is injected. -/
theorem Net.inject_eq (n : Net) (g : ChurnImage) (f : Nat → Nat → List LinkItem) : n.inject g f = { n with
    pend := (g.sources ×ˢ copies16).foldl (fun t x => putAt t ((x.1 - 32) * 16 + x.2)
      (getAt [] t ((x.1 - 32) * 16 + x.2) ++ f x.1 x.2)) n.pend } := by
  have hpairs : n.inject g f = (g.sources ×ˢ copies16).foldl (fun (m : Net) x => { m with
      pend := putAt m.pend ((x.1 - 32) * 16 + x.2) (m.pendAt x.1 x.2 ++ f x.1 x.2) }) n :=
    foldl_foldl_eq_foldl_product (fun (m : Net) (x : Nat × Nat) => { m with
      pend := putAt m.pend ((x.1 - 32) * 16 + x.2) (m.pendAt x.1 x.2 ++ f x.1 x.2) }) _ _ _
  rw [hpairs]
  clear hpairs
  induction g.sources ×ˢ copies16 generalizing n with
  | nil => rfl
  | cons x r ih => exact ih _

@[simp] theorem Net.invs_inject (n : Net) (g : ChurnImage) (f : Nat → Nat → List LinkItem) : (n.inject g f).invs = n.invs := by
  rw [Net.inject_eq]

/-- A marker closes the invocations under the number of the open one; the next one open is another's (R287). -/
theorem Net.openInv_mark (n : Net) (g : ChurnImage) (h : n.openInv.isSome = true) : (n.mark g).openInv
    = n.invs.find? (fun v => !v.marked && v.num != (n.openInv.map (·.num)).getD 0) := by
  obtain ⟨i, hi⟩ := Option.isSome_iff_exists.1 h
  rw [Net.openInv, Net.mark, hi]
  simp only [Net.invs_inject, Net.setInv, Option.map_some, Option.getD_some]
  induction n.invs with
  | nil => rfl
  | cons v r ih =>
    by_cases hv : v.num = i.num
    · simp [hv, ih]
    · by_cases hm : v.marked = true <;> simp [hv, hm, ih]

/-- The owner of the open invocation of a network has one open. -/
theorem Net.isSome_openInv_of_ownedBy {n : Net} {row task : Nat} (h : n.ownedBy row task = true) : n.openInv.isSome = true := by
  unfold Net.ownedBy at h
  cases hopen : n.openInv with
  | none => simp [hopen] at h
  | some i => rfl

/-! ## xload and xswap -/

section Slot

variable {s : State} {x : BitVec 4} {a : BitVec 6} {data : List Byte} (hin : s.inTx = false)
  (hread : s.readImage (s.getS a) = .ok (s, data))

include hin hread

/-- `xload` of an image that fails a check raises GRAPH_INVALID (R285, R299). -/
theorem exec_xload_of_bad (hbad : imageDetail data x.toNat false none ≠ 0) :
    exec (.xload x a) s = .next (s.trapGraph (s.getS a) (imageDetail data x.toNat false none)) := by
  show execXload x a s = _
  simp only [execXload, hin, hread, hbad, Bool.false_eq_true, if_false, ne_eq, not_false_eq_true, if_true]

/-- `xload` of a valid image with room in the table store, into a slot that is quiet and has no tokens parked (R299). -/
theorem exec_xload_of_valid (hvalid : imageDetail data x.toNat false none = 0)
    (hroom : s.loadedSlots s.cur.core s.ctxId - (if (s.image s.cur.core s.ctxId x.toNat).isSome then 1 else 0)
      < s.storeEntries s.cur.core s.ctxId)
    (hquiet : (s.image s.cur.core s.ctxId x.toNat).isSome = true → s.slotQuiet s.cur.core s.ctxId x.toNat = true)
    (hparked : ∀ n ∈ s.parkedOf s.cur.core s.ctxId x.toNat, n.tokens = 0 ∧ n.unfinished = false) :
    exec (.xload x a) s = .next ((s.clearSlot s.cur.core s.ctxId x.toNat).setImage s.cur.core s.ctxId x.toNat
      (loadedImage data)).advance := by
  have hnone : (s.parkedOf s.cur.core s.ctxId x.toNat).find? (fun n => n.tokens != 0 || n.unfinished) = none :=
    List.find?_eq_none.2 fun n hn => by simp [hparked n hn]
  have hwait : ((s.image s.cur.core s.ctxId x.toNat).isSome && !s.slotQuiet s.cur.core s.ctxId x.toNat) = false := by
    cases hsome : (s.image s.cur.core s.ctxId x.toNat).isSome with
    | false => rfl
    | true => rw [hquiet hsome]; rfl
  show execXload x a s = _
  simp only [execXload, hin, hread, hvalid, hnone, hwait, ge_iff_le, Nat.not_le.2 hroom, Bool.false_eq_true, if_false, ne_eq,
    not_true_eq_false]

/-- The slot that `xload` fills holds the image, its churns have given it up, and nothing else differs but the program
counter (R299). -/
theorem exec_xload_done (hvalid : imageDetail data x.toNat false none = 0)
    (hroom : s.loadedSlots s.cur.core s.ctxId - (if (s.image s.cur.core s.ctxId x.toNat).isSome then 1 else 0)
      < s.storeEntries s.cur.core s.ctxId)
    (hquiet : (s.image s.cur.core s.ctxId x.toNat).isSome = true → s.slotQuiet s.cur.core s.ctxId x.toNat = true)
    (hparked : ∀ n ∈ s.parkedOf s.cur.core s.ctxId x.toNat, n.tokens = 0 ∧ n.unfinished = false) :
    ∃ t, exec (.xload x a) s = .next t ∧ t = { s with images := t.images, churns := t.churns, frags := t.frags }
      ∧ t.image s.cur.core s.ctxId x.toNat = some (loadedImage data)
      ∧ (∀ k, k ≠ imageKey s.cur.core s.ctxId x.toNat → findAt t.images k = findAt s.images k)
      ∧ (∀ i < 4, t.churn s.cur.core i = if (s.churn s.cur.core i).has s.ctxId x.toNat then Churn.reset
          else s.churn s.cur.core i)
      ∧ t.fr = { s.fr with pc := s.fr.pc + 4 } := by
  obtain ⟨hframe, hchurn⟩ := s.clearSlot_spec s.cur.core s.ctxId x.toNat
  refine ⟨_, exec_xload_of_valid hin hread hvalid hroom hquiet hparked, ?_⟩
  generalize s.clearSlot s.cur.core s.ctxId x.toNat = u at hframe hchurn ⊢
  have hfr : u.fr = s.fr := by rw [hframe]; rfl
  refine ⟨?_, findAt_putAt_same _ _ _, fun k hk => ?_, hchurn, (State.fr_advance _).trans ?_⟩
  · rw [hframe]
    rfl
  · refine (findAt_putAt_ne _ _ hk).trans ?_
    rw [hframe]
  · exact congrArg (fun f : Frag => { f with pc := f.pc + 4 }) hfr

/-- `xswap` to another opcode version of the same route plane, with no token of the previous one left (R300). -/
theorem exec_xswap_of_valid {g : ChurnImage} (hg : s.image s.cur.core s.ctxId x.toNat = some g)
    (hvalid : imageDetail data x.toNat true (some g) = 0) (hrv : (loadedImage data).rv = g.rv)
    (hold : s.oldTokens s.cur.core s.ctxId x.toNat g = false) (hov : (loadedImage data).ov ≠ g.ov) (hstrm : g.strm = false) :
    exec (.xswap x a) s = .next (s.setImage s.cur.core s.ctxId x.toNat { g with
      ov := (loadedImage data).ov, ovp := g.ov, plane := (loadedImage data).plane, prev := g.plane }).advance := by
  show execXswap x a s = _
  simp only [execXswap, hin, hread, hg, hvalid, hrv, hold, hov, hstrm, Bool.false_eq_true, if_false, ne_eq, not_true_eq_false,
    Option.getD_some]

/-- `xswap` that the versions or remaining tokens forbid raises VERSION (R300). -/
theorem exec_xswap_of_version {g : ChurnImage} (hg : s.image s.cur.core s.ctxId x.toNat = some g)
    (hvalid : imageDetail data x.toNat true (some g) = 0) {n : Nat} (hn : n = (if (loadedImage data).rv ≠ g.rv then 1 else
      if s.oldTokens s.cur.core s.ctxId x.toNat g then 2 else if (loadedImage data).ov = g.ov then 4 else 0)) (hne : n ≠ 0) :
    exec (.xswap x a) s = .next (s.trap causeVERSION 0 0 n) := by
  subst hn
  show execXswap x a s = _
  simp only [execXswap, hin, hread, hg, hvalid, Bool.false_eq_true, if_false, ne_eq, not_true_eq_false]
  split
  · rfl
  · next hrv =>
    split
    · rfl
    · next hold =>
      split
      · rfl
      · next hov =>
        rw [if_neg hrv, if_neg hold, if_neg hov] at hne
        exact absurd rfl hne

end Slot

/-! ## xdrop, xmark and xqry -/

section Own

variable {s : State} {x : BitVec 4} (hin : s.inTx = false)

include hin

/-- `xdrop` of a slot that is not loaded does nothing (R301). -/
theorem exec_xdrop_of_empty (hnone : s.image s.cur.core s.ctxId x.toNat = none) : exec (.xdrop x) s = .next s.advance := by
  show execXdrop x s = _
  simp only [execXdrop, hin, hnone, Bool.false_eq_true, if_false]

/-- `xdrop` of a loaded slot that is quiet, with no invocation open or parked: the slot empties, its churns give it up, and
nothing else differs but the program counter (R301). -/
theorem exec_xdrop_done (hsome : s.image s.cur.core s.ctxId x.toNat ≠ none) (hparked : (s.churnRow s.cur.core).parked = [])
    (hquiet : s.slotQuiet s.cur.core s.ctxId x.toNat = true)
    (hclosed : ∀ n ∈ s.netsOf s.cur.core s.ctxId x.toNat, n.openInv = none) :
    ∃ t, exec (.xdrop x) s = .next t ∧ t = { s with images := t.images, churns := t.churns, frags := t.frags }
      ∧ t.image s.cur.core s.ctxId x.toNat = none
      ∧ (∀ k, k ≠ imageKey s.cur.core s.ctxId x.toNat → findAt t.images k = findAt s.images k)
      ∧ (∀ i < 4, t.churn s.cur.core i = if (s.churn s.cur.core i).has s.ctxId x.toNat then Churn.reset
          else s.churn s.cur.core i)
      ∧ t.fr = { s.fr with pc := s.fr.pc + 4 } := by
  obtain ⟨g, hg⟩ := Option.ne_none_iff_exists'.1 hsome
  have hnone : s.parkedOf s.cur.core s.ctxId x.toNat = [] := by rw [State.parkedOf, hparked, List.filter_nil]
  obtain ⟨hframe, hchurn⟩ := s.clearSlot_spec s.cur.core s.ctxId x.toNat
  have hexec : exec (.xdrop x) s = .next ({ s.clearSlot s.cur.core s.ctxId x.toNat with
      images := dropAt (s.clearSlot s.cur.core s.ctxId x.toNat).images (imageKey s.cur.core s.ctxId x.toNat) } : State).advance := by
    show execXdrop x s = _
    simp only [execXdrop, hin, hg, State.markStreams_of_closed hparked hclosed, hnone, hquiet, List.head?_nil,
      List.isEmpty_nil, Bool.and_self, Bool.false_eq_true, if_false, if_true]
  refine ⟨_, hexec, ?_⟩
  generalize s.clearSlot s.cur.core s.ctxId x.toNat = u at hframe hchurn ⊢
  have hfr : u.fr = s.fr := by rw [hframe]; rfl
  refine ⟨?_, findAt_dropAt_same _ _, fun k hk => ?_, hchurn, (State.fr_advance _).trans ?_⟩
  · rw [hframe]
    rfl
  · refine (findAt_dropAt_ne _ hk).trans ?_
    rw [hframe]
  · exact congrArg (fun f : Frag => { f with pc := f.pc + 4 }) hfr

/-- `xmark` of a wave with nothing parked in the slot injects the marker into its open invocations there (R287, R301). -/
theorem exec_xmark_done {g : ChurnImage} {i : Nat} {n : Net} (hg : s.image s.cur.core s.ctxId x.toNat = some g)
    (hparked : s.ownParked x.toNat = none) (hi : i < 4) (hnet : (s.churn s.cur.core i).net = some n) (hctx : n.ctx = s.ctxId)
    (hslot : n.slot = x.toNat) (hown : n.ownedBy s.cur.waveKey s.wv.task = true) :
    ∃ t, exec (.xmark x) s = .next t ∧ t = { s with waves := t.waves, churns := t.churns, frags := t.frags }
      ∧ t.churn s.cur.core i = { s.churn s.cur.core i with net := some (n.mark g), rounds := 0 }
      ∧ (n.mark g).openInv = n.invs.find? (fun v => !v.marked && v.num != (n.openInv.map (·.num)).getD 0)
      ∧ t.fr = { s.fr with pc := s.fr.pc + 4 } := by
  have hopen := Net.isSome_openInv_of_ownedBy hown
  have hexec : exec (.xmark x) s = .next (s.markStreams s.cur.core (fun m => m.ctx == s.ctxId && m.slot == x.toNat
      && m.ownedBy s.cur.waveKey s.wv.task)).advance := by
    show execXmark x s = _
    simp only [execXmark, hin, hparked, Bool.false_eq_true, if_false]
  obtain ⟨hframe, hchurn⟩ := s.markStreams_spec s.cur.core (fun m => m.ctx == s.ctxId && m.slot == x.toNat
      && m.ownedBy s.cur.waveKey s.wv.task)
  refine ⟨_, hexec, ?_⟩
  generalize s.markStreams _ _ = u at hframe hchurn ⊢
  refine ⟨?_, ?_, n.openInv_mark g hopen, (State.fr_advance u).trans ?_⟩
  · rw [hframe]
    rfl
  · refine (hchurn i hi).trans ?_
    simp only [State.markChurn, State.markIn, hnet, hctx, hslot, hown, hopen, hg, beq_self_eq_true, Bool.and_self, if_true]
  · rw [hframe]
    rfl

end Own

/-- `xqry` is a scalar result: the slot's state word, or 0 (R302). -/
theorem exec_xqry (s : State) (d : BitVec 6) (x : BitVec 4) : exec (.xqry d x) s = s.putScalar d
    (match s.image s.cur.core s.ctxId x.toNat with
      | some g => s.slotWord s.cur.core s.ctxId x.toNat g
      | none => 0) := rfl

/-! ## The state word of a slot -/

/-- The fields of the state word of a slot (R302). -/
structure SlotFields where
  rv : Nat
  ov : Nat
  ovp : Nat
  strm : Bool
  old : Bool
  quiet : Bool
  agf : Bool
  mism : Bool
  dst2 : Bool
  srcs : Nat
  lat : Nat

/-- The number that the fields make, each at its place in the word (R302). -/
def SlotFields.number (f : SlotFields) : Nat :=
  f.rv * 2 ^ 48 + f.ov * 2 ^ 32 + f.ovp * 2 ^ 16 + 2 ^ 15 + f.strm.toNat * 2 ^ 14 + f.old.toNat * 2 ^ 13 + f.quiet.toNat * 2 ^ 12
    + f.agf.toNat * 2 ^ 11 + f.mism.toNat * 2 ^ 10 + f.dst2.toNat * 2 ^ 9 + f.srcs * 2 ^ 7 + f.lat

/-- Every field lies within its bits. -/
structure SlotFields.Fits (f : SlotFields) : Prop where
  rv : f.rv < 2 ^ 16
  ov : f.ov < 2 ^ 16
  ovp : f.ovp < 2 ^ 16
  srcs : f.srcs < 4
  lat : f.lat < 128

/-- Fields that lie within their bits are read back from the word (R302). -/
theorem SlotFields.Fits.read {f : SlotFields} (h : f.Fits) {x : Word} (hx : x = BitVec.ofNat 64 f.number) :
    (fieldOf x 63 48 = f.rv ∧ fieldOf x 47 32 = f.ov ∧ fieldOf x 31 16 = f.ovp ∧ fieldOf x 8 7 = f.srcs ∧ fieldOf x 6 0 = f.lat)
      ∧ x.getLsbD 15 = true ∧ x.getLsbD 14 = f.strm ∧ x.getLsbD 13 = f.old ∧ x.getLsbD 12 = f.quiet ∧ x.getLsbD 11 = f.agf
      ∧ x.getLsbD 10 = f.mism ∧ x.getLsbD 9 = f.dst2 := by
  obtain ⟨hrv, hov, hovp, hsrcs, hlat⟩ := h
  have hstrm := Bool.toNat_lt f.strm
  have hold := Bool.toNat_lt f.old
  have hquiet := Bool.toNat_lt f.quiet
  have hagf := Bool.toNat_lt f.agf
  have hmism := Bool.toNat_lt f.mism
  have hdst2 := Bool.toNat_lt f.dst2
  have hn : f.number < 2 ^ 64 := by unfold SlotFields.number; omega
  subst hx
  simp only [fieldOf_ofNat _ _ _ hn]
  refine ⟨?_, getLsbD_ofNat_of_bit _ 15 true (by decide) ?_, getLsbD_ofNat_of_bit _ 14 _ (by decide) ?_,
    getLsbD_ofNat_of_bit _ 13 _ (by decide) ?_, getLsbD_ofNat_of_bit _ 12 _ (by decide) ?_,
    getLsbD_ofNat_of_bit _ 11 _ (by decide) ?_, getLsbD_ofNat_of_bit _ 10 _ (by decide) ?_,
    getLsbD_ofNat_of_bit _ 9 _ (by decide) ?_⟩
  case refine_2 => rw [Bool.toNat_true]; unfold SlotFields.number; omega
  all_goals unfold SlotFields.number; omega

/-- An address generator of the slot has abandoned its invocation or is stopped on a record (R294, R302). -/
def State.agFaulty (s : State) (core ctx slot : Nat) : Bool :=
  (s.netsOf core ctx slot).any (fun n => n.ags.any (fun a => a.abandoned || a.stopped.isSome))

/-- The fields of the state word of a loaded slot (R302). -/
def State.slotFields (s : State) (core ctx slot : Nat) (g : ChurnImage) : SlotFields :=
  let old := s.oldTokens core ctx slot g
  { rv := g.rv, ov := g.ov, ovp := if old then g.ovp else 0, strm := g.strm, old := old, quiet := s.slotQuiet core ctx slot,
    agf := s.agFaulty core ctx slot, mism := g.mism, dst2 := g.dst2, srcs := g.srcs, lat := g.lat }

/-- The state word puts its fields together (R302). -/
theorem State.slotWord_eq (s : State) (core ctx slot : Nat) (g : ChurnImage) :
    s.slotWord core ctx slot g = BitVec.ofNat 64 (s.slotFields core ctx slot g).number := by
  have hbit : ∀ (b : Bool) (k : Nat), (if b then k else 0) = b.toNat * k := fun b k => by cases b <;> simp
  have hold : (if s.oldTokens core ctx slot g then g.ovp * 2 ^ 16 + 2 ^ 13 else 0)
      = (if s.oldTokens core ctx slot g then g.ovp else 0) * 2 ^ 16 + (s.oldTokens core ctx slot g).toNat * 2 ^ 13 := by
    cases s.oldTokens core ctx slot g <;> simp
  refine congrArg (BitVec.ofNat 64) ?_
  rw [hold]
  simp only [SlotFields.number, State.slotFields, State.agFaulty, hbit _ (2 ^ 14), hbit _ (2 ^ 12), hbit _ (2 ^ 11),
    hbit _ (2 ^ 10), hbit _ (2 ^ 9)]
  omega

/-- The state word has the fields of R302. -/
theorem State.slotWord_holds (s : State) (core ctx slot : Nat) (g : ChurnImage) :
    s.SlotWordHolds core ctx slot g (s.slotWord core ctx slot g) := by
  intro hrv hov hovp hsrcs hlat old hold
  subst hold
  have hfits : (s.slotFields core ctx slot g).Fits :=
    ⟨hrv, hov, by simp only [State.slotFields]; split <;> omega, hsrcs, hlat⟩
  obtain ⟨⟨h1, h2, h3, h4, h5⟩, h15, h14, h13, h12, h11, h10, h9⟩ := hfits.read (s.slotWord_eq core ctx slot g)
  have hquiet : s.slotQuiet core ctx slot = true
      ↔ ∀ i < 4, (s.churn core i).has ctx slot = true → (s.churn core i).quiescent = true := by
    simp [State.slotQuiet, imp_iff_not_or]
  have hagf : s.agFaulty core ctx slot = true
      ↔ ∃ n ∈ s.netsOf core ctx slot, ∃ a ∈ n.ags, a.abandoned = true ∨ a.stopped.isSome = true := by
    simp [State.agFaulty]
  exact ⟨h1, h2, h3, h15, h14, h13, h12 ▸ hquiet, h11 ▸ hagf, h10, h9, h4, h5⟩

/-- Settles O37: each instruction by the state that its checks let it reach, and the word that `xqry` reads. -/
theorem graphSlotInstructionResults : Obligations.GraphSlotInstructionResults := by
  unfold Obligations.GraphSlotInstructionResults
  intro s x d a data hin _
  refine ⟨fun hread hvalid hroom hquiet hparked => exec_xload_done hin hread hvalid hroom hquiet hparked,
    fun hread hbad hfree => ⟨_, exec_xload_of_bad hin hread hbad, s.trap_trapped _ _ _ _ hfree⟩,
    fun g hread hg hvalid => ⟨fun hrv hold hov hstrm => ?_,
      fun hfree n hn hne => ⟨_, exec_xswap_of_version hin hread hg hvalid hn hne, s.trap_trapped _ _ _ _ hfree⟩⟩,
    exec_xdrop_of_empty hin, exec_xdrop_done hin,
    fun g i n hg hparked hi hnet hctx hslot hown => exec_xmark_done hin hg hparked hi hnet hctx hslot hown,
    fun hnone => ?_, fun g hg => ?_⟩
  · exact ⟨_, exec_xswap_of_valid hin hread hg hvalid hrv hold hov hstrm, rfl, findAt_putAt_same _ _ _,
      fun k hk => findAt_putAt_ne _ _ hk, State.fr_advance _⟩
  · rw [exec_xqry, hnone]
    exact s.putScalar_done d 0
  · obtain ⟨t, hexec, hdone⟩ := s.putScalar_done d (s.slotWord s.cur.core s.ctxId x.toNat g)
    exact ⟨t, _, by rw [exec_xqry, hg, hexec], hdone, s.slotWord_holds _ _ _ g⟩

end Sys2Proof.Machine
end

section
/-! `xop`: entry in an invocation, tokens handed to the sources of the graph, and UNLOADED (R274, R288, R298, R303). -/

namespace Sys2Proof.Machine

/-! ## What an `xop` makes of a network -/

theorem ChurnImage.nodup_sources (g : ChurnImage) : g.sources.Nodup := List.Nodup.filter _ (by decide)

theorem ChurnImage.mem_sources {g : ChurnImage} {ep : Nat} (h : ep ∈ g.sources) : 32 ≤ ep ∧ ep ≤ 35 := by
  have hmem := (List.mem_filter.1 h).1
  simp only [List.mem_cons, List.not_mem_nil, or_false] at hmem
  omega

/-- Every source in every lane copy has a key of its own. -/
theorem ChurnImage.nodup_sourceKeys (g : ChurnImage) :
    ((g.sources ×ˢ copies16).map (fun x => (x.1 - 32) * 16 + x.2)).Nodup := by
  refine List.Nodup.map_on (fun x hx y hy h => ?_) (g.nodup_sources.product List.nodup_range)
  obtain ⟨hx1, hx2⟩ := List.mem_product.1 hx
  obtain ⟨hy1, hy2⟩ := List.mem_product.1 hy
  have hxr := ChurnImage.mem_sources hx1
  have hyr := ChurnImage.mem_sources hy1
  have hxc := List.mem_range.1 hx2
  have hyc := List.mem_range.1 hy2
  exact Prod.ext (by omega) (by omega)

/-- A source holds what is injected behind what it held (R274). -/
theorem Net.pendAt_inject (n : Net) (g : ChurnImage) (f : Nat → Nat → List LinkItem) {ep c : Nat} (hep : ep ∈ g.sources)
    (hc : c < 16) : (n.inject g f).pendAt ep c = n.pendAt ep c ++ f ep c := by
  rw [Net.inject_eq]
  exact getAt_foldl_putAt_of_mem (h := fun x q => q ++ f x.1 x.2) g.nodup_sourceKeys (a := (ep, c))
    (List.mem_product.2 ⟨hep, List.mem_range.2 hc⟩) n.pend

@[simp] theorem Net.queues_inject (n : Net) (g : ChurnImage) (f : Nat → Nat → List LinkItem) :
    (n.inject g f).queues = n.queues := by rw [Net.inject_eq]

/-- Flags kept leave every invocation its `xop`s. -/
theorem Net.xops_keepFlags (n : Net) (num k c : Nat) (f : Flags) :
    (n.keepFlags num k c f).invs.map (·.xops) = n.invs.map (·.xops) := by
  unfold Net.keepFlags
  split
  · rfl
  · rw [List.map_map]
    exact List.map_congr_left fun v _ => by
      rw [Function.comp_apply]
      split <;> rfl

/-- Noting the flags of the beats changes flags of invocations alone (R59, R274). -/
theorem State.noteBeats_spec (s : State) (g : ChurnImage) (d a b : BitVec 7) (n : Net) :
    s.noteBeats g d a b n = { n with invs := (s.noteBeats g d a b n).invs }
      ∧ (s.noteBeats g d a b n).invs.map (·.xops) = n.invs.map (·.xops) := by
  unfold State.noteBeats
  split
  · exact ⟨rfl, rfl⟩
  · next i hfound =>
    clear hfound
    generalize List.range 32 = l
    induction l generalizing n with
    | nil => exact ⟨rfl, rfl⟩
    | cons c r ih =>
      obtain ⟨hframe, hxops⟩ := ih (n.keepFlags i.num (2 * (i.xops.length - 1) + c / 16) (c % 16) (s.beatFlags g d a b c))
      refine ⟨?_, hxops.trans (Net.xops_keepFlags ..)⟩
      rw [List.foldl_cons, hframe, Net.keepFlags_eq]

/-- The `xop` is entered as the last of an invocation, and nothing but invocations differs (R287, R298). -/
theorem Net.addXop_spec (n : Net) (g : ChurnImage) (x : XopRec) (owner task : Nat) :
    n.addXop g x owner task = { n with
        invs := (n.addXop g x owner task).invs, nextInv := (n.addXop g x owner task).nextInv }
      ∧ ∃ l ∈ (n.addXop g x owner task).invs.map (·.xops), l.getLast? = some x := by
  unfold Net.addXop
  cases hopen : n.openInv with
  | none => exact ⟨rfl, [x], by simp, rfl⟩
  | some i =>
    have hmem : i ∈ n.invs := List.mem_of_find?_eq_some hopen
    refine ⟨rfl, i.xops ++ [x], ?_, List.getLast?_concat⟩
    exact List.mem_map.2 ⟨_, List.mem_map.2 ⟨i, hmem, if_pos rfl⟩, rfl⟩

/-- The network that an `xop` leaves: itself entered, its flags noted, its tokens at the sources (R274, R298). -/
def State.netAfterXop (s : State) (g : ChurnImage) (net : Net) (d a b : BitVec 7) (imm : BitVec 4) : Net :=
  (s.noteBeats g d a b (net.addXop g (s.newXop d.toNat g.dst2) s.cur.waveKey s.wv.task)).inject g (s.beatTokens g d a b imm)

theorem State.netAfterXop_spec (s : State) (g : ChurnImage) (net : Net) (d a b : BitVec 7) (imm : BitVec 4) :
    (∃ v ∈ (s.netAfterXop g net d a b imm).invs, v.xops.getLast? = some (s.newXop d.toNat g.dst2))
      ∧ (s.netAfterXop g net d a b imm).queues = net.queues
      ∧ ∀ ep ∈ g.sources, ∀ c < 16, (s.netAfterXop g net d a b imm).pendAt ep c
          = net.pendAt ep c ++ s.beatTokens g d a b imm ep c := by
  obtain ⟨hadd, l, hl, hlast⟩ := net.addXop_spec g (s.newXop d.toNat g.dst2) s.cur.waveKey s.wv.task
  unfold State.netAfterXop
  generalize net.addXop g (s.newXop d.toNat g.dst2) s.cur.waveKey s.wv.task = u at hadd hl ⊢
  obtain ⟨hnote, hxops⟩ := s.noteBeats_spec g d a b u
  refine ⟨?_, ?_, fun ep hep c hc => ?_⟩
  · rw [← hxops] at hl
    obtain ⟨v, hv, rfl⟩ := List.mem_map.1 hl
    exact ⟨v, by rwa [Net.invs_inject], hlast⟩
  · rw [Net.queues_inject, hnote, hadd]
  · rw [Net.pendAt_inject _ _ _ hep hc, Net.pendAt, hnote, hadd, Net.pendAt]

/-! ## The churn that an `xop` goes to -/

/-- An `xop` goes to a churn of its core. -/
theorem State.lt_of_chooseChurn {s : State} {slot i : Nat} {g : ChurnImage} {load : Option (Option Net)}
    (h : s.chooseChurn slot g = some (i, load)) : i < 4 := by
  have hfind : ∀ {p : Nat → Bool} {j : Nat}, (List.range 4).find? p = some j → j < 4 := fun h =>
    List.mem_range.1 (List.mem_of_find?_eq_some h)
  have hfree : ∀ {α : Type} {f : Nat → Nat × α} {y : Nat × α}, (∀ j, (f j).1 = j) →
      (s.freeChurn s.cur.core).map f = some y → y.1 < 4 := by
    intro α f y hf hy
    obtain ⟨j, hj, rfl⟩ := Option.map_eq_some_iff.1 hy
    rw [hf]
    exact hfind hj
  unfold State.chooseChurn at h
  dsimp only at h
  split at h
  · next _ hown =>
    cases h
    exact hfind hown
  · exact hfree (fun _ => rfl) h
  · split at h
    · next hheld =>
      cases h
      exact hfind hheld
    · exact hfree (fun _ => rfl) h

/-- The network that an `xop` is entered in: the churn's, or that of a route plane just made active (R283, R288). -/
def State.netFor (s : State) (slot i : Nat) (g : ChurnImage) (load : Option (Option Net)) : Net :=
  match load with
  | none => ((s.churn s.cur.core i).net).getD (g.freshNet s.ctxId slot)
  | some _ => g.freshNet s.ctxId slot

/-- The state with the wait for a churn over and the route plane in the churn (R288). -/
def State.prepared (s : State) (i : Nat) (load : Option (Option Net)) (net : Net) : State :=
  match load with
  | none => s.setFr { s.fr with churnWait := none }
  | some _ => (s.setFr { s.fr with churnWait := none }).setChurn s.cur.core i { Churn.reset with net := some net }

/-- The next number of an `xop` taken (R298). -/
def State.countXop (s : State) (core : Nat) : State :=
  s.setChurnRow core { s.churnRow core with nextXop := (s.churnRow core).nextXop + 1 }

theorem State.churn_countXop (s : State) (core i : Nat) : (s.countXop core).churn core i = s.churn core i :=
  s.churn_setChurnRow core i (r := { s.churnRow core with nextXop := _ }) rfl

theorem State.nextXop_countXop (s : State) (core : Nat) :
    ((s.countXop core).churnRow core).nextXop = (s.churnRow core).nextXop + 1 := by
  rw [State.countXop, State.churnRow_setChurnRow]

/-- The state after an `xop`: its churn holds the network (R298). -/
def State.afterXop (s : State) (i : Nat) (load : Option (Option Net)) (net m : Net) : State :=
  let u := s.prepared i load net
  ((u.setChurn s.cur.core i { u.churn s.cur.core i with net := some m, rounds := 0, lastXop := s.cycle }).countXop
    s.cur.core).advance

/-- What an `xop` finds its churn to be: returns of a route plane just made active are none (R288). -/
theorem State.prepared_spec (s : State) {i : Nat} (hi : i < 4) (load : Option (Option Net)) (net : Net) :
    s.prepared i load net = { s with churns := (s.prepared i load net).churns, frags := (s.prepared i load net).frags }
      ∧ (s.prepared i load net).fr = { s.fr with churnWait := none }
      ∧ ((s.prepared i load net).churn s.cur.core i).returns = (if load = none then (s.churn s.cur.core i).returns else 0)
      ∧ (∀ j < 4, j ≠ i → (s.prepared i load net).churn s.cur.core j = s.churn s.cur.core j)
      ∧ ((s.prepared i load net).churnRow s.cur.core).nextXop = (s.churnRow s.cur.core).nextXop := by
  cases load with
  | none => exact ⟨rfl, s.fr_setFr _, rfl, fun _ _ _ => rfl, rfl⟩
  | some p =>
    refine ⟨rfl, s.fr_setFr _, ?_, fun j hj hji => ?_, State.nextXop_setChurn ..⟩
    · exact congrArg Churn.returns (State.churn_setChurn_same _ _ hi _)
    · exact (State.churn_setChurn _ _ _ _ hj).trans (if_neg hji)

/-- What an `xop` leaves: its churn with the network, every other churn of the core, and the fragment going on (R298). -/
theorem State.afterXop_spec (s : State) {i : Nat} (hi : i < 4) (load : Option (Option Net)) (net m : Net) :
    ∃ t, s.afterXop i load net m = t ∧ t = { s with churns := t.churns, frags := t.frags }
      ∧ t.fr = { s.fr with churnWait := none, pc := s.fr.pc + 4 }
      ∧ t.churn s.cur.core i = {
          net := some m, returns := (if load = none then (s.churn s.cur.core i).returns else 0), rounds := 0,
          lastXop := s.cycle }
      ∧ (∀ j < 4, j ≠ i → t.churn s.cur.core j = s.churn s.cur.core j)
      ∧ (t.churnRow s.cur.core).nextXop = (s.churnRow s.cur.core).nextXop + 1 := by
  obtain ⟨hframe, hfr, hreturns, hother, hnext⟩ := s.prepared_spec hi load net
  unfold State.afterXop
  generalize s.prepared i load net = u at hframe hfr hreturns hother hnext ⊢
  have hset := u.churnNow_setChurn s.cur.core i
    { u.churn s.cur.core i with net := some m, rounds := 0, lastXop := s.cycle }
  have hcount := u.nextXop_setChurn s.cur.core i
    { u.churn s.cur.core i with net := some m, rounds := 0, lastXop := s.cycle }
  dsimp only
  generalize u.setChurn s.cur.core i _ = v at hset hcount ⊢
  obtain ⟨hv, -, hchurn⟩ := hset
  have hvfr : v.fr = u.fr := by rw [hv]; rfl
  have hcfr : (v.countXop s.cur.core).fr = { s.fr with churnWait := none } := hvfr.trans hfr
  refine ⟨_, rfl, ?_, ?_, ?_, fun j hj hji => ?_, ?_⟩
  · rw [hv, hframe]
    rfl
  · rw [State.fr_advance, hcfr]
  · refine (v.churn_countXop _ _).trans ?_
    rw [hchurn i hi, if_pos rfl, ← hreturns]
  · refine (v.churn_countXop _ _).trans ?_
    rw [hchurn j hj, if_neg hji, hother j hj hji]
  · refine (v.nextXop_countXop _).trans ?_
    rw [hcount, hnext]

/-- A trap of another class than the single step is entered at once outside a trap and an attempt, and holds no other
fragment (R143). -/
theorem State.trapEntry_trapped_of_class (s : State) (cause : Nat) {cls : Nat} (hcls : cls ≠ 2) (tpc taddr tinfo : Word)
    (detail : Nat) (h : s.TrapFree) :
    s.Trapped (s.trapEntry s.cur cause cls tpc taddr tinfo detail) cause cls detail tpc taddr tinfo := by
  obtain ⟨hactive, hin⟩ := h
  unfold State.inTx at hin
  unfold State.Trapped State.trapEntry
  rw [State.wvOf_cur, if_neg (by simp [hactive])]
  cases htx : s.wv.tx with
  | none => simp [hcls, State.setFrOf, State.setWvOf, State.frOf, State.wvOf, State.setFr, State.setWv, State.fr, State.wv]
  | some a =>
    have howner : a.owner ≠ s.cur.frag := by simpa [htx] using hin
    simp [hcls, howner, State.setFrOf, State.setWvOf, State.frOf, State.wvOf, State.setFr, State.setWv, State.fr, State.wv]

section Xop

variable {s : State} {n : BitVec 4} {d a b : BitVec 7} {imm : BitVec 4} (hregs : s.HoldsRegs [a, b, d])

include hregs

/-- `xop` of a slot that is not loaded raises UNLOADED of class 1 (R298). -/
theorem exec_xop_of_unloaded (hnone : s.image s.cur.core s.ctxId n.toNat = none) : exec (.xop n d a b imm) s
    = .next (s.trapEntry s.cur causeUNLOADED 1 s.fr.pc 0 (s.tinfoWord 0) 0) := by
  show execXop n d a b imm s = _
  simp only [execXop, s.withRegs_of_holds _ _ hregs, hnone]

/-- `xop` of a loaded slot outside an attempt, with a churn that holds its route plane or can take it (R288, R298). -/
theorem exec_xop_of_chosen {g : ChurnImage} {i : Nat} {load : Option (Option Net)} {net : Net}
    (hg : s.image s.cur.core s.ctxId n.toNat = some g) (hin : s.inTx = false)
    (hdst : g.dst2 = true → d.toNat + 1 < 8 * s.wv.rblk) (hchosen : s.chooseChurn n.toNat g = some (i, load))
    (hload : load = none ∨ load = some none) (hnet : net = s.netFor n.toNat i g load) :
    exec (.xop n d a b imm) s = .next (s.afterXop i load net (s.netAfterXop g net d a b imm)) := by
  have hi := State.lt_of_chooseChurn hchosen
  have hrange : ¬(g.dst2 = true ∧ d.toNat + 1 ≥ 8 * s.wv.rblk) := fun h => Nat.not_le.2 (hdst h.1) h.2
  subst hnet
  show execXop n d a b imm s = _
  simp only [execXop, s.withRegs_of_holds _ _ hregs, hg, hrange, hin, hchosen, Bool.false_and, Bool.false_eq_true, if_false]
  rcases hload with rfl | rfl
  · rfl
  · simp only [State.afterXop, State.prepared, State.netFor, State.churn_setChurn_same _ _ hi, Option.getD_some]
    rfl

end Xop

/-- Settles O38: the churn chosen for an `xop`, the network that it leaves there, and UNLOADED. -/
theorem graphOperationResults : Obligations.GraphOperationResults := by
  unfold Obligations.GraphOperationResults
  intro s n d a b imm hregs
  refine ⟨fun g i load net hg hin hdst hchosen hload hnet => ?_, fun hnone hfree => ?_⟩
  · have hnet' : net = s.netFor n.toNat i g load := by
      rcases hload with rfl | rfl
      · exact hnet
      · exact hnet
    obtain ⟨t, ht, hframe, hfr, hchurn, hother, hnext⟩ :=
      s.afterXop_spec (State.lt_of_chooseChurn hchosen) load net (s.netAfterXop g net d a b imm)
    obtain ⟨hentered, hqueues, hpend⟩ := s.netAfterXop_spec g net d a b imm
    exact ⟨t, _, (exec_xop_of_chosen hregs hg hin hdst hchosen hload hnet').trans (congrArg _ ht), hframe, hfr, hchurn,
      hother, hnext, hentered, hqueues, hpend⟩
  · exact ⟨_, exec_xop_of_unloaded hregs hnone, s.trapEntry_trapped_of_class _ (by decide) _ _ _ _ hfree⟩

end Sys2Proof.Machine
end

section
/-! What the churns do by themselves: elements and sources that fire, steps of address generators, rounds of the quiescence
detector, parking, and the completion of an `xop` (R279, R283, R289 to R294, R304). -/

namespace Sys2Proof.Machine

/-! ## Elements and sources -/

/-- A step of a network that finds no token out of place: the churn holds what the step leaves, and flags of waves may rise
(R282, R283). -/
theorem State.netStep_spec (s : State) {core i : Nat} (hi : i < 4) (n : Net) {e : NetEffect} (he : e.mism = false) :
    s.netStep core i n e = { s with churns := (s.netStep core i n e).churns, waves := (s.netStep core i n e).waves }
      ∧ ((s.netStep core i n e).churn core i).net = some e.net := by
  have hwaves := (s.moveNet core i e.net).onlyWaves_lateFlags e.net e.flags
  simp only [State.netStep, he, Bool.false_eq_true, if_false]
  refine ⟨?_, ?_⟩
  · rw [hwaves]
    rfl
  · rw [hwaves.churn]
    exact congrArg Churn.net (s.churn_setChurn_same core hi _)

/-- CHURN_ELEMENT_FIRE of a position that has a step (R283). -/
theorem exec_churnElementFire_of_step {s : State} {core i copy pos : Nat} {n : Net} {g : ChurnImage} {e : NetEffect} (hi : i < 4)
    (hnet : (s.churn core i).net = some n) (hg : s.image core n.ctx n.slot = some g) (hcopy : copy < 16)
    (hstep : n.step g copy pos = some e) (he : e.mism = false) :
    ∃ t, exec (.churnElementFire core i copy pos) s = .next t ∧ t = { s with churns := t.churns, waves := t.waves }
      ∧ (t.churn core i).net = some e.net := by
  have hrange : ¬(copy ≥ 16 ∨ i ≥ 4) := by omega
  refine ⟨s.netStep core i n e, ?_, s.netStep_spec hi n he⟩
  show execChurnElementFire core i copy pos s = _
  simp only [execChurnElementFire, hnet, hg, hrange, if_false, hstep]

/-- The step of a compute position that can fire (R279, R283). -/
theorem Net.step_of_canFire {n : Net} {g : ChurnImage} {copy pos : Nat} (hpos : pos < 24)
    (hstale : (g.into pos).find? (n.stale copy) = none) (hfire : n.canFire g copy pos = true) :
    n.step g copy pos = some (n.fire g copy pos) := by
  simp only [Net.step, hpos, if_true, Net.elementStep, hstale, hfire]

/-- The step of a source that has a token and room for it (R274, R283). -/
theorem Net.step_of_token {n : Net} {g : ChurnImage} {copy ep : Nat} {item : LinkItem} {rest : List LinkItem} (hlo : 32 ≤ ep)
    (hhi : ep ≤ 35) (hpend : n.pendAt ep copy = item :: rest) (hroom : n.roomOut g copy ep = true) : n.step g copy ep
      = some (({ n with pend := putAt n.pend ((ep - 32) * 16 + copy) rest } : Net).send g copy ep item).only := by
  simp only [Net.step, Nat.not_lt.2 (Nat.le_trans (by decide : 24 ≤ 32) hlo), hlo, hhi, and_self, if_true, if_false,
    Net.sourceStep, hpend, hroom, Bool.not_true, Bool.and_false, Bool.false_eq_true]

/-- An item sent leaves what the sources hold alone. -/
theorem Net.pendAt_send (n : Net) (g : ChurnImage) (c p : Nat) (i : LinkItem) (ep copy : Nat) :
    (n.send g c p i).pendAt ep copy = n.pendAt ep copy := by
  rw [Net.send_eq]
  rfl

/-- An element that fires counts the firing (R282). -/
theorem Net.firedAt_fire (n : Net) (g : ChurnImage) (copy pos : Nat) :
    (n.fire g copy pos).net.firedAt pos copy = n.firedAt pos copy + 1 := by
  unfold Net.fire
  dsimp only
  rw [Net.keepFlags_eq, Net.send_eq]
  exact getAt_putAt_same _ _ _ _

/-! ## Address generators -/

/-- Flags kept and reported one after another: waves may take them, and invocations of the network keep them (R282). -/
def FlagsKept (r q : State × Net) : Prop := r.1.OnlyWaves q.1 ∧ q.2 = { r.2 with invs := q.2.invs }

theorem FlagsKept.foldl {α : Type} {f : State × Net → α → State × Net} (hf : ∀ r a, FlagsKept r (f r a)) (l : List α)
    (r : State × Net) : FlagsKept r (l.foldl f r) := by
  induction l generalizing r with
  | nil => exact ⟨rfl, rfl⟩
  | cons a l ih =>
    obtain ⟨hwaves, hnet⟩ := hf r a
    obtain ⟨hwaves', hnet'⟩ := ih (f r a)
    refine ⟨hwaves.trans hwaves', ?_⟩
    rw [List.foldl_cons, hnet', hnet]

/-- The flags of a step of an address generator (R282). -/
theorem State.flagsKept_agFlags (s : State) (n : Net) (num k : Nat) (f : Nat → Flags) :
    FlagsKept (s, n) (s.agFlags n num k f) :=
  FlagsKept.foldl (fun r c => ⟨r.1.onlyWaves_lateFlags r.2 (some (num, k, c, f c)), r.2.keepFlags_eq num k c (f c)⟩) copies16 (s, n)

/-- A step of an address generator that raises no flag leaves the network alone. -/
theorem State.agFlags_of_none (s : State) (n : Net) (num k : Nat) {f : Nat → Flags} (hf : ∀ c < 16, f c = 0) :
    (s.agFlags n num k f).2 = n := by
  have key : ∀ (l : List Nat) (r : State × Net), (∀ c ∈ l, f c = 0) → (l.foldl (fun (r : State × Net) c =>
      ((r.1).lateFlags r.2 (some (num, k, c, f c)), r.2.keepFlags num k c (f c))) r).2 = r.2 := by
    intro l
    induction l with
    | nil => exact fun _ _ => rfl
    | cons c l ih =>
      intro r hl
      rw [List.foldl_cons, ih _ fun b hb => hl b (List.mem_cons_of_mem _ hb), hl c List.mem_cons_self]
      exact r.2.keepFlags_zero num k c
  exact key copies16 (s, n) fun c hc => hf c (List.mem_range.1 hc)

/-- A step of an address generator leaves the invocations alone. -/
theorem Net.invs_agMove (n : Net) (g : ChurnImage) (pos v : Nat) (out : Option (Nat → Lane × Lane)) :
    (n.agMove g pos v out).invs = n.invs := by
  unfold Net.agMove
  generalize copies16 = l
  induction l generalizing n with
  | nil => rfl
  | cons c r ih =>
    rw [List.foldl_cons, ih]
    dsimp only
    rw [Net.pops_eq]
    cases out with
    | none => rfl
    | some f =>
      dsimp only
      rw [Net.send_eq]

/-- While every bridge is up no die is cut off (R381). -/
theorem State.cutDie_of_up {s : State} (h : s.bridgesDown = []) (core : Nat) (x : Place × Target) : s.cutDie core x = none := by
  rw [State.cutDie, State.cutBetween, h]
  rfl

/-- With no access on its way an `xop` waits for none (R101, R110). -/
theorem State.forceXop_of_idle {s : State} (h : s.accesses = []) (x : Option XopRec) (keys : List Nat) :
    s.forceXop x keys = some s := by
  cases x with
  | none => rfl
  | some r => simp only [State.forceXop, h, List.filter_nil, List.foldl_nil]

/-- The `xop` that the next step of an address generator belongs to (R282). -/
def Net.agXop (n : Net) (ag : Nat) : Option XopRec :=
  (n.inv (n.passedAt (24 + ag) 0)).bind (fun w => w.xopOf (n.firedAt (24 + ag) 0))

/-- The sectors of a step of an address generator (R292). -/
def agSectors (va : Word) : List Word := distinctWords ((agPlaces va).map sectorVa)

/-- The word that a step of an address generator reads for a lane copy (R292). -/
def State.agRead (s : State) (o : Owner) (ps : List (Place × Target)) (c : Nat) : Lane :=
  BitVec.ofNat 32 (ofBytes (((ps.map (s.engineByte o s.mem.readByte)).drop (4 * c)).take 4))

/-- A read of an address generator can be made: its address is aligned and translates, and its bytes have come (R292). -/
structure State.AgReads (s : State) (core ag : Nat) (n : Net) (e : List Byte) (xs : List (Place × Target)) (o : Owner)
    (ps : List (Place × Target)) : Prop where
  op : entryOp e = 0x20
  idle : s.accesses = []
  up : s.bridgesDown = []
  aligned : aligned (agAddress e (n.ag ag)) 4 = true
  xlate : s.xlateEngine
    { oper := ((n.agXop ag).map (fun r => (s.taskOf r.agent).oper)).getD 0, core := core, ctx := n.ctx, boarded := 0 }
    (agSectors (agAddress e (n.ag ag))) .read = .ok xs
  places : ps = placesIn ((agSectors (agAddress e (n.ag ag))).zip xs) (agPlaces (agAddress e (n.ag ag)))
  fetched : s.allFetched o ps = true
  clean : ps.any (s.enginePoison o) = false

/-- The network after a read of an address generator: a token taken and one sent in each lane copy (R292). -/
def Net.agAfterRead (n : Net) (g : ChurnImage) (ag fmt : Nat) (word : Nat → Lane) : Net :=
  n.agMove g (24 + ag) (n.versionAt g (n.passedAt (24 + ag) 0)) (some (fun c => tokenOf fmt (word c)))

section Generator

variable {s : State} {core i ag : Nat} {n : Net} {g : ChurnImage} {e : List Byte} {xs : List (Place × Target)}
  {ps : List (Place × Target)} (h : s.AgReads core ag n e xs (agOwner core i ag n (n.agXop ag)) ps)

include h

/-- The step of an address generator that reads: its flags, then the network and the counters moved on (R292). -/
theorem State.agAccess_of_read : ∃ r, (s.dropFetched (agOwner core i ag n (n.agXop ag))).agFlags
      (n.agAfterRead g ag (entryMod e % 2) (s.agRead (agOwner core i ag n (n.agXop ag)) ps))
      (n.passedAt (24 + ag) 0) (n.firedAt (24 + ag) 0)
      (fun c => tokenFlags (entryMod e % 2) (s.agRead (agOwner core i ag n (n.agXop ag)) ps c)) = r
    ∧ s.agAccess core i ag n g e = r.1.moveNet core i (r.2.setAg ag ((n.ag ag).next e)) := by
  obtain ⟨hop, hacc, hbr, halign, hxlate, hps, hfetched, hpoison⟩ := h
  have hcut : xs.any (fun p => (s.cutDie core p).isSome) = false :=
    List.any_eq_false.2 fun p _ => by rw [State.cutDie_of_up hbr]; decide
  have hread : (entryOp e == 0x21) = false := by rw [hop]; rfl
  subst hps
  refine ⟨_, rfl, ?_⟩
  unfold Net.agXop agSectors at *
  simp only [State.agAccess, halign, hread, hxlate, hcut, hacc, State.forceXop_of_idle hacc, hfetched, hpoison,
    List.any_nil, Bool.or_self, Bool.not_true, Bool.not_false, Bool.and_false, Bool.false_eq_true, if_false]
  rfl

/-- AG_STEP of a read that every lane copy has a token and room for: the network moves on, keeping the flags raised, and
the bytes that have come are used up (R282, R292). -/
theorem exec_agStep_of_read (hi : i < 4) (hnet : (s.churn core i).net = some n) (hg : s.image core n.ctx n.slot = some g)
    (hag : ag < 2) (he : e = entryAt (g.planeFor (n.versionAt g (n.passedAt (24 + ag) 0))) (24 + ag))
    (hstopped : (n.ag ag).stopped = none) (habandoned : (n.ag ag).abandoned = false) (hover : (n.ag ag).over e = false)
    (hready : ∀ c < 16, (g.into (24 + ag)).find? (n.stale c) = none ∧ (g.into (24 + ag)).all (n.ready c) = true
      ∧ n.roomOut g c (24 + ag) = true) :
    ∃ t m, exec (.agStep core i ag) s = .next t
      ∧ t = { s with
          churns := t.churns, waves := t.waves,
          fetched := s.fetched.filter (fun y => !y.of (agOwner core i ag n (n.agXop ag))) }
      ∧ (t.churn core i).net = some m
      ∧ m = { (n.agAfterRead g ag (entryMod e % 2) (s.agRead (agOwner core i ag n (n.agXop ag)) ps)).setAg ag
          ((n.ag ag).next e) with invs := m.invs }
      ∧ ((∀ c < 16, tokenFlags (entryMod e % 2) (s.agRead (agOwner core i ag n (n.agXop ag)) ps c) = 0) → m.invs = n.invs) := by
  obtain ⟨r, hr, haccess⟩ := State.agAccess_of_read (g := g) h
  obtain ⟨hwaves, hkept⟩ := State.flagsKept_agFlags (s.dropFetched (agOwner core i ag n (n.agXop ag)))
    (n.agAfterRead g ag (entryMod e % 2) (s.agRead (agOwner core i ag n (n.agXop ag)) ps))
    (n.passedAt (24 + ag) 0) (n.firedAt (24 + ag) 0)
    (fun c => tokenFlags (entryMod e % 2) (s.agRead (agOwner core i ag n (n.agXop ag)) ps c))
  rw [hr] at hwaves hkept
  have hlast : copies16.findSome? (fun c => ((g.into (24 + ag)).find? (n.stale c)).map (fun x => (c, x))) = none :=
    List.findSome?_eq_none_iff.2 fun c hc => by rw [(hready c (List.mem_range.1 hc)).1]; rfl
  have hall : copies16.all (fun c => (g.into (24 + ag)).all (n.ready c) && n.roomOut g c (24 + ag)) = true :=
    List.all_eq_true.2 fun c hc => by
      obtain ⟨-, hin, hout⟩ := hready c (List.mem_range.1 hc)
      rw [hin, hout]
      rfl
  have hop : ¬(ag ≥ 2 ∨ i ≥ 4 ∨ entryOp e = 0 ∨ (n.ag ag).stopped.isSome = true) := by
    rw [h.op, hstopped]
    simp
    omega
  refine ⟨r.1.moveNet core i (r.2.setAg ag ((n.ag ag).next e)), r.2.setAg ag ((n.ag ag).next e), ?_, ?_,
    congrArg Churn.net (State.churn_setChurn_same _ _ hi _), ?_, fun hzero => ?_⟩
  · show execAgStep core i ag s = _
    simp only [execAgStep, hnet, hg, ← he, hop, hlast, hall, hover, habandoned, haccess, Bool.or_self, Bool.false_eq_true,
      if_false, if_true]
  · rw [s.dropFetched_eq] at hwaves
    rw [hwaves]
    rfl
  · rw [hkept]
    rfl
  · have hsame := State.agFlags_of_none (s.dropFetched (agOwner core i ag n (n.agXop ag)))
      (n.agAfterRead g ag (entryMod e % 2) (s.agRead (agOwner core i ag n (n.agXop ag)) ps))
      (n.passedAt (24 + ag) 0) (n.firedAt (24 + ag) 0) hzero
    rw [hr] at hsame
    rw [hsame]
    exact n.invs_agMove ..

end Generator

/-! ## Quiescence and parking -/

/-- QUIESCENCE_ROUND with nothing parked: a churn found without tokens, returns and replies has one more such round, up to
two; one that is not has none (R304). -/
theorem exec_quiescenceRound_of_none_parked {s : State} {core i : Nat} {n : Net} (hi : i < 4)
    (hnet : (s.churn core i).net = some n) (hparked : (s.churnRow core).parked = []) :
    exec (.quiescenceRound core i) s = .next (s.setChurn core i { s.churn core i with
      returns := 0
      rounds := if n.tokens = 0 ∧ n.unfinished = false ∧ (s.churn core i).returns = 0 ∧ s.replyCount core i = 0
        then min 2 ((s.churn core i).rounds + 1) else 0 }) := by
  show execQuiescenceRound core i s = _
  simp only [execQuiescenceRound, hi, if_true, State.parked_setChurn, hparked, List.find?_nil, ite_self, hnet, Option.all_some,
    Bool.and_eq_true, beq_iff_eq, Bool.not_eq_true', and_assoc]

/-- STREAM_PARK of the invocation idle longest, for an `xop` that starves: it asks for the host page that the state goes to, or
writes the state and frees the churn (R289, R388). The function that looks for the page stands behind a variable, as the
kernel would otherwise run it over every sector of the save area. -/
theorem exec_streamPark_of_starved {s : State} {core i : Nat} {n : Net} (hnet : (s.churn core i).net = some n)
    (hstarved : ∃ x ∈ s.frags, (fragIdOf x.1).core = core ∧ ∃ c, x.2.churnWait = some c ∧ c + 1024 ≤ s.cycle)
    (hidle : s.idlest core = some i) (hreplies : s.replyCount core i = 0) :
    (∀ e, s.saveStop n.ctx (s.saveRest n.ctx core) = some e →
      exec (.streamPark core i) s = .next (s.askHub (.save n.ctx) n.ctx 2 e))
    ∧ ∀ u, s.saveStop n.ctx (s.saveRest n.ctx core) = none → u = s.saveFree n.ctx (s.saveRest n.ctx core) →
      exec (.streamPark core i) s = .next ((u.setChurnRow core { u.churnRow core with
        parked := (u.churnRow core).parked ++ [n] }).setChurn core i Churn.reset) := by
  obtain ⟨x, hx, hcore, c, hwait, hlong⟩ := hstarved
  have hany : s.frags.any (fun x => (fragIdOf x.1).core == core && (match x.2.churnWait with
      | some c => decide (c + 1024 ≤ s.cycle)
      | none => false)) = true := List.any_eq_true.2 ⟨x, hx, by simp [hcore, hwait, hlong]⟩
  have hexec : exec (.streamPark core i) s = execStreamPark core i s := rfl
  rw [hexec, execStreamPark, if_pos ⟨hany, hidle, hreplies⟩]
  obtain ⟨stop, hfun⟩ : ∃ f, f = s.saveStop := ⟨_, rfl⟩
  rw [← hfun]
  refine ⟨fun e hstop => ?_, fun u hstop hu => ?_⟩
  · simp only [hnet, hstop]
  · simp only [hnet, hstop, ← hu]

/-- An invocation parked stands behind those parked before, and its churn is free again (R289). -/
theorem State.parked_spec (u : State) {core i : Nat} (hi : i < 4) (n : Net) :
    ∃ t, (u.setChurnRow core { u.churnRow core with parked := (u.churnRow core).parked ++ [n] }).setChurn core i Churn.reset = t
      ∧ t = { u with churns := t.churns } ∧ (t.churnRow core).parked = (u.churnRow core).parked ++ [n]
      ∧ t.churn core i = Churn.reset ∧ ∀ j < 4, j ≠ i → t.churn core j = u.churn core j := by
  refine ⟨_, rfl, rfl, ?_, State.churn_setChurn_same _ _ hi _, fun j hj hji => ?_⟩
  · rw [State.parked_setChurn, State.churnRow_setChurnRow]
  · rw [State.churn_setChurn _ _ _ _ hj, if_neg hji]
    exact u.churn_setChurnRow core j (r := { u.churnRow core with parked := _ }) rfl

/-! ## Completion of an `xop` -/

/-- A fold in which one element alone does something does what that element does. -/
theorem foldl_eq_of_only {α β : Type} {f : β → α → β} {l : List α} {a : α} {z : β} (hn : l.Nodup) (ha : a ∈ l)
    (hbefore : ∀ b ∈ l, b ≠ a → f z b = z) (hafter : ∀ b ∈ l, b ≠ a → f (f z a) b = f z a) : l.foldl f z = f z a := by
  obtain ⟨l1, l2, rfl⟩ := List.append_of_mem ha
  have hnot : a ∉ l1 ++ l2 := (List.nodup_middle.1 hn).notMem
  rw [List.foldl_append, List.foldl_cons, foldl_eq_self fun b hb => hbefore b (List.mem_append_left _ hb) fun e =>
    hnot (e ▸ List.mem_append_left _ hb)]
  exact foldl_eq_self fun b hb => hafter b (List.mem_append_right _ (List.mem_cons_of_mem _ hb)) fun e =>
    hnot (e ▸ List.mem_append_right _ hb)

/-- XOP_COMPLETE goes through the churns of a core: one without the `xop` it leaves alone, and in one that holds it and whose
destination tokens and accesses are done it completes it (R293, R298). -/
theorem exec_xopComplete_eq (core id : Nat) : ∃ f : State → Nat → State,
    (∀ s, exec (.xopComplete core id) s = .next ((List.range 4).foldl f s))
    ∧ (∀ t k, (∀ m, (t.churn core k).net = some m → m.findXop id = none) → f t k = t)
    ∧ ∀ t k n g v j x, (t.churn core k).net = some n → t.image core n.ctx n.slot = some g → n.findXop id = some (v, j, x) →
      n.arrived g v.num j = true → n.agsDone g v.num j = true → n.settled g v.num j = true → t.replyCount core k = 0 →
      f t k = t.finishXop core k n g v j x := by
  refine ⟨_, fun s => rfl, fun t k hnone => ?_, fun t k n g v j x hnet hg hfind harrived hags hsettled hreplies => ?_⟩
  · split
    · rfl
    · next m hm =>
      rw [hnone m hm]
      split
      · next heq => cases heq
      · rfl
  · simp only [hnet, hg, hfind, harrived, hags, hsettled, hreplies, Bool.and_self, beq_self_eq_true, if_true]

/-- MISM concerns the image of a slot alone (R302). -/
theorem State.setMism_eq (s : State) (core : Nat) (n : Net) : s.setMism core n = { s with images := (s.setMism core n).images } := by
  unfold State.setMism
  split <;> rfl

/-- Flags of an `xop` reach the flags of its wave alone (R282). -/
theorem State.v_xopFlags (s : State) (x : XopRec) (f : Flags) : ((s.xopFlags x f).wvOf x.agent).v = (s.wvOf x.agent).v := by
  unfold State.xopFlags
  split
  · rw [State.wvOf_setWvOf]
  · rfl

/-- No other wave differs after flags of an `xop`. -/
theorem State.waves_xopFlags_of_ne (s : State) (x : XopRec) (f : Flags) {k : Nat} (hk : k ≠ x.agent.waveKey) :
    findAt (s.xopFlags x f).waves k = findAt s.waves k := by
  unfold State.xopFlags
  split
  · exact findAt_putAt_ne _ _ hk
  · rfl

/-- What an `xop` with one destination does to its register (R298). -/
def State.xopResult (s : State) (n : Net) (g : ChurnImage) (num j : Nat) (x : XopRec) : Vector Lane 32 :=
  withLanes ((s.wvOf x.agent).v.toList.getD (x.regs.getD 0 0) zeroReg) x.guarded
    (fun l => ((n.laneOut g num j 0 (roundingOf x.round) l).map (·.1)).getD 0)

/-- A port's register written changes the wave of the `xop` alone (R298). -/
theorem State.writePort_spec (s : State) (n : Net) (g : ChurnImage) (num j : Nat) (x : XopRec) :
    s.OnlyWaves (s.writePort n g num j x 0)
    ∧ ((s.writePort n g num j x 0).wvOf x.agent).v
        = (s.wvOf x.agent).v.setIfInBounds (x.regs.getD 0 0) (s.xopResult n g num j x)
    ∧ ∀ k, k ≠ x.agent.waveKey → findAt (s.writePort n g num j x 0).waves k = findAt s.waves k :=
  ⟨rfl, congrArg Wave.v (State.wvOf_setWvOf ..), fun _ hk => findAt_putAt_ne _ _ hk⟩

/-- A churn remade, and MISM where it is set, leave everything else alone (R302). -/
theorem State.churn_mism_spec (s : State) {core i : Nat} (c : Churn) (n : Net) (b : Bool) :
    ∃ t, (if b then (s.setChurn core i c).setMism core n else s.setChurn core i c) = t
      ∧ t = { s with churns := t.churns, images := t.images } ∧ ∀ k < 4, k ≠ i → t.churn core k = s.churn core k := by
  have hother : ∀ k < 4, k ≠ i → (s.setChurn core i c).churn core k = s.churn core k := fun k hk hki => by
    rw [s.churn_setChurn core i c hk, if_neg hki]
  refine ⟨_, rfl, ?_⟩
  split
  · rw [State.setMism_eq]
    exact ⟨rfl, hother⟩
  · exact ⟨rfl, hother⟩

/-- An `xop` with one destination that completes while its wave exists: its register is written, and nothing but its wave, its
churn and MISM of its slot differs (R298, R302). -/
theorem State.finishXop_spec (s : State) {core i : Nat} (n : Net) {g : ChurnImage} (v : Invocation) (j : Nat) {x : XopRec}
    (hdst : g.dst2 = false) (hwave : s.xopWave x = true) : ∃ t, s.finishXop core i n g v j x = t
      ∧ t = { s with churns := t.churns, waves := t.waves, images := t.images }
      ∧ (t.wvOf x.agent).v = (s.wvOf x.agent).v.setIfInBounds (x.regs.getD 0 0) (s.xopResult n g v.num j x)
      ∧ (∀ k, k ≠ x.agent.waveKey → findAt t.waves k = findAt s.waves k)
      ∧ ∀ k < 4, k ≠ i → t.churn core k = s.churn core k := by
  have hports : g.ports = [0] := by
    rw [ChurnImage.ports, hdst]
    rfl
  obtain ⟨honly, hv, hothers⟩ := s.writePort_spec n g v.num j x
  have honly' := honly.trans (State.onlyWaves_xopFlags _ x (v.flagsOf x j))
  simp only [State.finishXop, if_pos hwave, hports, List.foldl_cons, List.foldl_nil, State.setNet]
  obtain ⟨t, ht, hframe, hchurns⟩ := State.churn_mism_spec ((s.writePort n g v.num j x 0).xopFlags x (v.flagsOf x j))
    (core := core) (i := i) _ n _
  refine ⟨t, ht, ?_, ?_, fun k hk => ?_, fun k hk hki => (hchurns k hk hki).trans (honly'.churn core k)⟩
  · rw [hframe, honly']
  · rw [hframe]
    exact (State.v_xopFlags _ _ _).trans hv
  · rw [hframe]
    exact (State.waves_xopFlags_of_ne _ _ _ hk).trans (hothers k hk)

/-- XOP_COMPLETE of an `xop` that one churn alone holds, with one destination, while its wave exists: the `xop` of that churn
completes (R293, R298). -/
theorem exec_xopComplete_of_settled {s : State} {core i id j : Nat} {n : Net} {g : ChurnImage} {v : Invocation} {x : XopRec}
    (hi : i < 4) (hnet : (s.churn core i).net = some n) (hg : s.image core n.ctx n.slot = some g)
    (hfind : n.findXop id = some (v, j, x)) (hdst : g.dst2 = false) (hwave : s.xopWave x = true)
    (honly : ∀ k < 4, k ≠ i → ∀ m, (s.churn core k).net = some m → m.findXop id = none)
    (harrived : n.arrived g v.num j = true) (hags : n.agsDone g v.num j = true) (hsettled : n.settled g v.num j = true)
    (hreplies : s.replyCount core i = 0) :
    exec (.xopComplete core id) s = .next (s.finishXop core i n g v j x) := by
  obtain ⟨f, hexec, hskip, hfinish⟩ := exec_xopComplete_eq core id
  have hat : f s i = s.finishXop core i n g v j x := hfinish s i n g v j x hnet hg hfind harrived hags hsettled hreplies
  obtain ⟨t, ht, -, -, -, hchurns⟩ := s.finishXop_spec (core := core) (i := i) n v j hdst hwave
  have hfold : (List.range 4).foldl f s = f s i := foldl_eq_of_only List.nodup_range (List.mem_range.2 hi)
    (fun k hk hki => hskip s k (honly k (List.mem_range.1 hk) hki)) fun k hk hki => by
      rw [hat, ht]
      refine hskip t k ?_
      rw [hchurns k (List.mem_range.1 hk) hki]
      exact honly k (List.mem_range.1 hk) hki
  rw [hexec, hfold, hat]

/-! ## The obligation -/

/-- Settles O39: a step of a network and the completion of an `xop` each change one churn, and flags the waves they belong to. -/
theorem graphEventResults : Obligations.GraphEventResults := by
  unfold Obligations.GraphEventResults
  intro s core i n g hi hnet hg
  refine ⟨fun copy pos hcopy hpos hstale hfire => ?element, fun copy ep item rest hcopy hlo hhi hpend htoken hroom => ?source,
    fun ag a e xs ps v num x o word hag ha hnum hv he hx hop hstopped habandoned hover hacc hup hready halign hxlate hps ho
      hfetched hclean hword => ?generator,
    fun hparked => ?quiescence, fun hstarved hidle hreplies => ?park,
    fun id v j x hfind hdst hregs hreg honly hwave harrived hags hsettled hreplies => ?complete⟩
  case element =>
    obtain ⟨t, hexec, hframe, hchurn⟩ := exec_churnElementFire_of_step hi hnet hg hcopy (Net.step_of_canFire hpos hstale hfire) rfl
    exact ⟨t, hexec, hframe, hchurn, n.firedAt_fire g copy pos⟩
  case source =>
    obtain ⟨t, hexec, hframe, hchurn⟩ :=
      exec_churnElementFire_of_step hi hnet hg hcopy (Net.step_of_token hlo hhi hpend hroom) rfl
    exact ⟨t, _, hexec, hframe, hchurn, (Net.pendAt_send ..).trans (getAt_putAt_same ..),
      fun l hl => Net.q_send_of_token _ g copy ep htoken hl⟩
  case generator =>
    subst ha hnum hv hx ho
    obtain rfl : word = s.agRead _ ps := funext hword
    exact exec_agStep_of_read ⟨hop, hacc, hup, halign, hxlate, hps, hfetched, hclean⟩ hi hnet hg hag he hstopped habandoned hover
      hready
  case quiescence =>
    exact ⟨_, exec_quiescenceRound_of_none_parked hi hnet hparked, rfl, s.churn_setChurn_same core hi _, fun j hj hji => by
      rw [s.churn_setChurn core i _ hj, if_neg hji]⟩
  case park =>
    obtain ⟨hstop, hroom⟩ := exec_streamPark_of_starved hnet hstarved hidle hreplies
    refine ⟨fun u hnone hu => ?_, hstop⟩
    obtain ⟨t, ht, hspec⟩ := u.parked_spec (core := core) hi n
    exact ⟨t, ht ▸ hroom u hnone hu, hspec⟩
  case complete =>
    have hd : x.regs.getD 0 0 = x.regs.headD 0 := by
      rw [hregs]
      rfl
    obtain ⟨t, ht, hframe, hv, hothers, -⟩ := s.finishXop_spec (core := core) (i := i) n v j hdst hwave
    have hread : ∀ r < 128, (t.wvOf x.agent).v.toList.getD r zeroReg
        = if r = x.regs.headD 0 then s.xopResult n g v.num j x else (s.wvOf x.agent).v.toList.getD r zeroReg := fun r hr => by
      rw [hv, getD_toList_setIfInBounds _ _ _ _ hr, hd]
    refine ⟨t, ?_, hframe, fun l hl => ?_, fun r hr hne => by rw [hread r hr, if_neg hne], hothers⟩
    · rw [← ht]
      exact exec_xopComplete_of_settled hi hnet hg hfind hdst hwave honly harrived hags hsettled hreplies
    · rw [hread _ hreg, if_pos rfl, State.xopResult, laneOf_withLanes _ _ _ _ hl, hd]

end Sys2Proof.Machine
end
